-- ==== Sys2Proof/Word.lean ====
section
/-!
DEFINITION. The word types of the ZH-7160 and the names its commands and registers are indexed by.

The widths are those of chapters 00, 01, 06 and 07 of spec/; the index types carry the counts the spec gives
(160 cores, 256 Spinner threads, 25 islands, 80 checked groups and so on), so that no index out of range can be
written down.
-/

namespace Sys2Proof

/-- A byte of memory (R140). -/
abbrev Byte := BitVec 8

/-- A 64-bit word: a CSR (R3), a general register (R141), a doubleword of memory. -/
abbrev Word := BitVec 64

/-- A 48-bit physical address (R19). -/
abbrev PA := BitVec 48

/-- A SIMD register of 256 bits (chapter 06, its registers). -/
abbrev QWord := BitVec 256

/-- A cache line or HBM burst of 64 bytes, byte 0 in the low bits (R282, R394). -/
abbrev LineData := BitVec 512

/-- A core, C(c) (R15). -/
abbrev CoreId := Fin 160
/-- A Spinner thread 8n + k: thread k of Spinner n (R16, R460). -/
abbrev ThreadId := Fin 256
/-- A power island (R63). -/
abbrev IslandId := Fin 25
/-- A compare unit (R107). -/
abbrev CmpId := Fin 512
/-- A Reeve mailbox slot (R127). -/
abbrev SlotId := Fin 32
/-- A Cocoon mailbox slot (R524). -/
abbrev MbxId := Fin 16
/-- A checked group (R333). -/
abbrev GroupId := Fin 80
/-- An interrupt source (R370). -/
abbrev IcSource := Fin 12288
/-- An interrupt target (R372). -/
abbrev IcTarget := Fin 322
/-- An HBM pseudo channel (R389). -/
abbrev PcId := Fin 64
/-- An HBM stack (R389). -/
abbrev StackId := Fin 4
/-- An LLC slice or tile (R15). -/
abbrev LlcId := Fin 80
/-- A mirror region (R411). -/
abbrev MirId := Fin 8
/-- A Granary bank (R417). -/
abbrev BankId := Fin 64
/-- A port 8n + i of port macro n (R433). -/
abbrev PortId := Fin 256
/-- A port macro of the lane class, 28 to 31, counted from 0 (R433, R447). -/
abbrev LaneMacro := Fin 4
/-- A FRER stream of a lane macro (R453). -/
abbrev StreamId := Fin 32
/-- A frame-port DMA channel (R494). -/
abbrev DmaId := Fin 256
/-- A queue 1024 e + q of queue engine e (R482). -/
abbrev QueueId := Fin 8192
/-- A firewall: 0 to 64 as FW f, 65 to 128 the Granary banks' (R530). -/
abbrev FwId := Fin 129
/-- An error-reporting unit (R600). -/
abbrev UnitId := Fin 256
/-- An error record of a unit (R601). -/
abbrev RecId := Fin 4
/-- A land group whose function is owned (R38). -/
abbrev LandId := Fin 20

/-- A register number of a Tally core (R116). -/
abbrev TReg := BitVec 4
/-- A register number of a ZIS instruction: 0..7 are g, 8..15 x, 16..23 v, 24..31 y; in a SIMD field q0..q31 (R141). -/
abbrev Reg5 := BitVec 5
/-- A condition code (R163). -/
abbrev Cond := BitVec 4
/-- The element type field of a SIMD or floating-point instruction (R186). -/
abbrev VTy := BitVec 3

/-- Who issues a CSR request: a named requester with its source identifier (R38). -/
inductive Src where
  | core (c : CoreId)
  | thread (t : ThreadId)
  | reeve
  | cocoon
  | jtag
  | svc
  | sink
  | dma (d : DmaId)
  | group (g : GroupId)
  deriving DecidableEq, Repr

/-- What executes a ZIS instruction: a core or a Spinner thread (R460, R463). -/
inductive Agent where
  | core (c : CoreId)
  | thread (t : ThreadId)
  deriving DecidableEq, Repr

/-- The two Tally cores: the Reeve's and the Cocoon's (R112, R516). -/
inductive TallyCpu where
  | reeve
  | cocoon
  deriving DecidableEq, Repr

/-- Anything that can meet an illegal encoding (R118, R146, R160). -/
inductive AnyAgent where
  | zis (a : Agent)
  | tally (cpu : TallyCpu)
  deriving DecidableEq, Repr

/-- The kind of a memory access, as translation and the firewalls see it (R266, R531). -/
inductive Access where
  | fetch
  | load
  | store
  deriving DecidableEq, Repr

/-- The kind of a line request (R288). -/
inductive LineKind where
  | fetch
  | load
  | store
  deriving DecidableEq, Repr

/-- The atomics that read and write a word: `swp`, `ldadd`, `ldand` and `ldor` (R183, R419). -/
inductive AtomOp where
  | swp | add | and | or
  deriving DecidableEq, Repr

/-- The access that the other port of a Granary bank presents in the same step (R419, R420): who, where, how many bytes,
whether it writes, its data, and the atomic that it is; and the atomic that the access granted first is, `lead`. -/
structure GranaryPartner where
  src   : Src
  addr  : PA
  size  : Nat
  write : Bool
  data  : BitVec 256
  op    : Option AtomOp := none
  lead  : Option AtomOp := none
  deriving DecidableEq, Repr

/-- What a port receives as one character, as it stands at the lands: in an Ethernet mode a byte, in the low 8 bits; in RS-485
ASYNC the levels of the character, bit 0 the start bit, then the data bits least significant first, the parity bit if there is
one, and the stop bits; in MANCH a byte in the low 8 bits, bit 12 that it frames only when inverted; in RAW the level of a bit
time in bit 0 (R441, R443, R477). -/
abbrev LineChar := BitVec 13

/-- A byte that an SMBus host sends, and the packet error code behind it, if it sends one (R459). -/
structure PecByte where
  data : Byte
  pec  : Option Byte := none
  deriving DecidableEq, Repr

/-- The address forms of a ZIS load or store that name a base (R169). -/
inductive MemMode where
  | disp (short : Bool) (b : Reg5) (d : BitVec 12)
  | index (b i : Reg5) (s : BitVec 2)
  | postInc (short : Bool) (b : Reg5)
  | preDec (short : Bool) (b : Reg5)
  deriving DecidableEq, Repr

end Sys2Proof
end

