-- ==== Sys2Proof/Syntax.lean ====
section
/-!
DEFINITION. The commands of the block: one constructor per row of spec/opcode_table.json, in the table's order.

Each constructor carries the operands its row has.  What the block cannot know by itself (a reading, the bytes of a
frame that arrives, which cells of a memory were upset, the outcome of an outside event) is an operand too.  A CSR
command names the requester that sends it (`src`) and the value written (`v`); the unit it addresses is an index.
-/
namespace Sys2Proof

/-- An instant: whole cycles of domain T that pass first, and the part of the next one, in units of 2^-32 (R101). -/
structure EdgeTime where
  cycles : Nat
  part   : BitVec 32
  deriving DecidableEq, Repr

/-- What a port makes of a frame's bits: its FCS is bad, and the FEC codewords or blocks of a lane that were corrected and
that could not be (R439, R447). -/
structure RxVerdict where
  bad  : Bool
  corr : BitVec 8
  unc  : BitVec 8
  deriving DecidableEq, Repr

/-- The commands, one constructor per row of the opcode table. -/
inductive Instr where
  /-- REGISTER_WRITE (R5). -/
  | registerWrite (src : Src) (addr : PA) (v : Word)
  /-- XGATE_WRITE (R10). -/
  | xgateWrite (src : Src) (addr : PA) (v : Word)
  /-- LAND_OWNERSHIP_WRITE (R39). -/
  | landOwnershipWrite (src : Src) (n : LandId) (v : Word)
  /-- STANDBY_RISE (R34). -/
  | standbyRise (bootSel : BitVec 2)
  /-- POWER_ON (R50). -/
  | powerOn (longLoss : Bool)
  /-- INPUT_REVERSAL (R45). -/
  | inputReversal
  /-- INPUT_STOP_FALL (R48). -/
  | inputStopFall
  /-- INPUT_RECOVERY (R48). -/
  | inputRecovery
  /-- DEGLITCH_EXPIRY (R48). -/
  | deglitchExpiry
  /-- OVERVOLTAGE_ONSET (R44). -/
  | overvoltageOnset
  /-- OVERVOLTAGE_FALL (R46). -/
  | overvoltageFall
  /-- OVERVOLTAGE_TIMER_EXPIRY (R46). -/
  | overvoltageTimerExpiry
  /-- PFW_380US_POINT (R49). -/
  | pfw380usPoint
  /-- STORE_BELOW_40V (R49). -/
  | storeBelow40v
  /-- STANDBY_SUPPLY_LOSS (R50). -/
  | standbySupplyLoss
  /-- HOLDUP_STORE_FULL (R47). -/
  | holdupStoreFull
  /-- RESET_N_ASSERT (R585). -/
  | resetNAssert (hottest : Int)
  /-- RESET_N_RELEASE (R585). -/
  | resetNRelease
  /-- COCOON_BOOT (R520). -/
  | cocoonBoot (flash0 flash1 : List Byte) (trngOk : Bool)
  /-- REEVE_IMAGE_VERIFY (R521). -/
  | reeveImageVerify (flash0 flash1 : List Byte)
  /-- RAIL_BRING_UP (R589). -/
  | railBringUp (fail : Nat)
  /-- HBM_TRAINING (R589). -/
  | hbmTraining (failStacks : BitVec 4)
  /-- CORE_FIRMWARE_LOAD (R597). -/
  | coreFirmwareLoad (flash0 flash1 : List Byte)
  /-- CORE_RELEASE (R597). -/
  | coreRelease (src : Src) (k : Fin 3) (v : Word)
  /-- RATE_WINDOW_END (R627). -/
  | rateWindowEnd (counts : List Nat) (tj : List Int) (vin p1ms p10ms : Nat) (moves : List Int)
  /-- LOCK_WINDOW_END (R627). -/
  | lockWindowEnd (counts : List Nat) (moves : List Int)
  /-- THERMAL_CAP_LIFT (R84). -/
  | thermalCapLift (crit : Bool)
  /-- POWER_CAP_LIFT (R85). -/
  | powerCapLift
  /-- HARDWARE_TRIP (R84). -/
  | hardwareTrip
  /-- VSET_WRITE (R66). -/
  | vsetWrite (src : Src) (j : IslandId) (v : Word)
  /-- RCTL_WRITE (R66). -/
  | rctlWrite (src : Src) (j : IslandId) (v : Word)
  /-- THERM_WRITE (R628). -/
  | thermWrite (src : Src) (v : Word)
  /-- HOLD_WRITE (R80). -/
  | holdWrite (src : Src) (granary : Bool) (v : Word)
  /-- HOLD_NOTICE_EXPIRY (R83). -/
  | holdNoticeExpiry
  /-- ENTRY_COMMIT (R76). -/
  | entryCommit (j : IslandId)
  /-- RETENTION_REACHED (R72). -/
  | retentionReached (j : IslandId)
  /-- EXIT_RESTORE_DONE (R77). -/
  | exitRestoreDone (j : IslandId)
  /-- GATED_EXIT_DONE (R78). -/
  | gatedExitDone (j : IslandId)
  /-- SECSET_WRITE (R97). -/
  | secsetWrite (src : Src) (v : Word)
  /-- SECONDS_LOAD (R97). -/
  | secondsLoad
  /-- SLEW (R98). -/
  | slew (src : Src) (v : Word)
  /-- SLEW_DONE (R98). -/
  | slewDone
  /-- IMMEDIATE_STEP (R99). -/
  | immediateStep (src : Src) (v : Word)
  /-- ADDEND_WRITE (R100). -/
  | addendWrite (src : Src) (v : Word)
  /-- TB_CTL_WRITE (R104). -/
  | tbCtlWrite (src : Src) (v : Word)
  /-- REFCLK_LOSS (R93). -/
  | refclkLoss
  /-- PPS_IN_EDGE (R101). -/
  | ppsInEdge (time : EdgeTime) (rising : Bool)
  /-- PPS_LOST_EXPIRY (R101). -/
  | ppsLostExpiry
  /-- PPS_OUT_START (R103). -/
  | ppsOutStart
  /-- PPS_OUT_END (R103). -/
  | ppsOutEnd
  /-- COMPARE_OWN_WRITE (R107). -/
  | compareOwnWrite (src : Src) (n : CmpId) (v : Word)
  /-- COMPARE_TARGET_WRITE (R108). -/
  | compareTargetWrite (src : Src) (n : CmpId) (v : Word)
  /-- COMPARE_CTL_WRITE (R108). -/
  | compareCtlWrite (src : Src) (n : CmpId) (v : Word)
  /-- COMPARE_FIRE (R108). -/
  | compareFire (n : CmpId)
  /-- LOCKSTEP_MISMATCH (R113). -/
  | lockstepMismatch
  /-- TALLY_EVENT_ENTRY (R123). -/
  | tallyEventEntry (cpu : TallyCpu)
  /-- TALLY_MOV (R117). -/
  | tallyMov (cpu : TallyCpu) (d r : TReg)
  /-- TALLY_ADD (R117). -/
  | tallyAdd (cpu : TallyCpu) (d r : TReg)
  /-- TALLY_SUB (R117). -/
  | tallySub (cpu : TallyCpu) (d r : TReg)
  /-- TALLY_CMP (R117). -/
  | tallyCmp (cpu : TallyCpu) (d r : TReg)
  /-- TALLY_AND (R117). -/
  | tallyAnd (cpu : TallyCpu) (d r : TReg)
  /-- TALLY_OR (R117). -/
  | tallyOr (cpu : TallyCpu) (d r : TReg)
  /-- TALLY_XOR (R117). -/
  | tallyXor (cpu : TallyCpu) (d r : TReg)
  /-- TALLY_TST (R117). -/
  | tallyTst (cpu : TallyCpu) (d r : TReg)
  /-- TALLY_SHL (R117). -/
  | tallyShl (cpu : TallyCpu) (d r : TReg)
  /-- TALLY_SHR (R117). -/
  | tallyShr (cpu : TallyCpu) (d r : TReg)
  /-- TALLY_SAR (R117). -/
  | tallySar (cpu : TallyCpu) (d r : TReg)
  /-- TALLY_MUL (R117). -/
  | tallyMul (cpu : TallyCpu) (d r : TReg)
  /-- TALLY_MULHU (R117). -/
  | tallyMulhu (cpu : TallyCpu) (d r : TReg)
  /-- TALLY_ADC (R117). -/
  | tallyAdc (cpu : TallyCpu) (d r : TReg)
  /-- TALLY_SBC (R117). -/
  | tallySbc (cpu : TallyCpu) (d r : TReg)
  /-- TALLY_CLZ (R117). -/
  | tallyClz (cpu : TallyCpu) (d r : TReg)
  /-- TALLY_MOVI (R119). -/
  | tallyMovi (cpu : TallyCpu) (d : TReg) (imm6 : BitVec 6)
  /-- TALLY_ADDI (R119). -/
  | tallyAddi (cpu : TallyCpu) (d : TReg) (imm6 : BitVec 6)
  /-- TALLY_CMPI (R119). -/
  | tallyCmpi (cpu : TallyCpu) (d : TReg) (imm6 : BitVec 6)
  /-- TALLY_ANDI (R119). -/
  | tallyAndi (cpu : TallyCpu) (d : TReg) (imm6 : BitVec 6)
  /-- LD (R117). -/
  | ld (cpu : TallyCpu) (d b : TReg)
  /-- ST (R117). -/
  | st (cpu : TallyCpu) (d b : TReg)
  /-- LDP (R117). -/
  | ldp (cpu : TallyCpu) (d b : TReg)
  /-- STP (R117). -/
  | stp (cpu : TallyCpu) (d b : TReg)
  /-- PREFIX (R119). -/
  | tallyPrefix (cpu : TallyCpu) (payload : BitVec 12)
  /-- TALLY_BRANCH (R120). -/
  | tallyBranch (cpu : TallyCpu) (cond : Cond) (disp6 : BitVec 6)
  /-- TALLY_JUMP (R120). -/
  | tallyJump (cpu : TallyCpu) (link : Bool) (disp9 : BitVec 9)
  /-- TALLY_JR (R121). -/
  | tallyJr (cpu : TallyCpu) (r : TReg)
  /-- JLR (R121). -/
  | jlr (cpu : TallyCpu) (r : TReg)
  /-- RETI (R121). -/
  | reti (cpu : TallyCpu)
  /-- MFX (R121). -/
  | mfx (cpu : TallyCpu) (r : TReg)
  /-- MTX (R121). -/
  | mtx (cpu : TallyCpu) (r : TReg)
  /-- TALLY_WAIT (R121). -/
  | tallyWait (cpu : TallyCpu) (r : TReg)
  /-- TALLY_WAIT_WAKE (R125). -/
  | tallyWaitWake (cpu : TallyCpu)
  /-- FENCE (R121). -/
  | fence (cpu : TallyCpu)
  /-- MBQ_READ (R126). -/
  | mbqRead (cpu : TallyCpu)
  /-- MAILBOX_TAKE (R129). -/
  | mailboxTake (v : BitVec 32)
  /-- MAILBOX_COMPLETE (R130). -/
  | mailboxComplete (v : BitVec 32)
  /-- EVENT_ACK (R124). -/
  | eventAck (cpu : TallyCpu) (v : BitVec 32)
  /-- PLOAD_DATA (R115). -/
  | ploadData (v : BitVec 32)
  /-- PLOCK_SET (R115). -/
  | plockSet (v : BitVec 32)
  /-- SLOT_OWN_WRITE (R127). -/
  | slotOwnWrite (src : Src) (m : SlotId) (v : Word)
  /-- SERVICE_DOORBELL (R128). -/
  | serviceDoorbell (src : Src) (m : SlotId) (v : Word)
  /-- SERVICE_TIMEOUT (R129). -/
  | serviceTimeout (m : SlotId)
  /-- VERSION (R133). -/
  | version (m : SlotId)
  /-- SET_POINT (R68). -/
  | setPoint (m : SlotId)
  /-- RETAIN (R74). -/
  | retain (m : SlotId)
  /-- GATE (R74). -/
  | gate (m : SlotId)
  /-- WAKE (R133). -/
  | wake (m : SlotId)
  /-- STANDBY (R88). -/
  | standby (m : SlotId)
  /-- PFLOG_CLEAR (R89). -/
  | pflogClear (m : SlotId)
  /-- STACK_DOWN (R400). -/
  | stackDown (m : SlotId)
  /-- STACK_UP (R400). -/
  | stackUp (m : SlotId) (pass : Bool) (summary : Word)
  /-- BANK_RETAIN (R428). -/
  | bankRetain (m : SlotId)
  /-- BANK_WAKE (R429). -/
  | bankWake (m : SlotId)
  /-- COCOON_RESET (R540). -/
  | cocoonReset (m : SlotId) (flash0 flash1 : List Byte) (trngOk : Bool)
  /-- LOAD_EXT (R135). -/
  | loadExt (m : SlotId)
  /-- UNLOAD_EXT (R133). -/
  | unloadExt (m : SlotId)
  /-- EXTENSION_SERVICE (R136). -/
  | extensionService (m : SlotId)
  /-- BAD_SERVICE (R133). -/
  | badService (m : SlotId)
  /-- EXT_HANDLER_OVERRUN (R136). -/
  | extHandlerOverrun
  /-- MOV (R148). -/
  | mov (a : Agent) (rd rs : Reg5)
  /-- MOV_OUT (R148). -/
  | movOut (a : Agent) (rd rs : Reg5)
  /-- MOV_IN (R148). -/
  | movIn (a : Agent) (rd rs : Reg5)
  /-- ADD (R179). -/
  | add (a : Agent) (short w : Bool) (rd ra rb : Reg5)
  /-- SUB (R179). -/
  | sub (a : Agent) (short w : Bool) (rd ra rb : Reg5)
  /-- ADC (R179). -/
  | adc (a : Agent) (short w : Bool) (rd ra rb : Reg5)
  /-- SBC (R179). -/
  | sbc (a : Agent) (short w : Bool) (rd ra rb : Reg5)
  /-- CMP (R179). -/
  | cmp (a : Agent) (short w : Bool) (ra rb : Reg5)
  /-- NEG (R179). -/
  | neg (a : Agent) (short w : Bool) (rd rb : Reg5)
  /-- AND (R179). -/
  | and (a : Agent) (short : Bool) (rd ra rb : Reg5)
  /-- OR (R179). -/
  | or (a : Agent) (short : Bool) (rd ra rb : Reg5)
  /-- XOR (R179). -/
  | xor (a : Agent) (short : Bool) (rd ra rb : Reg5)
  /-- ANDN (R179). -/
  | andn (a : Agent) (short : Bool) (rd ra rb : Reg5)
  /-- TST (R179). -/
  | tst (a : Agent) (short : Bool) (ra rb : Reg5)
  /-- NOT (R179). -/
  | not (a : Agent) (short : Bool) (rd rb : Reg5)
  /-- SHL (R179). -/
  | shl (a : Agent) (short w : Bool) (rd ra rb : Reg5)
  /-- SHR (R179). -/
  | shr (a : Agent) (short w : Bool) (rd ra rb : Reg5)
  /-- SAR (R179). -/
  | sar (a : Agent) (short w : Bool) (rd ra rb : Reg5)
  /-- MUL (R179). -/
  | mul (a : Agent) (short w : Bool) (rd ra rb : Reg5)
  /-- MULHS (R179). -/
  | mulhs (a : Agent) (rd ra rb : Reg5)
  /-- MULHU (R179). -/
  | mulhu (a : Agent) (rd ra rb : Reg5)
  /-- DIV (R181). -/
  | div (a : Agent) (w : Bool) (rd ra rb : Reg5)
  /-- DIVU (R181). -/
  | divu (a : Agent) (w : Bool) (rd ra rb : Reg5)
  /-- REM (R181). -/
  | rem (a : Agent) (w : Bool) (rd ra rb : Reg5)
  /-- REMU (R181). -/
  | remu (a : Agent) (w : Bool) (rd ra rb : Reg5)
  /-- CLZ (R180). -/
  | clz (a : Agent) (w : Bool) (rd ra : Reg5)
  /-- CTZ (R180). -/
  | ctz (a : Agent) (w : Bool) (rd ra : Reg5)
  /-- POPC (R179). -/
  | popc (a : Agent) (w : Bool) (rd ra : Reg5)
  /-- REV (R180). -/
  | rev (a : Agent) (w : Bool) (rd ra : Reg5)
  /-- CSEL (R182). -/
  | csel (a : Agent) (cond : Cond) (rd ra rb : Reg5)
  /-- MFFL (R182). -/
  | mffl (a : Agent) (rd : Reg5)
  /-- MTFL (R182). -/
  | mtfl (a : Agent) (ra : Reg5)
  /-- MOVI (R155). -/
  | movi (a : Agent) (short : Bool) (rd : Reg5) (imm : BitVec 16)
  /-- MOVP1 (R155). -/
  | movp1 (a : Agent) (rd : Reg5) (imm : BitVec 16)
  /-- MOVP2 (R155). -/
  | movp2 (a : Agent) (rd : Reg5) (imm : BitVec 16)
  /-- MOVP3 (R155). -/
  | movp3 (a : Agent) (rd : Reg5) (imm : BitVec 16)
  /-- ADDI (R154). -/
  | addi (a : Agent) (short : Bool) (rd ra : Reg5) (imm : BitVec 12)
  /-- ADDI16 (R155). -/
  | addi16 (a : Agent) (rd : Reg5) (imm : BitVec 16)
  /-- CMPI (R154). -/
  | cmpi (a : Agent) (short : Bool) (ra : Reg5) (imm : BitVec 12)
  /-- ANDI (R154). -/
  | andi (a : Agent) (short : Bool) (rd ra : Reg5) (imm : BitVec 12)
  /-- ORI (R154). -/
  | ori (a : Agent) (rd ra : Reg5) (imm : BitVec 12)
  /-- XORI (R154). -/
  | xori (a : Agent) (rd ra : Reg5) (imm : BitVec 12)
  /-- SHLI (R154). -/
  | shli (a : Agent) (rd ra : Reg5) (sh : BitVec 6)
  /-- SHRI (R154). -/
  | shri (a : Agent) (rd ra : Reg5) (sh : BitVec 6)
  /-- SARI (R154). -/
  | sari (a : Agent) (rd ra : Reg5) (sh : BitVec 6)
  /-- LEA (R154). -/
  | lea (a : Agent) (rd ra : Reg5) (imm : BitVec 12)
  /-- MULI (R154). -/
  | muli (a : Agent) (rd ra : Reg5) (imm : BitVec 12)
  /-- ADR (R155). -/
  | adr (a : Agent) (rd : Reg5) (imm : BitVec 16)
  /-- LDPC (R155). -/
  | ldpc (a : Agent) (short : Bool) (rd : Reg5) (imm : BitVec 16)
  /-- LDPCW (R155). -/
  | ldpcw (a : Agent) (rd : Reg5) (imm : BitVec 16)
  /-- FLDPC (R155). -/
  | fldpc (a : Agent) (qd : Reg5) (imm : BitVec 16)
  /-- ADDSP (R152). -/
  | addsp (a : Agent) (imm : BitVec 9)
  /-- NOP (R152). -/
  | nop (a : Agent)
  /-- LDBU (R157). -/
  | ldbu (a : Agent) (rt : Reg5) (m : MemMode)
  /-- LDBS (R157). -/
  | ldbs (a : Agent) (rt : Reg5) (m : MemMode)
  /-- LDHU (R157). -/
  | ldhu (a : Agent) (rt : Reg5) (m : MemMode)
  /-- LDHS (R157). -/
  | ldhs (a : Agent) (rt : Reg5) (m : MemMode)
  /-- LDWU (R157). -/
  | ldwu (a : Agent) (rt : Reg5) (m : MemMode)
  /-- LDWS (R157). -/
  | ldws (a : Agent) (rt : Reg5) (m : MemMode)
  /-- LDD (R157). -/
  | ldd (a : Agent) (rt : Reg5) (m : MemMode)
  /-- STB (R157). -/
  | stb (a : Agent) (rt : Reg5) (m : MemMode)
  /-- STH (R157). -/
  | sth (a : Agent) (rt : Reg5) (m : MemMode)
  /-- STW (R157). -/
  | stw (a : Agent) (rt : Reg5) (m : MemMode)
  /-- STD (R157). -/
  | std (a : Agent) (rt : Reg5) (m : MemMode)
  /-- FLW (R157). -/
  | flw (a : Agent) (rt : Reg5) (m : MemMode)
  /-- FSW (R157). -/
  | fsw (a : Agent) (rt : Reg5) (m : MemMode)
  /-- FLD (R157). -/
  | fld (a : Agent) (rt : Reg5) (m : MemMode)
  /-- FSD (R157). -/
  | fsd (a : Agent) (rt : Reg5) (m : MemMode)
  /-- VLD (R157). -/
  | vld (a : Agent) (rt : Reg5) (m : MemMode)
  /-- VST (R157). -/
  | vst (a : Agent) (rt : Reg5) (m : MemMode)
  /-- LL (R327). -/
  | ll (a : Agent) (rt rb : Reg5)
  /-- SC (R327). -/
  | sc (a : Agent) (rt ri rb : Reg5)
  /-- SWP (R183). -/
  | swp (a : Agent) (rt ri rb : Reg5)
  /-- LDADD (R183). -/
  | ldadd (a : Agent) (rt ri rb : Reg5)
  /-- LDAND (R183). -/
  | ldand (a : Agent) (rt ri rb : Reg5)
  /-- LDOR (R183). -/
  | ldor (a : Agent) (rt ri rb : Reg5)
  /-- BCC (R158). -/
  | bcc (a : Agent) (short : Bool) (cond : Cond) (disp : BitVec 18)
  /-- BCC_DELAYED (R165). -/
  | bccDelayed (a : Agent) (cond : Cond) (annul : Bool) (disp : BitVec 18) (slotShort : Bool)
  /-- JMP (R158). -/
  | jmp (a : Agent) (disp : BitVec 24)
  /-- CALL (R196). -/
  | call (a : Agent) (disp : BitVec 24)
  /-- CALLR (R184). -/
  | callr (a : Agent) (ra : Reg5)
  /-- JR (R158). -/
  | jr (a : Agent) (short : Bool) (ra : Reg5)
  /-- RET (R196). -/
  | ret (a : Agent) (short : Bool)
  /-- LBAR (R316). -/
  | lbar (a : Agent) (short : Bool)
  /-- SBAR (R316). -/
  | sbar (a : Agent) (short : Bool)
  /-- FBAR (R316). -/
  | fbar (a : Agent) (short : Bool)
  /-- TRAP (R242). -/
  | trap (a : Agent) (short : Bool) (n : BitVec 8)
  /-- ERET (R248). -/
  | eret (a : Agent)
  /-- PARK (R252). -/
  | park (a : Agent)
  /-- PARK_WAKE (R252). -/
  | parkWake (c : CoreId)
  /-- MFS (R239). -/
  | mfs (a : Agent) (rd : Reg5) (csn : BitVec 12)
  /-- MTS (R240). -/
  | mts (a : Agent) (csn : BitVec 12) (ra : Reg5)
  /-- WIN_WRITE (R195). -/
  | winWrite (c : CoreId) (h : Bool) (v : Word)
  /-- WSAVE_WRITE (R205). -/
  | wsaveWrite (c : CoreId) (v : Word)
  /-- WCTX_WRITE (R205). -/
  | wctxWrite (c : CoreId) (v : Word)
  /-- EVICT_CTX (R209). -/
  | evictCtx (c : CoreId) (v : Word)
  /-- DISCARD_CTX (R209). -/
  | discardCtx (c : CoreId) (v : Word)
  /-- EVICT_ALL (R209). -/
  | evictAll (c : CoreId) (v : Word)
  /-- WENG_WRITE_FRAME (R211). -/
  | wengWriteFrame (c : CoreId) (v : Word)
  /-- WENG_READ_FRAME (R211). -/
  | wengReadFrame (c : CoreId) (v : Word)
  /-- WINDOW_EXCHANGE (R206). -/
  | windowExchange (c : CoreId)
  /-- DEFER_EXPIRY (R250). -/
  | deferExpiry (c : CoreId)
  /-- BPKEY_WRITE (R224). -/
  | bpkeyWrite (c : CoreId) (v : Word)
  /-- BPKEY_FLUSH (R224). -/
  | bpkeyFlush (c : CoreId) (v : Word)
  /-- BRANCH_MISPREDICT (R220). -/
  | branchMispredict (c : CoreId)
  /-- STORE_PERFORM (R322). -/
  | storePerform (c : CoreId) (i : Nat)
  /-- INTERRUPT_ACCEPT (R249). -/
  | interruptAccept (c : CoreId)
  /-- MACHINE_CHECK_ENTRY (R254). -/
  | machineCheckEntry (c : CoreId)
  /-- RESERVATION_HOLD_EXPIRY (R332). -/
  | reservationHoldExpiry (c : CoreId)
  /-- TRANSLATION_WALK (R268). -/
  | translationWalk (c : CoreId) (ea : Word) (acc : Access) (speculative : Bool)
  /-- TLBI_ALL (R275). -/
  | tlbiAll (a : Agent) (broadcast : Bool) (ra : Reg5)
  /-- TLBI_GUEST (R275). -/
  | tlbiGuest (a : Agent) (broadcast : Bool) (ra : Reg5)
  /-- TLBI_IPA (R275). -/
  | tlbiIpa (a : Agent) (broadcast : Bool) (ra : Reg5)
  /-- TLBI_H_ALL (R275). -/
  | tlbiHAll (a : Agent) (broadcast : Bool) (ra : Reg5)
  /-- TLBI_H_VA (R275). -/
  | tlbiHVa (a : Agent) (broadcast : Bool) (ra : Reg5)
  /-- TLBI_S_ALL (R275). -/
  | tlbiSAll (a : Agent) (broadcast : Bool) (ra : Reg5)
  /-- TLBI_ASID (R275). -/
  | tlbiAsid (a : Agent) (broadcast : Bool) (ra : Reg5)
  /-- TLBI_VA (R275). -/
  | tlbiVa (a : Agent) (broadcast : Bool) (ra : Reg5)
  /-- TLBI_VA_ALLASID (R275). -/
  | tlbiVaAllasid (a : Agent) (broadcast : Bool) (ra : Reg5)
  /-- TLBI_DELIVERY (R277). -/
  | tlbiDelivery (c : CoreId)
  /-- I_INV (R300). -/
  | iInv (a : Agent) (broadcast : Bool) (ra : Reg5)
  /-- I_INV_ALL (R300). -/
  | iInvAll (a : Agent) (ra : Reg5)
  /-- D_INV_L1 (R300). -/
  | dInvL1 (a : Agent) (ra : Reg5)
  /-- CLEAN_L2 (R300). -/
  | cleanL2 (a : Agent) (ra : Reg5)
  /-- CINV_L2 (R300). -/
  | cinvL2 (a : Agent) (ra : Reg5)
  /-- INV_L2 (R300). -/
  | invL2 (a : Agent) (ra : Reg5)
  /-- CLEAN_LLC (R300). -/
  | cleanLlc (a : Agent) (ra : Reg5)
  /-- CINV_LLC (R300). -/
  | cinvLlc (a : Agent) (ra : Reg5)
  /-- INV_LLC (R300). -/
  | invLlc (a : Agent) (ra : Reg5)
  /-- D_INV_SW (R301). -/
  | dInvSw (a : Agent) (ra : Reg5)
  /-- I_INV_SW (R301). -/
  | iInvSw (a : Agent) (ra : Reg5)
  /-- CLEAN_SW_L2 (R301). -/
  | cleanSwL2 (a : Agent) (ra : Reg5)
  /-- CINV_SW_L2 (R301). -/
  | cinvSwL2 (a : Agent) (ra : Reg5)
  /-- INV_SW_L2 (R301). -/
  | invSwL2 (a : Agent) (ra : Reg5)
  /-- CLEAN_SW_LLC (R301). -/
  | cleanSwLlc (a : Agent) (ra : Reg5)
  /-- CINV_SW_LLC (R301). -/
  | cinvSwLlc (a : Agent) (ra : Reg5)
  /-- INV_SW_LLC (R301). -/
  | invSwLlc (a : Agent) (ra : Reg5)
  /-- D_INV_ALL (R300). -/
  | dInvAll (a : Agent) (ra : Reg5)
  /-- LINE_REQUEST (R288). -/
  | lineRequest (src : Src) (line : PA) (kind : LineKind) (victim : Nat)
  /-- PREFETCH_REQUEST (R297). -/
  | prefetchRequest (c : CoreId) (l2 : Bool) (det : Nat)
  /-- LLC_OFFER (R296). -/
  | llcOffer (c : CoreId) (line : PA)
  /-- L2_DISABLE (R304). -/
  | l2Disable (c : CoreId) (v : Word)
  /-- L2_ENABLE (R306). -/
  | l2Enable (c : CoreId) (v : Word)
  /-- L2_SWEEP_END (R304). -/
  | l2SweepEnd (c : CoreId)
  /-- ALLOC_DISABLE (R309). -/
  | allocDisable (src : Src) (t : LlcId) (v : Word)
  /-- ALLOC_ENABLE (R309). -/
  | allocEnable (src : Src) (t : LlcId) (v : Word)
  /-- LLC_SWEEP_END (R309). -/
  | llcSweepEnd (t : LlcId)
  /-- SECFLUSH_GO (R309). -/
  | secflushGo (src : Src) (t : LlcId) (v : Word)
  /-- SECFLUSH_DONE (R309). -/
  | secflushDone (t : LlcId)
  /-- GROUP_DEF_WRITE (R336). -/
  | groupDefWrite (src : Src) (g : GroupId) (v : Word)
  /-- FORM (R338). -/
  | form (src : Src) (g : GroupId) (v : Word)
  /-- FORM_COPY_DONE (R338). -/
  | formCopyDone (g : GroupId)
  /-- DISSOLVE (R340). -/
  | dissolve (src : Src) (g : GroupId) (v : Word)
  /-- ADMIT (R341). -/
  | groupAdmit (src : Src) (g : GroupId) (v : Word)
  /-- DIGEST_ARRIVAL (R355). -/
  | digestArrival (c : CoreId)
  /-- DLIMIT_EXPIRY (R355). -/
  | dlimitExpiry (g : GroupId)
  /-- INSTAR_CONFIRM (R354). -/
  | instarConfirm (g : GroupId)
  /-- FOLD_DRAIN (R348). -/
  | foldDrain (g : GroupId) (i : Nat)
  /-- QUARANTINE_RESYNC (R358). -/
  | quarantineResync (g : GroupId)
  /-- CUT_POINT (R344). -/
  | cutPoint (g : GroupId)
  /-- EXTERNAL_OP (R349). -/
  | externalOp (g : GroupId)
  /-- SOURCE_INPUT_CHANGE (R371). -/
  | sourceInputChange (n : IcSource)
  /-- SOURCE_EVENT (R371). -/
  | sourceEvent (n : IcSource)
  /-- CLAIM (R377). -/
  | claim (src : Src) (t : IcTarget)
  /-- COMPLETE (R379). -/
  | complete (src : Src) (t : IcTarget) (v : Word)
  /-- TARGET_CTL_WRITE (R382). -/
  | targetCtlWrite (src : Src) (t : IcTarget) (v : Word)
  /-- SOURCE_CONFIG_WRITE (R373). -/
  | sourceConfigWrite (src : Src) (n : IcSource) (v : Word)
  /-- SWI_SET (R370). -/
  | swiSet (src : Src) (v : Word)
  /-- INTERLEAVE_WRITE (R391). -/
  | interleaveWrite (src : Src) (v : Word)
  /-- SETSTATE_TRAIN (R392). -/
  | setstateTrain (src : Src) (p : PcId) (v : Word)
  /-- SETSTATE_RUN (R392). -/
  | setstateRun (src : Src) (p : PcId) (v : Word)
  /-- HBM_REQUEST (R395). -/
  | hbmRequest (src : Src) (line : PA) (write : Bool) (data : BitVec 512) (upsets : List (BitVec 288))
  /-- PAGE_TIMEOUT (R397). -/
  | pageTimeout (p : PcId) (bank : Fin 48)
  /-- REFRESH_DUE (R398). -/
  | refreshDue (p : PcId) (sid : Fin 3) (waiting : Bool)
  /-- STACK_TEMP_POLL (R398). -/
  | stackTempPoll (st : StackId) (temp : Int)
  /-- RANK_IDLE (R399). -/
  | rankIdle (p : PcId) (sid : Fin 3)
  /-- PATROL_SCRUB_READ (R409). -/
  | patrolScrubRead (p : PcId) (upsets : List (BitVec 288))
  /-- ECC_WRITEBACK (R409). -/
  | eccWriteback (p : PcId)
  /-- HBM_INJECTION_ARM (R410). -/
  | hbmInjectionArm (src : Src) (p : PcId) (v : Word)
  /-- TRAINING_REGISTER_WRITE (R401). -/
  | trainingRegisterWrite (src : Src) (addr : PA) (v : Word)
  /-- PATTERN_WRITE (R402). -/
  | patternWrite (src : Src) (p : PcId) (v : Word) (bad : BitVec 80)
  /-- PATTERN_COMPARE (R402). -/
  | patternCompare (src : Src) (p : PcId) (v : Word) (bad : BitVec 80)
  /-- PATTERN_MISR (R403). -/
  | patternMisr (src : Src) (p : PcId) (v : Word) (bad : BitVec 80)
  /-- PATTERN_WRITE_COMPARE (R402). -/
  | patternWriteCompare (src : Src) (p : PcId) (v : Word) (bad : BitVec 80)
  /-- PATTERN_LOOPBACK (R402). -/
  | patternLoopback (src : Src) (p : PcId) (v : Word) (bad : BitVec 80)
  /-- PATTERN_RUN_DONE (R402). -/
  | patternRunDone (p : PcId)
  /-- IEEE1500_LOAD (R404). -/
  | ieee1500Load (src : Src) (st : StackId) (v shiftOut : Word)
  /-- IEEE1500_CONTINUE (R404). -/
  | ieee1500Continue (src : Src) (st : StackId) (v shiftOut : Word)
  /-- IEEE1500_DONE (R404). -/
  | ieee1500Done (st : StackId)
  /-- RAW_COMMAND (R405). -/
  | rawCommand (src : Src) (st : StackId) (v : Word)
  /-- MIRROR_ENABLE (R414). -/
  | mirrorEnable (src : Src) (n : MirId) (v : Word)
  /-- MIRROR_DISABLE (R414). -/
  | mirrorDisable (src : Src) (n : MirId) (v : Word)
  /-- SILVERING_DONE (R414). -/
  | silveringDone (n : MirId)
  /-- GRANARY_ACCESS (R417). -/
  | granaryAccess (src : Src) (addr : PA) (size : Nat) (write : Bool) (data : BitVec 256) (partner : Option GranaryPartner) (upset : Nat)
  /-- GRANARY_CLAIM (R425). -/
  | granaryClaim (src : Src) (b : BankId) (v : Word)
  /-- GRANARY_RELEASE (R425). -/
  | granaryRelease (src : Src) (b : BankId) (v : Word)
  /-- GRANARY_SHARE (R425). -/
  | granaryShare (src : Src) (b : BankId) (v : Word)
  /-- RELEASE_COMPLETE (R426). -/
  | releaseComplete (b : BankId)
  /-- BANK_RETAIN_COMMIT (R428). -/
  | bankRetainCommit (b : BankId)
  /-- BANK_EXIT_COMPLETE (R429). -/
  | bankExitComplete (b : BankId)
  /-- PORT_CTL_WRITE (R435). -/
  | portCtlWrite (src : Src) (p : PortId) (v : Word)
  /-- PORT_EVENT_CLEAR (R436). -/
  | portEventClear (src : Src) (p : PortId) (v : Word)
  /-- MMD_ACCESS (R437). -/
  | mmdAccess (src : Src) (p : PortId) (v : Word)
  /-- MMD_ACCESS_DONE (R437). -/
  | mmdAccessDone (p : PortId) (data : BitVec 16)
  /-- LINK_UP (R438). -/
  | linkUp (p : PortId) (rate : BitVec 2) (reversed : Bool) (fecEff : BitVec 2)
  /-- LINK_LOSS (R443). -/
  | linkLoss (p : PortId)
  /-- SQI_REFRESH (R438). -/
  | sqiRefresh (p : PortId) (snr : Int)
  /-- LINE_OVERVOLTAGE_TRIP (R443). -/
  | lineOvervoltageTrip (p : PortId)
  /-- DC_SENSE_SAMPLE (R443). -/
  | dcSenseSample (p : PortId) (vp vn : Int)
  /-- FAULT_QUALIFIED (R445). -/
  | faultQualified (p : PortId)
  /-- REFLECTOMETRY_START (R446). -/
  | reflectometryStart (src : Src) (p : PortId) (v : Word)
  /-- REFLECTOMETRY_DONE (R446). -/
  | reflectometryDone (p : PortId) (result : BitVec 3) (dist : BitVec 16)
  /-- FRAME_RECEIVE (R477): the characters, each with PARITY_ERR in bit 9, FRAMING_ERR in bit 10 and, in bit 11, that it
  frames only when inverted (R443); the port's verdict, and whether reception was cut off. -/
  | frameReceive (p : PortId) (chars : List LineChar) (x : RxVerdict) (cutOff : Bool)
  /-- TX_DONE (R474). -/
  | txDone (p : PortId)
  /-- GCL_CYCLE_START (R450). -/
  | gclCycleStart (p : PortId)
  /-- GCL_ENTRY_EXPIRY (R450). -/
  | gclEntryExpiry (p : PortId)
  /-- STREAM_CONFIG_WRITE (R453). -/
  | streamConfigWrite (src : Src) (m : LaneMacro) (i : StreamId) (v : Word)
  /-- FRER_RESET_TIMEOUT (R454). -/
  | frerResetTimeout (m : LaneMacro) (i : StreamId)
  /-- SVC_RX_FRAME (R455). -/
  | svcRxFrame (bytes : List Byte) (fcsBad : Bool)
  /-- SVC_TX_FRAME (R455). -/
  | svcTxFrame
  /-- MDIO_FRAME (R455). -/
  | mdioFrame (src : Src) (v : Word) (dataIn : BitVec 16)
  /-- GPIO_WRITE (R456). -/
  | gpioWrite (src : Src) (v : Word)
  /-- GPIO_OSET (R456). -/
  | gpioOset (src : Src) (v : Word)
  /-- GPIO_OCLR (R456). -/
  | gpioOclr (src : Src) (v : Word)
  /-- GPIO_INPUT_CHANGE (R456). -/
  | gpioInputChange (pin : BitVec 3) (level : Bool)
  /-- CLEAR_FAULTS (R459). -/
  | clearFaults
  /-- STATUS_WORD (R459). -/
  | statusWord
  /-- READ_VIN (R459). -/
  | readVin
  /-- READ_IIN (R459). -/
  | readIin (iin : Nat)
  /-- READ_PIN (R459). -/
  | readPin
  /-- READ_TEMPERATURE_1 (R459). -/
  | readTemperature1
  /-- MFR_STANDBY (R459). -/
  | mfrStandby (v : PecByte)
  /-- MFR_WAKE (R459). -/
  | mfrWake (v : PecByte)
  /-- EXTEST (R458). -/
  | extest (din : BitVec 256)
  /-- IDCODE (R458). -/
  | idcode (din : BitVec 256)
  /-- SAMPLE_PRELOAD (R458). -/
  | samplePreload (din : BitVec 256)
  /-- BYPASS (R567). -/
  | bypass (din : BitVec 256)
  /-- DBG_STAT (R567). -/
  | dbgStat (din : BitVec 256)
  /-- DBG_SAP (R568). -/
  | dbgSap (op : BitVec 2) (addr : PA) (data : Word)
  /-- START (R471). -/
  | start (src : Src) (t : ThreadId) (v : Word)
  /-- STOP (R472). -/
  | stop (src : Src) (t : ThreadId) (v : Word)
  /-- WAIT (R475). -/
  | wait (a : Agent) (rd ra : Reg5) (csn : BitVec 12)
  /-- WAIT_EVENT (R476). -/
  | waitEvent (t : ThreadId)
  /-- WAIT_TIMEOUT (R476). -/
  | waitTimeout (t : ThreadId)
  /-- RXB (R478). -/
  | rxb (a : Agent) (rd ra : Reg5)
  /-- RXTS (R478). -/
  | rxts (a : Agent) (rd ra : Reg5)
  /-- RXCNT (R478). -/
  | rxcnt (a : Agent) (rd ra : Reg5)
  /-- TXSTART (R481). -/
  | txstart (a : Agent) (rd ra : Reg5)
  /-- TXB (R478). -/
  | txb (a : Agent) (rd ra : Reg5)
  /-- TXTS (R478). -/
  | txts (a : Agent) (rd ra : Reg5)
  /-- RAWTX (R478). -/
  | rawtx (a : Agent) (rd ra : Reg5)
  /-- RAWRX (R478). -/
  | rawrx (a : Agent) (rd ra : Reg5)
  /-- PRD (R478). -/
  | prd (a : Agent) (i : BitVec 6) (rd ra : Reg5)
  /-- PWR (R478). -/
  | pwr (a : Agent) (i : BitVec 6) (rd ra : Reg5)
  /-- QADV (R484). -/
  | qadv (a : Agent) (j : BitVec 5) (rd ra : Reg5)
  /-- QPTR (R478). -/
  | qptr (a : Agent) (j : BitVec 5) (rd ra : Reg5)
  /-- FMATCH (R478). -/
  | fmatch (a : Agent) (rd ra : Reg5)
  /-- FMADD (R490). -/
  | fmadd (a : Agent) (rd ra : Reg5)
  /-- FMDEL (R490). -/
  | fmdel (a : Agent) (rd ra : Reg5)
  /-- SIGNAL (R478). -/
  | signal (a : Agent) (rd ra : Reg5)
  /-- POKE (R478). -/
  | poke (a : Agent) (rd ra : Reg5)
  /-- SETTHR (R478). -/
  | setthr (a : Agent) (rd ra : Reg5)
  /-- WQMASK (R478). -/
  | wqmask (a : Agent) (rd ra : Reg5)
  /-- FRER (R454). -/
  | frer (a : Agent) (rd ra : Reg5)
  /-- QUEUE_CFG_WRITE (R483). -/
  | queueCfgWrite (src : Src) (q : QueueId) (v : Word)
  /-- QUEUE_HOST_WRITE (R483). -/
  | queueHostWrite (src : Src) (q : QueueId) (v : Word)
  /-- QUEUE_PTR_WRITE (R484). -/
  | queuePtrWrite (src : Src) (q : QueueId) (v : Word)
  /-- COALESCE_TIMER_EXPIRY (R485). -/
  | coalesceTimerExpiry (q : QueueId)
  /-- FM_ADD (R490). -/
  | fmAdd (src : Src) (v : Word)
  /-- FM_DEL (R490). -/
  | fmDel (src : Src) (v : Word)
  /-- FM_LOOKUP (R490). -/
  | fmLookup (src : Src) (v : Word)
  /-- DMA_CTL_WRITE (R495). -/
  | dmaCtlWrite (src : Src) (d : DmaId) (v : Word)
  /-- DMA_RX_FRAME (R496). -/
  | dmaRxFrame (d : DmaId) (bytes : List LineChar) (x : RxVerdict) (cutOff : Bool)
  /-- DMA_TX_FRAME (R497). -/
  | dmaTxFrame (d : DmaId) (aborted : Bool)
  /-- COCOON_SLOT_OWN_WRITE (R524). -/
  | cocoonSlotOwnWrite (src : Src) (m : MbxId) (v : Word)
  /-- COCOON_DOORBELL (R524). -/
  | cocoonDoorbell (src : Src) (m : MbxId) (v : Word)
  /-- COCOON_CALL_TIMEOUT (R524). -/
  | cocoonCallTimeout (m : MbxId)
  /-- MESSAGE_WRITE (R525). -/
  | messageWrite (src : Src) (m : MbxId) (i : Fin 8) (v : Word)
  /-- COCOON_MAILBOX_TAKE (R524). -/
  | cocoonMailboxTake (v : BitVec 32)
  /-- COCOON_MAILBOX_COMPLETE (R525). -/
  | cocoonMailboxComplete (v : BitVec 32)
  /-- COCOON_VERSION (R526). -/
  | cocoonVersion (m : MbxId)
  /-- RANDOM (R526). -/
  | random (m : MbxId) (entropyFail : Bool)
  /-- HASH (R526). -/
  | hash (m : MbxId)
  /-- VERIFY (R526). -/
  | verify (m : MbxId)
  /-- SIGN (R526). -/
  | sign (m : MbxId) (entropyFail : Bool)
  /-- SEAL (R526). -/
  | seal (m : MbxId)
  /-- OPEN (R526). -/
  | cocoonOpen (m : MbxId)
  /-- KEY_GEN (R526). -/
  | keyGen (m : MbxId) (entropyFail : Bool)
  /-- KEY_DEL (R526). -/
  | keyDel (m : MbxId)
  /-- DEBUG_AUTH (R526). -/
  | debugAuth (m : MbxId)
  /-- DEBUG_REVOKE (R526). -/
  | debugRevoke (m : MbxId)
  /-- IMAGE_CHECK (R523). -/
  | imageCheck (m : MbxId)
  /-- COCOON_STOP (R516). -/
  | cocoonStop
  /-- FIREWALL_REGION_WRITE (R533). -/
  | firewallRegionWrite (src : Src) (addr : PA) (v : Word)
  /-- FIREWALL_SWEEP_DONE (R533). -/
  | firewallSweepDone (f : FwId)
  /-- FIREWALL_CTL_WRITE (R530). -/
  | firewallCtlWrite (src : Src) (f : FwId) (v : Word)
  /-- OVERRIDE_NOTICE (R538). -/
  | overrideNotice (src : Src) (v : Word)
  /-- AUTH_WRITE (R542). -/
  | authWrite (src : Src) (v : Word)
  /-- TRACE_BLOCK_WRITE (R555). -/
  | traceBlockWrite (c : CoreId)
  /-- SINK_START (R554). -/
  | sinkStart (src : Src) (v : Word)
  /-- SINK_STOP (R554). -/
  | sinkStop (src : Src) (v : Word)
  /-- SINK_TRIGGER (R556). -/
  | sinkTrigger (src : Src) (v : Word)
  /-- HALT (R561). -/
  | halt (src : Src) (c : CoreId) (v : Word)
  /-- STEP (R563). -/
  | step (src : Src) (c : CoreId) (v : Word)
  /-- RESUME (R563). -/
  | resume (src : Src) (c : CoreId) (v : Word)
  /-- DEBUG_DATA_ACCESS (R562). -/
  | debugDataAccess (src : Src) (c : CoreId) (write : Bool) (v : Word)
  /-- SPINNER_HALT (R566). -/
  | spinnerHalt (src : Src) (t : ThreadId) (v : Word)
  /-- SPINNER_STEP (R566). -/
  | spinnerStep (src : Src) (t : ThreadId) (v : Word)
  /-- SPINNER_RESUME (R566). -/
  | spinnerResume (src : Src) (t : ThreadId) (v : Word)
  /-- SPINNER_DEBUG_DATA_ACCESS (R566). -/
  | spinnerDebugDataAccess (src : Src) (t : ThreadId) (write : Bool) (v : Word)
  /-- SNAP (R577). -/
  | snap (src : Src) (v : Word)
  /-- FREEZE (R577). -/
  | freeze (src : Src) (v : Word)
  /-- SNAPSHOT_TICK (R578). -/
  | snapshotTick
  /-- SNAPSHOT_DONE (R577). -/
  | snapshotDone
  /-- CORE_RESET (R588). -/
  | coreReset (src : Src) (c : CoreId) (fatal : Bool)
  /-- ISLAND_RESET (R588). -/
  | islandReset (src : Src) (j : IslandId) (fatal : Bool)
  /-- MODULE_WARM_RESET (R584). -/
  | moduleWarmReset (src : Src) (fatal : Bool)
  /-- RECORD_CLEAR (R606). -/
  | recordClear (src : Src) (u : UnitId) (r : RecId) (v : Word)
  /-- INJECTION_ARM (R615). -/
  | injectionArm (src : Src) (u : UnitId) (v : Word)
  /-- SYNTHETIC_RECORD (R616). -/
  | syntheticRecord (src : Src) (u : UnitId) (v : Word)
  /-- WATCHDOG_KICK (R617). -/
  | watchdogKick (src : Src) (v : Word)
  /-- WATCHDOG_EXPIRY (R617). -/
  | watchdogExpiry
  /-- FADD (R187). -/
  | fadd (a : Agent) (ty : VTy) (qd qa qb : Reg5)
  /-- FSUB (R187). -/
  | fsub (a : Agent) (ty : VTy) (qd qa qb : Reg5)
  /-- FMUL (R187). -/
  | fmul (a : Agent) (ty : VTy) (qd qa qb : Reg5)
  /-- FDIV (R187). -/
  | fdiv (a : Agent) (ty : VTy) (qd qa qb : Reg5)
  /-- FSQRT (R187). -/
  | fsqrt (a : Agent) (ty : VTy) (qd qa : Reg5)
  /-- FMA (R187). -/
  | fma (a : Agent) (ty : VTy) (qd qa qb : Reg5)
  /-- FMIN (R187). -/
  | fmin (a : Agent) (ty : VTy) (qd qa qb : Reg5)
  /-- FMAX (R187). -/
  | fmax (a : Agent) (ty : VTy) (qd qa qb : Reg5)
  /-- FABS (R187). -/
  | fabs (a : Agent) (ty : VTy) (qd qa : Reg5)
  /-- FNEG (R187). -/
  | fneg (a : Agent) (ty : VTy) (qd qa : Reg5)
  /-- FCMP (R164). -/
  | fcmp (a : Agent) (ty : VTy) (qa qb : Reg5)
  /-- VAND (R187). -/
  | vand (a : Agent) (qd qa qb : Reg5)
  /-- VOR (R187). -/
  | vor (a : Agent) (qd qa qb : Reg5)
  /-- VXOR (R187). -/
  | vxor (a : Agent) (qd qa qb : Reg5)
  /-- VSHL (R187). -/
  | vshl (a : Agent) (ty : VTy) (qd qa qb : Reg5)
  /-- VSHR (R187). -/
  | vshr (a : Agent) (ty : VTy) (qd qa qb : Reg5)
  /-- VSAR (R187). -/
  | vsar (a : Agent) (ty : VTy) (qd qa qb : Reg5)
  /-- VCMPEQ (R187). -/
  | vcmpeq (a : Agent) (ty : VTy) (qd qa qb : Reg5)
  /-- VCMPGT (R187). -/
  | vcmpgt (a : Agent) (ty : VTy) (qd qa qb : Reg5)
  /-- VBCAST (R187). -/
  | vbcast (a : Agent) (ty : VTy) (qd qa : Reg5)
  /-- VSEL (R187). -/
  | vsel (a : Agent) (qd qa qb : Reg5)
  /-- FCVT (R187). -/
  | fcvt (a : Agent) (ty : VTy) (qd qa : Reg5)
  /-- FCVTI (R189). -/
  | fcvti (a : Agent) (ty : VTy) (rd qa : Reg5)
  /-- ICVTF (R187). -/
  | icvtf (a : Agent) (ty : VTy) (qd ra : Reg5)
  /-- FMVX (R187). -/
  | fmvx (a : Agent) (ty : VTy) (rd qa : Reg5)
  /-- FMVQ (R187). -/
  | fmvq (a : Agent) (ty : VTy) (qd ra : Reg5)
  /-- VMOV (R187). -/
  | vmov (a : Agent) (qd qa : Reg5)
  /-- START_THRESHOLD_RISE (R50). -/
  | startThresholdRise
  /-- OTHER_INPUT_SWITCH_OPENING (R48). -/
  | otherInputSwitchOpening
  /-- DRIVER_CURRENT_LIMIT (R443). -/
  | driverCurrentLimit (p : PortId)
  /-- TRANSMIT_FIFO_RUNS_EMPTY (R480). -/
  | transmitFifoRunsEmpty (p : PortId)
  /-- COCOON_TICK (R519). -/
  | cocoonTick
  /-- ILLEGAL_INSTRUCTION (R146). -/
  | illegalInstruction (a : AnyAgent) (short : Bool)
  deriving DecidableEq, Repr

end Sys2Proof
end

