-- ==== Sys2Proof/Decode.lean ====
section
/-!
DEFINITION. The command that a word of the opcode table spells.  spec/opcode_table.json gives no row any bits, so no word
of the table spells a command: commands come to the block as they are, through the queue.  The words of the Tally
instruction set and of ZIS, which the spec does give bits, are read by `decodeTally` and `decodeZis`.  A definition
that names a late constructor of `Instr` is marked noncomputable, for Lean's compiler admits no type of so many; the kernel
evaluates it all the same.
-/

namespace Sys2Proof

/-- The command spelled by a word of the table's bits: none, for the table gives no row bits. -/
def decodeTableWord (_nbits _w : Nat) : Option Instr := none

/-! ## Tally words (R116, R117, R119 to R121) -/

/-- A word of the ALU register format (R116, R117). -/
def decodeTallyAlu (cpu : TallyCpu) (op : BitVec 4) (d r : TReg) : Instr :=
  match op.toNat with
  | 0 => .tallyMov cpu d r
  | 1 => .tallyAdd cpu d r
  | 2 => .tallySub cpu d r
  | 3 => .tallyCmp cpu d r
  | 4 => .tallyAnd cpu d r
  | 5 => .tallyOr cpu d r
  | 6 => .tallyXor cpu d r
  | 7 => .tallyTst cpu d r
  | 8 => .tallyShl cpu d r
  | 9 => .tallyShr cpu d r
  | 10 => .tallySar cpu d r
  | 11 => .tallyMul cpu d r
  | 12 => .tallyMulhu cpu d r
  | 13 => .tallyAdc cpu d r
  | 14 => .tallySbc cpu d r
  | _ => .tallyClz cpu d r

/-- A word of the ALU immediate format (R116, R117). -/
def decodeTallyImm (cpu : TallyCpu) (op : BitVec 2) (imm6 : BitVec 6) (d : TReg) : Instr :=
  match op.toNat with
  | 0 => .tallyMovi cpu d imm6
  | 1 => .tallyAddi cpu d imm6
  | 2 => .tallyCmpi cpu d imm6
  | _ => .tallyAndi cpu d imm6

/-- A word of the memory format (R116, R117). -/
def decodeTallyMem (cpu : TallyCpu) (kind : BitVec 2) (d b : TReg) : Instr :=
  match kind.toNat with
  | 0 => .ld cpu d b
  | 1 => .st cpu d b
  | 2 => .ldp cpu d b
  | _ => .stp cpu d b

/-- A word of the system format (R116, R121); `none` for SUB 7 to 15, which is illegal. -/
def decodeTallySys (cpu : TallyCpu) (sub : BitVec 4) (r : TReg) : Option Instr :=
  match sub.toNat with
  | 0 => some (.tallyJr cpu r)
  | 1 => some (.jlr cpu r)
  | 2 => some (.reti cpu)
  | 3 => some (.mfx cpu r)
  | 4 => some (.mtx cpu r)
  | 5 => some (.tallyWait cpu r)
  | 6 => some (.fence cpu)
  | _ => none

/-- The command that a 14-bit Tally word spells on a core (R116); `none` for an illegal word: SUB 7 to 15 (R121), or a
system word whose bits [5:4] are not the 0b00 of the format (DEDUCED, assumption log 316). -/
def decodeTally (cpu : TallyCpu) (w : BitVec 14) : Option Instr :=
  match (w.extractLsb' 12 2).toNat with
  | 0 => some (decodeTallyAlu cpu (w.extractLsb' 8 4) (w.extractLsb' 4 4) (w.extractLsb' 0 4))
  | 1 => some (decodeTallyImm cpu (w.extractLsb' 10 2) (w.extractLsb' 4 6) (w.extractLsb' 0 4))
  | 2 =>
    match (w.extractLsb' 10 2).toNat with
    | 0 => some (decodeTallyMem cpu (w.extractLsb' 8 2) (w.extractLsb' 4 4) (w.extractLsb' 0 4))
    | 1 => some (.tallyBranch cpu (w.extractLsb' 6 4) (w.extractLsb' 0 6))
    | 2 => some (.tallyJump cpu (w.getLsbD 9) (w.extractLsb' 0 9))
    | _ => if w.extractLsb' 4 2 = 0 then decodeTallySys cpu (w.extractLsb' 6 4) (w.extractLsb' 0 4) else none
  | _ => some (.tallyPrefix cpu (w.extractLsb' 0 12))

/-! ## ZIS words (R138 to R160, R178, R179, R186, R187) -/

/-- A bit field of a halfword or word. -/
def zf {n : Nat} (w : BitVec n) (lo k : Nat) : BitVec k := w.extractLsb' lo k

/-- The register a 4-bit field names (R144). -/
def midReg (n : BitVec 4) : Reg5 := BitVec.ofNat 5 (8 + n.toNat)

/-- The register that the far field of a 16-bit move names: y0 to y7, or g0 to g7 (R148). -/
def farReg (n : BitVec 4) : Reg5 := if n.getLsbD 3 then (n.truncate 3).zeroExtend 5 else BitVec.ofNat 5 (24 + n.toNat % 8)

/-- G0: two-address register operations (R148); `none` for a reserved OP5. -/
def decodeG0 (a : Agent) (op : Nat) (dn sn : BitVec 4) : Option Instr :=
  let x := midReg dn
  let y := midReg sn
  match op with
  | 0x01 => some (.mov a x y)
  | 0x02 => some (.add a true false x x y)
  | 0x03 => some (.sub a true false x x y)
  | 0x04 => some (.cmp a true false x y)
  | 0x05 => some (.adc a true false x x y)
  | 0x06 => some (.sbc a true false x x y)
  | 0x07 => some (.neg a true false x y)
  | 0x08 => some (.and a true x x y)
  | 0x09 => some (.or a true x x y)
  | 0x0A => some (.xor a true x x y)
  | 0x0B => some (.tst a true x y)
  | 0x0C => some (.not a true x y)
  | 0x0D => some (.andn a true x x y)
  | 0x0E => some (.shl a true false x x y)
  | 0x0F => some (.shr a true false x x y)
  | 0x10 => some (.sar a true false x x y)
  | 0x11 => some (.mul a true false x x y)
  | 0x12 => some (.movOut a (farReg dn) y)
  | 0x13 => some (.movIn a x (farReg sn))
  | _ => none

/-- A 16-bit load or store by SZ (R150). -/
def decodeSz (a : Agent) (sz : BitVec 2) (t : Reg5) (m : MemMode) : Instr :=
  match sz.toNat with
  | 0 => .ldd a t m
  | 1 => .ldws a t m
  | 2 => .std a t m
  | _ => .stw a t m

/-- The size of a 16-bit load or store (R150). -/
def szBytes (sz : BitVec 2) : Nat := if sz.getLsbD 0 then 4 else 8

/-- G6 (R152). -/
def decodeG6 (a : Agent) (sub : Nat) (arg : BitVec 9) : Option Instr :=
  match sub with
  | 0 => if arg = 0 then some (.nop a) else none
  | 1 => if arg = 0 then some (.ret a true) else none
  | 2 => if zf arg 4 5 = 0 then some (.jr a true (midReg (zf arg 0 4))) else none
  | 3 => if arg = 0 then some (.lbar a true) else none
  | 4 => if arg = 0 then some (.sbar a true) else none
  | 5 => if arg = 0 then some (.fbar a true) else none
  | 6 => some (.addsp a arg)
  | 7 => if arg.getLsbD 8 then none else some (.trap a true (zf arg 0 8))
  | 8 => some (.ldpc a true (midReg (zf arg 5 4)) ((zf arg 0 5).zeroExtend 16))
  | _ => none

/-- A 16-bit instruction (R147 to R152). -/
def decodeShort (a : Agent) (h : BitVec 16) : Option Instr :=
  match (zf h 13 3).toNat with
  | 0 => decodeG0 a (zf h 8 5).toNat (zf h 4 4) (zf h 0 4)
  | 1 =>
    let d := midReg (zf h 7 4)
    let imm := zf h 0 7
    match (zf h 11 2).toNat with
    | 0 => some (.movi a true d (imm.signExtend 16))
    | 1 => some (.addi a true d d (imm.signExtend 12))
    | 2 => some (.cmpi a true d (imm.signExtend 12))
    | _ => some (.andi a true d d (imm.signExtend 12))
  | 2 =>
    let sz := zf h 11 2
    some (decodeSz a sz (midReg (zf h 7 4)) (.disp true (midReg (zf h 3 4))
      (BitVec.ofNat 12 ((zf h 0 3).toNat * szBytes sz))))
  | 3 =>
    let m : MemMode := .disp true 30 (BitVec.ofNat 12 ((zf h 0 8).toNat * 8))
    some (if h.getLsbD 12 then .std a (midReg (zf h 8 4)) m else .ldd a (midReg (zf h 8 4)) m)
  | 4 => some (.bcc a true (zf h 9 4) ((zf h 0 9).signExtend 18))
  | 5 =>
    if zf h 0 2 ≠ 0 then none
    else
      let b := midReg (zf h 2 4)
      some (decodeSz a (zf h 11 2) (midReg (zf h 6 4)) (if h.getLsbD 10 then .preDec true b else .postInc true b))
  | 6 => decodeG6 a (zf h 9 4).toNat (zf h 0 9)
  | _ => none

/-- The three-register format: FUNC holds W in bit 10, COND in [9:6], 0 for every operation but `csel`, and OP in [5:0]
(R178, R179). -/
def decodeR3 (a : Agent) (rd ra rb : Reg5) (func : BitVec 11) : Option Instr :=
  let w := func.getLsbD 10
  let cond : Cond := zf func 6 4
  let op := (zf func 0 6).toNat
  let plain (ok : Bool) (i : Instr) : Option Instr := if cond = 0 ∧ ok then some i else none
  match op with
  | 0x01 => plain true (.add a false w rd ra rb)
  | 0x02 => plain true (.sub a false w rd ra rb)
  | 0x03 => plain true (.adc a false w rd ra rb)
  | 0x04 => plain true (.sbc a false w rd ra rb)
  | 0x05 => plain (rd == 0) (.cmp a false w ra rb)
  | 0x06 => plain (ra == 0) (.neg a false w rd rb)
  | 0x08 => plain (!w) (.and a false rd ra rb)
  | 0x09 => plain (!w) (.or a false rd ra rb)
  | 0x0A => plain (!w) (.xor a false rd ra rb)
  | 0x0B => plain (!w) (.andn a false rd ra rb)
  | 0x0C => plain (!w && rd == 0) (.tst a false ra rb)
  | 0x0D => plain (!w && ra == 0) (.not a false rd rb)
  | 0x10 => plain true (.shl a false w rd ra rb)
  | 0x11 => plain true (.shr a false w rd ra rb)
  | 0x12 => plain true (.sar a false w rd ra rb)
  | 0x18 => plain true (.mul a false w rd ra rb)
  | 0x19 => plain (!w) (.mulhs a rd ra rb)
  | 0x1A => plain (!w) (.mulhu a rd ra rb)
  | 0x1B => plain true (.div a w rd ra rb)
  | 0x1C => plain true (.divu a w rd ra rb)
  | 0x1D => plain true (.rem a w rd ra rb)
  | 0x1E => plain true (.remu a w rd ra rb)
  | 0x20 => plain (rb == 0) (.clz a w rd ra)
  | 0x21 => plain (rb == 0) (.ctz a w rd ra)
  | 0x22 => plain (rb == 0) (.popc a w rd ra)
  | 0x23 => plain (rb == 0) (.rev a w rd ra)
  | 0x28 => if w then none else some (.csel a cond rd ra rb)
  | 0x30 => plain (!w && ra == 0 && rb == 0) (.mffl a rd)
  | 0x31 => plain (!w && rd == 0 && rb == 0) (.mtfl a ra)
  | _ => none

/-- I12 (R154). -/
def decodeI12 (a : Agent) (op : Nat) (rd ra : Reg5) (imm : BitVec 12) : Option Instr :=
  let sh (i : Instr) : Option Instr := if zf imm 6 6 = 0 then some i else none
  match op with
  | 0 => some (.addi a false rd ra imm)
  | 1 => if rd = 0 then some (.cmpi a false ra imm) else none
  | 2 => some (.andi a false rd ra imm)
  | 3 => some (.ori a rd ra imm)
  | 4 => some (.xori a rd ra imm)
  | 5 => sh (.shli a rd ra (zf imm 0 6))
  | 6 => sh (.shri a rd ra (zf imm 0 6))
  | 7 => sh (.sari a rd ra (zf imm 0 6))
  | 8 => some (.lea a rd ra imm)
  | 9 => some (.muli a rd ra imm)
  | _ => none

/-- I16 (R155). -/
def decodeI16 (a : Agent) (op : Nat) (rd : Reg5) (imm : BitVec 16) : Option Instr :=
  match op with
  | 0 => some (.movi a false rd imm)
  | 1 => some (.movp1 a rd imm)
  | 2 => some (.movp2 a rd imm)
  | 3 => some (.movp3 a rd imm)
  | 4 => some (.addi16 a rd imm)
  | 5 => some (.adr a rd imm)
  | 6 => some (.ldpc a false rd imm)
  | 7 => some (.ldpcw a rd imm)
  | 8 => some (.fldpc a rd imm)
  | _ => none

/-- A load or store by MOP (R157). -/
def decodeMop (a : Agent) (mop : Nat) (rt : Reg5) (m : MemMode) : Option Instr :=
  match mop with
  | 0x00 => some (.ldbu a rt m)
  | 0x01 => some (.ldbs a rt m)
  | 0x02 => some (.ldhu a rt m)
  | 0x03 => some (.ldhs a rt m)
  | 0x04 => some (.ldwu a rt m)
  | 0x05 => some (.ldws a rt m)
  | 0x06 => some (.ldd a rt m)
  | 0x07 => some (.flw a rt m)
  | 0x08 => some (.stb a rt m)
  | 0x09 => some (.sth a rt m)
  | 0x0A => some (.stw a rt m)
  | 0x0B => some (.std a rt m)
  | 0x0C => some (.fsw a rt m)
  | 0x0D => some (.fld a rt m)
  | 0x0E => some (.fsd a rt m)
  | 0x10 => some (.vld a rt m)
  | 0x11 => some (.vst a rt m)
  | _ => none

/-- `ll`, `sc` and the atomics, of which AM and S must be 0 (R156, R157). -/
def decodeSync (a : Agent) (mop : Nat) (rt ri rb : Reg5) : Option Instr :=
  match mop with
  | 0x12 => if ri = 0 then some (.ll a rt rb) else none
  | 0x13 => some (.sc a rt ri rb)
  | 0x14 => some (.swp a rt ri rb)
  | 0x15 => some (.ldadd a rt ri rb)
  | 0x16 => some (.ldand a rt ri rb)
  | 0x17 => some (.ldor a rt ri rb)
  | _ => none

/-- LSX (R156). -/
def decodeLsx (a : Agent) (w : BitVec 32) : Option Instr :=
  let rt : Reg5 := zf w 21 5
  let rb : Reg5 := zf w 16 5
  let ri : Reg5 := zf w 11 5
  let s : BitVec 2 := zf w 7 2
  let mop := (zf w 2 5).toNat
  if zf w 0 2 ≠ 0 then none
  else if 0x12 ≤ mop then (if zf w 9 2 = 0 ∧ s = 0 then decodeSync a mop rt ri rb else none)
  else match (zf w 9 2).toNat with
  | 0 => decodeMop a mop rt (.index rb ri s)
  | 1 => if ri = 0 ∧ s = 0 then decodeMop a mop rt (.postInc false rb) else none
  | 2 => if ri = 0 ∧ s = 0 then decodeMop a mop rt (.preDec false rb) else none
  | _ => none

/-- BR (R158, R165); `slotShort` is the length of the instruction that follows, which an annulment skips. -/
def decodeBr (a : Agent) (w : BitVec 32) (slotShort : Bool) : Option Instr :=
  match (zf w 24 2).toNat with
  | 0 =>
    if w.getLsbD 19 then some (.bccDelayed a (zf w 20 4) (w.getLsbD 18) (zf w 0 18) slotShort)
    else if w.getLsbD 18 then none
    else some (.bcc a false (zf w 20 4) (zf w 0 18))
  | 1 => some (.jmp a (zf w 0 24))
  | 2 => some (.call a (zf w 0 24))
  | _ =>
    if zf w 0 17 ≠ 0 then none
    else match (zf w 22 2).toNat with
    | 0 => some (.jr a false (zf w 17 5))
    | 1 => some (.callr a (zf w 17 5))
    | 2 => if zf w 17 5 = 0 then some (.ret a false) else none
    | _ => none

/-- VF: VFUNC holds TY in [10:8], zeros in [7:6] and OP in [5:0] (R186, R187). -/
noncomputable def decodeVf (a : Agent) (qd qa qb : Reg5) (vfunc : BitVec 11) : Option Instr :=
  let ty : VTy := zf vfunc 8 3
  let isF := !ty.getLsbD 2
  let isFs := decide (ty.toNat < 2)
  let isI := ty.getLsbD 2
  let whole := ty == 7
  let when (ok : Bool) (i : Instr) : Option Instr := if ok then some i else none
  if zf vfunc 6 2 ≠ 0 then none
  else match (zf vfunc 0 6).toNat with
  | 0x01 => some (.fadd a ty qd qa qb)
  | 0x02 => some (.fsub a ty qd qa qb)
  | 0x03 => some (.fmul a ty qd qa qb)
  | 0x04 => when isF (.fdiv a ty qd qa qb)
  | 0x05 => when (isF && qb == 0) (.fsqrt a ty qd qa)
  | 0x06 => when isF (.fma a ty qd qa qb)
  | 0x07 => some (.fmin a ty qd qa qb)
  | 0x08 => some (.fmax a ty qd qa qb)
  | 0x09 => when (isF && qb == 0) (.fabs a ty qd qa)
  | 0x0A => when (isF && qb == 0) (.fneg a ty qd qa)
  | 0x0B => when (isFs && qd == 0) (.fcmp a ty qa qb)
  | 0x10 => when whole (.vand a qd qa qb)
  | 0x11 => when whole (.vor a qd qa qb)
  | 0x12 => when whole (.vxor a qd qa qb)
  | 0x13 => when isI (.vshl a ty qd qa qb)
  | 0x14 => when isI (.vshr a ty qd qa qb)
  | 0x15 => when isI (.vsar a ty qd qa qb)
  | 0x16 => some (.vcmpeq a ty qd qa qb)
  | 0x17 => some (.vcmpgt a ty qd qa qb)
  | 0x18 => when (qb == 0) (.vbcast a ty qd qa)
  | 0x19 => when whole (.vsel a qd qa qb)
  | 0x20 => when isFs (.fcvt a ty qd qa)
  | 0x21 => when isFs (.fcvti a ty qd qa)
  | 0x22 => when isFs (.icvtf a ty qd qa)
  | 0x23 => when isFs (.fmvx a ty qd qa)
  | 0x24 => when isFs (.fmvq a ty qd qa)
  | 0x25 => when whole (.vmov a qd qa)
  | _ => none

/-- `cmo` by CSN (R300): B is accepted only with I_INV. -/
noncomputable def decodeCmo (a : Agent) (ra : Reg5) (csn : BitVec 12) : Option Instr :=
  if zf csn 9 3 ≠ 0 ∨ (csn.getLsbD 8 ∧ zf csn 0 8 ≠ (1 : BitVec 8)) then none
  else match (zf csn 0 8).toNat with
  | 0x01 => some (.iInv a (csn.getLsbD 8) ra)
  | 0x02 => some (.iInvAll a ra)
  | 0x10 => some (.dInvL1 a ra)
  | 0x11 => some (.cleanL2 a ra)
  | 0x12 => some (.cinvL2 a ra)
  | 0x13 => some (.invL2 a ra)
  | 0x14 => some (.cleanLlc a ra)
  | 0x15 => some (.cinvLlc a ra)
  | 0x16 => some (.invLlc a ra)
  | 0x20 => some (.dInvSw a ra)
  | 0x21 => some (.iInvSw a ra)
  | 0x22 => some (.cleanSwL2 a ra)
  | 0x23 => some (.cinvSwL2 a ra)
  | 0x24 => some (.invSwL2 a ra)
  | 0x25 => some (.cleanSwLlc a ra)
  | 0x26 => some (.cinvSwLlc a ra)
  | 0x27 => some (.invSwLlc a ra)
  | 0x30 => some (.dInvAll a ra)
  | _ => none

/-- `tlbi` by CSN (R275). -/
def decodeTlbi (a : Agent) (ra : Reg5) (csn : BitVec 12) : Option Instr :=
  let b := csn.getLsbD 8
  if zf csn 9 3 ≠ 0 then none
  else match (zf csn 0 8).toNat with
  | 0x00 => some (.tlbiAll a b ra)
  | 0x01 => some (.tlbiGuest a b ra)
  | 0x02 => some (.tlbiIpa a b ra)
  | 0x03 => some (.tlbiHAll a b ra)
  | 0x04 => some (.tlbiHVa a b ra)
  | 0x10 => some (.tlbiSAll a b ra)
  | 0x11 => some (.tlbiAsid a b ra)
  | 0x12 => some (.tlbiVa a b ra)
  | 0x13 => some (.tlbiVaAllasid a b ra)
  | _ => none

/-- `port` by CSN (R478). -/
noncomputable def decodePort (a : Agent) (rd ra : Reg5) (csn : BitVec 12) : Option Instr :=
  match csn.toNat with
  | 0x000 => some (.rxb a rd ra)
  | 0x001 => some (.rxts a rd ra)
  | 0x002 => some (.rxcnt a rd ra)
  | 0x010 => some (.txstart a rd ra)
  | 0x011 => some (.txb a rd ra)
  | 0x012 => some (.txts a rd ra)
  | 0x018 => some (.rawtx a rd ra)
  | 0x019 => some (.rawrx a rd ra)
  | 0x400 => some (.fmatch a rd ra)
  | 0x401 => some (.fmadd a rd ra)
  | 0x402 => some (.fmdel a rd ra)
  | 0x500 => some (.signal a rd ra)
  | 0x501 => some (.poke a rd ra)
  | 0x502 => some (.setthr a rd ra)
  | 0x503 => some (.wqmask a rd ra)
  | 0x504 => some (.frer a rd ra)
  | n =>
    if n / 64 = 4 then some (.prd a (zf csn 0 6) rd ra)
    else if n / 64 = 8 then some (.pwr a (zf csn 0 6) rd ra)
    else if n / 32 = 24 then some (.qadv a (zf csn 0 5) rd ra)
    else if n / 32 = 25 then some (.qptr a (zf csn 0 5) rd ra)
    else none

/-- SYS: an unused rd or ra must be 0 (R159). -/
noncomputable def decodeSys (a : Agent) (sop : Nat) (rd ra : Reg5) (csn : BitVec 12) : Option Instr :=
  let bare (i : Instr) : Option Instr := if rd = 0 ∧ ra = 0 then some i else none
  match sop with
  | 0 => if ra = 0 then some (.mfs a rd csn) else none
  | 1 => if rd = 0 then some (.mts a csn ra) else none
  | 2 =>
    match csn.toNat with
    | 1 => bare (.lbar a false)
    | 2 => bare (.sbar a false)
    | 3 => bare (.fbar a false)
    | _ => none
  | 3 => if rd = 0 then decodeCmo a ra csn else none
  | 4 => if rd = 0 then decodeTlbi a ra csn else none
  | 5 => if zf csn 8 4 = 0 then bare (.trap a false (zf csn 0 8)) else none
  | 6 => bare (.eret a)
  | 7 => bare (.park a)
  | 8 => some (.wait a rd ra csn)
  | 9 => decodePort a rd ra csn
  | _ => none

/-- A 32-bit instruction by its major format (R153). -/
noncomputable def decodeLong (a : Agent) (w : BitVec 32) (slotShort : Bool) : Option Instr :=
  let rd : Reg5 := zf w 21 5
  let ra : Reg5 := zf w 16 5
  match (zf w 26 3).toNat with
  | 0 => decodeR3 a rd ra (zf w 11 5) (zf w 0 11)
  | 1 => decodeI12 a (zf w 12 4).toNat rd ra (zf w 0 12)
  | 2 => decodeI16 a (zf w 16 5).toNat rd (zf w 0 16)
  | 3 => if (zf w 12 4).toNat = 0x0F then none else decodeMop a (zf w 12 4).toNat rd (.disp false ra (zf w 0 12))
  | 4 => decodeLsx a w
  | 5 => decodeBr a w slotShort
  | 6 => decodeVf a rd ra (zf w 11 5) (zf w 0 11)
  | _ => decodeSys a (zf w 12 4).toNat rd ra (zf w 0 12)

/-- A halfword opens a 32-bit instruction (R138). -/
def opensLong (h : BitVec 16) : Bool := zf h 13 3 == 7

/-- The command that the halfwords from an agent's pc on spell (R138, R140): one halfword, or two, and the halfword that
follows them, whose length is that of a slot; ILLEGAL_INSTRUCTION for an encoding that names none (R146). -/
noncomputable def decodeZis (a : Agent) (h h2 next : BitVec 16) : Instr :=
  if opensLong h then (decodeLong a (h ++ h2) (!opensLong next)).getD (.illegalInstruction (.zis a) false)
  else (decodeShort a h).getD (.illegalInstruction (.zis a) true)

end Sys2Proof
end

