-- ==== Sys2Proof/Config.lean ====
section
/-!
DEFINITION. What one module fixes and the manual leaves open: constants with no body.

Nothing in Lean can evaluate them, so a claim that holds here holds whatever a module's values are.  Each is named in
a row of the assumption log.
-/

namespace Sys2Proof

/-- A value the spec calls undefined or does not state, one for each use: the state's counter `free` numbers the uses. -/
opaque Config.freeValue : Nat → BitVec 512

/-- The fuses as the module left the factory: 8,192 bits (R595). -/
opaque Config.factoryFuses : BitVec 8192

/-- A byte of the core boot ROM, whose contents the manual does not list (R598). -/
opaque Config.coreRomByte : Nat → Byte

/-- The spare columns that a bank uses in each subarray are fused: at most the two it has (R431, R432). -/
opaque Config.granaryRepair : Nat → Nat → Fin 3

/-- The random bits the generator gives: the state's counter of draws numbers them (R527). -/
opaque Config.random : Nat → BitVec 512

/-- SHA-256 and SHA-384 of a byte string (R526). -/
opaque Config.sha256 : List Byte → BitVec 256
opaque Config.sha384 : List Byte → BitVec 384

/-- Whether an ECDSA signature of a digest verifies against a public key: curve bits, key, digest, r and s (R526). -/
opaque Config.ecdsaVerifies : Nat → List Byte → BitVec 384 → List Byte → Bool

/-- Whether a signature over the SHA-384 digest of a byte string verifies against the key whose SHA-384 hash is given
(R520): hash, signed bytes, signature. -/
opaque Config.imageSigned : BitVec 384 → List Byte → List Byte → Bool

/-- An ECDSA signature with a private key, and the public key of a private key: bytes (R526). -/
opaque Config.ecdsaSign : Nat → BitVec 384 → BitVec 384 → List Byte
opaque Config.ecdsaPublic : Nat → BitVec 384 → List Byte

/-- AES-GCM: encryption with a key, an IV and associated data gives the ciphertext and tag; decryption gives the
plaintext (R526). -/
opaque Config.gcmSeal : List Byte → List Byte → List Byte → List Byte → List Byte × List Byte
opaque Config.gcmOpen : List Byte → List Byte → List Byte → List Byte → List Byte × List Byte

/-- The scope that a debug certificate grants under the debug key whose hash is given, or none where it is refused; the
certificate's layout is not stated (R526, R542). -/
opaque Config.debugCert : BitVec 384 → List Byte → Option (BitVec 4)

/-- The place of a branch in a direction table (0 the base, 1 to 4 the tagged ones), and its tag there, by the table, the
KEY, the branch and the history the table uses; the step of a counter; and the history fold of the indirect predictor
(R221, R223). Nothing that a core computes depends on them (R226). -/
opaque Config.dirIndex : Nat → BitVec 48 → BitVec 48 → BitVec 160 → Nat
opaque Config.dirTag : Nat → BitVec 48 → BitVec 48 → BitVec 160 → Nat
opaque Config.dirCount : Nat → Bool → Nat
opaque Config.indFold : BitVec 48 → BitVec 48 → BitVec 160 → Nat

/-- What is wrong with a burst that is no codeword of the check bits, by its data and its 32 check bits: the code is not stated
(R406). -/
opaque Config.eccError : BitVec 256 → BitVec 32 → BitVec 288

/-- The cells of the boundary chain that belong to the land of GPIO pin i: its input, its output and its output enable; the
chain's order is not stated (R458). -/
opaque Config.scanIn : Nat → Fin 256
opaque Config.scanOut : Nat → Fin 256
opaque Config.scanEnable : Nat → Fin 256

/-- The version of the Cocoon's ROM (R526). -/
opaque Config.cocoonRomVersion : Word

/-- A key slot of the Cocoon (R526, R528): kind 0 AES-256, 1 P-256, 2 P-384; the sources it admits by value and mask;
the key; and whether it is derived from fuses. -/
structure KeySlot where
  used  : Bool := false
  kind  : Nat := 0
  value : Nat := 0
  mask  : Nat := 0
  key   : BitVec 384 := 0
  fused : Bool := false
  deriving DecidableEq, Repr

/-- The key slots that firmware derives from fuses, by slot number (R528). -/
opaque Config.fusedKeys : List (Nat × KeySlot)

end Sys2Proof
end

