-- ==== Sys2Proof/Machine/Maps.lean ====
section
/-!
DEFINITION. Finite maps as plain data, and the bit-field operations every register uses.

`FMap β` is a list of (key, value) pairs; a key that is not listed holds the default its reader names.  `BMap` is the
memory's byte map in its one canonical form: addresses strictly rising, no entry holding the byte an unlisted address
reads as.
-/

namespace Sys2Proof.Machine

/-- A map from numbers to values, plain data. -/
abbrev FMap (β : Type) := List (Nat × β)

/-- The value at key `k`, or `d` where the key is not listed. -/
def FMap.get {β : Type} (m : FMap β) (d : β) (k : Nat) : β :=
  match m with
  | [] => d
  | (k', v) :: r => if k = k' then v else FMap.get r d k

/-- The map with key `k` set to `v`; keys stay rising. -/
def FMap.set {β : Type} (m : FMap β) (k : Nat) (v : β) : FMap β :=
  match m with
  | [] => [(k, v)]
  | (k', v') :: r =>
    if k < k' then (k, v) :: (k', v') :: r
    else if k = k' then (k, v) :: r
    else (k', v') :: FMap.set r k v

/-- The map with every key for which `p` holds dropped, so that it reads as the default again. -/
def FMap.dropIf {β : Type} (m : FMap β) (p : Nat → Bool) : FMap β :=
  m.filter (fun e => !p e.1)

/-- The byte an unlisted address of the memory reads as. -/
def memDefault : Byte := 0

/-- The memory's byte map (Host.Cell pairs). -/
abbrev BMap := List (Nat × BitVec 8)

/-- The byte at an address. -/
def BMap.get (m : BMap) (a : Nat) : Byte :=
  match m with
  | [] => memDefault
  | (k, v) :: r => if a = k then v else BMap.get r a

/-- Write one byte, keeping the canonical form. -/
def BMap.set (m : BMap) (a : Nat) (v : Byte) : BMap :=
  match m with
  | [] => if v = memDefault then [] else [(a, v)]
  | (k, w) :: r =>
    if a < k then (if v = memDefault then (k, w) :: r else (a, v) :: (k, w) :: r)
    else if a = k then (if v = memDefault then r else (a, v) :: r)
    else (k, w) :: BMap.set r a v

/-- Every listed address is above `lo` and the rest rises strictly; no entry holds the default byte. -/
def BMap.wfFrom (lo : Nat) (m : BMap) : Bool :=
  match m with
  | [] => true
  | (k, v) :: r => decide (lo ≤ k) && v != memDefault && BMap.wfFrom (k + 1) r

/-- The canonical form of the memory. -/
def BMap.wf (m : BMap) : Bool := BMap.wfFrom 0 m

/-- Forget every byte whose address satisfies `p`: it reads as the default byte again. -/
def BMap.dropIf (m : BMap) (p : Nat → Bool) : BMap :=
  m.filter (fun e => !p e.1)

/-- `n` bytes from address `a` up, little-endian, as a number (R136). -/
def BMap.readLE (m : BMap) (a : Nat) : Nat → Nat
  | 0 => 0
  | n + 1 => (BMap.get m a).toNat + 256 * BMap.readLE m (a + 1) n

/-- Store the `n` low bytes of `v` from address `a` up, little-endian (R136). -/
def BMap.writeLE (m : BMap) (a : Nat) (v : Nat) : Nat → BMap
  | 0 => m
  | n + 1 => BMap.writeLE (BMap.set m a (BitVec.ofNat 8 v)) (a + 1) (v / 256) n

/-- Store the bytes of `v` whose bit of `mask` is set (bit i for byte i), from address `a` up. -/
def BMap.writeMasked (m : BMap) (a : Nat) (v mask : Nat) : Nat → BMap
  | 0 => m
  | n + 1 =>
    BMap.writeMasked (if mask % 2 = 1 then BMap.set m a (BitVec.ofNat 8 v) else m) (a + 1) (v / 256) (mask / 2) n

/-- Store a list of bytes from address `a` up. -/
def BMap.writeBytes (m : BMap) (a : Nat) : List Byte → BMap
  | [] => m
  | b :: r => BMap.writeBytes (BMap.set m a b) (a + 1) r

/-- Bits `hi..lo` of a word, as a number. -/
def bitsOf (w : Word) (hi lo : Nat) : Nat := (w.toNat >>> lo) % 2 ^ (hi + 1 - lo)

/-- The mask of bits `hi..lo`. -/
def bitMask (hi lo : Nat) : Word := BitVec.ofNat 64 (2 ^ (hi + 1 - lo) - 1) <<< lo

/-- The word with bits `hi..lo` replaced by the low bits of `v`. -/
def withBits (w : Word) (hi lo v : Nat) : Word :=
  (w &&& ~~~ bitMask hi lo) ||| ((BitVec.ofNat 64 v <<< lo) &&& bitMask hi lo)

/-- Two's complement reading of the low `n` bits of `v`. -/
def signedOf (n v : Nat) : Int :=
  if v % 2 ^ n < 2 ^ (n - 1) then (v % 2 ^ n : Int) else (v % 2 ^ n : Int) - (2 ^ n : Int)

/-- Two's complement encoding of an integer in `n` bits. -/
def encSigned (n : Nat) (v : Int) : Nat := (v % (2 ^ n : Int)).toNat

/-- A count that saturates at the largest value of `n` bits. -/
def satInc (n v : Nat) : Nat := if v + 1 < 2 ^ n then v + 1 else 2 ^ n - 1

/-- `v`, or the nearer of the two limits where it lies outside them. -/
def clampNat (lo hi v : Nat) : Nat := if v < lo then lo else if hi < v then hi else v

/-- A truth value as a bit. -/
def bit (b : Bool) : Nat := if b then 1 else 0

end Sys2Proof.Machine
end

