-- ==== Sys2Proof/Machine/Regs.lean ====
section
/-!
DEFINITION. The registers of CSR space and the core system registers: names, places, fields, access codes and resets.

One entry per register and per field of the field tables of spec/ (R5, R6); reserved bits have no entry, so they read
as zero and a write to them is dropped (R4).  A register is named by `Reg` and by an instance number that counts its
unit instances row by row (outer instance first), so that `Reg.base` and `Reg.dims` give its address (R22).
-/

namespace Sys2Proof.Machine

/-- The access codes of R5. -/
inductive Acc where
  | ro | rw | wo | w1c | rwl | xrw
  deriving DecidableEq, Repr

/-- The registers of CSR space. -/
inductive Reg where
  /-- `PW_INSTAT` (spec/03, R88). -/
  | PW_INSTAT
  /-- `PW_PFLOG` (spec/03, R88). -/
  | PW_PFLOG
  /-- `PW_THERM` (spec/03, R628). -/
  | PW_THERM
  /-- `PW_HOLD_ISL` (spec/03, R80). -/
  | PW_HOLD_ISL
  /-- `PW_HOLD_GR` (spec/03, R80). -/
  | PW_HOLD_GR
  /-- `PW_XGATE` (spec/00, R9). -/
  | PW_XGATE
  /-- `PW_VSET` (spec/03, R66). -/
  | PW_VSET
  /-- `PW_RCTL` (spec/03, R66). -/
  | PW_RCTL
  /-- `PW_RATE` (spec/03, R66). -/
  | PW_RATE
  /-- `PW_ISTATE` (spec/03, R66). -/
  | PW_ISTATE
  /-- `PW_TEMP` (spec/03, R66). -/
  | PW_TEMP
  /-- `TB_NOW_LO` (spec/04, R94). -/
  | TB_NOW_LO
  /-- `TB_NOW_HI` (spec/04, R94). -/
  | TB_NOW_HI
  /-- `TB_CTL` (spec/04, R92). -/
  | TB_CTL
  /-- `TB_STAT` (spec/04, R92). -/
  | TB_STAT
  /-- `TB_ADDEND` (spec/04, R100). -/
  | TB_ADDEND
  /-- `TB_SLEW` (spec/04, R97). -/
  | TB_SLEW
  /-- `TB_SECSET` (spec/04, R97). -/
  | TB_SECSET
  /-- `TB_PPSCAP` (spec/04, R101). -/
  | TB_PPSCAP
  /-- `TB_PPSOUT` (spec/04, R103). -/
  | TB_PPSOUT
  /-- `TB_XGATE` (spec/00, R9). -/
  | TB_XGATE
  /-- `TB_CMP_OWN` (spec/04, R106). -/
  | TB_CMP_OWN
  /-- `TB_CMP_TGT` (spec/04, R107). -/
  | TB_CMP_TGT
  /-- `TB_CMP_PER` (spec/04, R107). -/
  | TB_CMP_PER
  /-- `TB_CMP_CTL` (spec/04, R107). -/
  | TB_CMP_CTL
  /-- `RV_OWN` (spec/05, R127). -/
  | RV_OWN
  /-- `RV_CMD` (spec/05, R127). -/
  | RV_CMD
  /-- `RV_ARG0` (spec/05, R127). -/
  | RV_ARG0
  /-- `RV_ARG1` (spec/05, R127). -/
  | RV_ARG1
  /-- `RV_RES0` (spec/05, R127). -/
  | RV_RES0
  /-- `RV_RES1` (spec/05, R127). -/
  | RV_RES1
  /-- `RV_STAT` (spec/05, R127). -/
  | RV_STAT
  /-- `CG_CFG` (spec/14, R336). -/
  | CG_CFG
  /-- `CG_XGATE` (spec/00, R9). -/
  | CG_XGATE
  /-- `CG_DEF` (spec/14, R336). -/
  | CG_DEF
  /-- `CG_CMD` (spec/14, R336). -/
  | CG_CMD
  /-- `CG_STAT` (spec/14, R336). -/
  | CG_STAT
  /-- `CG_INSTAR` (spec/14, R336). -/
  | CG_INSTAR
  /-- `CG_EVT` (spec/14, R336). -/
  | CG_EVT
  /-- `CG_CORE` (spec/14, R336). -/
  | CG_CORE
  /-- `IC_STAT` (spec/15, R386). -/
  | IC_STAT
  /-- `IC_SWI_SET` (spec/15, R386). -/
  | IC_SWI_SET
  /-- `IC_XGATE` (spec/00, R9). -/
  | IC_XGATE
  /-- `IC_SRC` (spec/15, R371). -/
  | IC_SRC
  /-- `IC_TCTL` (spec/15, R386). -/
  | IC_TCTL
  /-- `IC_CLAIM` (spec/15, R381). -/
  | IC_CLAIM
  /-- `IC_COMPLETE` (spec/15, R387). -/
  | IC_COMPLETE
  /-- `IC_TSTAT` (spec/15, R387). -/
  | IC_TSTAT
  /-- `IC_TOP` (spec/15, R387). -/
  | IC_TOP
  /-- `MC_PCSTAT` (spec/16, R416). -/
  | MC_PCSTAT
  /-- `MC_PCCTL` (spec/16, R416). -/
  | MC_PCCTL
  /-- `MC_ECC` (spec/16, R416). -/
  | MC_ECC
  /-- `MC_SCRUB` (spec/16, R416). -/
  | MC_SCRUB
  /-- `MC_INJ` (spec/16, R416). -/
  | MC_INJ
  /-- `MC_PGEN` (spec/16, R416). -/
  | MC_PGEN
  /-- `MC_PGADDR` (spec/16, R416). -/
  | MC_PGADDR
  /-- `MC_PATD` (spec/16, R416). -/
  | MC_PATD
  /-- `MC_LERR` (spec/16, R416). -/
  | MC_LERR
  /-- `MC_LERRX` (spec/16, R416). -/
  | MC_LERRX
  /-- `MC_MISR` (spec/16, R416). -/
  | MC_MISR
  /-- `MC_MISRX` (spec/16, R416). -/
  | MC_MISRX
  /-- `MC_STK` (spec/16, R416). -/
  | MC_STK
  /-- `MC_TIM0` (spec/16, R416). -/
  | MC_TIM0
  /-- `MC_TIM1` (spec/16, R416). -/
  | MC_TIM1
  /-- `MC_1500` (spec/16, R416). -/
  | MC_1500
  /-- `MC_1500D` (spec/16, R416). -/
  | MC_1500D
  /-- `MC_RAWCMD` (spec/16, R416). -/
  | MC_RAWCMD
  /-- `MC_CDLY` (spec/16, R416). -/
  | MC_CDLY
  /-- `MC_LDLY` (spec/16, R416). -/
  | MC_LDLY
  /-- `MC_ILV` (spec/16, R416). -/
  | MC_ILV
  /-- `MC_HINT` (spec/16, R416). -/
  | MC_HINT
  /-- `MC_MIR` (spec/16, R416). -/
  | MC_MIR
  /-- `MC_XGATE` (spec/00, R9). -/
  | MC_XGATE
  /-- `MC_LLC_CTL` (spec/12, R308). -/
  | MC_LLC_CTL
  /-- `MC_LLC_STAT` (spec/12, R308). -/
  | MC_LLC_STAT
  /-- `MC_LLC_SECFLUSH` (spec/12, R308). -/
  | MC_LLC_SECFLUSH
  /-- `GR_BANK` (spec/17, R432). -/
  | GR_BANK
  /-- `GR_CMD` (spec/17, R432). -/
  | GR_CMD
  /-- `GR_CONF` (spec/17, R432). -/
  | GR_CONF
  /-- `GR_REPAIR` (spec/17, R432). -/
  | GR_REPAIR
  /-- `PT_CTL` (spec/18, R629). -/
  | PT_CTL
  /-- `PT_STAT` (spec/18, R629). -/
  | PT_STAT
  /-- `PT_SER` (spec/18, R440). -/
  | PT_SER
  /-- `PT_DIAG` (spec/18, R445). -/
  | PT_DIAG
  /-- `PT_MMD` (spec/18, R436). -/
  | PT_MMD
  /-- `PT_LANE` (spec/18, R447). -/
  | PT_LANE
  /-- `PT_FEC` (spec/18, R447). -/
  | PT_FEC
  /-- `PT_GCL` (spec/18, R449). -/
  | PT_GCL
  /-- `PT_GCTL` (spec/18, R449). -/
  | PT_GCTL
  /-- `PT_CBS` (spec/18, R452). -/
  | PT_CBS
  /-- `PT_CBC` (spec/18, R452). -/
  | PT_CBC
  /-- `PT_XGATE` (spec/00, R9). -/
  | PT_XGATE
  /-- `PT_SVC_CTL` (spec/18, R455). -/
  | PT_SVC_CTL
  /-- `PT_SVC_RXB` (spec/18, R455). -/
  | PT_SVC_RXB
  /-- `PT_SVC_TXB` (spec/18, R455). -/
  | PT_SVC_TXB
  /-- `PT_SVC_IDX` (spec/18, R455). -/
  | PT_SVC_IDX
  /-- `PT_MDIO` (spec/18, R455). -/
  | PT_MDIO
  /-- `PT_GPIO` (spec/18, R456). -/
  | PT_GPIO
  /-- `PT_GPIO_OSET` (spec/18, R456). -/
  | PT_GPIO_OSET
  /-- `PT_GPIO_OCLR` (spec/18, R456). -/
  | PT_GPIO_OCLR
  /-- `SP_THR` (spec/19, R469). -/
  | SP_THR
  /-- `SP_START` (spec/19, R469). -/
  | SP_START
  /-- `SP_ARG` (spec/19, R469). -/
  | SP_ARG
  /-- `SP_FAULT` (spec/19, R469). -/
  | SP_FAULT
  /-- `SP_FADDR` (spec/19, R469). -/
  | SP_FADDR
  /-- `QE_FM_CMD` (spec/19, R493). -/
  | QE_FM_CMD
  /-- `QE_FM_RES` (spec/19, R493). -/
  | QE_FM_RES
  /-- `QE_FM_STAT` (spec/19, R493). -/
  | QE_FM_STAT
  /-- `QE_MISS` (spec/19, R493). -/
  | QE_MISS
  /-- `QE_CFG` (spec/19, R482). -/
  | QE_CFG
  /-- `QE_HOST` (spec/19, R482). -/
  | QE_HOST
  /-- `QE_PTR` (spec/19, R483). -/
  | QE_PTR
  /-- `QE_STAT` (spec/19, R484). -/
  | QE_STAT
  /-- `QE_DMA_CTL` (spec/19, R493). -/
  | QE_DMA_CTL
  /-- `QE_DMA_STAT` (spec/19, R499). -/
  | QE_DMA_STAT
  /-- `QE_DMA_ERR` (spec/19, R499). -/
  | QE_DMA_ERR
  /-- `CK_OWN` (spec/21, R524). -/
  | CK_OWN
  /-- `CK_CMD` (spec/21, R524). -/
  | CK_CMD
  /-- `CK_STAT` (spec/21, R524). -/
  | CK_STAT
  /-- `CK_MSG` (spec/21, R524). -/
  | CK_MSG
  /-- `CK_FWA` (spec/21, R530). -/
  | CK_FWA
  /-- `CK_FWB` (spec/21, R530). -/
  | CK_FWB
  /-- `CK_FWCTL` (spec/21, R530). -/
  | CK_FWCTL
  /-- `CK_FWLAST` (spec/21, R530). -/
  | CK_FWLAST
  /-- `CK_GFWA` (spec/21, R530). -/
  | CK_GFWA
  /-- `CK_GFWB` (spec/21, R530). -/
  | CK_GFWB
  /-- `CK_GFWCTL` (spec/21, R530). -/
  | CK_GFWCTL
  /-- `CK_GFWLAST` (spec/21, R530). -/
  | CK_GFWLAST
  /-- `CK_CSTAT` (spec/21, R538). -/
  | CK_CSTAT
  /-- `CK_NOTE` (spec/21, R538). -/
  | CK_NOTE
  /-- `TR_AUTH` (spec/22, R542). -/
  | TR_AUTH
  /-- `TR_SINK_CTL` (spec/22, R553). -/
  | TR_SINK_CTL
  /-- `TR_SINK_BASE` (spec/22, R553). -/
  | TR_SINK_BASE
  /-- `TR_SINK_STAT` (spec/22, R553). -/
  | TR_SINK_STAT
  /-- `TR_STAGE` (spec/22, R553). -/
  | TR_STAGE
  /-- `TR_DBG` (spec/22, R560). -/
  | TR_DBG
  /-- `TR_DSEL` (spec/22, R562). -/
  | TR_DSEL
  /-- `TR_DDATA` (spec/22, R562). -/
  | TR_DDATA
  /-- `TR_SDBG` (spec/22, R566). -/
  | TR_SDBG
  /-- `TR_SDSEL` (spec/22, R566). -/
  | TR_SDSEL
  /-- `TR_SDDATA` (spec/22, R566). -/
  | TR_SDDATA
  /-- `TR_SBRK` (spec/22, R566). -/
  | TR_SBRK
  /-- `PM_GCTL` (spec/23, R576). -/
  | PM_GCTL
  /-- `PM_GSTAT` (spec/23, R576). -/
  | PM_GSTAT
  /-- `PM_GSNAPTS` (spec/23, R576). -/
  | PM_GSNAPTS
  /-- `PM_CSTAT` (spec/23, R580). -/
  | PM_CSTAT
  /-- `PM_CCNT` (spec/23, R580). -/
  | PM_CCNT
  /-- `PM_CSNAP` (spec/23, R580). -/
  | PM_CSNAP
  /-- `PM_CEV` (spec/23, R580). -/
  | PM_CEV
  /-- `PM_CCTL` (spec/23, R580). -/
  | PM_CCTL
  /-- `PM_LSEL` (spec/23, R574). -/
  | PM_LSEL
  /-- `PM_LCNT` (spec/23, R574). -/
  | PM_LCNT
  /-- `PM_LSNAP` (spec/23, R580). -/
  | PM_LSNAP
  /-- `PM_HSEL` (spec/23, R574). -/
  | PM_HSEL
  /-- `PM_HCNT` (spec/23, R574). -/
  | PM_HCNT
  /-- `PM_HSNAP` (spec/23, R580). -/
  | PM_HSNAP
  /-- `ER_UCTL` (spec/25, R602). -/
  | ER_UCTL
  /-- `ER_INJ` (spec/25, R613). -/
  | ER_INJ
  /-- `ER_XGATE` (spec/00, R9). -/
  | ER_XGATE
  /-- `ER_STATUS` (spec/25, R603). -/
  | ER_STATUS
  /-- `ER_ADDR` (spec/25, R603). -/
  | ER_ADDR
  /-- `ER_TFIRST` (spec/25, R603). -/
  | ER_TFIRST
  /-- `ER_TLAST` (spec/25, R603). -/
  | ER_TLAST
  /-- `ER_DATA` (spec/25, R603). -/
  | ER_DATA
  /-- `ER_WDOG` (spec/25, R616). -/
  | ER_WDOG
  /-- `BT_STAT` (spec/24, R599). -/
  | BT_STAT
  /-- `BT_RST` (spec/24, R599). -/
  | BT_RST
  /-- `BT_ENTRY` (spec/24, R599). -/
  | BT_ENTRY
  /-- `BT_VER` (spec/24, R599). -/
  | BT_VER
  /-- `BT_FUSEOPT` (spec/24, R599). -/
  | BT_FUSEOPT
  /-- `BT_UID` (spec/24, R599). -/
  | BT_UID
  /-- `BT_CREL` (spec/24, R599). -/
  | BT_CREL
  /-- `BT_LOWN` (spec/02, R38). -/
  | BT_LOWN
  deriving DecidableEq, Repr

/-- A field of a CSR: the register, its bits, its access code and its reset value (R5, R6). -/
structure Fld where
  reg : Reg
  hi  : Nat
  lo  : Nat
  acc : Acc
  rst : Nat
  deriving DecidableEq, Repr

/-- A field of a core system register: the register's number, its bits, access code and reset value. -/
structure CsFld where
  csn : Nat
  hi  : Nat
  lo  : Nat
  acc : Acc
  rst : Nat
  deriving DecidableEq, Repr

/-! ## Fields, named `Fld.<register>_<field>` as the tables of spec/ name them. -/

def Fld.PW_INSTAT_PFW : Fld := ⟨.PW_INSTAT, 16, 16, .ro, 0⟩
def Fld.PW_INSTAT_VIN : Fld := ⟨.PW_INSTAT, 15, 0, .ro, 0⟩

def Fld.PW_PFLOG_LAST_CAUSE : Fld := ⟨.PW_PFLOG, 47, 40, .ro, 0⟩
def Fld.PW_PFLOG_PF_CNT : Fld := ⟨.PW_PFLOG, 39, 32, .ro, 0⟩
def Fld.PW_PFLOG_OV_TRIP_CNT : Fld := ⟨.PW_PFLOG, 31, 24, .ro, 0⟩
def Fld.PW_PFLOG_OV_CNT : Fld := ⟨.PW_PFLOG, 23, 16, .ro, 0⟩
def Fld.PW_PFLOG_DIP_CNT : Fld := ⟨.PW_PFLOG, 15, 0, .ro, 0⟩

def Fld.PW_THERM_T_WARN : Fld := ⟨.PW_THERM, 15, 8, .rw, 100⟩
def Fld.PW_THERM_T_CRIT : Fld := ⟨.PW_THERM, 7, 0, .xrw, 105⟩

def Fld.PW_HOLD_ISL_STACK : Fld := ⟨.PW_HOLD_ISL, 28, 25, .rw, 0⟩
def Fld.PW_HOLD_ISL_ISL : Fld := ⟨.PW_HOLD_ISL, 22, 0, .rw, 0⟩

def Fld.PW_HOLD_GR_BANK : Fld := ⟨.PW_HOLD_GR, 63, 0, .rw, 0⟩

def Fld.PW_XGATE_DENIED : Fld := ⟨.PW_XGATE, 18, 18, .w1c, 0⟩
def Fld.PW_XGATE_STATE : Fld := ⟨.PW_XGATE, 17, 16, .ro, 0⟩
def Fld.PW_XGATE_KEY : Fld := ⟨.PW_XGATE, 15, 0, .wo, 0⟩

def Fld.PW_VSET_VFRAC : Fld := ⟨.PW_VSET, 11, 8, .xrw, 0⟩
def Fld.PW_VSET_VCODE : Fld := ⟨.PW_VSET, 7, 0, .xrw, 170⟩

def Fld.PW_RCTL_RTARGET : Fld := ⟨.PW_RCTL, 31, 12, .xrw, 160000⟩
def Fld.PW_RCTL_MODE : Fld := ⟨.PW_RCTL, 1, 0, .xrw, 2⟩

def Fld.PW_RATE_RATE : Fld := ⟨.PW_RATE, 51, 32, .ro, 0⟩
def Fld.PW_RATE_WINDOWS : Fld := ⟨.PW_RATE, 31, 16, .ro, 0⟩
def Fld.PW_RATE_PHASE_ERR : Fld := ⟨.PW_RATE, 15, 0, .ro, 0⟩

def Fld.PW_ISTATE_POINT : Fld := ⟨.PW_ISTATE, 23, 16, .ro, 2⟩
def Fld.PW_ISTATE_XOVR : Fld := ⟨.PW_ISTATE, 15, 15, .ro, 0⟩
def Fld.PW_ISTATE_LOCKED : Fld := ⟨.PW_ISTATE, 14, 14, .ro, 0⟩
def Fld.PW_ISTATE_LOCK_LOST : Fld := ⟨.PW_ISTATE, 13, 13, .w1c, 0⟩
def Fld.PW_ISTATE_CAPPED : Fld := ⟨.PW_ISTATE, 12, 12, .ro, 0⟩
def Fld.PW_ISTATE_HELD : Fld := ⟨.PW_ISTATE, 11, 11, .ro, 0⟩
def Fld.PW_ISTATE_LAST_ENTRY : Fld := ⟨.PW_ISTATE, 5, 4, .ro, 0⟩
def Fld.PW_ISTATE_STATE : Fld := ⟨.PW_ISTATE, 3, 0, .ro, 0⟩

def Fld.PW_TEMP_TJ : Fld := ⟨.PW_TEMP, 9, 0, .ro, 0⟩

def Fld.TB_NOW_LO_SECLO : Fld := ⟨.TB_NOW_LO, 63, 32, .ro, 0⟩
def Fld.TB_NOW_LO_FRAC : Fld := ⟨.TB_NOW_LO, 31, 0, .ro, 0⟩

def Fld.TB_NOW_HI_GEN : Fld := ⟨.TB_NOW_HI, 31, 16, .ro, 0⟩
def Fld.TB_NOW_HI_SECHI : Fld := ⟨.TB_NOW_HI, 15, 0, .ro, 0⟩

def Fld.TB_CTL_PPSIN_EN : Fld := ⟨.TB_CTL, 7, 7, .rw, 0⟩
def Fld.TB_CTL_PPS_POL : Fld := ⟨.TB_CTL, 6, 6, .rw, 0⟩
def Fld.TB_CTL_REFSEL : Fld := ⟨.TB_CTL, 3, 2, .rw, 0⟩
def Fld.TB_CTL_DISC : Fld := ⟨.TB_CTL, 1, 0, .rw, 0⟩

def Fld.TB_STAT_REJ_CNT : Fld := ⟨.TB_STAT, 23, 8, .ro, 0⟩
def Fld.TB_STAT_XOVR : Fld := ⟨.TB_STAT, 7, 7, .ro, 0⟩
def Fld.TB_STAT_HOLDOVER : Fld := ⟨.TB_STAT, 6, 6, .ro, 0⟩
def Fld.TB_STAT_PPS_LOST : Fld := ⟨.TB_STAT, 5, 5, .ro, 1⟩
def Fld.TB_STAT_REF_LOST : Fld := ⟨.TB_STAT, 4, 4, .w1c, 0⟩
def Fld.TB_STAT_SLEW_BUSY : Fld := ⟨.TB_STAT, 3, 3, .ro, 0⟩

def Fld.TB_ADDEND_ADDEND : Fld := ⟨.TB_ADDEND, 63, 0, .xrw, 46116860184⟩

def Fld.TB_SLEW_NOW : Fld := ⟨.TB_SLEW, 40, 40, .xrw, 0⟩
def Fld.TB_SLEW_STATUS : Fld := ⟨.TB_SLEW, 39, 32, .ro, 0⟩
def Fld.TB_SLEW_AMOUNT : Fld := ⟨.TB_SLEW, 31, 0, .xrw, 0⟩

def Fld.TB_SECSET_PENDING : Fld := ⟨.TB_SECSET, 48, 48, .ro, 0⟩
def Fld.TB_SECSET_SEC : Fld := ⟨.TB_SECSET, 47, 0, .rw, 0⟩

def Fld.TB_PPSCAP_CNT : Fld := ⟨.TB_PPSCAP, 63, 48, .ro, 0⟩
def Fld.TB_PPSCAP_SEC : Fld := ⟨.TB_PPSCAP, 47, 32, .ro, 0⟩
def Fld.TB_PPSCAP_FRAC : Fld := ⟨.TB_PPSCAP, 31, 0, .ro, 0⟩

def Fld.TB_PPSOUT_WIDTH : Fld := ⟨.TB_PPSOUT, 41, 32, .rw, 100⟩
def Fld.TB_PPSOUT_OFFSET : Fld := ⟨.TB_PPSOUT, 31, 0, .rw, 0⟩

def Fld.TB_XGATE_DENIED : Fld := ⟨.TB_XGATE, 18, 18, .w1c, 0⟩
def Fld.TB_XGATE_STATE : Fld := ⟨.TB_XGATE, 17, 16, .ro, 0⟩
def Fld.TB_XGATE_KEY : Fld := ⟨.TB_XGATE, 15, 0, .wo, 0⟩

def Fld.TB_CMP_OWN_LAST_SRC : Fld := ⟨.TB_CMP_OWN, 43, 32, .ro, 0⟩
def Fld.TB_CMP_OWN_LAST_STATUS : Fld := ⟨.TB_CMP_OWN, 31, 24, .ro, 0⟩
def Fld.TB_CMP_OWN_OWN_SRC : Fld := ⟨.TB_CMP_OWN, 23, 12, .ro, 0⟩
def Fld.TB_CMP_OWN_FORCE : Fld := ⟨.TB_CMP_OWN, 8, 8, .wo, 0⟩
def Fld.TB_CMP_OWN_CLAIM : Fld := ⟨.TB_CMP_OWN, 0, 0, .rw, 0⟩

def Fld.TB_CMP_TGT_SEC : Fld := ⟨.TB_CMP_TGT, 47, 32, .rw, 0⟩
def Fld.TB_CMP_TGT_FRAC : Fld := ⟨.TB_CMP_TGT, 31, 0, .rw, 0⟩

def Fld.TB_CMP_PER_PERIOD : Fld := ⟨.TB_CMP_PER, 47, 0, .rw, 0⟩

def Fld.TB_CMP_CTL_FIRES : Fld := ⟨.TB_CMP_CTL, 31, 24, .ro, 0⟩
def Fld.TB_CMP_CTL_DEST : Fld := ⟨.TB_CMP_CTL, 15, 8, .rw, 0⟩
def Fld.TB_CMP_CTL_LATE : Fld := ⟨.TB_CMP_CTL, 7, 7, .w1c, 0⟩
def Fld.TB_CMP_CTL_ROUTE : Fld := ⟨.TB_CMP_CTL, 5, 4, .rw, 0⟩
def Fld.TB_CMP_CTL_EN : Fld := ⟨.TB_CMP_CTL, 0, 0, .rw, 0⟩

def Fld.RV_OWN_LAST_SRC : Fld := ⟨.RV_OWN, 43, 32, .ro, 0⟩
def Fld.RV_OWN_LAST_STATUS : Fld := ⟨.RV_OWN, 31, 24, .ro, 0⟩
def Fld.RV_OWN_OWN_SRC : Fld := ⟨.RV_OWN, 23, 12, .ro, 0⟩
def Fld.RV_OWN_FORCE : Fld := ⟨.RV_OWN, 8, 8, .wo, 0⟩
def Fld.RV_OWN_CLAIM : Fld := ⟨.RV_OWN, 0, 0, .rw, 0⟩

def Fld.RV_CMD_TMO : Fld := ⟨.RV_CMD, 23, 8, .rw, 0⟩
def Fld.RV_CMD_CODE : Fld := ⟨.RV_CMD, 7, 0, .rw, 0⟩

def Fld.RV_ARG0_VALUE : Fld := ⟨.RV_ARG0, 63, 0, .rw, 0⟩

def Fld.RV_ARG1_VALUE : Fld := ⟨.RV_ARG1, 63, 0, .rw, 0⟩

def Fld.RV_RES0_VALUE : Fld := ⟨.RV_RES0, 63, 0, .ro, 0⟩

def Fld.RV_RES1_VALUE : Fld := ⟨.RV_RES1, 63, 0, .ro, 0⟩

def Fld.RV_STAT_LATE_CNT : Fld := ⟨.RV_STAT, 31, 24, .ro, 0⟩
def Fld.RV_STAT_SEQ : Fld := ⟨.RV_STAT, 23, 16, .ro, 0⟩
def Fld.RV_STAT_STATUS : Fld := ⟨.RV_STAT, 15, 8, .ro, 0⟩
def Fld.RV_STAT_WR_BUSY : Fld := ⟨.RV_STAT, 7, 7, .w1c, 0⟩
def Fld.RV_STAT_IRQ_EN : Fld := ⟨.RV_STAT, 6, 6, .rw, 0⟩
def Fld.RV_STAT_STATE : Fld := ⟨.RV_STAT, 2, 0, .ro, 0⟩

def Fld.CG_CFG_DLIMIT : Fld := ⟨.CG_CFG, 15, 0, .xrw, 64⟩

def Fld.CG_XGATE_DENIED : Fld := ⟨.CG_XGATE, 18, 18, .w1c, 0⟩
def Fld.CG_XGATE_STATE : Fld := ⟨.CG_XGATE, 17, 16, .ro, 0⟩
def Fld.CG_XGATE_KEY : Fld := ⟨.CG_XGATE, 15, 0, .wo, 0⟩

def Fld.CG_DEF_ILIMIT : Fld := ⟨.CG_DEF, 60, 48, .rw, 512⟩
def Fld.CG_DEF_HOME : Fld := ⟨.CG_DEF, 38, 32, .rw, 127⟩
def Fld.CG_DEF_PRIMARY : Fld := ⟨.CG_DEF, 27, 26, .rw, 0⟩
def Fld.CG_DEF_SIZE : Fld := ⟨.CG_DEF, 25, 24, .rw, 0⟩
def Fld.CG_DEF_M2 : Fld := ⟨.CG_DEF, 23, 16, .rw, 0⟩
def Fld.CG_DEF_M1 : Fld := ⟨.CG_DEF, 15, 8, .rw, 0⟩
def Fld.CG_DEF_M0 : Fld := ⟨.CG_DEF, 7, 0, .rw, 0⟩

def Fld.CG_CMD_CORE : Fld := ⟨.CG_CMD, 15, 8, .wo, 0⟩
def Fld.CG_CMD_OP : Fld := ⟨.CG_CMD, 3, 0, .wo, 0⟩

def Fld.CG_STAT_HOME_EFF : Fld := ⟨.CG_STAT, 55, 48, .ro, 0⟩
def Fld.CG_STAT_SIZE_EFF : Fld := ⟨.CG_STAT, 47, 46, .ro, 0⟩
def Fld.CG_STAT_PRIM : Fld := ⟨.CG_STAT, 45, 44, .ro, 0⟩
def Fld.CG_STAT_QUAR : Fld := ⟨.CG_STAT, 42, 40, .ro, 0⟩
def Fld.CG_STAT_LAST_SRC : Fld := ⟨.CG_STAT, 39, 28, .ro, 0⟩
def Fld.CG_STAT_LAST_STATUS : Fld := ⟨.CG_STAT, 23, 16, .ro, 0⟩
def Fld.CG_STAT_FAIL_CAUSE : Fld := ⟨.CG_STAT, 11, 8, .ro, 0⟩
def Fld.CG_STAT_ACTIVE : Fld := ⟨.CG_STAT, 5, 3, .ro, 0⟩
def Fld.CG_STAT_STATE : Fld := ⟨.CG_STAT, 2, 0, .ro, 0⟩

def Fld.CG_INSTAR_COUNT : Fld := ⟨.CG_INSTAR, 47, 0, .ro, 0⟩

def Fld.CG_EVT_LATE : Fld := ⟨.CG_EVT, 47, 32, .ro, 0⟩
def Fld.CG_EVT_QUARANTINES : Fld := ⟨.CG_EVT, 31, 16, .ro, 0⟩
def Fld.CG_EVT_ROLLBACKS : Fld := ⟨.CG_EVT, 15, 0, .ro, 0⟩

def Fld.CG_CORE_ROLE : Fld := ⟨.CG_CORE, 9, 8, .ro, 0⟩
def Fld.CG_CORE_IN : Fld := ⟨.CG_CORE, 7, 7, .ro, 0⟩
def Fld.CG_CORE_GROUP : Fld := ⟨.CG_CORE, 6, 0, .ro, 0⟩

def Fld.IC_STAT_LAST_SRC : Fld := ⟨.IC_STAT, 43, 32, .ro, 0⟩
def Fld.IC_STAT_LAST_STATUS : Fld := ⟨.IC_STAT, 31, 24, .ro, 0⟩
def Fld.IC_STAT_LAST_N : Fld := ⟨.IC_STAT, 13, 0, .ro, 0⟩

def Fld.IC_SWI_SET_NUM : Fld := ⟨.IC_SWI_SET, 9, 0, .wo, 0⟩

def Fld.IC_XGATE_DENIED : Fld := ⟨.IC_XGATE, 18, 18, .w1c, 0⟩
def Fld.IC_XGATE_STATE : Fld := ⟨.IC_XGATE, 17, 16, .ro, 0⟩
def Fld.IC_XGATE_KEY : Fld := ⟨.IC_XGATE, 15, 0, .wo, 0⟩

def Fld.IC_SRC_SEC : Fld := ⟨.IC_SRC, 31, 31, .rw, 0⟩
def Fld.IC_SRC_IN : Fld := ⟨.IC_SRC, 30, 30, .ro, 0⟩
def Fld.IC_SRC_PEND : Fld := ⟨.IC_SRC, 29, 29, .ro, 0⟩
def Fld.IC_SRC_ACT : Fld := ⟨.IC_SRC, 28, 28, .ro, 0⟩
def Fld.IC_SRC_KIND : Fld := ⟨.IC_SRC, 27, 27, .ro, 0⟩
def Fld.IC_SRC_FORCE : Fld := ⟨.IC_SRC, 26, 26, .xrw, 0⟩
def Fld.IC_SRC_GRP : Fld := ⟨.IC_SRC, 21, 21, .rw, 0⟩
def Fld.IC_SRC_TARGET : Fld := ⟨.IC_SRC, 20, 12, .rw, 0⟩
def Fld.IC_SRC_EN : Fld := ⟨.IC_SRC, 8, 8, .rw, 0⟩
def Fld.IC_SRC_PRIO : Fld := ⟨.IC_SRC, 4, 0, .rw, 0⟩

def Fld.IC_TCTL_TORBER : Fld := ⟨.IC_TCTL, 8, 8, .rw, 0⟩
def Fld.IC_TCTL_THRESH : Fld := ⟨.IC_TCTL, 4, 0, .rw, 0⟩

def Fld.IC_CLAIM_VALID : Fld := ⟨.IC_CLAIM, 31, 31, .ro, 0⟩
def Fld.IC_CLAIM_SRC : Fld := ⟨.IC_CLAIM, 13, 0, .ro, 0⟩

def Fld.IC_COMPLETE_SRC : Fld := ⟨.IC_COMPLETE, 13, 0, .wo, 0⟩

def Fld.IC_TSTAT_OOC_CNT : Fld := ⟨.IC_TSTAT, 47, 40, .ro, 0⟩
def Fld.IC_TSTAT_SPUR_CNT : Fld := ⟨.IC_TSTAT, 39, 32, .ro, 0⟩
def Fld.IC_TSTAT_LAST_STATUS : Fld := ⟨.IC_TSTAT, 31, 24, .ro, 0⟩
def Fld.IC_TSTAT_DEPTH : Fld := ⟨.IC_TSTAT, 20, 16, .ro, 0⟩
def Fld.IC_TSTAT_RPRIO : Fld := ⟨.IC_TSTAT, 12, 8, .ro, 0⟩
def Fld.IC_TSTAT_LEVEL : Fld := ⟨.IC_TSTAT, 0, 0, .ro, 0⟩

def Fld.IC_TOP_PRIO : Fld := ⟨.IC_TOP, 20, 16, .ro, 0⟩
def Fld.IC_TOP_SRC : Fld := ⟨.IC_TOP, 13, 0, .ro, 0⟩

def Fld.MC_PCSTAT_LAST_STATUS : Fld := ⟨.MC_PCSTAT, 39, 32, .ro, 0⟩
def Fld.MC_PCSTAT_WRQ : Fld := ⟨.MC_PCSTAT, 31, 24, .ro, 0⟩
def Fld.MC_PCSTAT_RDQ : Fld := ⟨.MC_PCSTAT, 23, 16, .ro, 0⟩
def Fld.MC_PCSTAT_SIDIDLE : Fld := ⟨.MC_PCSTAT, 10, 8, .ro, 0⟩
def Fld.MC_PCSTAT_PD : Fld := ⟨.MC_PCSTAT, 7, 7, .ro, 0⟩
def Fld.MC_PCSTAT_DONE : Fld := ⟨.MC_PCSTAT, 2, 2, .ro, 1⟩
def Fld.MC_PCSTAT_STATE : Fld := ⟨.MC_PCSTAT, 1, 0, .ro, 0⟩

def Fld.MC_PCCTL_PAGE_TMO : Fld := ⟨.MC_PCCTL, 47, 32, .rw, 32⟩
def Fld.MC_PCCTL_PD_TMO : Fld := ⟨.MC_PCCTL, 31, 16, .rw, 100⟩
def Fld.MC_PCCTL_SETSTATE : Fld := ⟨.MC_PCCTL, 1, 0, .xrw, 0⟩

def Fld.MC_ECC_CE_CNT : Fld := ⟨.MC_ECC, 47, 24, .ro, 0⟩
def Fld.MC_ECC_UE_CNT : Fld := ⟨.MC_ECC, 23, 8, .ro, 0⟩
def Fld.MC_ECC_PSN_CNT : Fld := ⟨.MC_ECC, 7, 0, .ro, 0⟩

def Fld.MC_SCRUB_POS : Fld := ⟨.MC_SCRUB, 46, 32, .ro, 0⟩
def Fld.MC_SCRUB_PERIOD : Fld := ⟨.MC_SCRUB, 23, 16, .rw, 24⟩
def Fld.MC_SCRUB_DEMAND : Fld := ⟨.MC_SCRUB, 1, 1, .rw, 1⟩
def Fld.MC_SCRUB_EN : Fld := ⟨.MC_SCRUB, 0, 0, .rw, 1⟩

def Fld.MC_INJ_SYMB : Fld := ⟨.MC_INJ, 31, 24, .xrw, 255⟩
def Fld.MC_INJ_SYMA : Fld := ⟨.MC_INJ, 23, 16, .xrw, 0⟩
def Fld.MC_INJ_MASKB : Fld := ⟨.MC_INJ, 15, 12, .xrw, 0⟩
def Fld.MC_INJ_MASKA : Fld := ⟨.MC_INJ, 11, 8, .xrw, 0⟩
def Fld.MC_INJ_ONREAD : Fld := ⟨.MC_INJ, 1, 1, .xrw, 0⟩
def Fld.MC_INJ_ARM : Fld := ⟨.MC_INJ, 0, 0, .xrw, 0⟩

def Fld.MC_PGEN_COUNT : Fld := ⟨.MC_PGEN, 47, 32, .xrw, 1⟩
def Fld.MC_PGEN_PATTERN : Fld := ⟨.MC_PGEN, 19, 16, .xrw, 0⟩
def Fld.MC_PGEN_LOOP : Fld := ⟨.MC_PGEN, 11, 10, .xrw, 0⟩
def Fld.MC_PGEN_OP : Fld := ⟨.MC_PGEN, 9, 8, .xrw, 0⟩
def Fld.MC_PGEN_GO : Fld := ⟨.MC_PGEN, 0, 0, .xrw, 0⟩

def Fld.MC_PGADDR_SID : Fld := ⟨.MC_PGADDR, 29, 28, .xrw, 0⟩
def Fld.MC_PGADDR_BANK : Fld := ⟨.MC_PGADDR, 27, 24, .xrw, 0⟩
def Fld.MC_PGADDR_ROW : Fld := ⟨.MC_PGADDR, 23, 9, .xrw, 0⟩
def Fld.MC_PGADDR_COL : Fld := ⟨.MC_PGADDR, 8, 4, .xrw, 0⟩

def Fld.MC_PATD_VALUE : Fld := ⟨.MC_PATD, 63, 0, .xrw, 0⟩

def Fld.MC_LERR_LANES : Fld := ⟨.MC_LERR, 63, 0, .w1c, 0⟩

def Fld.MC_LERRX_LANES : Fld := ⟨.MC_LERRX, 15, 0, .w1c, 0⟩

def Fld.MC_MISR_VALUE : Fld := ⟨.MC_MISR, 63, 0, .ro, 0⟩

def Fld.MC_MISRX_VALUE : Fld := ⟨.MC_MISRX, 15, 0, .ro, 0⟩

def Fld.MC_STK_TEMP : Fld := ⟨.MC_STK, 47, 40, .ro, 0⟩
def Fld.MC_STK_LAST_STATUS : Fld := ⟨.MC_STK, 39, 32, .ro, 0⟩
def Fld.MC_STK_REFSCALE : Fld := ⟨.MC_STK, 9, 8, .ro, 0⟩
def Fld.MC_STK_REFMODE : Fld := ⟨.MC_STK, 5, 5, .xrw, 1⟩
def Fld.MC_STK_PWR : Fld := ⟨.MC_STK, 0, 0, .xrw, 0⟩

def Fld.MC_TIM0_tREFI : Fld := ⟨.MC_TIM0, 63, 48, .xrw, 6240⟩
def Fld.MC_TIM0_tRAS : Fld := ⟨.MC_TIM0, 47, 40, .xrw, 54⟩
def Fld.MC_TIM0_tRCD : Fld := ⟨.MC_TIM0, 39, 32, .xrw, 23⟩
def Fld.MC_TIM0_tRP : Fld := ⟨.MC_TIM0, 31, 24, .xrw, 23⟩
def Fld.MC_TIM0_tFAW : Fld := ⟨.MC_TIM0, 23, 16, .xrw, 26⟩
def Fld.MC_TIM0_tRRD_L : Fld := ⟨.MC_TIM0, 15, 8, .xrw, 6⟩
def Fld.MC_TIM0_tRRD_S : Fld := ⟨.MC_TIM0, 7, 0, .xrw, 4⟩

def Fld.MC_TIM1_tRFC : Fld := ⟨.MC_TIM1, 39, 28, .xrw, 560⟩
def Fld.MC_TIM1_tRFCSB : Fld := ⟨.MC_TIM1, 27, 16, .xrw, 256⟩
def Fld.MC_TIM1_tWR : Fld := ⟨.MC_TIM1, 15, 8, .xrw, 26⟩
def Fld.MC_TIM1_tCCD_L : Fld := ⟨.MC_TIM1, 7, 0, .xrw, 4⟩

def Fld.MC_1500_INSTR : Fld := ⟨.MC_1500, 47, 40, .xrw, 0⟩
def Fld.MC_1500_CHSEL : Fld := ⟨.MC_1500, 39, 36, .xrw, 0⟩
def Fld.MC_1500_LEN : Fld := ⟨.MC_1500, 28, 22, .xrw, 1⟩
def Fld.MC_1500_CONT : Fld := ⟨.MC_1500, 2, 2, .xrw, 0⟩
def Fld.MC_1500_BUSY : Fld := ⟨.MC_1500, 1, 1, .ro, 0⟩
def Fld.MC_1500_GO : Fld := ⟨.MC_1500, 0, 0, .xrw, 0⟩

def Fld.MC_1500D_DATA : Fld := ⟨.MC_1500D, 63, 0, .xrw, 0⟩

def Fld.MC_RAWCMD_GO : Fld := ⟨.MC_RAWCMD, 63, 63, .xrw, 0⟩
def Fld.MC_RAWCMD_CH : Fld := ⟨.MC_RAWCMD, 59, 56, .xrw, 0⟩
def Fld.MC_RAWCMD_BUS : Fld := ⟨.MC_RAWCMD, 55, 55, .xrw, 0⟩
def Fld.MC_RAWCMD_BITS : Fld := ⟨.MC_RAWCMD, 23, 0, .xrw, 0⟩

def Fld.MC_CDLY_WL : Fld := ⟨.MC_CDLY, 47, 40, .xrw, 8⟩
def Fld.MC_CDLY_RL : Fld := ⟨.MC_CDLY, 39, 32, .xrw, 28⟩
def Fld.MC_CDLY_CKD : Fld := ⟨.MC_CDLY, 22, 16, .xrw, 64⟩
def Fld.MC_CDLY_CCMD : Fld := ⟨.MC_CDLY, 14, 8, .xrw, 64⟩
def Fld.MC_CDLY_RCMD : Fld := ⟨.MC_CDLY, 6, 0, .xrw, 64⟩

def Fld.MC_LDLY_WDLY : Fld := ⟨.MC_LDLY, 14, 8, .xrw, 64⟩
def Fld.MC_LDLY_RDLY : Fld := ⟨.MC_LDLY, 6, 0, .xrw, 64⟩

def Fld.MC_ILV_LAST_STATUS : Fld := ⟨.MC_ILV, 39, 32, .ro, 0⟩
def Fld.MC_ILV_MODE : Fld := ⟨.MC_ILV, 0, 0, .rw, 0⟩

def Fld.MC_HINT_DMA : Fld := ⟨.MC_HINT, 5, 5, .rw, 1⟩
def Fld.MC_HINT_SPIN : Fld := ⟨.MC_HINT, 4, 4, .rw, 0⟩
def Fld.MC_HINT_NC : Fld := ⟨.MC_HINT, 3, 3, .rw, 0⟩
def Fld.MC_HINT_WB : Fld := ⟨.MC_HINT, 2, 2, .rw, 0⟩
def Fld.MC_HINT_PF : Fld := ⟨.MC_HINT, 1, 1, .rw, 1⟩
def Fld.MC_HINT_DEM : Fld := ⟨.MC_HINT, 0, 0, .rw, 1⟩

def Fld.MC_MIR_ALT_CNT : Fld := ⟨.MC_MIR, 63, 56, .ro, 0⟩
def Fld.MC_MIR_DIFF_CNT : Fld := ⟨.MC_MIR, 55, 48, .ro, 0⟩
def Fld.MC_MIR_OWNER : Fld := ⟨.MC_MIR, 47, 40, .rw, 255⟩
def Fld.MC_MIR_STATE : Fld := ⟨.MC_MIR, 39, 38, .ro, 0⟩
def Fld.MC_MIR_EN : Fld := ⟨.MC_MIR, 37, 37, .rw, 0⟩
def Fld.MC_MIR_VERIFY : Fld := ⟨.MC_MIR, 36, 36, .rw, 0⟩
def Fld.MC_MIR_PRI : Fld := ⟨.MC_MIR, 35, 35, .rw, 0⟩
def Fld.MC_MIR_PAIR : Fld := ⟨.MC_MIR, 34, 34, .rw, 0⟩
def Fld.MC_MIR_LIMIT : Fld := ⟨.MC_MIR, 26, 16, .rw, 0⟩
def Fld.MC_MIR_BASE : Fld := ⟨.MC_MIR, 10, 0, .rw, 0⟩

def Fld.MC_XGATE_DENIED : Fld := ⟨.MC_XGATE, 18, 18, .w1c, 0⟩
def Fld.MC_XGATE_STATE : Fld := ⟨.MC_XGATE, 17, 16, .ro, 0⟩
def Fld.MC_XGATE_KEY : Fld := ⟨.MC_XGATE, 15, 0, .wo, 0⟩

def Fld.MC_LLC_CTL_OFFER : Fld := ⟨.MC_LLC_CTL, 5, 4, .rw, 0⟩
def Fld.MC_LLC_CTL_MODE : Fld := ⟨.MC_LLC_CTL, 1, 1, .rw, 1⟩
def Fld.MC_LLC_CTL_ALLOC_EN : Fld := ⟨.MC_LLC_CTL, 0, 0, .rw, 1⟩

def Fld.MC_LLC_STAT_DIRTY : Fld := ⟨.MC_LLC_STAT, 47, 32, .ro, 0⟩
def Fld.MC_LLC_STAT_LAST_STATUS : Fld := ⟨.MC_LLC_STAT, 31, 24, .ro, 0⟩
def Fld.MC_LLC_STAT_STATE : Fld := ⟨.MC_LLC_STAT, 19, 18, .ro, 1⟩
def Fld.MC_LLC_STAT_LAST : Fld := ⟨.MC_LLC_STAT, 17, 16, .ro, 0⟩

def Fld.MC_LLC_SECFLUSH_DONE : Fld := ⟨.MC_LLC_SECFLUSH, 8, 8, .ro, 1⟩
def Fld.MC_LLC_SECFLUSH_GO : Fld := ⟨.MC_LLC_SECFLUSH, 0, 0, .wo, 0⟩

def Fld.GR_BANK_LAST_SRC : Fld := ⟨.GR_BANK, 51, 40, .ro, 0⟩
def Fld.GR_BANK_LAST_STATUS : Fld := ⟨.GR_BANK, 39, 32, .ro, 0⟩
def Fld.GR_BANK_NEXT : Fld := ⟨.GR_BANK, 31, 20, .ro, 4095⟩
def Fld.GR_BANK_OWNER : Fld := ⟨.GR_BANK, 19, 8, .ro, 0⟩
def Fld.GR_BANK_SHARE : Fld := ⟨.GR_BANK, 7, 6, .ro, 0⟩
def Fld.GR_BANK_PSTATE : Fld := ⟨.GR_BANK, 5, 4, .ro, 0⟩
def Fld.GR_BANK_STATE : Fld := ⟨.GR_BANK, 1, 0, .ro, 0⟩

def Fld.GR_CMD_CODE : Fld := ⟨.GR_CMD, 43, 32, .wo, 0⟩
def Fld.GR_CMD_SHARE : Fld := ⟨.GR_CMD, 9, 8, .wo, 0⟩
def Fld.GR_CMD_FORCE : Fld := ⟨.GR_CMD, 4, 4, .wo, 0⟩
def Fld.GR_CMD_OP : Fld := ⟨.GR_CMD, 3, 0, .wo, 0⟩

def Fld.GR_CONF_CLR : Fld := ⟨.GR_CONF, 63, 63, .wo, 0⟩
def Fld.GR_CONF_WAIT_CNT : Fld := ⟨.GR_CONF, 59, 40, .ro, 0⟩
def Fld.GR_CONF_HIT_CNT : Fld := ⟨.GR_CONF, 39, 20, .ro, 0⟩
def Fld.GR_CONF_BUSY_CNT : Fld := ⟨.GR_CONF, 19, 0, .ro, 0⟩

def Fld.GR_REPAIR_BAD : Fld := ⟨.GR_REPAIR, 16, 16, .ro, 0⟩
def Fld.GR_REPAIR_USED : Fld := ⟨.GR_REPAIR, 15, 0, .ro, 0⟩

def Fld.PT_CTL_LAST_STATUS : Fld := ⟨.PT_CTL, 39, 32, .ro, 0⟩
def Fld.PT_CTL_SEC : Fld := ⟨.PT_CTL, 31, 31, .rw, 0⟩
def Fld.PT_CTL_EVTEN : Fld := ⟨.PT_CTL, 23, 16, .rw, 0⟩
def Fld.PT_CTL_AUTORETRY : Fld := ⟨.PT_CTL, 12, 12, .rw, 1⟩
def Fld.PT_CTL_TERM : Fld := ⟨.PT_CTL, 11, 11, .rw, 0⟩
def Fld.PT_CTL_BIAS : Fld := ⟨.PT_CTL, 10, 10, .rw, 0⟩
def Fld.PT_CTL_SWAP : Fld := ⟨.PT_CTL, 9, 9, .rw, 0⟩
def Fld.PT_CTL_AMP : Fld := ⟨.PT_CTL, 8, 8, .rw, 1⟩
def Fld.PT_CTL_AN : Fld := ⟨.PT_CTL, 7, 7, .rw, 1⟩
def Fld.PT_CTL_ROLE : Fld := ⟨.PT_CTL, 6, 6, .rw, 0⟩
def Fld.PT_CTL_MODE : Fld := ⟨.PT_CTL, 1, 0, .rw, 0⟩

def Fld.PT_STAT_TX_ABORT : Fld := ⟨.PT_STAT, 23, 23, .w1c, 0⟩
def Fld.PT_STAT_DIAG_DONE : Fld := ⟨.PT_STAT, 22, 22, .w1c, 0⟩
def Fld.PT_STAT_REVERSED : Fld := ⟨.PT_STAT, 21, 21, .w1c, 0⟩
def Fld.PT_STAT_OPEN : Fld := ⟨.PT_STAT, 20, 20, .w1c, 0⟩
def Fld.PT_STAT_SHORT : Fld := ⟨.PT_STAT, 19, 19, .w1c, 0⟩
def Fld.PT_STAT_GND_FAULT : Fld := ⟨.PT_STAT, 18, 18, .w1c, 0⟩
def Fld.PT_STAT_OV_TRIP : Fld := ⟨.PT_STAT, 17, 17, .w1c, 0⟩
def Fld.PT_STAT_LINK_CHG : Fld := ⟨.PT_STAT, 16, 16, .w1c, 0⟩
def Fld.PT_STAT_PFW : Fld := ⟨.PT_STAT, 15, 15, .ro, 0⟩
def Fld.PT_STAT_LOCK_LOST : Fld := ⟨.PT_STAT, 14, 14, .ro, 0⟩
def Fld.PT_STAT_UNAVAIL : Fld := ⟨.PT_STAT, 13, 13, .ro, 1⟩
def Fld.PT_STAT_SW : Fld := ⟨.PT_STAT, 12, 12, .ro, 0⟩
def Fld.PT_STAT_FAULT : Fld := ⟨.PT_STAT, 11, 11, .ro, 0⟩
def Fld.PT_STAT_POL : Fld := ⟨.PT_STAT, 10, 10, .ro, 0⟩
def Fld.PT_STAT_RATE : Fld := ⟨.PT_STAT, 9, 8, .ro, 0⟩
def Fld.PT_STAT_SQI : Fld := ⟨.PT_STAT, 4, 2, .ro, 0⟩
def Fld.PT_STAT_LINK : Fld := ⟨.PT_STAT, 1, 0, .ro, 0⟩

def Fld.PT_SER_GUARD : Fld := ⟨.PT_SER, 39, 36, .rw, 1⟩
def Fld.PT_SER_CODING : Fld := ⟨.PT_SER, 33, 32, .rw, 0⟩
def Fld.PT_SER_STOP : Fld := ⟨.PT_SER, 30, 30, .rw, 0⟩
def Fld.PT_SER_PARITY : Fld := ⟨.PT_SER, 29, 28, .rw, 0⟩
def Fld.PT_SER_DBITS : Fld := ⟨.PT_SER, 27, 26, .rw, 1⟩
def Fld.PT_SER_RATE : Fld := ⟨.PT_SER, 24, 0, .rw, 115200⟩

def Fld.PT_DIAG_GO : Fld := ⟨.PT_DIAG, 63, 63, .wo, 0⟩
def Fld.PT_DIAG_VF : Fld := ⟨.PT_DIAG, 55, 48, .rw, 66⟩
def Fld.PT_DIAG_RESULT : Fld := ⟨.PT_DIAG, 34, 32, .ro, 0⟩
def Fld.PT_DIAG_DIST : Fld := ⟨.PT_DIAG, 31, 16, .ro, 65535⟩
def Fld.PT_DIAG_VP : Fld := ⟨.PT_DIAG, 15, 8, .ro, 0⟩
def Fld.PT_DIAG_VN : Fld := ⟨.PT_DIAG, 7, 0, .ro, 0⟩

def Fld.PT_MMD_GO : Fld := ⟨.PT_MMD, 63, 63, .wo, 0⟩
def Fld.PT_MMD_BUSY : Fld := ⟨.PT_MMD, 62, 62, .ro, 0⟩
def Fld.PT_MMD_WRITE : Fld := ⟨.PT_MMD, 61, 61, .rw, 0⟩
def Fld.PT_MMD_DEVAD : Fld := ⟨.PT_MMD, 52, 48, .rw, 0⟩
def Fld.PT_MMD_REGADDR : Fld := ⟨.PT_MMD, 47, 32, .rw, 0⟩
def Fld.PT_MMD_DATA : Fld := ⟨.PT_MMD, 15, 0, .rw, 0⟩

def Fld.PT_LANE_PRE : Fld := ⟨.PT_LANE, 47, 40, .xrw, 0⟩
def Fld.PT_LANE_POST : Fld := ⟨.PT_LANE, 39, 32, .xrw, 0⟩
def Fld.PT_LANE_MAIN : Fld := ⟨.PT_LANE, 31, 24, .xrw, 64⟩
def Fld.PT_LANE_TXEQ_OVR : Fld := ⟨.PT_LANE, 23, 23, .xrw, 0⟩
def Fld.PT_LANE_FEC_EFF : Fld := ⟨.PT_LANE, 19, 18, .ro, 0⟩
def Fld.PT_LANE_FEC : Fld := ⟨.PT_LANE, 17, 16, .rw, 2⟩
def Fld.PT_LANE_TRAIN : Fld := ⟨.PT_LANE, 0, 0, .rw, 1⟩

def Fld.PT_FEC_CORR : Fld := ⟨.PT_FEC, 63, 32, .ro, 0⟩
def Fld.PT_FEC_UNCORR : Fld := ⟨.PT_FEC, 31, 0, .ro, 0⟩

def Fld.PT_GCL_GATES : Fld := ⟨.PT_GCL, 39, 32, .rw, 255⟩
def Fld.PT_GCL_TIME : Fld := ⟨.PT_GCL, 31, 0, .rw, 0⟩

def Fld.PT_GCTL_CYC_OVR : Fld := ⟨.PT_GCTL, 39, 32, .ro, 0⟩
def Fld.PT_GCTL_OPER_LEN : Fld := ⟨.PT_GCTL, 19, 16, .ro, 0⟩
def Fld.PT_GCTL_ADMIN_LEN : Fld := ⟨.PT_GCTL, 15, 12, .rw, 0⟩
def Fld.PT_GCTL_PEND : Fld := ⟨.PT_GCTL, 9, 9, .rw, 0⟩
def Fld.PT_GCTL_EN : Fld := ⟨.PT_GCTL, 8, 8, .rw, 0⟩
def Fld.PT_GCTL_ENTRY : Fld := ⟨.PT_GCTL, 3, 0, .ro, 0⟩

def Fld.PT_CBS_EN : Fld := ⟨.PT_CBS, 63, 63, .rw, 0⟩
def Fld.PT_CBS_LANES : Fld := ⟨.PT_CBS, 55, 48, .rw, 0⟩
def Fld.PT_CBS_HLEN : Fld := ⟨.PT_CBS, 37, 32, .rw, 8⟩
def Fld.PT_CBS_RESET_TMO : Fld := ⟨.PT_CBS, 31, 16, .rw, 1000⟩
def Fld.PT_CBS_GEN_SEQ : Fld := ⟨.PT_CBS, 15, 0, .rw, 0⟩

def Fld.PT_CBC_PASSED : Fld := ⟨.PT_CBC, 63, 48, .ro, 0⟩
def Fld.PT_CBC_DISCARDED : Fld := ⟨.PT_CBC, 47, 32, .ro, 0⟩
def Fld.PT_CBC_OOO : Fld := ⟨.PT_CBC, 31, 16, .ro, 0⟩
def Fld.PT_CBC_RESETS : Fld := ⟨.PT_CBC, 15, 0, .ro, 0⟩

def Fld.PT_XGATE_DENIED : Fld := ⟨.PT_XGATE, 18, 18, .w1c, 0⟩
def Fld.PT_XGATE_STATE : Fld := ⟨.PT_XGATE, 17, 16, .ro, 0⟩
def Fld.PT_XGATE_KEY : Fld := ⟨.PT_XGATE, 15, 0, .wo, 0⟩

def Fld.PT_SVC_CTL_LAST_STATUS : Fld := ⟨.PT_SVC_CTL, 39, 32, .ro, 0⟩
def Fld.PT_SVC_CTL_SPEED : Fld := ⟨.PT_SVC_CTL, 17, 16, .ro, 0⟩
def Fld.PT_SVC_CTL_LINK : Fld := ⟨.PT_SVC_CTL, 15, 15, .ro, 0⟩
def Fld.PT_SVC_CTL_RXEN : Fld := ⟨.PT_SVC_CTL, 1, 1, .rw, 0⟩
def Fld.PT_SVC_CTL_TXEN : Fld := ⟨.PT_SVC_CTL, 0, 0, .rw, 0⟩

def Fld.PT_SVC_RXB_BASE : Fld := ⟨.PT_SVC_RXB, 47, 12, .rw, 0⟩
def Fld.PT_SVC_RXB_SIZE : Fld := ⟨.PT_SVC_RXB, 3, 0, .rw, 0⟩

def Fld.PT_SVC_TXB_BASE : Fld := ⟨.PT_SVC_TXB, 47, 12, .rw, 0⟩
def Fld.PT_SVC_TXB_SIZE : Fld := ⟨.PT_SVC_TXB, 3, 0, .rw, 0⟩

def Fld.PT_SVC_IDX_TXT : Fld := ⟨.PT_SVC_IDX, 63, 48, .rw, 0⟩
def Fld.PT_SVC_IDX_TXH : Fld := ⟨.PT_SVC_IDX, 47, 32, .ro, 0⟩
def Fld.PT_SVC_IDX_RXT : Fld := ⟨.PT_SVC_IDX, 31, 16, .rw, 0⟩
def Fld.PT_SVC_IDX_RXH : Fld := ⟨.PT_SVC_IDX, 15, 0, .ro, 0⟩

def Fld.PT_MDIO_GO : Fld := ⟨.PT_MDIO, 63, 63, .wo, 0⟩
def Fld.PT_MDIO_BUSY : Fld := ⟨.PT_MDIO, 62, 62, .ro, 0⟩
def Fld.PT_MDIO_C45 : Fld := ⟨.PT_MDIO, 61, 61, .rw, 0⟩
def Fld.PT_MDIO_OP : Fld := ⟨.PT_MDIO, 60, 59, .rw, 0⟩
def Fld.PT_MDIO_PHYAD : Fld := ⟨.PT_MDIO, 57, 53, .rw, 0⟩
def Fld.PT_MDIO_REG : Fld := ⟨.PT_MDIO, 52, 48, .rw, 0⟩
def Fld.PT_MDIO_DATA : Fld := ⟨.PT_MDIO, 15, 0, .rw, 0⟩

def Fld.PT_GPIO_INV : Fld := ⟨.PT_GPIO, 31, 24, .rw, 0⟩
def Fld.PT_GPIO_IN : Fld := ⟨.PT_GPIO, 23, 16, .ro, 0⟩
def Fld.PT_GPIO_OE : Fld := ⟨.PT_GPIO, 15, 8, .rw, 0⟩
def Fld.PT_GPIO_OUT : Fld := ⟨.PT_GPIO, 7, 0, .rw, 0⟩

def Fld.PT_GPIO_OSET_SET : Fld := ⟨.PT_GPIO_OSET, 7, 0, .wo, 0⟩

def Fld.PT_GPIO_OCLR_CLR : Fld := ⟨.PT_GPIO_OCLR, 7, 0, .wo, 0⟩

def Fld.SP_THR_LAST_SRC : Fld := ⟨.SP_THR, 43, 32, .ro, 0⟩
def Fld.SP_THR_LAST_STATUS : Fld := ⟨.SP_THR, 31, 24, .ro, 0⟩
def Fld.SP_THR_STATE : Fld := ⟨.SP_THR, 10, 8, .ro, 0⟩
def Fld.SP_THR_CMD : Fld := ⟨.SP_THR, 1, 0, .wo, 0⟩

def Fld.SP_START_PC : Fld := ⟨.SP_START, 47, 1, .rw, 0⟩

def Fld.SP_ARG_VALUE : Fld := ⟨.SP_ARG, 63, 0, .rw, 0⟩

def Fld.SP_FAULT_TRAPNO : Fld := ⟨.SP_FAULT, 63, 56, .ro, 0⟩
def Fld.SP_FAULT_CAUSE : Fld := ⟨.SP_FAULT, 55, 48, .ro, 0⟩
def Fld.SP_FAULT_PC : Fld := ⟨.SP_FAULT, 47, 1, .ro, 0⟩

def Fld.SP_FADDR_ADDR : Fld := ⟨.SP_FADDR, 47, 0, .ro, 0⟩

def Fld.QE_FM_CMD_KEY : Fld := ⟨.QE_FM_CMD, 63, 32, .wo, 0⟩
def Fld.QE_FM_CMD_TAG : Fld := ⟨.QE_FM_CMD, 31, 16, .wo, 0⟩
def Fld.QE_FM_CMD_PORT : Fld := ⟨.QE_FM_CMD, 15, 8, .wo, 0⟩
def Fld.QE_FM_CMD_QIDX : Fld := ⟨.QE_FM_CMD, 7, 3, .wo, 0⟩
def Fld.QE_FM_CMD_OP : Fld := ⟨.QE_FM_CMD, 2, 0, .wo, 0⟩

def Fld.QE_FM_RES_LAST_SRC : Fld := ⟨.QE_FM_RES, 63, 52, .ro, 0⟩
def Fld.QE_FM_RES_LAST_STATUS : Fld := ⟨.QE_FM_RES, 51, 44, .ro, 0⟩
def Fld.QE_FM_RES_HIT : Fld := ⟨.QE_FM_RES, 43, 43, .ro, 0⟩
def Fld.QE_FM_RES_QIDX : Fld := ⟨.QE_FM_RES, 36, 32, .ro, 0⟩
def Fld.QE_FM_RES_TAG : Fld := ⟨.QE_FM_RES, 31, 16, .ro, 0⟩

def Fld.QE_FM_STAT_FULL_CNT : Fld := ⟨.QE_FM_STAT, 47, 32, .ro, 0⟩
def Fld.QE_FM_STAT_USED : Fld := ⟨.QE_FM_STAT, 13, 0, .ro, 0⟩

def Fld.QE_MISS_CLR : Fld := ⟨.QE_MISS, 63, 63, .wo, 0⟩
def Fld.QE_MISS_MISS : Fld := ⟨.QE_MISS, 31, 0, .ro, 0⟩

def Fld.QE_CFG_SEC : Fld := ⟨.QE_CFG, 63, 63, .rw, 0⟩
def Fld.QE_CFG_EN : Fld := ⟨.QE_CFG, 53, 53, .rw, 0⟩
def Fld.QE_CFG_DIR : Fld := ⟨.QE_CFG, 52, 52, .rw, 0⟩
def Fld.QE_CFG_SIZE : Fld := ⟨.QE_CFG, 51, 48, .rw, 0⟩
def Fld.QE_CFG_BASE : Fld := ⟨.QE_CFG, 47, 5, .rw, 0⟩

def Fld.QE_HOST_COAL : Fld := ⟨.QE_HOST, 47, 32, .rw, 0⟩
def Fld.QE_HOST_THRESH : Fld := ⟨.QE_HOST, 27, 16, .rw, 1⟩
def Fld.QE_HOST_OWNER : Fld := ⟨.QE_HOST, 11, 0, .rw, 0⟩

def Fld.QE_PTR_TAIL : Fld := ⟨.QE_PTR, 63, 48, .rw, 0⟩
def Fld.QE_PTR_HEAD : Fld := ⟨.QE_PTR, 47, 32, .rw, 0⟩
def Fld.QE_PTR_LAST_STATUS : Fld := ⟨.QE_PTR, 31, 24, .ro, 0⟩
def Fld.QE_PTR_LAST_SRC : Fld := ⟨.QE_PTR, 23, 12, .ro, 0⟩

def Fld.QE_STAT_DROP : Fld := ⟨.QE_STAT, 63, 48, .ro, 0⟩
def Fld.QE_STAT_ENTRIES : Fld := ⟨.QE_STAT, 28, 16, .ro, 0⟩
def Fld.QE_STAT_LAST_CAUSE : Fld := ⟨.QE_STAT, 5, 4, .ro, 0⟩
def Fld.QE_STAT_ARMED : Fld := ⟨.QE_STAT, 1, 1, .ro, 0⟩
def Fld.QE_STAT_LEVEL : Fld := ⟨.QE_STAT, 0, 0, .ro, 0⟩

def Fld.QE_DMA_CTL_SEC : Fld := ⟨.QE_DMA_CTL, 63, 63, .rw, 0⟩
def Fld.QE_DMA_CTL_LAST_STATUS : Fld := ⟨.QE_DMA_CTL, 47, 40, .ro, 0⟩
def Fld.QE_DMA_CTL_KEYOFF : Fld := ⟨.QE_DMA_CTL, 39, 32, .rw, 0⟩
def Fld.QE_DMA_CTL_TXQ : Fld := ⟨.QE_DMA_CTL, 28, 24, .rw, 0⟩
def Fld.QE_DMA_CTL_RXQ : Fld := ⟨.QE_DMA_CTL, 20, 16, .rw, 0⟩
def Fld.QE_DMA_CTL_FREEQ : Fld := ⟨.QE_DMA_CTL, 12, 8, .rw, 0⟩
def Fld.QE_DMA_CTL_CLASSIFY : Fld := ⟨.QE_DMA_CTL, 4, 4, .rw, 0⟩
def Fld.QE_DMA_CTL_STATE : Fld := ⟨.QE_DMA_CTL, 3, 2, .ro, 0⟩
def Fld.QE_DMA_CTL_TXEN : Fld := ⟨.QE_DMA_CTL, 1, 1, .rw, 0⟩
def Fld.QE_DMA_CTL_RXEN : Fld := ⟨.QE_DMA_CTL, 0, 0, .rw, 0⟩

def Fld.QE_DMA_STAT_NOBUF : Fld := ⟨.QE_DMA_STAT, 63, 48, .ro, 0⟩
def Fld.QE_DMA_STAT_QFULL : Fld := ⟨.QE_DMA_STAT, 47, 32, .ro, 0⟩
def Fld.QE_DMA_STAT_RXFR : Fld := ⟨.QE_DMA_STAT, 31, 16, .ro, 0⟩
def Fld.QE_DMA_STAT_TXFR : Fld := ⟨.QE_DMA_STAT, 15, 0, .ro, 0⟩

def Fld.QE_DMA_ERR_CAUSE : Fld := ⟨.QE_DMA_ERR, 63, 56, .ro, 0⟩
def Fld.QE_DMA_ERR_ADDR : Fld := ⟨.QE_DMA_ERR, 47, 0, .ro, 0⟩

def Fld.CK_OWN_LAST_SRC : Fld := ⟨.CK_OWN, 43, 32, .ro, 0⟩
def Fld.CK_OWN_LAST_STATUS : Fld := ⟨.CK_OWN, 31, 24, .ro, 0⟩
def Fld.CK_OWN_OWN_SRC : Fld := ⟨.CK_OWN, 23, 12, .ro, 0⟩
def Fld.CK_OWN_FORCE : Fld := ⟨.CK_OWN, 8, 8, .wo, 0⟩
def Fld.CK_OWN_CLAIM : Fld := ⟨.CK_OWN, 0, 0, .rw, 0⟩

def Fld.CK_CMD_TMO : Fld := ⟨.CK_CMD, 23, 8, .rw, 0⟩
def Fld.CK_CMD_CODE : Fld := ⟨.CK_CMD, 7, 0, .rw, 0⟩

def Fld.CK_STAT_LATE_CNT : Fld := ⟨.CK_STAT, 31, 24, .ro, 0⟩
def Fld.CK_STAT_SEQ : Fld := ⟨.CK_STAT, 23, 16, .ro, 0⟩
def Fld.CK_STAT_STATUS : Fld := ⟨.CK_STAT, 15, 8, .ro, 0⟩
def Fld.CK_STAT_WR_BUSY : Fld := ⟨.CK_STAT, 7, 7, .w1c, 0⟩
def Fld.CK_STAT_IRQ_EN : Fld := ⟨.CK_STAT, 6, 6, .rw, 0⟩
def Fld.CK_STAT_STATE : Fld := ⟨.CK_STAT, 2, 0, .ro, 0⟩

def Fld.CK_MSG_DATA : Fld := ⟨.CK_MSG, 63, 0, .rw, 0⟩

def Fld.CK_FWA_SRC : Fld := ⟨.CK_FWA, 63, 52, .rw, 0⟩
def Fld.CK_FWA_BASE : Fld := ⟨.CK_FWA, 47, 12, .rw, 0⟩
def Fld.CK_FWA_EN : Fld := ⟨.CK_FWA, 4, 4, .rw, 0⟩
def Fld.CK_FWA_SR : Fld := ⟨.CK_FWA, 3, 3, .rw, 0⟩
def Fld.CK_FWA_SW : Fld := ⟨.CK_FWA, 2, 2, .rw, 0⟩
def Fld.CK_FWA_NR : Fld := ⟨.CK_FWA, 1, 1, .rw, 0⟩
def Fld.CK_FWA_NW : Fld := ⟨.CK_FWA, 0, 0, .rw, 0⟩

def Fld.CK_FWB_SMASK : Fld := ⟨.CK_FWB, 63, 52, .rw, 0⟩
def Fld.CK_FWB_LIMIT : Fld := ⟨.CK_FWB, 47, 12, .rw, 0⟩

def Fld.CK_FWCTL_REF_CNT : Fld := ⟨.CK_FWCTL, 63, 48, .ro, 0⟩
def Fld.CK_FWCTL_LAST_SRC : Fld := ⟨.CK_FWCTL, 47, 36, .ro, 0⟩
def Fld.CK_FWCTL_WR_STATUS : Fld := ⟨.CK_FWCTL, 15, 8, .ro, 0⟩
def Fld.CK_FWCTL_BUSY : Fld := ⟨.CK_FWCTL, 2, 2, .ro, 0⟩
def Fld.CK_FWCTL_LOCK : Fld := ⟨.CK_FWCTL, 1, 1, .rwl, 0⟩
def Fld.CK_FWCTL_DFLT : Fld := ⟨.CK_FWCTL, 0, 0, .rw, 0⟩

def Fld.CK_FWLAST_PA : Fld := ⟨.CK_FWLAST, 47, 0, .ro, 0⟩

def Fld.CK_GFWA_SRC : Fld := ⟨.CK_GFWA, 63, 52, .rw, 0⟩
def Fld.CK_GFWA_BASE : Fld := ⟨.CK_GFWA, 47, 12, .rw, 0⟩
def Fld.CK_GFWA_EN : Fld := ⟨.CK_GFWA, 4, 4, .rw, 0⟩
def Fld.CK_GFWA_SR : Fld := ⟨.CK_GFWA, 3, 3, .rw, 0⟩
def Fld.CK_GFWA_SW : Fld := ⟨.CK_GFWA, 2, 2, .rw, 0⟩
def Fld.CK_GFWA_NR : Fld := ⟨.CK_GFWA, 1, 1, .rw, 0⟩
def Fld.CK_GFWA_NW : Fld := ⟨.CK_GFWA, 0, 0, .rw, 0⟩

def Fld.CK_GFWB_SMASK : Fld := ⟨.CK_GFWB, 63, 52, .rw, 0⟩
def Fld.CK_GFWB_LIMIT : Fld := ⟨.CK_GFWB, 47, 12, .rw, 0⟩

def Fld.CK_GFWCTL_REF_CNT : Fld := ⟨.CK_GFWCTL, 63, 48, .ro, 0⟩
def Fld.CK_GFWCTL_LAST_SRC : Fld := ⟨.CK_GFWCTL, 47, 36, .ro, 0⟩
def Fld.CK_GFWCTL_WR_STATUS : Fld := ⟨.CK_GFWCTL, 15, 8, .ro, 0⟩
def Fld.CK_GFWCTL_BUSY : Fld := ⟨.CK_GFWCTL, 2, 2, .ro, 0⟩
def Fld.CK_GFWCTL_LOCK : Fld := ⟨.CK_GFWCTL, 1, 1, .rwl, 0⟩
def Fld.CK_GFWCTL_DFLT : Fld := ⟨.CK_GFWCTL, 0, 0, .rw, 0⟩

def Fld.CK_GFWLAST_PA : Fld := ⟨.CK_GFWLAST, 47, 0, .ro, 0⟩

def Fld.CK_CSTAT_RESETS : Fld := ⟨.CK_CSTAT, 15, 8, .ro, 0⟩
def Fld.CK_CSTAT_STATE : Fld := ⟨.CK_CSTAT, 2, 0, .ro, 0⟩

def Fld.CK_NOTE_CAUSE : Fld := ⟨.CK_NOTE, 19, 16, .rw, 0⟩
def Fld.CK_NOTE_SEQ : Fld := ⟨.CK_NOTE, 15, 0, .ro, 0⟩

def Fld.TR_AUTH_SYS : Fld := ⟨.TR_AUTH, 3, 3, .rw, 0⟩
def Fld.TR_AUTH_HALT : Fld := ⟨.TR_AUTH, 2, 2, .rw, 0⟩
def Fld.TR_AUTH_TRACE_H : Fld := ⟨.TR_AUTH, 1, 1, .rw, 0⟩
def Fld.TR_AUTH_TRACE_S : Fld := ⟨.TR_AUTH, 0, 0, .rw, 0⟩

def Fld.TR_SINK_CTL_POST : Fld := ⟨.TR_SINK_CTL, 63, 32, .rw, 64⟩
def Fld.TR_SINK_CTL_SIZE : Fld := ⟨.TR_SINK_CTL, 31, 28, .rw, 0⟩
def Fld.TR_SINK_CTL_STALL : Fld := ⟨.TR_SINK_CTL, 24, 24, .rw, 0⟩
def Fld.TR_SINK_CTL_SYNCP : Fld := ⟨.TR_SINK_CTL, 23, 16, .rw, 4⟩
def Fld.TR_SINK_CTL_TRIG : Fld := ⟨.TR_SINK_CTL, 8, 8, .wo, 0⟩
def Fld.TR_SINK_CTL_KIND : Fld := ⟨.TR_SINK_CTL, 3, 2, .rw, 0⟩
def Fld.TR_SINK_CTL_EN : Fld := ⟨.TR_SINK_CTL, 0, 0, .rw, 0⟩

def Fld.TR_SINK_BASE_BASE : Fld := ⟨.TR_SINK_BASE, 47, 12, .rw, 0⟩

def Fld.TR_SINK_STAT_DROPPED : Fld := ⟨.TR_SINK_STAT, 63, 40, .ro, 0⟩
def Fld.TR_SINK_STAT_LAST_STATUS : Fld := ⟨.TR_SINK_STAT, 39, 32, .ro, 0⟩
def Fld.TR_SINK_STAT_WPTR : Fld := ⟨.TR_SINK_STAT, 31, 6, .ro, 0⟩
def Fld.TR_SINK_STAT_WRAP : Fld := ⟨.TR_SINK_STAT, 5, 5, .ro, 0⟩
def Fld.TR_SINK_STAT_STATE : Fld := ⟨.TR_SINK_STAT, 3, 1, .ro, 0⟩

def Fld.TR_STAGE_WORD : Fld := ⟨.TR_STAGE, 63, 0, .rw, 0⟩

def Fld.TR_DBG_LAST_STATUS : Fld := ⟨.TR_DBG, 39, 32, .ro, 0⟩
def Fld.TR_DBG_CMPNO : Fld := ⟨.TR_DBG, 12, 11, .ro, 0⟩
def Fld.TR_DBG_HCAUSE : Fld := ⟨.TR_DBG, 10, 8, .ro, 0⟩
def Fld.TR_DBG_HALTED : Fld := ⟨.TR_DBG, 7, 7, .ro, 0⟩
def Fld.TR_DBG_STEPINT : Fld := ⟨.TR_DBG, 3, 3, .wo, 0⟩
def Fld.TR_DBG_CMD : Fld := ⟨.TR_DBG, 2, 0, .wo, 0⟩

def Fld.TR_DSEL_WORD : Fld := ⟨.TR_DSEL, 17, 16, .rw, 0⟩
def Fld.TR_DSEL_CLASS : Fld := ⟨.TR_DSEL, 15, 12, .rw, 0⟩
def Fld.TR_DSEL_NUM : Fld := ⟨.TR_DSEL, 11, 0, .rw, 0⟩

def Fld.TR_DDATA_DATA : Fld := ⟨.TR_DDATA, 63, 0, .rw, 0⟩

def Fld.TR_SDBG_LAST_STATUS : Fld := ⟨.TR_SDBG, 39, 32, .ro, 0⟩
def Fld.TR_SDBG_CMPNO : Fld := ⟨.TR_SDBG, 12, 11, .ro, 0⟩
def Fld.TR_SDBG_HCAUSE : Fld := ⟨.TR_SDBG, 10, 8, .ro, 0⟩
def Fld.TR_SDBG_HALTED : Fld := ⟨.TR_SDBG, 7, 7, .ro, 0⟩
def Fld.TR_SDBG_STEPINT : Fld := ⟨.TR_SDBG, 3, 3, .wo, 0⟩
def Fld.TR_SDBG_CMD : Fld := ⟨.TR_SDBG, 2, 0, .wo, 0⟩

def Fld.TR_SDSEL_WORD : Fld := ⟨.TR_SDSEL, 17, 16, .rw, 0⟩
def Fld.TR_SDSEL_CLASS : Fld := ⟨.TR_SDSEL, 15, 12, .rw, 0⟩
def Fld.TR_SDSEL_NUM : Fld := ⟨.TR_SDSEL, 11, 0, .rw, 0⟩

def Fld.TR_SDDATA_DATA : Fld := ⟨.TR_SDDATA, 63, 0, .rw, 0⟩

def Fld.TR_SBRK_PC : Fld := ⟨.TR_SBRK, 47, 1, .rw, 0⟩
def Fld.TR_SBRK_EN : Fld := ⟨.TR_SBRK, 0, 0, .rw, 0⟩

def Fld.PM_GCTL_SNAP : Fld := ⟨.PM_GCTL, 8, 8, .wo, 0⟩
def Fld.PM_GCTL_TICK : Fld := ⟨.PM_GCTL, 5, 4, .rw, 0⟩
def Fld.PM_GCTL_FREEZE : Fld := ⟨.PM_GCTL, 0, 0, .rw, 0⟩

def Fld.PM_GSTAT_LAST_STATUS : Fld := ⟨.PM_GSTAT, 31, 24, .ro, 0⟩
def Fld.PM_GSTAT_MISSED : Fld := ⟨.PM_GSTAT, 23, 17, .ro, 0⟩
def Fld.PM_GSTAT_BUSY : Fld := ⟨.PM_GSTAT, 16, 16, .ro, 0⟩
def Fld.PM_GSTAT_SEQ : Fld := ⟨.PM_GSTAT, 15, 0, .ro, 0⟩

def Fld.PM_GSNAPTS_TS : Fld := ⟨.PM_GSNAPTS, 47, 0, .ro, 0⟩

def Fld.PM_CSTAT_SEQ : Fld := ⟨.PM_CSTAT, 63, 48, .ro, 0⟩
def Fld.PM_CSTAT_VALID : Fld := ⟨.PM_CSTAT, 1, 1, .ro, 0⟩
def Fld.PM_CSTAT_LIVE : Fld := ⟨.PM_CSTAT, 0, 0, .ro, 0⟩

def Fld.PM_CCNT_COUNT : Fld := ⟨.PM_CCNT, 47, 0, .ro, 0⟩

def Fld.PM_CSNAP_COUNT : Fld := ⟨.PM_CSNAP, 47, 0, .ro, 0⟩

def Fld.PM_CEV_COPY : Fld := ⟨.PM_CEV, 63, 0, .ro, 0⟩

def Fld.PM_CCTL_COPY : Fld := ⟨.PM_CCTL, 63, 0, .ro, 0⟩

def Fld.PM_LSEL_EVENT : Fld := ⟨.PM_LSEL, 15, 8, .rw, 0⟩
def Fld.PM_LSEL_CHAIN : Fld := ⟨.PM_LSEL, 2, 2, .rw, 0⟩
def Fld.PM_LSEL_OVF : Fld := ⟨.PM_LSEL, 1, 1, .w1c, 0⟩
def Fld.PM_LSEL_EN : Fld := ⟨.PM_LSEL, 0, 0, .rw, 0⟩

def Fld.PM_LCNT_COUNT : Fld := ⟨.PM_LCNT, 47, 0, .rw, 0⟩

def Fld.PM_LSNAP_COUNT : Fld := ⟨.PM_LSNAP, 47, 0, .ro, 0⟩

def Fld.PM_HSEL_EVENT : Fld := ⟨.PM_HSEL, 15, 8, .rw, 0⟩
def Fld.PM_HSEL_CHAIN : Fld := ⟨.PM_HSEL, 2, 2, .rw, 0⟩
def Fld.PM_HSEL_OVF : Fld := ⟨.PM_HSEL, 1, 1, .w1c, 0⟩
def Fld.PM_HSEL_EN : Fld := ⟨.PM_HSEL, 0, 0, .rw, 0⟩

def Fld.PM_HCNT_COUNT : Fld := ⟨.PM_HCNT, 47, 0, .rw, 0⟩

def Fld.PM_HSNAP_COUNT : Fld := ⟨.PM_HSNAP, 47, 0, .ro, 0⟩

def Fld.ER_UCTL_LOST : Fld := ⟨.ER_UCTL, 63, 48, .ro, 0⟩
def Fld.ER_UCTL_VALID : Fld := ⟨.ER_UCTL, 19, 16, .ro, 0⟩
def Fld.ER_UCTL_MCTGT : Fld := ⟨.ER_UCTL, 15, 8, .rw, 255⟩
def Fld.ER_UCTL_DIE : Fld := ⟨.ER_UCTL, 2, 2, .rw, 1⟩
def Fld.ER_UCTL_CEIE : Fld := ⟨.ER_UCTL, 1, 1, .rw, 0⟩

def Fld.ER_INJ_TYPE : Fld := ⟨.ER_INJ, 31, 24, .xrw, 63⟩
def Fld.ER_INJ_SEV : Fld := ⟨.ER_INJ, 17, 16, .xrw, 0⟩
def Fld.ER_INJ_CLASS : Fld := ⟨.ER_INJ, 9, 8, .xrw, 0⟩
def Fld.ER_INJ_WHERE : Fld := ⟨.ER_INJ, 6, 5, .xrw, 0⟩
def Fld.ER_INJ_ONREAD : Fld := ⟨.ER_INJ, 4, 4, .xrw, 0⟩
def Fld.ER_INJ_ARM : Fld := ⟨.ER_INJ, 0, 0, .xrw, 0⟩

def Fld.ER_XGATE_DENIED : Fld := ⟨.ER_XGATE, 18, 18, .w1c, 0⟩
def Fld.ER_XGATE_STATE : Fld := ⟨.ER_XGATE, 17, 16, .ro, 0⟩
def Fld.ER_XGATE_KEY : Fld := ⟨.ER_XGATE, 15, 0, .wo, 0⟩

def Fld.ER_STATUS_VALID : Fld := ⟨.ER_STATUS, 63, 63, .w1c, 0⟩
def Fld.ER_STATUS_INJ : Fld := ⟨.ER_STATUS, 61, 61, .ro, 0⟩
def Fld.ER_STATUS_SEC : Fld := ⟨.ER_STATUS, 60, 60, .ro, 0⟩
def Fld.ER_STATUS_AV : Fld := ⟨.ER_STATUS, 59, 59, .ro, 0⟩
def Fld.ER_STATUS_SEV : Fld := ⟨.ER_STATUS, 57, 56, .ro, 0⟩
def Fld.ER_STATUS_TYPE : Fld := ⟨.ER_STATUS, 55, 48, .ro, 0⟩
def Fld.ER_STATUS_COUNT : Fld := ⟨.ER_STATUS, 47, 32, .ro, 0⟩
def Fld.ER_STATUS_SRC : Fld := ⟨.ER_STATUS, 31, 20, .ro, 0⟩
def Fld.ER_STATUS_LOC : Fld := ⟨.ER_STATUS, 19, 0, .ro, 0⟩

def Fld.ER_ADDR_ADDR : Fld := ⟨.ER_ADDR, 47, 0, .ro, 0⟩

def Fld.ER_TFIRST_TS : Fld := ⟨.ER_TFIRST, 47, 0, .ro, 0⟩

def Fld.ER_TLAST_TS : Fld := ⟨.ER_TLAST, 47, 0, .ro, 0⟩

def Fld.ER_DATA_DATA : Fld := ⟨.ER_DATA, 63, 0, .ro, 0⟩

def Fld.ER_WDOG_EXP_CNT : Fld := ⟨.ER_WDOG, 47, 40, .ro, 0⟩
def Fld.ER_WDOG_LATE_CNT : Fld := ⟨.ER_WDOG, 39, 32, .ro, 0⟩
def Fld.ER_WDOG_PERIOD : Fld := ⟨.ER_WDOG, 31, 16, .rw, 100⟩
def Fld.ER_WDOG_STAGE : Fld := ⟨.ER_WDOG, 9, 8, .ro, 0⟩
def Fld.ER_WDOG_KICK : Fld := ⟨.ER_WDOG, 7, 0, .wo, 0⟩

def Fld.BT_STAT_WARM_CNT : Fld := ⟨.BT_STAT, 47, 40, .ro, 0⟩
def Fld.BT_STAT_CAUSE : Fld := ⟨.BT_STAT, 35, 32, .ro, 0⟩
def Fld.BT_STAT_BOOTSEL : Fld := ⟨.BT_STAT, 17, 16, .ro, 0⟩
def Fld.BT_STAT_FAIL : Fld := ⟨.BT_STAT, 15, 8, .ro, 0⟩
def Fld.BT_STAT_PHASE : Fld := ⟨.BT_STAT, 3, 0, .ro, 4⟩

def Fld.BT_RST_LAST_SRC : Fld := ⟨.BT_RST, 47, 36, .ro, 0⟩
def Fld.BT_RST_LAST_STATUS : Fld := ⟨.BT_RST, 35, 28, .ro, 0⟩
def Fld.BT_RST_TARGET : Fld := ⟨.BT_RST, 15, 8, .wo, 0⟩
def Fld.BT_RST_OP : Fld := ⟨.BT_RST, 1, 0, .wo, 0⟩

def Fld.BT_ENTRY_ENTRY : Fld := ⟨.BT_ENTRY, 47, 0, .rw, 0⟩

def Fld.BT_VER_REEVE : Fld := ⟨.BT_VER, 63, 32, .rw, 0⟩
def Fld.BT_VER_CORE : Fld := ⟨.BT_VER, 31, 0, .rw, 0⟩

def Fld.BT_FUSEOPT_OPT : Fld := ⟨.BT_FUSEOPT, 5, 0, .ro, 0⟩

def Fld.BT_UID_UID : Fld := ⟨.BT_UID, 63, 0, .ro, 0⟩

def Fld.BT_CREL_REL : Fld := ⟨.BT_CREL, 63, 0, .rw, 0⟩

def Fld.BT_LOWN_LAST_SRC : Fld := ⟨.BT_LOWN, 43, 32, .ro, 0⟩
def Fld.BT_LOWN_LAST_STATUS : Fld := ⟨.BT_LOWN, 31, 24, .ro, 0⟩
def Fld.BT_LOWN_OWN_SRC : Fld := ⟨.BT_LOWN, 23, 12, .ro, 0⟩
def Fld.BT_LOWN_FORCE : Fld := ⟨.BT_LOWN, 8, 8, .wo, 0⟩
def Fld.BT_LOWN_FUNC : Fld := ⟨.BT_LOWN, 3, 0, .rw, 0⟩

/-- The fields of a register (R5, R6). -/
def Reg.fields : Reg → List Fld
  | .PW_INSTAT => [Fld.PW_INSTAT_PFW, Fld.PW_INSTAT_VIN]
  | .PW_PFLOG => [Fld.PW_PFLOG_LAST_CAUSE, Fld.PW_PFLOG_PF_CNT, Fld.PW_PFLOG_OV_TRIP_CNT, Fld.PW_PFLOG_OV_CNT, Fld.PW_PFLOG_DIP_CNT]
  | .PW_THERM => [Fld.PW_THERM_T_WARN, Fld.PW_THERM_T_CRIT]
  | .PW_HOLD_ISL => [Fld.PW_HOLD_ISL_STACK, Fld.PW_HOLD_ISL_ISL]
  | .PW_HOLD_GR => [Fld.PW_HOLD_GR_BANK]
  | .PW_XGATE => [Fld.PW_XGATE_DENIED, Fld.PW_XGATE_STATE, Fld.PW_XGATE_KEY]
  | .PW_VSET => [Fld.PW_VSET_VFRAC, Fld.PW_VSET_VCODE]
  | .PW_RCTL => [Fld.PW_RCTL_RTARGET, Fld.PW_RCTL_MODE]
  | .PW_RATE => [Fld.PW_RATE_RATE, Fld.PW_RATE_WINDOWS, Fld.PW_RATE_PHASE_ERR]
  | .PW_ISTATE => [Fld.PW_ISTATE_POINT, Fld.PW_ISTATE_XOVR, Fld.PW_ISTATE_LOCKED, Fld.PW_ISTATE_LOCK_LOST, Fld.PW_ISTATE_CAPPED, Fld.PW_ISTATE_HELD, Fld.PW_ISTATE_LAST_ENTRY, Fld.PW_ISTATE_STATE]
  | .PW_TEMP => [Fld.PW_TEMP_TJ]
  | .TB_NOW_LO => [Fld.TB_NOW_LO_SECLO, Fld.TB_NOW_LO_FRAC]
  | .TB_NOW_HI => [Fld.TB_NOW_HI_GEN, Fld.TB_NOW_HI_SECHI]
  | .TB_CTL => [Fld.TB_CTL_PPSIN_EN, Fld.TB_CTL_PPS_POL, Fld.TB_CTL_REFSEL, Fld.TB_CTL_DISC]
  | .TB_STAT => [Fld.TB_STAT_REJ_CNT, Fld.TB_STAT_XOVR, Fld.TB_STAT_HOLDOVER, Fld.TB_STAT_PPS_LOST, Fld.TB_STAT_REF_LOST, Fld.TB_STAT_SLEW_BUSY]
  | .TB_ADDEND => [Fld.TB_ADDEND_ADDEND]
  | .TB_SLEW => [Fld.TB_SLEW_NOW, Fld.TB_SLEW_STATUS, Fld.TB_SLEW_AMOUNT]
  | .TB_SECSET => [Fld.TB_SECSET_PENDING, Fld.TB_SECSET_SEC]
  | .TB_PPSCAP => [Fld.TB_PPSCAP_CNT, Fld.TB_PPSCAP_SEC, Fld.TB_PPSCAP_FRAC]
  | .TB_PPSOUT => [Fld.TB_PPSOUT_WIDTH, Fld.TB_PPSOUT_OFFSET]
  | .TB_XGATE => [Fld.TB_XGATE_DENIED, Fld.TB_XGATE_STATE, Fld.TB_XGATE_KEY]
  | .TB_CMP_OWN => [Fld.TB_CMP_OWN_LAST_SRC, Fld.TB_CMP_OWN_LAST_STATUS, Fld.TB_CMP_OWN_OWN_SRC, Fld.TB_CMP_OWN_FORCE, Fld.TB_CMP_OWN_CLAIM]
  | .TB_CMP_TGT => [Fld.TB_CMP_TGT_SEC, Fld.TB_CMP_TGT_FRAC]
  | .TB_CMP_PER => [Fld.TB_CMP_PER_PERIOD]
  | .TB_CMP_CTL => [Fld.TB_CMP_CTL_FIRES, Fld.TB_CMP_CTL_DEST, Fld.TB_CMP_CTL_LATE, Fld.TB_CMP_CTL_ROUTE, Fld.TB_CMP_CTL_EN]
  | .RV_OWN => [Fld.RV_OWN_LAST_SRC, Fld.RV_OWN_LAST_STATUS, Fld.RV_OWN_OWN_SRC, Fld.RV_OWN_FORCE, Fld.RV_OWN_CLAIM]
  | .RV_CMD => [Fld.RV_CMD_TMO, Fld.RV_CMD_CODE]
  | .RV_ARG0 => [Fld.RV_ARG0_VALUE]
  | .RV_ARG1 => [Fld.RV_ARG1_VALUE]
  | .RV_RES0 => [Fld.RV_RES0_VALUE]
  | .RV_RES1 => [Fld.RV_RES1_VALUE]
  | .RV_STAT => [Fld.RV_STAT_LATE_CNT, Fld.RV_STAT_SEQ, Fld.RV_STAT_STATUS, Fld.RV_STAT_WR_BUSY, Fld.RV_STAT_IRQ_EN, Fld.RV_STAT_STATE]
  | .CG_CFG => [Fld.CG_CFG_DLIMIT]
  | .CG_XGATE => [Fld.CG_XGATE_DENIED, Fld.CG_XGATE_STATE, Fld.CG_XGATE_KEY]
  | .CG_DEF => [Fld.CG_DEF_ILIMIT, Fld.CG_DEF_HOME, Fld.CG_DEF_PRIMARY, Fld.CG_DEF_SIZE, Fld.CG_DEF_M2, Fld.CG_DEF_M1, Fld.CG_DEF_M0]
  | .CG_CMD => [Fld.CG_CMD_CORE, Fld.CG_CMD_OP]
  | .CG_STAT => [Fld.CG_STAT_HOME_EFF, Fld.CG_STAT_SIZE_EFF, Fld.CG_STAT_PRIM, Fld.CG_STAT_QUAR, Fld.CG_STAT_LAST_SRC, Fld.CG_STAT_LAST_STATUS, Fld.CG_STAT_FAIL_CAUSE, Fld.CG_STAT_ACTIVE, Fld.CG_STAT_STATE]
  | .CG_INSTAR => [Fld.CG_INSTAR_COUNT]
  | .CG_EVT => [Fld.CG_EVT_LATE, Fld.CG_EVT_QUARANTINES, Fld.CG_EVT_ROLLBACKS]
  | .CG_CORE => [Fld.CG_CORE_ROLE, Fld.CG_CORE_IN, Fld.CG_CORE_GROUP]
  | .IC_STAT => [Fld.IC_STAT_LAST_SRC, Fld.IC_STAT_LAST_STATUS, Fld.IC_STAT_LAST_N]
  | .IC_SWI_SET => [Fld.IC_SWI_SET_NUM]
  | .IC_XGATE => [Fld.IC_XGATE_DENIED, Fld.IC_XGATE_STATE, Fld.IC_XGATE_KEY]
  | .IC_SRC => [Fld.IC_SRC_SEC, Fld.IC_SRC_IN, Fld.IC_SRC_PEND, Fld.IC_SRC_ACT, Fld.IC_SRC_KIND, Fld.IC_SRC_FORCE, Fld.IC_SRC_GRP, Fld.IC_SRC_TARGET, Fld.IC_SRC_EN, Fld.IC_SRC_PRIO]
  | .IC_TCTL => [Fld.IC_TCTL_TORBER, Fld.IC_TCTL_THRESH]
  | .IC_CLAIM => [Fld.IC_CLAIM_VALID, Fld.IC_CLAIM_SRC]
  | .IC_COMPLETE => [Fld.IC_COMPLETE_SRC]
  | .IC_TSTAT => [Fld.IC_TSTAT_OOC_CNT, Fld.IC_TSTAT_SPUR_CNT, Fld.IC_TSTAT_LAST_STATUS, Fld.IC_TSTAT_DEPTH, Fld.IC_TSTAT_RPRIO, Fld.IC_TSTAT_LEVEL]
  | .IC_TOP => [Fld.IC_TOP_PRIO, Fld.IC_TOP_SRC]
  | .MC_PCSTAT => [Fld.MC_PCSTAT_LAST_STATUS, Fld.MC_PCSTAT_WRQ, Fld.MC_PCSTAT_RDQ, Fld.MC_PCSTAT_SIDIDLE, Fld.MC_PCSTAT_PD, Fld.MC_PCSTAT_DONE, Fld.MC_PCSTAT_STATE]
  | .MC_PCCTL => [Fld.MC_PCCTL_PAGE_TMO, Fld.MC_PCCTL_PD_TMO, Fld.MC_PCCTL_SETSTATE]
  | .MC_ECC => [Fld.MC_ECC_CE_CNT, Fld.MC_ECC_UE_CNT, Fld.MC_ECC_PSN_CNT]
  | .MC_SCRUB => [Fld.MC_SCRUB_POS, Fld.MC_SCRUB_PERIOD, Fld.MC_SCRUB_DEMAND, Fld.MC_SCRUB_EN]
  | .MC_INJ => [Fld.MC_INJ_SYMB, Fld.MC_INJ_SYMA, Fld.MC_INJ_MASKB, Fld.MC_INJ_MASKA, Fld.MC_INJ_ONREAD, Fld.MC_INJ_ARM]
  | .MC_PGEN => [Fld.MC_PGEN_COUNT, Fld.MC_PGEN_PATTERN, Fld.MC_PGEN_LOOP, Fld.MC_PGEN_OP, Fld.MC_PGEN_GO]
  | .MC_PGADDR => [Fld.MC_PGADDR_SID, Fld.MC_PGADDR_BANK, Fld.MC_PGADDR_ROW, Fld.MC_PGADDR_COL]
  | .MC_PATD => [Fld.MC_PATD_VALUE]
  | .MC_LERR => [Fld.MC_LERR_LANES]
  | .MC_LERRX => [Fld.MC_LERRX_LANES]
  | .MC_MISR => [Fld.MC_MISR_VALUE]
  | .MC_MISRX => [Fld.MC_MISRX_VALUE]
  | .MC_STK => [Fld.MC_STK_TEMP, Fld.MC_STK_LAST_STATUS, Fld.MC_STK_REFSCALE, Fld.MC_STK_REFMODE, Fld.MC_STK_PWR]
  | .MC_TIM0 => [Fld.MC_TIM0_tREFI, Fld.MC_TIM0_tRAS, Fld.MC_TIM0_tRCD, Fld.MC_TIM0_tRP, Fld.MC_TIM0_tFAW, Fld.MC_TIM0_tRRD_L, Fld.MC_TIM0_tRRD_S]
  | .MC_TIM1 => [Fld.MC_TIM1_tRFC, Fld.MC_TIM1_tRFCSB, Fld.MC_TIM1_tWR, Fld.MC_TIM1_tCCD_L]
  | .MC_1500 => [Fld.MC_1500_INSTR, Fld.MC_1500_CHSEL, Fld.MC_1500_LEN, Fld.MC_1500_CONT, Fld.MC_1500_BUSY, Fld.MC_1500_GO]
  | .MC_1500D => [Fld.MC_1500D_DATA]
  | .MC_RAWCMD => [Fld.MC_RAWCMD_GO, Fld.MC_RAWCMD_CH, Fld.MC_RAWCMD_BUS, Fld.MC_RAWCMD_BITS]
  | .MC_CDLY => [Fld.MC_CDLY_WL, Fld.MC_CDLY_RL, Fld.MC_CDLY_CKD, Fld.MC_CDLY_CCMD, Fld.MC_CDLY_RCMD]
  | .MC_LDLY => [Fld.MC_LDLY_WDLY, Fld.MC_LDLY_RDLY]
  | .MC_ILV => [Fld.MC_ILV_LAST_STATUS, Fld.MC_ILV_MODE]
  | .MC_HINT => [Fld.MC_HINT_DMA, Fld.MC_HINT_SPIN, Fld.MC_HINT_NC, Fld.MC_HINT_WB, Fld.MC_HINT_PF, Fld.MC_HINT_DEM]
  | .MC_MIR => [Fld.MC_MIR_ALT_CNT, Fld.MC_MIR_DIFF_CNT, Fld.MC_MIR_OWNER, Fld.MC_MIR_STATE, Fld.MC_MIR_EN, Fld.MC_MIR_VERIFY, Fld.MC_MIR_PRI, Fld.MC_MIR_PAIR, Fld.MC_MIR_LIMIT, Fld.MC_MIR_BASE]
  | .MC_XGATE => [Fld.MC_XGATE_DENIED, Fld.MC_XGATE_STATE, Fld.MC_XGATE_KEY]
  | .MC_LLC_CTL => [Fld.MC_LLC_CTL_OFFER, Fld.MC_LLC_CTL_MODE, Fld.MC_LLC_CTL_ALLOC_EN]
  | .MC_LLC_STAT => [Fld.MC_LLC_STAT_DIRTY, Fld.MC_LLC_STAT_LAST_STATUS, Fld.MC_LLC_STAT_STATE, Fld.MC_LLC_STAT_LAST]
  | .MC_LLC_SECFLUSH => [Fld.MC_LLC_SECFLUSH_DONE, Fld.MC_LLC_SECFLUSH_GO]
  | .GR_BANK => [Fld.GR_BANK_LAST_SRC, Fld.GR_BANK_LAST_STATUS, Fld.GR_BANK_NEXT, Fld.GR_BANK_OWNER, Fld.GR_BANK_SHARE, Fld.GR_BANK_PSTATE, Fld.GR_BANK_STATE]
  | .GR_CMD => [Fld.GR_CMD_CODE, Fld.GR_CMD_SHARE, Fld.GR_CMD_FORCE, Fld.GR_CMD_OP]
  | .GR_CONF => [Fld.GR_CONF_CLR, Fld.GR_CONF_WAIT_CNT, Fld.GR_CONF_HIT_CNT, Fld.GR_CONF_BUSY_CNT]
  | .GR_REPAIR => [Fld.GR_REPAIR_BAD, Fld.GR_REPAIR_USED]
  | .PT_CTL => [Fld.PT_CTL_LAST_STATUS, Fld.PT_CTL_SEC, Fld.PT_CTL_EVTEN, Fld.PT_CTL_AUTORETRY, Fld.PT_CTL_TERM, Fld.PT_CTL_BIAS, Fld.PT_CTL_SWAP, Fld.PT_CTL_AMP, Fld.PT_CTL_AN, Fld.PT_CTL_ROLE, Fld.PT_CTL_MODE]
  | .PT_STAT => [Fld.PT_STAT_TX_ABORT, Fld.PT_STAT_DIAG_DONE, Fld.PT_STAT_REVERSED, Fld.PT_STAT_OPEN, Fld.PT_STAT_SHORT, Fld.PT_STAT_GND_FAULT, Fld.PT_STAT_OV_TRIP, Fld.PT_STAT_LINK_CHG, Fld.PT_STAT_PFW, Fld.PT_STAT_LOCK_LOST, Fld.PT_STAT_UNAVAIL, Fld.PT_STAT_SW, Fld.PT_STAT_FAULT, Fld.PT_STAT_POL, Fld.PT_STAT_RATE, Fld.PT_STAT_SQI, Fld.PT_STAT_LINK]
  | .PT_SER => [Fld.PT_SER_GUARD, Fld.PT_SER_CODING, Fld.PT_SER_STOP, Fld.PT_SER_PARITY, Fld.PT_SER_DBITS, Fld.PT_SER_RATE]
  | .PT_DIAG => [Fld.PT_DIAG_GO, Fld.PT_DIAG_VF, Fld.PT_DIAG_RESULT, Fld.PT_DIAG_DIST, Fld.PT_DIAG_VP, Fld.PT_DIAG_VN]
  | .PT_MMD => [Fld.PT_MMD_GO, Fld.PT_MMD_BUSY, Fld.PT_MMD_WRITE, Fld.PT_MMD_DEVAD, Fld.PT_MMD_REGADDR, Fld.PT_MMD_DATA]
  | .PT_LANE => [Fld.PT_LANE_PRE, Fld.PT_LANE_POST, Fld.PT_LANE_MAIN, Fld.PT_LANE_TXEQ_OVR, Fld.PT_LANE_FEC_EFF, Fld.PT_LANE_FEC, Fld.PT_LANE_TRAIN]
  | .PT_FEC => [Fld.PT_FEC_CORR, Fld.PT_FEC_UNCORR]
  | .PT_GCL => [Fld.PT_GCL_GATES, Fld.PT_GCL_TIME]
  | .PT_GCTL => [Fld.PT_GCTL_CYC_OVR, Fld.PT_GCTL_OPER_LEN, Fld.PT_GCTL_ADMIN_LEN, Fld.PT_GCTL_PEND, Fld.PT_GCTL_EN, Fld.PT_GCTL_ENTRY]
  | .PT_CBS => [Fld.PT_CBS_EN, Fld.PT_CBS_LANES, Fld.PT_CBS_HLEN, Fld.PT_CBS_RESET_TMO, Fld.PT_CBS_GEN_SEQ]
  | .PT_CBC => [Fld.PT_CBC_PASSED, Fld.PT_CBC_DISCARDED, Fld.PT_CBC_OOO, Fld.PT_CBC_RESETS]
  | .PT_XGATE => [Fld.PT_XGATE_DENIED, Fld.PT_XGATE_STATE, Fld.PT_XGATE_KEY]
  | .PT_SVC_CTL => [Fld.PT_SVC_CTL_LAST_STATUS, Fld.PT_SVC_CTL_SPEED, Fld.PT_SVC_CTL_LINK, Fld.PT_SVC_CTL_RXEN, Fld.PT_SVC_CTL_TXEN]
  | .PT_SVC_RXB => [Fld.PT_SVC_RXB_BASE, Fld.PT_SVC_RXB_SIZE]
  | .PT_SVC_TXB => [Fld.PT_SVC_TXB_BASE, Fld.PT_SVC_TXB_SIZE]
  | .PT_SVC_IDX => [Fld.PT_SVC_IDX_TXT, Fld.PT_SVC_IDX_TXH, Fld.PT_SVC_IDX_RXT, Fld.PT_SVC_IDX_RXH]
  | .PT_MDIO => [Fld.PT_MDIO_GO, Fld.PT_MDIO_BUSY, Fld.PT_MDIO_C45, Fld.PT_MDIO_OP, Fld.PT_MDIO_PHYAD, Fld.PT_MDIO_REG, Fld.PT_MDIO_DATA]
  | .PT_GPIO => [Fld.PT_GPIO_INV, Fld.PT_GPIO_IN, Fld.PT_GPIO_OE, Fld.PT_GPIO_OUT]
  | .PT_GPIO_OSET => [Fld.PT_GPIO_OSET_SET]
  | .PT_GPIO_OCLR => [Fld.PT_GPIO_OCLR_CLR]
  | .SP_THR => [Fld.SP_THR_LAST_SRC, Fld.SP_THR_LAST_STATUS, Fld.SP_THR_STATE, Fld.SP_THR_CMD]
  | .SP_START => [Fld.SP_START_PC]
  | .SP_ARG => [Fld.SP_ARG_VALUE]
  | .SP_FAULT => [Fld.SP_FAULT_TRAPNO, Fld.SP_FAULT_CAUSE, Fld.SP_FAULT_PC]
  | .SP_FADDR => [Fld.SP_FADDR_ADDR]
  | .QE_FM_CMD => [Fld.QE_FM_CMD_KEY, Fld.QE_FM_CMD_TAG, Fld.QE_FM_CMD_PORT, Fld.QE_FM_CMD_QIDX, Fld.QE_FM_CMD_OP]
  | .QE_FM_RES => [Fld.QE_FM_RES_LAST_SRC, Fld.QE_FM_RES_LAST_STATUS, Fld.QE_FM_RES_HIT, Fld.QE_FM_RES_QIDX, Fld.QE_FM_RES_TAG]
  | .QE_FM_STAT => [Fld.QE_FM_STAT_FULL_CNT, Fld.QE_FM_STAT_USED]
  | .QE_MISS => [Fld.QE_MISS_CLR, Fld.QE_MISS_MISS]
  | .QE_CFG => [Fld.QE_CFG_SEC, Fld.QE_CFG_EN, Fld.QE_CFG_DIR, Fld.QE_CFG_SIZE, Fld.QE_CFG_BASE]
  | .QE_HOST => [Fld.QE_HOST_COAL, Fld.QE_HOST_THRESH, Fld.QE_HOST_OWNER]
  | .QE_PTR => [Fld.QE_PTR_TAIL, Fld.QE_PTR_HEAD, Fld.QE_PTR_LAST_STATUS, Fld.QE_PTR_LAST_SRC]
  | .QE_STAT => [Fld.QE_STAT_DROP, Fld.QE_STAT_ENTRIES, Fld.QE_STAT_LAST_CAUSE, Fld.QE_STAT_ARMED, Fld.QE_STAT_LEVEL]
  | .QE_DMA_CTL => [Fld.QE_DMA_CTL_SEC, Fld.QE_DMA_CTL_LAST_STATUS, Fld.QE_DMA_CTL_KEYOFF, Fld.QE_DMA_CTL_TXQ, Fld.QE_DMA_CTL_RXQ, Fld.QE_DMA_CTL_FREEQ, Fld.QE_DMA_CTL_CLASSIFY, Fld.QE_DMA_CTL_STATE, Fld.QE_DMA_CTL_TXEN, Fld.QE_DMA_CTL_RXEN]
  | .QE_DMA_STAT => [Fld.QE_DMA_STAT_NOBUF, Fld.QE_DMA_STAT_QFULL, Fld.QE_DMA_STAT_RXFR, Fld.QE_DMA_STAT_TXFR]
  | .QE_DMA_ERR => [Fld.QE_DMA_ERR_CAUSE, Fld.QE_DMA_ERR_ADDR]
  | .CK_OWN => [Fld.CK_OWN_LAST_SRC, Fld.CK_OWN_LAST_STATUS, Fld.CK_OWN_OWN_SRC, Fld.CK_OWN_FORCE, Fld.CK_OWN_CLAIM]
  | .CK_CMD => [Fld.CK_CMD_TMO, Fld.CK_CMD_CODE]
  | .CK_STAT => [Fld.CK_STAT_LATE_CNT, Fld.CK_STAT_SEQ, Fld.CK_STAT_STATUS, Fld.CK_STAT_WR_BUSY, Fld.CK_STAT_IRQ_EN, Fld.CK_STAT_STATE]
  | .CK_MSG => [Fld.CK_MSG_DATA]
  | .CK_FWA => [Fld.CK_FWA_SRC, Fld.CK_FWA_BASE, Fld.CK_FWA_EN, Fld.CK_FWA_SR, Fld.CK_FWA_SW, Fld.CK_FWA_NR, Fld.CK_FWA_NW]
  | .CK_FWB => [Fld.CK_FWB_SMASK, Fld.CK_FWB_LIMIT]
  | .CK_FWCTL => [Fld.CK_FWCTL_REF_CNT, Fld.CK_FWCTL_LAST_SRC, Fld.CK_FWCTL_WR_STATUS, Fld.CK_FWCTL_BUSY, Fld.CK_FWCTL_LOCK, Fld.CK_FWCTL_DFLT]
  | .CK_FWLAST => [Fld.CK_FWLAST_PA]
  | .CK_GFWA => [Fld.CK_GFWA_SRC, Fld.CK_GFWA_BASE, Fld.CK_GFWA_EN, Fld.CK_GFWA_SR, Fld.CK_GFWA_SW, Fld.CK_GFWA_NR, Fld.CK_GFWA_NW]
  | .CK_GFWB => [Fld.CK_GFWB_SMASK, Fld.CK_GFWB_LIMIT]
  | .CK_GFWCTL => [Fld.CK_GFWCTL_REF_CNT, Fld.CK_GFWCTL_LAST_SRC, Fld.CK_GFWCTL_WR_STATUS, Fld.CK_GFWCTL_BUSY, Fld.CK_GFWCTL_LOCK, Fld.CK_GFWCTL_DFLT]
  | .CK_GFWLAST => [Fld.CK_GFWLAST_PA]
  | .CK_CSTAT => [Fld.CK_CSTAT_RESETS, Fld.CK_CSTAT_STATE]
  | .CK_NOTE => [Fld.CK_NOTE_CAUSE, Fld.CK_NOTE_SEQ]
  | .TR_AUTH => [Fld.TR_AUTH_SYS, Fld.TR_AUTH_HALT, Fld.TR_AUTH_TRACE_H, Fld.TR_AUTH_TRACE_S]
  | .TR_SINK_CTL => [Fld.TR_SINK_CTL_POST, Fld.TR_SINK_CTL_SIZE, Fld.TR_SINK_CTL_STALL, Fld.TR_SINK_CTL_SYNCP, Fld.TR_SINK_CTL_TRIG, Fld.TR_SINK_CTL_KIND, Fld.TR_SINK_CTL_EN]
  | .TR_SINK_BASE => [Fld.TR_SINK_BASE_BASE]
  | .TR_SINK_STAT => [Fld.TR_SINK_STAT_DROPPED, Fld.TR_SINK_STAT_LAST_STATUS, Fld.TR_SINK_STAT_WPTR, Fld.TR_SINK_STAT_WRAP, Fld.TR_SINK_STAT_STATE]
  | .TR_STAGE => [Fld.TR_STAGE_WORD]
  | .TR_DBG => [Fld.TR_DBG_LAST_STATUS, Fld.TR_DBG_CMPNO, Fld.TR_DBG_HCAUSE, Fld.TR_DBG_HALTED, Fld.TR_DBG_STEPINT, Fld.TR_DBG_CMD]
  | .TR_DSEL => [Fld.TR_DSEL_WORD, Fld.TR_DSEL_CLASS, Fld.TR_DSEL_NUM]
  | .TR_DDATA => [Fld.TR_DDATA_DATA]
  | .TR_SDBG => [Fld.TR_SDBG_LAST_STATUS, Fld.TR_SDBG_CMPNO, Fld.TR_SDBG_HCAUSE, Fld.TR_SDBG_HALTED, Fld.TR_SDBG_STEPINT, Fld.TR_SDBG_CMD]
  | .TR_SDSEL => [Fld.TR_SDSEL_WORD, Fld.TR_SDSEL_CLASS, Fld.TR_SDSEL_NUM]
  | .TR_SDDATA => [Fld.TR_SDDATA_DATA]
  | .TR_SBRK => [Fld.TR_SBRK_PC, Fld.TR_SBRK_EN]
  | .PM_GCTL => [Fld.PM_GCTL_SNAP, Fld.PM_GCTL_TICK, Fld.PM_GCTL_FREEZE]
  | .PM_GSTAT => [Fld.PM_GSTAT_LAST_STATUS, Fld.PM_GSTAT_MISSED, Fld.PM_GSTAT_BUSY, Fld.PM_GSTAT_SEQ]
  | .PM_GSNAPTS => [Fld.PM_GSNAPTS_TS]
  | .PM_CSTAT => [Fld.PM_CSTAT_SEQ, Fld.PM_CSTAT_VALID, Fld.PM_CSTAT_LIVE]
  | .PM_CCNT => [Fld.PM_CCNT_COUNT]
  | .PM_CSNAP => [Fld.PM_CSNAP_COUNT]
  | .PM_CEV => [Fld.PM_CEV_COPY]
  | .PM_CCTL => [Fld.PM_CCTL_COPY]
  | .PM_LSEL => [Fld.PM_LSEL_EVENT, Fld.PM_LSEL_CHAIN, Fld.PM_LSEL_OVF, Fld.PM_LSEL_EN]
  | .PM_LCNT => [Fld.PM_LCNT_COUNT]
  | .PM_LSNAP => [Fld.PM_LSNAP_COUNT]
  | .PM_HSEL => [Fld.PM_HSEL_EVENT, Fld.PM_HSEL_CHAIN, Fld.PM_HSEL_OVF, Fld.PM_HSEL_EN]
  | .PM_HCNT => [Fld.PM_HCNT_COUNT]
  | .PM_HSNAP => [Fld.PM_HSNAP_COUNT]
  | .ER_UCTL => [Fld.ER_UCTL_LOST, Fld.ER_UCTL_VALID, Fld.ER_UCTL_MCTGT, Fld.ER_UCTL_DIE, Fld.ER_UCTL_CEIE]
  | .ER_INJ => [Fld.ER_INJ_TYPE, Fld.ER_INJ_SEV, Fld.ER_INJ_CLASS, Fld.ER_INJ_WHERE, Fld.ER_INJ_ONREAD, Fld.ER_INJ_ARM]
  | .ER_XGATE => [Fld.ER_XGATE_DENIED, Fld.ER_XGATE_STATE, Fld.ER_XGATE_KEY]
  | .ER_STATUS => [Fld.ER_STATUS_VALID, Fld.ER_STATUS_INJ, Fld.ER_STATUS_SEC, Fld.ER_STATUS_AV, Fld.ER_STATUS_SEV, Fld.ER_STATUS_TYPE, Fld.ER_STATUS_COUNT, Fld.ER_STATUS_SRC, Fld.ER_STATUS_LOC]
  | .ER_ADDR => [Fld.ER_ADDR_ADDR]
  | .ER_TFIRST => [Fld.ER_TFIRST_TS]
  | .ER_TLAST => [Fld.ER_TLAST_TS]
  | .ER_DATA => [Fld.ER_DATA_DATA]
  | .ER_WDOG => [Fld.ER_WDOG_EXP_CNT, Fld.ER_WDOG_LATE_CNT, Fld.ER_WDOG_PERIOD, Fld.ER_WDOG_STAGE, Fld.ER_WDOG_KICK]
  | .BT_STAT => [Fld.BT_STAT_WARM_CNT, Fld.BT_STAT_CAUSE, Fld.BT_STAT_BOOTSEL, Fld.BT_STAT_FAIL, Fld.BT_STAT_PHASE]
  | .BT_RST => [Fld.BT_RST_LAST_SRC, Fld.BT_RST_LAST_STATUS, Fld.BT_RST_TARGET, Fld.BT_RST_OP]
  | .BT_ENTRY => [Fld.BT_ENTRY_ENTRY]
  | .BT_VER => [Fld.BT_VER_REEVE, Fld.BT_VER_CORE]
  | .BT_FUSEOPT => [Fld.BT_FUSEOPT_OPT]
  | .BT_UID => [Fld.BT_UID_UID]
  | .BT_CREL => [Fld.BT_CREL_REL]
  | .BT_LOWN => [Fld.BT_LOWN_LAST_SRC, Fld.BT_LOWN_LAST_STATUS, Fld.BT_LOWN_OWN_SRC, Fld.BT_LOWN_FORCE, Fld.BT_LOWN_FUNC]

/-- The address of instance 0 of a register (R22). -/
def Reg.base : Reg → Nat
  | .PW_INSTAT => 0xFE00000000
  | .PW_PFLOG => 0xFE00000008
  | .PW_THERM => 0xFE00000010
  | .PW_HOLD_ISL => 0xFE00000018
  | .PW_HOLD_GR => 0xFE00000020
  | .PW_XGATE => 0xFE00000FF8
  | .PW_VSET => 0xFE00001000
  | .PW_RCTL => 0xFE00001008
  | .PW_RATE => 0xFE00001010
  | .PW_ISTATE => 0xFE00001018
  | .PW_TEMP => 0xFE00001020
  | .TB_NOW_LO => 0xFE01000000
  | .TB_NOW_HI => 0xFE01000008
  | .TB_CTL => 0xFE01000010
  | .TB_STAT => 0xFE01000018
  | .TB_ADDEND => 0xFE01000020
  | .TB_SLEW => 0xFE01000028
  | .TB_SECSET => 0xFE01000030
  | .TB_PPSCAP => 0xFE01000038
  | .TB_PPSOUT => 0xFE01000040
  | .TB_XGATE => 0xFE01000FF8
  | .TB_CMP_OWN => 0xFE01002000
  | .TB_CMP_TGT => 0xFE01002008
  | .TB_CMP_PER => 0xFE01002010
  | .TB_CMP_CTL => 0xFE01002018
  | .RV_OWN => 0xFE02001000
  | .RV_CMD => 0xFE02001008
  | .RV_ARG0 => 0xFE02001010
  | .RV_ARG1 => 0xFE02001018
  | .RV_RES0 => 0xFE02001020
  | .RV_RES1 => 0xFE02001028
  | .RV_STAT => 0xFE02001030
  | .CG_CFG => 0xFE03000000
  | .CG_XGATE => 0xFE03000FF8
  | .CG_DEF => 0xFE03001000
  | .CG_CMD => 0xFE03001008
  | .CG_STAT => 0xFE03001010
  | .CG_INSTAR => 0xFE03001018
  | .CG_EVT => 0xFE03001020
  | .CG_CORE => 0xFE03004000
  | .IC_STAT => 0xFE04000000
  | .IC_SWI_SET => 0xFE04000010
  | .IC_XGATE => 0xFE04000FF8
  | .IC_SRC => 0xFE04011000
  | .IC_TCTL => 0xFE04041000
  | .IC_CLAIM => 0xFE04041008
  | .IC_COMPLETE => 0xFE04041010
  | .IC_TSTAT => 0xFE04041018
  | .IC_TOP => 0xFE04041020
  | .MC_PCSTAT => 0xFE05000000
  | .MC_PCCTL => 0xFE05000008
  | .MC_ECC => 0xFE05000010
  | .MC_SCRUB => 0xFE05000018
  | .MC_INJ => 0xFE05000020
  | .MC_PGEN => 0xFE05000030
  | .MC_PGADDR => 0xFE05000038
  | .MC_PATD => 0xFE05000040
  | .MC_LERR => 0xFE05000048
  | .MC_LERRX => 0xFE05000050
  | .MC_MISR => 0xFE05000058
  | .MC_MISRX => 0xFE05000060
  | .MC_STK => 0xFE05400000
  | .MC_TIM0 => 0xFE05400008
  | .MC_TIM1 => 0xFE05400010
  | .MC_1500 => 0xFE05400018
  | .MC_1500D => 0xFE05400020
  | .MC_RAWCMD => 0xFE05400028
  | .MC_CDLY => 0xFE05402000
  | .MC_LDLY => 0xFE05404000
  | .MC_ILV => 0xFE05440000
  | .MC_HINT => 0xFE05440008
  | .MC_MIR => 0xFE05441000
  | .MC_XGATE => 0xFE05000FF8
  | .MC_LLC_CTL => 0xFE05800000
  | .MC_LLC_STAT => 0xFE05800008
  | .MC_LLC_SECFLUSH => 0xFE05800010
  | .GR_BANK => 0xFE06001000
  | .GR_CMD => 0xFE06001008
  | .GR_CONF => 0xFE06002000
  | .GR_REPAIR => 0xFE06004000
  | .PT_CTL => 0xFE07001000
  | .PT_STAT => 0xFE07001008
  | .PT_SER => 0xFE07001010
  | .PT_DIAG => 0xFE07001018
  | .PT_MMD => 0xFE07001020
  | .PT_LANE => 0xFE071C1010
  | .PT_FEC => 0xFE071C1018
  | .PT_GCL => 0xFE071C1100
  | .PT_GCTL => 0xFE071C1180
  | .PT_CBS => 0xFE071C4000
  | .PT_CBC => 0xFE071C4008
  | .PT_XGATE => 0xFE07000FF8
  | .PT_SVC_CTL => 0xFE07200000
  | .PT_SVC_RXB => 0xFE07200008
  | .PT_SVC_TXB => 0xFE07200010
  | .PT_SVC_IDX => 0xFE07200018
  | .PT_MDIO => 0xFE07200020
  | .PT_GPIO => 0xFE07200028
  | .PT_GPIO_OSET => 0xFE07200030
  | .PT_GPIO_OCLR => 0xFE07200038
  | .SP_THR => 0xFE07801000
  | .SP_START => 0xFE07801008
  | .SP_ARG => 0xFE07801010
  | .SP_FAULT => 0xFE07801018
  | .SP_FADDR => 0xFE07801020
  | .QE_FM_CMD => 0xFE08000010
  | .QE_FM_RES => 0xFE08000018
  | .QE_FM_STAT => 0xFE08000020
  | .QE_MISS => 0xFE08001000
  | .QE_CFG => 0xFE08011000
  | .QE_HOST => 0xFE08011008
  | .QE_PTR => 0xFE08011010
  | .QE_STAT => 0xFE08011018
  | .QE_DMA_CTL => 0xFE08091000
  | .QE_DMA_STAT => 0xFE08091008
  | .QE_DMA_ERR => 0xFE08091010
  | .CK_OWN => 0xFE09001000
  | .CK_CMD => 0xFE09001008
  | .CK_STAT => 0xFE09001010
  | .CK_MSG => 0xFE09001040
  | .CK_FWA => 0xFE09011000
  | .CK_FWB => 0xFE09011008
  | .CK_FWCTL => 0xFE09011100
  | .CK_FWLAST => 0xFE09011108
  | .CK_GFWA => 0xFE09021000
  | .CK_GFWB => 0xFE09021008
  | .CK_GFWCTL => 0xFE09021100
  | .CK_GFWLAST => 0xFE09021108
  | .CK_CSTAT => 0xFE09030000
  | .CK_NOTE => 0xFE09030008
  | .TR_AUTH => 0xFE0A000000
  | .TR_SINK_CTL => 0xFE0A000008
  | .TR_SINK_BASE => 0xFE0A000010
  | .TR_SINK_STAT => 0xFE0A000018
  | .TR_STAGE => 0xFE0A008000
  | .TR_DBG => 0xFE0A011000
  | .TR_DSEL => 0xFE0A011008
  | .TR_DDATA => 0xFE0A011010
  | .TR_SDBG => 0xFE0A021000
  | .TR_SDSEL => 0xFE0A021008
  | .TR_SDDATA => 0xFE0A021010
  | .TR_SBRK => 0xFE0A021018
  | .PM_GCTL => 0xFE0B000000
  | .PM_GSTAT => 0xFE0B000008
  | .PM_GSNAPTS => 0xFE0B000010
  | .PM_CSTAT => 0xFE0B010000
  | .PM_CCNT => 0xFE0B011000
  | .PM_CSNAP => 0xFE0B011040
  | .PM_CEV => 0xFE0B011080
  | .PM_CCTL => 0xFE0B0110C0
  | .PM_LSEL => 0xFE0BA11000
  | .PM_LCNT => 0xFE0BA11020
  | .PM_LSNAP => 0xFE0BA11040
  | .PM_HSEL => 0xFE0BAB1000
  | .PM_HCNT => 0xFE0BAB1040
  | .PM_HSNAP => 0xFE0BAB1080
  | .ER_UCTL => 0xFE0C000000
  | .ER_INJ => 0xFE0C000010
  | .ER_XGATE => 0xFE0C000FF8
  | .ER_STATUS => 0xFE0C001000
  | .ER_ADDR => 0xFE0C001008
  | .ER_TFIRST => 0xFE0C001010
  | .ER_TLAST => 0xFE0C001018
  | .ER_DATA => 0xFE0C001020
  | .ER_WDOG => 0xFE0CFA0020
  | .BT_STAT => 0xFE0D000000
  | .BT_RST => 0xFE0D000008
  | .BT_ENTRY => 0xFE0D000010
  | .BT_VER => 0xFE0D000018
  | .BT_FUSEOPT => 0xFE0D000020
  | .BT_UID => 0xFE0D000028
  | .BT_CREL => 0xFE0D000040
  | .BT_LOWN => 0xFE0D010000

/-- How a register repeats: pairs of count and address stride, outermost first (R22). -/
def Reg.dims : Reg → List (Nat × Nat)
  | .PW_INSTAT => []
  | .PW_PFLOG => []
  | .PW_THERM => []
  | .PW_HOLD_ISL => []
  | .PW_HOLD_GR => []
  | .PW_XGATE => []
  | .PW_VSET => [(25, 0x100)]
  | .PW_RCTL => [(25, 0x100)]
  | .PW_RATE => [(25, 0x100)]
  | .PW_ISTATE => [(25, 0x100)]
  | .PW_TEMP => [(25, 0x100)]
  | .TB_NOW_LO => []
  | .TB_NOW_HI => []
  | .TB_CTL => []
  | .TB_STAT => []
  | .TB_ADDEND => []
  | .TB_SLEW => []
  | .TB_SECSET => []
  | .TB_PPSCAP => []
  | .TB_PPSOUT => []
  | .TB_XGATE => []
  | .TB_CMP_OWN => [(512, 0x20)]
  | .TB_CMP_TGT => [(512, 0x20)]
  | .TB_CMP_PER => [(512, 0x20)]
  | .TB_CMP_CTL => [(512, 0x20)]
  | .RV_OWN => [(32, 0x40)]
  | .RV_CMD => [(32, 0x40)]
  | .RV_ARG0 => [(32, 0x40)]
  | .RV_ARG1 => [(32, 0x40)]
  | .RV_RES0 => [(32, 0x40)]
  | .RV_RES1 => [(32, 0x40)]
  | .RV_STAT => [(32, 0x40)]
  | .CG_CFG => []
  | .CG_XGATE => []
  | .CG_DEF => [(80, 0x40)]
  | .CG_CMD => [(80, 0x40)]
  | .CG_STAT => [(80, 0x40)]
  | .CG_INSTAR => [(80, 0x40)]
  | .CG_EVT => [(80, 0x40)]
  | .CG_CORE => [(160, 0x8)]
  | .IC_STAT => []
  | .IC_SWI_SET => []
  | .IC_XGATE => []
  | .IC_SRC => [(3, 0x10000), (4096, 0x8)]
  | .IC_TCTL => [(322, 0x40)]
  | .IC_CLAIM => [(322, 0x40)]
  | .IC_COMPLETE => [(322, 0x40)]
  | .IC_TSTAT => [(322, 0x40)]
  | .IC_TOP => [(322, 0x40)]
  | .MC_PCSTAT => [(64, 0x10000)]
  | .MC_PCCTL => [(64, 0x10000)]
  | .MC_ECC => [(64, 0x10000)]
  | .MC_SCRUB => [(64, 0x10000)]
  | .MC_INJ => [(64, 0x10000)]
  | .MC_PGEN => [(64, 0x10000)]
  | .MC_PGADDR => [(64, 0x10000)]
  | .MC_PATD => [(64, 0x10000)]
  | .MC_LERR => [(64, 0x10000)]
  | .MC_LERRX => [(64, 0x10000)]
  | .MC_MISR => [(64, 0x10000)]
  | .MC_MISRX => [(64, 0x10000)]
  | .MC_STK => [(4, 0x10000)]
  | .MC_TIM0 => [(4, 0x10000)]
  | .MC_TIM1 => [(4, 0x10000)]
  | .MC_1500 => [(4, 0x10000)]
  | .MC_1500D => [(4, 0x10000)]
  | .MC_RAWCMD => [(4, 0x10000)]
  | .MC_CDLY => [(4, 0x10000), (8, 0x8)]
  | .MC_LDLY => [(4, 0x10000), (16, 0x400), (80, 0x8)]
  | .MC_ILV => []
  | .MC_HINT => []
  | .MC_MIR => [(8, 0x8)]
  | .MC_XGATE => [(69, 0x10000)]
  | .MC_LLC_CTL => [(80, 0x10000)]
  | .MC_LLC_STAT => [(80, 0x10000)]
  | .MC_LLC_SECFLUSH => [(80, 0x10000)]
  | .GR_BANK => [(64, 0x10)]
  | .GR_CMD => [(64, 0x10)]
  | .GR_CONF => [(675, 0x8)]
  | .GR_REPAIR => [(64, 0x8)]
  | .PT_CTL => [(32, 0x10000), (8, 0x200)]
  | .PT_STAT => [(32, 0x10000), (8, 0x200)]
  | .PT_SER => [(28, 0x10000), (8, 0x200)]
  | .PT_DIAG => [(28, 0x10000), (8, 0x200)]
  | .PT_MMD => [(32, 0x10000), (8, 0x200)]
  | .PT_LANE => [(4, 0x10000), (8, 0x200)]
  | .PT_FEC => [(4, 0x10000), (8, 0x200)]
  | .PT_GCL => [(4, 0x10000), (8, 0x200), (16, 0x8)]
  | .PT_GCTL => [(4, 0x10000), (8, 0x200)]
  | .PT_CBS => [(4, 0x10000), (32, 0x10)]
  | .PT_CBC => [(4, 0x10000), (32, 0x10)]
  | .PT_XGATE => [(32, 0x10000)]
  | .PT_SVC_CTL => []
  | .PT_SVC_RXB => []
  | .PT_SVC_TXB => []
  | .PT_SVC_IDX => []
  | .PT_MDIO => []
  | .PT_GPIO => []
  | .PT_GPIO_OSET => []
  | .PT_GPIO_OCLR => []
  | .SP_THR => [(32, 0x10000), (8, 0x40)]
  | .SP_START => [(32, 0x10000), (8, 0x40)]
  | .SP_ARG => [(32, 0x10000), (8, 0x40)]
  | .SP_FAULT => [(32, 0x10000), (8, 0x40)]
  | .SP_FADDR => [(32, 0x10000), (8, 0x40)]
  | .QE_FM_CMD => []
  | .QE_FM_RES => []
  | .QE_FM_STAT => []
  | .QE_MISS => [(256, 0x8)]
  | .QE_CFG => [(8, 0x10000), (1024, 0x20)]
  | .QE_HOST => [(8, 0x10000), (1024, 0x20)]
  | .QE_PTR => [(8, 0x10000), (1024, 0x20)]
  | .QE_STAT => [(8, 0x10000), (1024, 0x20)]
  | .QE_DMA_CTL => [(256, 0x20)]
  | .QE_DMA_STAT => [(256, 0x20)]
  | .QE_DMA_ERR => [(256, 0x20)]
  | .CK_OWN => [(16, 0x80)]
  | .CK_CMD => [(16, 0x80)]
  | .CK_STAT => [(16, 0x80)]
  | .CK_MSG => [(16, 0x80), (8, 0x8)]
  | .CK_FWA => [(65, 0x200), (16, 0x10)]
  | .CK_FWB => [(65, 0x200), (16, 0x10)]
  | .CK_FWCTL => [(65, 0x200)]
  | .CK_FWLAST => [(65, 0x200)]
  | .CK_GFWA => [(64, 0x200), (16, 0x10)]
  | .CK_GFWB => [(64, 0x200), (16, 0x10)]
  | .CK_GFWCTL => [(64, 0x200)]
  | .CK_GFWLAST => [(64, 0x200)]
  | .CK_CSTAT => []
  | .CK_NOTE => []
  | .TR_AUTH => []
  | .TR_SINK_CTL => []
  | .TR_SINK_BASE => []
  | .TR_SINK_STAT => []
  | .TR_STAGE => [(512, 0x8)]
  | .TR_DBG => [(160, 0x20)]
  | .TR_DSEL => [(160, 0x20)]
  | .TR_DDATA => [(160, 0x20)]
  | .TR_SDBG => [(256, 0x20)]
  | .TR_SDSEL => [(256, 0x20)]
  | .TR_SDDATA => [(256, 0x20)]
  | .TR_SBRK => [(256, 0x20)]
  | .PM_GCTL => []
  | .PM_GSTAT => []
  | .PM_GSNAPTS => []
  | .PM_CSTAT => [(160, 0x10000)]
  | .PM_CCNT => [(160, 0x10000), (8, 0x8)]
  | .PM_CSNAP => [(160, 0x10000), (8, 0x8)]
  | .PM_CEV => [(160, 0x10000), (8, 0x8)]
  | .PM_CCTL => [(160, 0x10000)]
  | .PM_LSEL => [(10, 0x10000), (8, 0x100), (4, 0x8)]
  | .PM_LCNT => [(10, 0x10000), (8, 0x100), (4, 0x8)]
  | .PM_LSNAP => [(10, 0x10000), (8, 0x100), (4, 0x8)]
  | .PM_HSEL => [(8, 0x10000), (8, 0x200), (8, 0x8)]
  | .PM_HCNT => [(8, 0x10000), (8, 0x200), (8, 0x8)]
  | .PM_HSNAP => [(8, 0x10000), (8, 0x200), (8, 0x8)]
  | .ER_UCTL => [(256, 0x10000)]
  | .ER_INJ => [(256, 0x10000)]
  | .ER_XGATE => [(256, 0x10000)]
  | .ER_STATUS => [(256, 0x10000), (4, 0x80)]
  | .ER_ADDR => [(256, 0x10000), (4, 0x80)]
  | .ER_TFIRST => [(256, 0x10000), (4, 0x80)]
  | .ER_TLAST => [(256, 0x10000), (4, 0x80)]
  | .ER_DATA => [(256, 0x10000), (4, 0x80), (12, 0x8)]
  | .ER_WDOG => []
  | .BT_STAT => []
  | .BT_RST => []
  | .BT_ENTRY => []
  | .BT_VER => []
  | .BT_FUSEOPT => []
  | .BT_UID => []
  | .BT_CREL => [(3, 0x8)]
  | .BT_LOWN => [(20, 0x8)]

/-- A part of the list of all registers. -/
def Reg.all0 : List Reg :=
  [.PW_INSTAT, .PW_PFLOG, .PW_THERM, .PW_HOLD_ISL, .PW_HOLD_GR, .PW_XGATE,
   .PW_VSET, .PW_RCTL, .PW_RATE, .PW_ISTATE, .PW_TEMP, .TB_NOW_LO,
   .TB_NOW_HI, .TB_CTL, .TB_STAT, .TB_ADDEND, .TB_SLEW, .TB_SECSET,
   .TB_PPSCAP, .TB_PPSOUT, .TB_XGATE, .TB_CMP_OWN, .TB_CMP_TGT, .TB_CMP_PER,
   .TB_CMP_CTL, .RV_OWN, .RV_CMD, .RV_ARG0, .RV_ARG1, .RV_RES0,
   .RV_RES1, .RV_STAT, .CG_CFG, .CG_XGATE, .CG_DEF, .CG_CMD,
   .CG_STAT, .CG_INSTAR, .CG_EVT, .CG_CORE]

/-- A part of the list of all registers. -/
def Reg.all1 : List Reg :=
  [.IC_STAT, .IC_SWI_SET, .IC_XGATE, .IC_SRC, .IC_TCTL, .IC_CLAIM,
   .IC_COMPLETE, .IC_TSTAT, .IC_TOP, .MC_PCSTAT, .MC_PCCTL, .MC_ECC,
   .MC_SCRUB, .MC_INJ, .MC_PGEN, .MC_PGADDR, .MC_PATD, .MC_LERR,
   .MC_LERRX, .MC_MISR, .MC_MISRX, .MC_STK, .MC_TIM0, .MC_TIM1,
   .MC_1500, .MC_1500D, .MC_RAWCMD, .MC_CDLY, .MC_LDLY, .MC_ILV,
   .MC_HINT, .MC_MIR, .MC_XGATE, .MC_LLC_CTL, .MC_LLC_STAT, .MC_LLC_SECFLUSH,
   .GR_BANK, .GR_CMD, .GR_CONF, .GR_REPAIR]

/-- A part of the list of all registers. -/
def Reg.all2 : List Reg :=
  [.PT_CTL, .PT_STAT, .PT_SER, .PT_DIAG, .PT_MMD, .PT_LANE,
   .PT_FEC, .PT_GCL, .PT_GCTL, .PT_CBS, .PT_CBC, .PT_XGATE,
   .PT_SVC_CTL, .PT_SVC_RXB, .PT_SVC_TXB, .PT_SVC_IDX, .PT_MDIO, .PT_GPIO,
   .PT_GPIO_OSET, .PT_GPIO_OCLR, .SP_THR, .SP_START, .SP_ARG, .SP_FAULT,
   .SP_FADDR, .QE_FM_CMD, .QE_FM_RES, .QE_FM_STAT, .QE_MISS, .QE_CFG,
   .QE_HOST, .QE_PTR, .QE_STAT, .QE_DMA_CTL, .QE_DMA_STAT, .QE_DMA_ERR,
   .CK_OWN, .CK_CMD, .CK_STAT, .CK_MSG]

/-- A part of the list of all registers. -/
def Reg.all3 : List Reg :=
  [.CK_FWA, .CK_FWB, .CK_FWCTL, .CK_FWLAST, .CK_GFWA, .CK_GFWB,
   .CK_GFWCTL, .CK_GFWLAST, .CK_CSTAT, .CK_NOTE, .TR_AUTH, .TR_SINK_CTL,
   .TR_SINK_BASE, .TR_SINK_STAT, .TR_STAGE, .TR_DBG, .TR_DSEL, .TR_DDATA,
   .TR_SDBG, .TR_SDSEL, .TR_SDDATA, .TR_SBRK, .PM_GCTL, .PM_GSTAT,
   .PM_GSNAPTS, .PM_CSTAT, .PM_CCNT, .PM_CSNAP, .PM_CEV, .PM_CCTL,
   .PM_LSEL, .PM_LCNT, .PM_LSNAP, .PM_HSEL, .PM_HCNT, .PM_HSNAP,
   .ER_UCTL, .ER_INJ, .ER_XGATE, .ER_STATUS]

/-- A part of the list of all registers. -/
def Reg.all4 : List Reg :=
  [.ER_ADDR, .ER_TFIRST, .ER_TLAST, .ER_DATA, .ER_WDOG, .BT_STAT,
   .BT_RST, .BT_ENTRY, .BT_VER, .BT_FUSEOPT, .BT_UID, .BT_CREL,
   .BT_LOWN]

/-- Every register of CSR space. -/
def Reg.all : List Reg := Reg.all0 ++ Reg.all1 ++ Reg.all2 ++ Reg.all3 ++ Reg.all4

/-- The XGATE of the unit instance that holds a register (R9, R22); none where the unit has no XRW field. -/
def Reg.gate : Reg → Nat → Option (Reg × Nat)
  | .PW_INSTAT, _ => some (.PW_XGATE, 0)
  | .PW_PFLOG, _ => some (.PW_XGATE, 0)
  | .PW_THERM, _ => some (.PW_XGATE, 0)
  | .PW_HOLD_ISL, _ => some (.PW_XGATE, 0)
  | .PW_HOLD_GR, _ => some (.PW_XGATE, 0)
  | .PW_XGATE, _ => some (.PW_XGATE, 0)
  | .PW_VSET, _ => some (.PW_XGATE, 0)
  | .PW_RCTL, _ => some (.PW_XGATE, 0)
  | .PW_RATE, _ => some (.PW_XGATE, 0)
  | .PW_ISTATE, _ => some (.PW_XGATE, 0)
  | .PW_TEMP, _ => some (.PW_XGATE, 0)
  | .TB_NOW_LO, _ => some (.TB_XGATE, 0)
  | .TB_NOW_HI, _ => some (.TB_XGATE, 0)
  | .TB_CTL, _ => some (.TB_XGATE, 0)
  | .TB_STAT, _ => some (.TB_XGATE, 0)
  | .TB_ADDEND, _ => some (.TB_XGATE, 0)
  | .TB_SLEW, _ => some (.TB_XGATE, 0)
  | .TB_SECSET, _ => some (.TB_XGATE, 0)
  | .TB_PPSCAP, _ => some (.TB_XGATE, 0)
  | .TB_PPSOUT, _ => some (.TB_XGATE, 0)
  | .TB_XGATE, _ => some (.TB_XGATE, 0)
  | .TB_CMP_OWN, _ => some (.TB_XGATE, 0)
  | .TB_CMP_TGT, _ => some (.TB_XGATE, 0)
  | .TB_CMP_PER, _ => some (.TB_XGATE, 0)
  | .TB_CMP_CTL, _ => some (.TB_XGATE, 0)
  | .RV_OWN, _ => none
  | .RV_CMD, _ => none
  | .RV_ARG0, _ => none
  | .RV_ARG1, _ => none
  | .RV_RES0, _ => none
  | .RV_RES1, _ => none
  | .RV_STAT, _ => none
  | .CG_CFG, _ => some (.CG_XGATE, 0)
  | .CG_XGATE, _ => some (.CG_XGATE, 0)
  | .CG_DEF, _ => some (.CG_XGATE, 0)
  | .CG_CMD, _ => some (.CG_XGATE, 0)
  | .CG_STAT, _ => some (.CG_XGATE, 0)
  | .CG_INSTAR, _ => some (.CG_XGATE, 0)
  | .CG_EVT, _ => some (.CG_XGATE, 0)
  | .CG_CORE, _ => some (.CG_XGATE, 0)
  | .IC_STAT, _ => some (.IC_XGATE, 0)
  | .IC_SWI_SET, _ => some (.IC_XGATE, 0)
  | .IC_XGATE, _ => some (.IC_XGATE, 0)
  | .IC_SRC, _ => some (.IC_XGATE, 0)
  | .IC_TCTL, _ => some (.IC_XGATE, 0)
  | .IC_CLAIM, _ => some (.IC_XGATE, 0)
  | .IC_COMPLETE, _ => some (.IC_XGATE, 0)
  | .IC_TSTAT, _ => some (.IC_XGATE, 0)
  | .IC_TOP, _ => some (.IC_XGATE, 0)
  | .MC_PCSTAT, i => some (.MC_XGATE, i)
  | .MC_PCCTL, i => some (.MC_XGATE, i)
  | .MC_ECC, i => some (.MC_XGATE, i)
  | .MC_SCRUB, i => some (.MC_XGATE, i)
  | .MC_INJ, i => some (.MC_XGATE, i)
  | .MC_PGEN, i => some (.MC_XGATE, i)
  | .MC_PGADDR, i => some (.MC_XGATE, i)
  | .MC_PATD, i => some (.MC_XGATE, i)
  | .MC_LERR, i => some (.MC_XGATE, i)
  | .MC_LERRX, i => some (.MC_XGATE, i)
  | .MC_MISR, i => some (.MC_XGATE, i)
  | .MC_MISRX, i => some (.MC_XGATE, i)
  | .MC_STK, i => some (.MC_XGATE, 64 + i)
  | .MC_TIM0, i => some (.MC_XGATE, 64 + i)
  | .MC_TIM1, i => some (.MC_XGATE, 64 + i)
  | .MC_1500, i => some (.MC_XGATE, 64 + i)
  | .MC_1500D, i => some (.MC_XGATE, 64 + i)
  | .MC_RAWCMD, i => some (.MC_XGATE, 64 + i)
  | .MC_CDLY, i => some (.MC_XGATE, 64 + i / 8)
  | .MC_LDLY, i => some (.MC_XGATE, 64 + i / 1280)
  | .MC_ILV, _ => some (.MC_XGATE, 68)
  | .MC_HINT, _ => some (.MC_XGATE, 68)
  | .MC_MIR, _ => some (.MC_XGATE, 68)
  | .MC_XGATE, i => some (.MC_XGATE, i)
  | .MC_LLC_CTL, _ => none
  | .MC_LLC_STAT, _ => none
  | .MC_LLC_SECFLUSH, _ => none
  | .GR_BANK, _ => none
  | .GR_CMD, _ => none
  | .GR_CONF, _ => none
  | .GR_REPAIR, _ => none
  | .PT_CTL, i => some (.PT_XGATE, i / 8)
  | .PT_STAT, i => some (.PT_XGATE, i / 8)
  | .PT_SER, i => some (.PT_XGATE, i / 8)
  | .PT_DIAG, i => some (.PT_XGATE, i / 8)
  | .PT_MMD, i => some (.PT_XGATE, i / 8)
  | .PT_LANE, i => some (.PT_XGATE, 28 + i / 8)
  | .PT_FEC, i => some (.PT_XGATE, 28 + i / 8)
  | .PT_GCL, i => some (.PT_XGATE, 28 + i / 128)
  | .PT_GCTL, i => some (.PT_XGATE, 28 + i / 8)
  | .PT_CBS, i => some (.PT_XGATE, 28 + i / 32)
  | .PT_CBC, i => some (.PT_XGATE, 28 + i / 32)
  | .PT_XGATE, i => some (.PT_XGATE, i)
  | .PT_SVC_CTL, _ => none
  | .PT_SVC_RXB, _ => none
  | .PT_SVC_TXB, _ => none
  | .PT_SVC_IDX, _ => none
  | .PT_MDIO, _ => none
  | .PT_GPIO, _ => none
  | .PT_GPIO_OSET, _ => none
  | .PT_GPIO_OCLR, _ => none
  | .SP_THR, _ => none
  | .SP_START, _ => none
  | .SP_ARG, _ => none
  | .SP_FAULT, _ => none
  | .SP_FADDR, _ => none
  | .QE_FM_CMD, _ => none
  | .QE_FM_RES, _ => none
  | .QE_FM_STAT, _ => none
  | .QE_MISS, _ => none
  | .QE_CFG, _ => none
  | .QE_HOST, _ => none
  | .QE_PTR, _ => none
  | .QE_STAT, _ => none
  | .QE_DMA_CTL, _ => none
  | .QE_DMA_STAT, _ => none
  | .QE_DMA_ERR, _ => none
  | .CK_OWN, _ => none
  | .CK_CMD, _ => none
  | .CK_STAT, _ => none
  | .CK_MSG, _ => none
  | .CK_FWA, _ => none
  | .CK_FWB, _ => none
  | .CK_FWCTL, _ => none
  | .CK_FWLAST, _ => none
  | .CK_GFWA, _ => none
  | .CK_GFWB, _ => none
  | .CK_GFWCTL, _ => none
  | .CK_GFWLAST, _ => none
  | .CK_CSTAT, _ => none
  | .CK_NOTE, _ => none
  | .TR_AUTH, _ => none
  | .TR_SINK_CTL, _ => none
  | .TR_SINK_BASE, _ => none
  | .TR_SINK_STAT, _ => none
  | .TR_STAGE, _ => none
  | .TR_DBG, _ => none
  | .TR_DSEL, _ => none
  | .TR_DDATA, _ => none
  | .TR_SDBG, _ => none
  | .TR_SDSEL, _ => none
  | .TR_SDDATA, _ => none
  | .TR_SBRK, _ => none
  | .PM_GCTL, _ => none
  | .PM_GSTAT, _ => none
  | .PM_GSNAPTS, _ => none
  | .PM_CSTAT, _ => none
  | .PM_CCNT, _ => none
  | .PM_CSNAP, _ => none
  | .PM_CEV, _ => none
  | .PM_CCTL, _ => none
  | .PM_LSEL, _ => none
  | .PM_LCNT, _ => none
  | .PM_LSNAP, _ => none
  | .PM_HSEL, _ => none
  | .PM_HCNT, _ => none
  | .PM_HSNAP, _ => none
  | .ER_UCTL, i => some (.ER_XGATE, i)
  | .ER_INJ, i => some (.ER_XGATE, i)
  | .ER_XGATE, i => some (.ER_XGATE, i)
  | .ER_STATUS, i => some (.ER_XGATE, i / 4)
  | .ER_ADDR, i => some (.ER_XGATE, i / 4)
  | .ER_TFIRST, i => some (.ER_XGATE, i / 4)
  | .ER_TLAST, i => some (.ER_XGATE, i / 4)
  | .ER_DATA, i => some (.ER_XGATE, i / 48)
  | .ER_WDOG, _ => some (.ER_XGATE, 250)
  | .BT_STAT, _ => none
  | .BT_RST, _ => none
  | .BT_ENTRY, _ => none
  | .BT_VER, _ => none
  | .BT_FUSEOPT, _ => none
  | .BT_UID, _ => none
  | .BT_CREL, _ => none
  | .BT_LOWN, _ => none

/-! ## Core system registers (R240): the register number is its number, an array's first element's for an array. -/

def CsFld.COREID_MODE : CsFld := ⟨0x000, 9, 8, .ro, 2⟩
def CsFld.COREID_CORE : CsFld := ⟨0x000, 7, 0, .ro, 0⟩

def CsFld.FPCSR_NV : CsFld := ⟨0x001, 12, 12, .rw, 0⟩
def CsFld.FPCSR_DZ : CsFld := ⟨0x001, 11, 11, .rw, 0⟩
def CsFld.FPCSR_OF : CsFld := ⟨0x001, 10, 10, .rw, 0⟩
def CsFld.FPCSR_UF : CsFld := ⟨0x001, 9, 9, .rw, 0⟩
def CsFld.FPCSR_NX : CsFld := ⟨0x001, 8, 8, .rw, 0⟩
def CsFld.FPCSR_FZ : CsFld := ⟨0x001, 4, 4, .rw, 0⟩
def CsFld.FPCSR_RM : CsFld := ⟨0x001, 1, 0, .rw, 0⟩

def CsFld.SSTAT_FL : CsFld := ⟨0x010, 11, 8, .rw, 0⟩
def CsFld.SSTAT_DEFER : CsFld := ⟨0x010, 7, 7, .rw, 0⟩
def CsFld.SSTAT_PIE : CsFld := ⟨0x010, 5, 5, .rw, 0⟩
def CsFld.SSTAT_SIE : CsFld := ⟨0x010, 4, 4, .rw, 0⟩
def CsFld.SSTAT_PM : CsFld := ⟨0x010, 0, 0, .rw, 0⟩

def CsFld.SEPC_PC : CsFld := ⟨0x011, 47, 1, .rw, 0⟩

def CsFld.SCAUSE_INT : CsFld := ⟨0x012, 63, 63, .rw, 0⟩
def CsFld.SCAUSE_RIPV : CsFld := ⟨0x012, 62, 62, .rw, 0⟩
def CsFld.SCAUSE_EIPV : CsFld := ⟨0x012, 61, 61, .rw, 0⟩
def CsFld.SCAUSE_TRAPNO : CsFld := ⟨0x012, 39, 32, .rw, 0⟩
def CsFld.SCAUSE_DETAIL : CsFld := ⟨0x012, 31, 16, .rw, 0⟩
def CsFld.SCAUSE_VEC : CsFld := ⟨0x012, 5, 0, .rw, 0⟩

def CsFld.SADDR_ADDR : CsFld := ⟨0x013, 63, 0, .rw, 0⟩

def CsFld.VBASE_BASE : CsFld := ⟨0x014, 47, 12, .rw, 0⟩

def CsFld.WIN_DFC : CsFld := ⟨0x018, 23, 20, .ro, 0⟩
def CsFld.WIN_TWP : CsFld := ⟨0x018, 19, 16, .rw, 0⟩
def CsFld.WIN_TW : CsFld := ⟨0x018, 12, 12, .rw, 0⟩
def CsFld.WIN_FLOOR : CsFld := ⟨0x018, 11, 8, .rw, 0⟩
def CsFld.WIN_ROOM : CsFld := ⟨0x018, 7, 4, .ro, 9⟩
def CsFld.WIN_CUR : CsFld := ⟨0x018, 3, 0, .rw, 0⟩

def CsFld.WSAVE_ADDR : CsFld := ⟨0x019, 47, 7, .rw, 0⟩
def CsFld.WSAVE_V : CsFld := ⟨0x019, 0, 0, .rw, 0⟩

def CsFld.WCTX_CTX : CsFld := ⟨0x01A, 15, 0, .rw, 0⟩

def CsFld.WFLUSH_CTX : CsFld := ⟨0x01B, 31, 16, .wo, 0⟩
def CsFld.WFLUSH_COUNT : CsFld := ⟨0x01B, 15, 8, .ro, 0⟩
def CsFld.WFLUSH_OP : CsFld := ⟨0x01B, 1, 0, .wo, 0⟩

def CsFld.BPKEY_FLUSH : CsFld := ⟨0x01C, 63, 63, .wo, 0⟩
def CsFld.BPKEY_KEY : CsFld := ⟨0x01C, 47, 0, .rw, 0⟩

def CsFld.SPECCTL_NOSPEC_LD : CsFld := ⟨0x01D, 2, 2, .rw, 0⟩
def CsFld.SPECCTL_STATIC_BP : CsFld := ⟨0x01D, 1, 1, .rw, 0⟩
def CsFld.SPECCTL_NOSPEC_TW : CsFld := ⟨0x01D, 0, 0, .rw, 0⟩

def CsFld.HSTAT_FL : CsFld := ⟨0x020, 11, 8, .rw, 0⟩
def CsFld.HSTAT_PIE : CsFld := ⟨0x020, 5, 5, .rw, 0⟩
def CsFld.HSTAT_HIE : CsFld := ⟨0x020, 4, 4, .rw, 0⟩
def CsFld.HSTAT_PM : CsFld := ⟨0x020, 1, 0, .rw, 2⟩

def CsFld.HEPC_PC : CsFld := ⟨0x021, 47, 1, .rw, 0⟩

def CsFld.HCAUSE_INT : CsFld := ⟨0x022, 63, 63, .rw, 0⟩
def CsFld.HCAUSE_RIPV : CsFld := ⟨0x022, 62, 62, .rw, 0⟩
def CsFld.HCAUSE_EIPV : CsFld := ⟨0x022, 61, 61, .rw, 0⟩
def CsFld.HCAUSE_TRAPNO : CsFld := ⟨0x022, 39, 32, .rw, 0⟩
def CsFld.HCAUSE_DETAIL : CsFld := ⟨0x022, 31, 16, .rw, 0⟩
def CsFld.HCAUSE_VEC : CsFld := ⟨0x022, 5, 0, .rw, 0⟩

def CsFld.HADDR_ADDR : CsFld := ⟨0x023, 63, 0, .rw, 0⟩

def CsFld.HVBASE_BASE : CsFld := ⟨0x024, 47, 12, .rw, 268435200⟩

def CsFld.HWIN_DFC : CsFld := ⟨0x028, 23, 20, .ro, 0⟩
def CsFld.HWIN_TWP : CsFld := ⟨0x028, 19, 16, .rw, 0⟩
def CsFld.HWIN_TW : CsFld := ⟨0x028, 12, 12, .rw, 0⟩
def CsFld.HWIN_FLOOR : CsFld := ⟨0x028, 11, 8, .rw, 0⟩
def CsFld.HWIN_ROOM : CsFld := ⟨0x028, 7, 4, .ro, 1⟩
def CsFld.HWIN_CUR : CsFld := ⟨0x028, 3, 0, .rw, 0⟩

def CsFld.WENG_ADDR : CsFld := ⟨0x029, 47, 7, .wo, 0⟩
def CsFld.WENG_OP : CsFld := ⟨0x029, 5, 4, .wo, 0⟩
def CsFld.WENG_SLOT : CsFld := ⟨0x029, 3, 0, .wo, 0⟩

def CsFld.STCTL_AD : CsFld := ⟨0x200, 2, 2, .rw, 0⟩
def CsFld.STCTL_SUA : CsFld := ⟨0x200, 1, 1, .rw, 0⟩
def CsFld.STCTL_EN : CsFld := ⟨0x200, 0, 0, .rw, 0⟩

def CsFld.STBASE_ASID : CsFld := ⟨0x201, 63, 48, .rw, 0⟩
def CsFld.STBASE_TBASE : CsFld := ⟨0x201, 47, 12, .rw, 0⟩

def CsFld.HTCTL_AD : CsFld := ⟨0x208, 2, 2, .rw, 0⟩
def CsFld.HTCTL_EN : CsFld := ⟨0x208, 0, 0, .rw, 0⟩

def CsFld.HTBASE_TBASE : CsFld := ⟨0x209, 47, 12, .rw, 0⟩

def CsFld.G2CTL_AD : CsFld := ⟨0x210, 2, 2, .rw, 0⟩
def CsFld.G2CTL_EN : CsFld := ⟨0x210, 0, 0, .rw, 0⟩

def CsFld.G2BASE_GID : CsFld := ⟨0x211, 59, 48, .rw, 0⟩
def CsFld.G2BASE_TBASE : CsFld := ⟨0x211, 47, 12, .rw, 0⟩

def CsFld.HIPA_IPA : CsFld := ⟨0x218, 47, 0, .rw, 0⟩

def CsFld.L1CTL_DEN : CsFld := ⟨0x280, 1, 1, .rw, 0⟩
def CsFld.L1CTL_IEN : CsFld := ⟨0x280, 0, 0, .rw, 0⟩

def CsFld.L2CTL_DIRTY : CsFld := ⟨0x281, 47, 32, .ro, 0⟩
def CsFld.L2CTL_LAST_STATUS : CsFld := ⟨0x281, 31, 24, .ro, 0⟩
def CsFld.L2CTL_STATE : CsFld := ⟨0x281, 19, 18, .ro, 0⟩
def CsFld.L2CTL_LAST : CsFld := ⟨0x281, 17, 16, .ro, 0⟩
def CsFld.L2CTL_MODE : CsFld := ⟨0x281, 1, 1, .rw, 1⟩
def CsFld.L2CTL_EN : CsFld := ⟨0x281, 0, 0, .rw, 0⟩

def CsFld.PFCTL_L2_DIST : CsFld := ⟨0x282, 11, 8, .rw, 8⟩
def CsFld.PFCTL_L1_DIST : CsFld := ⟨0x282, 6, 4, .rw, 2⟩
def CsFld.PFCTL_L2_EN : CsFld := ⟨0x282, 1, 1, .rw, 1⟩
def CsFld.PFCTL_L1_EN : CsFld := ⟨0x282, 0, 0, .rw, 1⟩

def CsFld.PMC_COUNT : CsFld := ⟨0x300, 47, 0, .rw, 0⟩

def CsFld.PMEV_EVENT : CsFld := ⟨0x308, 15, 8, .rw, 0⟩
def CsFld.PMEV_CHAIN : CsFld := ⟨0x308, 6, 6, .rw, 0⟩
def CsFld.PMEV_OVIE : CsFld := ⟨0x308, 5, 5, .rw, 0⟩
def CsFld.PMEV_H : CsFld := ⟨0x308, 4, 4, .rw, 0⟩
def CsFld.PMEV_S : CsFld := ⟨0x308, 3, 3, .rw, 0⟩
def CsFld.PMEV_U : CsFld := ⟨0x308, 2, 2, .rw, 0⟩
def CsFld.PMEV_EN : CsFld := ⟨0x308, 0, 0, .rw, 0⟩

def CsFld.PMCTL_GID : CsFld := ⟨0x310, 59, 48, .rw, 0⟩
def CsFld.PMCTL_UREAD : CsFld := ⟨0x310, 2, 2, .rw, 0⟩
def CsFld.PMCTL_GFRZ : CsFld := ⟨0x310, 1, 1, .ro, 0⟩
def CsFld.PMCTL_EN : CsFld := ⟨0x310, 0, 0, .rw, 0⟩

def CsFld.PMOVF_OVF : CsFld := ⟨0x311, 7, 0, .w1c, 0⟩

def CsFld.TRCTL_GID : CsFld := ⟨0x380, 59, 48, .rw, 0⟩
def CsFld.TRCTL_ASID : CsFld := ⟨0x380, 47, 32, .rw, 0⟩
def CsFld.TRCTL_FILT : CsFld := ⟨0x380, 3, 3, .rw, 0⟩
def CsFld.TRCTL_H : CsFld := ⟨0x380, 2, 2, .rw, 0⟩
def CsFld.TRCTL_S : CsFld := ⟨0x380, 1, 1, .rw, 0⟩
def CsFld.TRCTL_U : CsFld := ⟨0x380, 0, 0, .rw, 0⟩

def CsFld.DBGA_ADDR : CsFld := ⟨0x390, 47, 0, .rw, 0⟩

def CsFld.DBGC_KIND : CsFld := ⟨0x391, 9, 8, .rw, 0⟩
def CsFld.DBGC_ACTION : CsFld := ⟨0x391, 5, 4, .rw, 0⟩
def CsFld.DBGC_MASK : CsFld := ⟨0x391, 3, 0, .rw, 0⟩

/-- A core system register: number, count of the array it heads, step between its elements, fields. -/
structure CsReg where
  csn    : Nat
  count  : Nat
  step   : Nat
  fields : List CsFld
  deriving DecidableEq, Repr

/-- The core system registers (R240 and the chapters it names). -/
def csRegs : List CsReg :=
  [⟨0x000, 1, 1, [CsFld.COREID_MODE, CsFld.COREID_CORE]⟩,
   ⟨0x001, 1, 1, [CsFld.FPCSR_NV, CsFld.FPCSR_DZ, CsFld.FPCSR_OF, CsFld.FPCSR_UF, CsFld.FPCSR_NX, CsFld.FPCSR_FZ, CsFld.FPCSR_RM]⟩,
   ⟨0x010, 1, 1, [CsFld.SSTAT_FL, CsFld.SSTAT_DEFER, CsFld.SSTAT_PIE, CsFld.SSTAT_SIE, CsFld.SSTAT_PM]⟩,
   ⟨0x011, 1, 1, [CsFld.SEPC_PC]⟩,
   ⟨0x012, 1, 1, [CsFld.SCAUSE_INT, CsFld.SCAUSE_RIPV, CsFld.SCAUSE_EIPV, CsFld.SCAUSE_TRAPNO, CsFld.SCAUSE_DETAIL, CsFld.SCAUSE_VEC]⟩,
   ⟨0x013, 1, 1, [CsFld.SADDR_ADDR]⟩,
   ⟨0x014, 1, 1, [CsFld.VBASE_BASE]⟩,
   ⟨0x018, 1, 1, [CsFld.WIN_DFC, CsFld.WIN_TWP, CsFld.WIN_TW, CsFld.WIN_FLOOR, CsFld.WIN_ROOM, CsFld.WIN_CUR]⟩,
   ⟨0x019, 1, 1, [CsFld.WSAVE_ADDR, CsFld.WSAVE_V]⟩,
   ⟨0x01A, 1, 1, [CsFld.WCTX_CTX]⟩,
   ⟨0x01B, 1, 1, [CsFld.WFLUSH_CTX, CsFld.WFLUSH_COUNT, CsFld.WFLUSH_OP]⟩,
   ⟨0x01C, 1, 1, [CsFld.BPKEY_FLUSH, CsFld.BPKEY_KEY]⟩,
   ⟨0x01D, 1, 1, [CsFld.SPECCTL_NOSPEC_LD, CsFld.SPECCTL_STATIC_BP, CsFld.SPECCTL_NOSPEC_TW]⟩,
   ⟨0x020, 1, 1, [CsFld.HSTAT_FL, CsFld.HSTAT_PIE, CsFld.HSTAT_HIE, CsFld.HSTAT_PM]⟩,
   ⟨0x021, 1, 1, [CsFld.HEPC_PC]⟩,
   ⟨0x022, 1, 1, [CsFld.HCAUSE_INT, CsFld.HCAUSE_RIPV, CsFld.HCAUSE_EIPV, CsFld.HCAUSE_TRAPNO, CsFld.HCAUSE_DETAIL, CsFld.HCAUSE_VEC]⟩,
   ⟨0x023, 1, 1, [CsFld.HADDR_ADDR]⟩,
   ⟨0x024, 1, 1, [CsFld.HVBASE_BASE]⟩,
   ⟨0x028, 1, 1, [CsFld.HWIN_DFC, CsFld.HWIN_TWP, CsFld.HWIN_TW, CsFld.HWIN_FLOOR, CsFld.HWIN_ROOM, CsFld.HWIN_CUR]⟩,
   ⟨0x029, 1, 1, [CsFld.WENG_ADDR, CsFld.WENG_OP, CsFld.WENG_SLOT]⟩] ++
  [⟨0x200, 1, 1, [CsFld.STCTL_AD, CsFld.STCTL_SUA, CsFld.STCTL_EN]⟩,
   ⟨0x201, 1, 1, [CsFld.STBASE_ASID, CsFld.STBASE_TBASE]⟩,
   ⟨0x208, 1, 1, [CsFld.HTCTL_AD, CsFld.HTCTL_EN]⟩,
   ⟨0x209, 1, 1, [CsFld.HTBASE_TBASE]⟩,
   ⟨0x210, 1, 1, [CsFld.G2CTL_AD, CsFld.G2CTL_EN]⟩,
   ⟨0x211, 1, 1, [CsFld.G2BASE_GID, CsFld.G2BASE_TBASE]⟩,
   ⟨0x218, 1, 1, [CsFld.HIPA_IPA]⟩,
   ⟨0x280, 1, 1, [CsFld.L1CTL_DEN, CsFld.L1CTL_IEN]⟩,
   ⟨0x281, 1, 1, [CsFld.L2CTL_DIRTY, CsFld.L2CTL_LAST_STATUS, CsFld.L2CTL_STATE, CsFld.L2CTL_LAST, CsFld.L2CTL_MODE, CsFld.L2CTL_EN]⟩,
   ⟨0x282, 1, 1, [CsFld.PFCTL_L2_DIST, CsFld.PFCTL_L1_DIST, CsFld.PFCTL_L2_EN, CsFld.PFCTL_L1_EN]⟩,
   ⟨0x300, 8, 1, [CsFld.PMC_COUNT]⟩,
   ⟨0x308, 8, 1, [CsFld.PMEV_EVENT, CsFld.PMEV_CHAIN, CsFld.PMEV_OVIE, CsFld.PMEV_H, CsFld.PMEV_S, CsFld.PMEV_U, CsFld.PMEV_EN]⟩,
   ⟨0x310, 1, 1, [CsFld.PMCTL_GID, CsFld.PMCTL_UREAD, CsFld.PMCTL_GFRZ, CsFld.PMCTL_EN]⟩,
   ⟨0x311, 1, 1, [CsFld.PMOVF_OVF]⟩,
   ⟨0x380, 1, 1, [CsFld.TRCTL_GID, CsFld.TRCTL_ASID, CsFld.TRCTL_FILT, CsFld.TRCTL_H, CsFld.TRCTL_S, CsFld.TRCTL_U]⟩,
   ⟨0x390, 4, 2, [CsFld.DBGA_ADDR]⟩,
   ⟨0x391, 4, 2, [CsFld.DBGC_KIND, CsFld.DBGC_ACTION, CsFld.DBGC_MASK]⟩]

end Sys2Proof.Machine
end

