-- ==== Sys2Proof/Machine/State.lean ====
section
/-!
DEFINITION. The state of the module as plain data, the reasons a command can stop, and the state after reset.

Every register of CSR space lives in `State.csr` under its number and instance, and every core system register in its
core's `sys`; the rest are the memories, queues, buffers, latches and sequences of the units that the spec names.  A
map lists only what has been written since reset: a register that is not listed holds its reset value (R6).
-/

namespace Sys2Proof.Machine

/-- Why a command stops with a fault: for no reason.  An access that cannot be performed takes the error response of
R20, and an exception is the effect of the command that takes it, so no command ends in a fault and none is listed. -/
inductive Fault : Type where
  deriving DecidableEq, Repr

/-- Why a command has no meaning. -/
inductive Refusal where
  /-- The command's meaning is not written. Raised by the dispatcher alone; safe. -/
  | notModelled (mnemonic : String)
  deriving DecidableEq, Repr

/-! ## Power, lands and boot (chapters 02, 03, 24) -/

/-- The module power states of R88, with the start-up before RUN. -/
inductive ModState where
  | off | start | run | standby | tripped
  deriving DecidableEq, Repr

/-- What the Reeve does once a hold notice ends (R83). -/
inductive HoldAct where
  | emergency | powerFail
  deriving DecidableEq, Repr

/-- The 48 V input, the hold-up store, the status lands, start-up and its sequences (R34, R44 to R50, R84 to R88). -/
structure Power where
  mode      : ModState := .off
  /-- The start-up phase in progress, 0 before phase 1 and 8 in RUN (R34, R599). -/
  phase     : Nat := 0
  /-- Start-up has stopped at a failure (R591). -/
  failed    : Bool := false
  standby   : Bool := false
  reversed  : Bool := false
  /-- The input counts as back: above the start threshold and at no more than 78.0 V (R50). -/
  inputBack : Bool := false
  /-- The input stands below the stop threshold (R48). -/
  belowStop : Bool := true
  /-- The 10 ms wait before phase 1 runs (R50). -/
  backWait  : Bool := false
  switchClosed : Bool := false
  /-- The 20 µs deglitch runs (R48). -/
  deglitch  : Bool := false
  /-- The 100 ms overvoltage timer runs (R46). -/
  ovTimer   : Bool := false
  /-- The power-fail sequence of R49 runs, and has passed its 380 µs point. -/
  failSeq   : Bool := false
  past380   : Bool := false
  /-- Every island is held off after a warning (R50). -/
  heldOff   : Bool := false
  storeFull : Bool := false
  /-- The trip latch of island A and the emergency state (R84, R86). -/
  tripLatch : Bool := false
  emergency : Bool := false
  /-- PFW_N, THERMTRIP_N and PWR_OK as driven (R35). -/
  pfwLow       : Bool := false
  thermtripLow : Bool := false
  pwrOkHigh    : Bool := false
  /-- The status outputs are armed by the Reeve in phase 4 (R35). -/
  armed     : Bool := false
  /-- RESET_N is asserted after its filter, and the phase at which start-up resumes (R584, R585). -/
  resetLow  : Bool := false
  /-- BOOT_SEL as strapped, sampled in phase 1 (R34). -/
  bootSel   : BitVec 2 := 0
  /-- The hold notice that runs, and what follows it (R83). -/
  notice    : Option HoldAct := none
  /-- Input power averaged over 1 ms and 10 ms, in 0.1 W (R85). -/
  p1ms      : Nat := 0
  p10ms     : Nat := 0
  /-- A power-cap episode runs; the cap has lifted and islands return (R85). -/
  capEpisode : Bool := false
  capLifting : Bool := false
  /-- The Reeve watchdog runs (R617). -/
  wdog      : Bool := false
  /-- The highest TJ of the last pass, in quarter degrees (R84). -/
  hottest   : Int := 0
  /-- The boot-flash lands stand as the ROM assigned them in phase 1, not yet handed over (R34). -/
  romLands  : Bool := false
  /-- While the Cocoon's region over the core firmware is in force in region 0 of the HBM firewalls: CK_FWA and CK_FWB that region 0
  of each held before (R522). -/
  fwGuard   : List (Word × Word) := []
  deriving DecidableEq, Repr

/-- A retention or gating entry in progress (R74, R75). -/
structure Entry where
  gate : Bool
  slot : Option Nat
  deriving DecidableEq, Repr

/-- What an island's control holds beside its registers (R61, R69 to R79, R84, R85). -/
structure Island where
  entry      : Option Entry := none
  /-- The entry in progress, past its commit, is gating (R75). -/
  gating     : Bool := false
  /-- The regulator has reached 0.50 V or is off: the exit in progress is a gated island's (R78). -/
  coldExit   : Bool := false
  /-- A WAKE granted after a gating commit waits for GATED (R76). -/
  wakeQueued : Bool := false
  /-- Service slots whose WAKE call waits until the island is ON (R133). -/
  wakers     : List Nat := []
  /-- Consecutive LOCK windows that broke a condition of R70 (R71). -/
  badWindows : Nat := 0
  /-- Lock has been lost and LOCKED has not set again (PT_STAT.LOCK_LOST, R435). -/
  lockGone   : Bool := false
  /-- Whether a boosted island fell to NOMINAL, the critical cap holds, the power cap holds (R84, R85). -/
  boostFell  : Bool := false
  critCap    : Bool := false
  powerCap   : Bool := false
  /-- The voltage code before the first cap, to which the island returns (R84, R85). -/
  capFrom    : Nat := 0
  deriving DecidableEq, Repr

/-! ## Bell time (chapter 04) -/

/-- The bell counter's accumulator and what the time block holds beside its registers (R90 to R106). -/
structure Bell where
  /-- The 112-bit accumulator: SEC, FRAC and the 32 bits below (R90). -/
  acc      : BitVec 112 := 0
  /-- The part of a slew not yet applied, in units of 2^-64 s (R98). -/
  slewRem  : Int := 0
  /-- The 400 MHz clock runs from REFCLK (R93). -/
  onRefclk : Bool := false
  /-- Cycles of the 400 MHz clock since the end of the latest window of 40,000 (R61). -/
  cyc      : Nat := 0
  /-- An edge has been accepted since PPSIN_EN was set, and what the cycles since the last one have added to the
  accumulator (R101): from the edge's instant on, which lies within its cycle. -/
  ppsSeen  : Bool := false
  ppsAge   : Int := 0
  /-- TB_ADDEND at the end of each of the last 16 accepted seconds, the latest first (R106). -/
  addends  : List Nat := []
  /-- PPS_OUT is high (R103). -/
  ppsOut   : Bool := false
  /-- Compare units that found their target already reached in this cycle: they fire in the next one (R108). -/
  lateNow  : List Nat := []
  deriving DecidableEq, Repr

/-! ## Tally cores and mailboxes (chapters 05, 21) -/

/-- What a Tally core is doing. -/
inductive TallyRun where
  | stopped | running
  deriving DecidableEq, Repr

/-- A Tally core with its memories (R112 to R126, R515 to R519). The lockstep pair of the Reeve is one such state. -/
structure Tally where
  run     : TallyRun := .stopped
  regs    : FMap (BitVec 32) := []
  pc      : BitVec 16 := 0
  /-- X0 to X7 (R122). -/
  xregs   : FMap (BitVec 32) := []
  /-- Prefixes read and their concatenated payload E (R119), and the address of the first (R122). -/
  prefixN : Nat := 0
  prefixE : BitVec 36 := 0
  prefixPc : BitVec 16 := 0
  /-- `wait` sleeps on this event mask (R121, R125). -/
  waiting : Option (BitVec 32) := none
  /-- Program RAM words by program address, data SRAM words by word index. -/
  prog    : FMap (BitVec 14) := []
  sram    : FMap (BitVec 32) := []
  /-- SRAM words hit by an injected error: word and number of bits (R615). -/
  sramBad : FMap Nat := []
  /-- Doorbells waiting: slot, code, H (R126, R128), and whether the writer was secure (R525). -/
  mbq     : List (Nat × Nat × Bool × Bool) := []
  /-- Slots whose doorbell has been read and whose call has not been taken, oldest first (R131). -/
  readQ   : List Nat := []
  mbres   : Bool := false
  ploadAddr : BitVec 16 := 0
  plock   : Bool := false
  /-- Machine checks sent to it, the latest first: detail and address (R413). -/
  mchecks : List (BitVec 16 × Word) := []
  /-- The image that the Cocoon has copied into its private SRAM, at a place that the spec does not give (R521, R523). -/
  staged  : List Byte := []
  deriving DecidableEq, Repr

/-- A mailbox slot's side that its serving processor sees (R126, R129, R524). -/
structure Slot where
  /-- Taken and not completed, although it may have expired (R129, R130). -/
  taken : Bool := false
  code  : Nat := 0
  /-- It asks for a long service and was taken while another ran (R131). -/
  second : Bool := false
  /-- The writer of the doorbell was in H mode or JTAG debug (R128), was secure (R524), and its source. -/
  hmode : Bool := false
  sec   : Bool := false
  src   : Nat := 0
  /-- The same of the latest doorbell, until it is taken. -/
  dbH   : Bool := false
  dbSec : Bool := false
  dbSrc : Nat := 0
  /-- The mirror's results (R126). -/
  res0  : Word := 0
  res1  : Word := 0
  /-- Reply words prepared by the Cocoon (R525). -/
  reply : FMap Word := []
  deriving DecidableEq, Repr

/-- The Reeve's service state (R131, R135, R136). -/
structure Services where
  /-- The VERSION of the loaded Reeve image (R133). -/
  reeveVer : BitVec 32 := 0
  /-- The version of the loaded extension (R133). -/
  ext      : Option (BitVec 32) := none
  /-- The slot whose extension handler runs (R136). -/
  extSlot  : Option Nat := none
  /-- The slot of the long service in progress (R131). -/
  long     : Option Nat := none
  /-- LOAD_EXT's call of IMAGE_CHECK in the Cocoon's slot 15 runs (R523). -/
  extCall  : Bool := false
  /-- How far COCOON_RESET has come: 0 not begun, 1 island K is reset, 2 its ROM runs (R540). -/
  ckReset  : Nat := 0
  deriving DecidableEq, Repr

/-! ## Cores (chapters 06 to 13, 22, 23) -/

/-- What a core is doing (R252, R561, R588, R597). -/
inductive CoreRun where
  /-- In reset: not released since its island was last brought up by start-up (R590, R597). -/
  | reset
  | running
  | parked
  /-- Stopped by a fatal error until it is reset (R254, R608). -/
  | stopped
  deriving DecidableEq, Repr

/-- The state of an S ring slot (R192, R198). -/
inductive SlotState where
  | empty | clean | dirty
  deriving DecidableEq, Repr

/-- The tag of an S ring slot: its state, the frame's context and its virtual address (R198, R199). -/
structure RingTag where
  st    : SlotState := .empty
  ctx   : BitVec 16 := 0
  addr  : BitVec 48 := 0
  valid : Bool := false
  deriving DecidableEq, Repr

/-- The architectural state of a core that a checkpoint copies (R346): what instructions read and write. -/
structure CoreArch where
  pc    : BitVec 48 := 0
  /-- 0 U, 1 S, 2 H (R238). -/
  mode  : BitVec 2 := 2
  /-- N, Z, C, V from bit 3 down (R161). -/
  fl    : BitVec 4 := 0
  /-- Window registers and globals: S ring slot k, index j at 16 k + j; H ring at 192 + 16 k + j; g at 256 + i and the
  H set of g at 264 + i (R190 to R194). -/
  rf    : FMap Word := []
  q     : FMap QWord := []
  tags  : FMap RingTag := []
  /-- Core system registers by number (R240). -/
  sys   : FMap Word := []
  /-- Writes of cs.WSAVE and cs.WCTX that wait for the next write of cs.WIN (R205). -/
  wsaveP : Option Word := none
  wctxP  : Option Word := none
  /-- Instructions retired since DEFER was set (R250). -/
  deferN : Nat := 0
  deriving DecidableEq, Repr

/-- An entry of a store buffer (R317 to R325): where it stores, its data and bytes. -/
structure SbEntry where
  /-- 0 NORMAL memory; 1 NORMAL_NC. -/
  kind  : Nat
  addr  : Nat
  size  : Nat
  data  : BitVec 256
  /-- The low half of a split store, 1, which is performed before the high half, 2 (R236); 0 for any other. -/
  half  : Nat := 0
  /-- Of an aligned store of 32 bytes, the offsets of the 8-byte words not yet performed (R312); empty for any other. -/
  words : List Nat := []
  deriving DecidableEq, Repr

/-- The reservation of `ll` (R327 to R332): its granule, whether the lines are held against snoops, and the instructions
that a constrained sequence may still have. -/
structure Resv where
  granule : Nat
  hold    : Bool
  left    : Nat := 16
  deriving DecidableEq, Repr

/-- A line whose value a core has read ahead of its loads (R310, R314): the number of the reading, the data, and the bytes
that no older load of the core has read since. -/
structure Early where
  line  : Nat
  stamp : Nat
  data  : LineData
  mask  : BitVec 64
  deriving DecidableEq, Repr

/-- The regimes of translation (R259). -/
inductive Regime where
  | h | s | g2
  deriving DecidableEq, Repr

/-- A translation held in a TLB (R271): its regime and tags, the page by number and by the bits its offset has, the
page's physical address (for a stage-2 entry, of an IPA page), the memory type the tables give it, and the final entry
of each stage that was walked. -/
structure TlbEntry where
  regime : Regime
  gid    : Nat
  asid   : Nat
  global : Bool
  vpn    : Nat
  bits   : Nat
  base   : Nat
  mt     : Nat
  e1     : Option Word
  e2     : Option Word
  deriving DecidableEq, Repr

/-- A table entry of levels 0 to 2 held in a walk cache (R271): its regime, guest and ASID, its level, the address it
was read at before stage 2, and its value. -/
structure WalkEntry where
  regime : Regime
  gid    : Nat
  asid   : Nat
  level  : Nat
  addr   : Nat
  entry  : Word
  deriving DecidableEq, Repr

/-- An entry of the target buffer, or of the indirect predictor (R221, R223): the branch, or the branch with its folded
history, the target, and the context tag. -/
structure Target where
  key    : Nat
  target : BitVec 48
  ctx    : Nat
  deriving DecidableEq, Repr

/-- A branch checkpoint (R221): the global history, the return-address stack, and cs.WIN and cs.HWIN; of a delayed branch,
the execute comparators that it has met, whose trace it has once it retires (R227, R559). -/
structure BrCkpt where
  ghr  : BitVec 160
  ras  : List (BitVec 48 × Nat)
  win  : Word
  hwin : Word
  cmps : List Nat := []
  deriving DecidableEq, Repr

/-- A broadcast invalidation that waits at a core (R276, R277). -/
structure TlbiOp where
  op     : Nat
  arg    : Word
  gid    : Nat
  asid   : Nat
  issuer : Nat
  /-- The entries are removed, and the stores of the member's instars up to this one are still to be performed. -/
  fold   : Option Nat := none
  deriving DecidableEq, Repr

/-- The states of a line in an L2 (R286). -/
inductive LineState where
  | m | e | s
  deriving DecidableEq, Repr

/-- A line of a private L2, with its poison by half (R611). -/
structure L2Line where
  line   : Nat
  way    : Nat
  st     : LineState
  data   : LineData
  poison : BitVec 2
  /-- An injected error that the next read detects: its CLASS (R615). -/
  err    : Option Nat := none
  deriving DecidableEq, Repr

/-- A line of an LLC slice. -/
structure LlcLine where
  line   : Nat
  way    : Nat
  dirty  : Bool
  reuse  : Bool
  sec    : Bool
  data   : LineData
  poison : BitVec 2
  err    : Option Nat := none
  deriving DecidableEq, Repr

/-- A stride detector (R297): the load's pc, its latest line, the latest stride, and how often it has repeated. -/
structure Stride where
  pc    : BitVec 48
  last  : Nat
  step  : Int
  conf  : Nat
  deriving DecidableEq, Repr

/-- A closed trace block or one being filled: bytes in order (R547). -/
structure TraceEnc where
  on     : Bool := false
  /-- A trace event that raises the core's source (R370). -/
  event  : Bool := false
  atoms  : List Bool := []
  seq    : Nat := 0
  lastPc : BitVec 48 := 0
  /-- The context last reported: mode, guest and ASID (R546). -/
  ctx    : Nat := 0
  /-- Bytes put out since the latest SYNC (R546). -/
  since  : Nat := 0
  /-- The packet bytes of the block being filled, and the closed blocks that wait for the sink, oldest first. -/
  cur    : List Byte := []
  closed : List (List Byte) := []
  lost   : Nat := 0
  deriving DecidableEq, Repr

/-- A machine check that waits to be entered: detail and address (R254, R609). -/
structure McPend where
  detail : BitVec 16
  addr   : Word
  ripv   : Bool
  eipv   : Bool
  /-- The pc it concerns, where it is an instruction's own (R613). -/
  pc     : Option (BitVec 48)
  deriving DecidableEq, Repr

/-- An entry of a fold half (R346): a line, its byte mask, its data, and the epoch it entered in. -/
structure FoldEntry where
  line  : Nat
  mask  : BitVec 64
  data  : LineData
  epoch : Nat
  /-- Its store is NORMAL_NC. -/
  nc    : Bool := false
  deriving DecidableEq, Repr

/-- A translation fault: its kind, level, and whether a write or the walk of stage 1 met it in stage 2 (R270). -/
structure XFault where
  kind   : Nat
  level  : Nat
  stage2 : Bool := false
  write  : Bool := false
  s1walk : Bool := false
  /-- The IPA that cs.HIPA records (R259). -/
  ipa    : Nat := 0
  deriving DecidableEq, Repr

/-- An external operation that a member has issued, by the kinds of R349: what the primary performs and where its
result goes. -/
structure ExtOp where
  kind  : Nat
  /-- Within the kind: the load's or atomic's MOP (R157), or the CSN of `tlbi` or `cmo`; for an A or D update 0x1000. -/
  op    : Nat
  pc    : BitVec 48
  pa    : Nat
  size  : Nat
  data  : Word
  ea    : Word
  /-- The destination register, and the base register with its updated value (R170). -/
  dest  : Option Reg5
  base  : Option (Reg5 × Word)
  /-- The effective memory type is NORMAL_NC (R331). -/
  nc    : Bool := false
  /-- Of an A or D update, the access it comes before, the address, and the fault where the update meets an error (R269). -/
  walk  : Option (Access × Word × XFault) := none
  deriving DecidableEq, Repr

/-- An instar's checkpoint (R354): the architectural state, and the replicated reads taken so far (R350). -/
structure Ckpt where
  instar : Nat
  arch   : CoreArch
  repl   : Nat
  deriving DecidableEq, Repr

/-- What a core holds as a member of a checked group (R342 to R352). -/
structure Member where
  /-- The open instar: its number, its retired instructions and its digest so far. -/
  instar : Nat := 0
  count  : Nat := 0
  crc    : BitVec 64 := BitVec.allOnes 64
  epoch  : Nat := 0
  /-- The half of the open instar, oldest entry first (R346). -/
  openF  : List FoldEntry := []
  /-- The half that awaits confirmation or drains, and its instar (R343). -/
  closedF : List FoldEntry := []
  closedN : Option Nat := none
  /-- The open instar has ended too: the member waits until the closed half has drained (R343). -/
  full   : Bool := false
  /-- The member waits for the drain of the instar it ended with EXTERNAL, FBAR or PARK (R343). -/
  hold   : Bool := false
  /-- Oldest first. -/
  ckpts  : List Ckpt := []
  ext    : Option ExtOp := none
  repl   : Nat := 0
  /-- It has consumed poison, or detected an error of its own, and waits for the verdict (R362). -/
  stuck  : Bool := false
  deriving DecidableEq, Repr

/-- One application core with its caches, buffers, predictor and debug state. -/
structure Core where
  run     : CoreRun := .reset
  /-- It parks in the boot ROM, and jumps to BT_ENTRY when it wakes (R598). -/
  romPark : Bool := false
  arch    : CoreArch := {}
  /-- A delayed branch waits for its slot: the branch's pc and where control goes after the slot, if not to
  the next instruction (R165). -/
  slot    : Option (BitVec 48 × Option (BitVec 48)) := none
  sb      : List SbEntry := []
  resv    : Option Resv := none
  /-- The instruction and the data TLB, the second-level TLB and the walk cache, latest first (R271). -/
  itlb    : List TlbEntry := []
  dtlb    : List TlbEntry := []
  tlb     : List TlbEntry := []
  wcache  : List WalkEntry := []
  tlbis   : List TlbiOp := []
  /-- Broadcast invalidations this core issued and that are not yet performed everywhere (R276). -/
  tlbiWait : Nat := 0
  /-- The broadcast `tlbi` at the pc, its operation and operand, has been sent and has not retired (R276). -/
  tlbiSent : Option (Nat × Word) := none
  l1i     : List (Nat × Nat) := []
  /-- The poison of lines that the L1 instruction cache holds (R298). -/
  l1iBad  : List (Nat × BitVec 2) := []
  l1d     : List (Nat × Nat) := []
  /-- L1 lines hit by an injected error that no read has met: data cache or not, line, CLASS (R615). -/
  l1Bad   : List (Bool × Nat × Nat) := []
  l2      : List L2Line := []
  /-- Lines read ahead of the loads that may use them, how many have been, and, while any stands, how late the value of
  each register and of fl was fixed: the latest of those that the instruction in execution has read (R314). -/
  early   : List Early := []
  clock   : Nat := 0
  rtime   : FMap Nat := []
  flTime  : Nat := 0
  rdTime  : Nat := 0
  /-- The 8 detectors of the L1 and the 16 of the L2, most recently used first (R297). -/
  det1    : List Stride := []
  det2    : List Stride := []
  ghr     : BitVec 160 := 0
  ras     : List (BitVec 48 × Nat) := []
  /-- The target buffer and the indirect predictor, latest first; the direction tables, index and table to tag and
  counter; and the checkpoints of branches that have not retired (R221, R223). -/
  btb     : List Target := []
  ibp     : List Target := []
  dir     : FMap (Nat × Nat) := []
  brCkpts : List BrCkpt := []
  /-- A branch that has not retired was mispredicted, which counts once it retires (R231). -/
  brMiss  : Bool := false
  /-- What an instruction that has not retired has made, and leaves no trace of where it does not retire (R227): updates of
  flags, the latest first, by place, old and new value; exchanges, which count as it retires; and the stores of its frames,
  the youngest of the store buffer. -/
  adMade  : List (Nat × Word × Word) := []
  exchN   : Nat := 0
  frameSt : Nat := 0
  /-- An `ll` whose request is held waits for its turn on this granule, with the number it drew (R332). -/
  llWait  : Option (Nat × Nat) := none
  retired : Nat := 0
  /-- While parked, the targets (0 S, 1 H) whose level was high already when the core parked and has not fallen since
  (R252). -/
  lvlHeld : List Nat := []
  /-- A wake has been granted before the core's entry into the parked state (R253). -/
  woken   : Bool := false
  /-- A debug halt has woken the core, whose island is still in its exit (R252, R561). -/
  haltDue : Bool := false
  mchecks : List McPend := []
  /-- Halted by debug, with its cause and comparator (R561). -/
  halted  : Bool := false
  /-- One instruction runs and the core halts again (R563). -/
  stepping : Bool := false
  stepInt : Bool := false
  /-- No execute comparator acts on the next instruction (R563). -/
  skipCmp : Bool := false
  /-- Data comparators that the instruction in execution has met (R559). -/
  dbgHit  : List Nat := []
  trace   : TraceEnc := {}
  mem     : Member := {}
  deriving DecidableEq, Repr

/-- What a Spinner thread is doing (R469): 0 STOPPED, 1 RUN, 2 WAIT, 3 FAULT, 4 HALTED. -/
inductive ThreadRun where
  | stopped | run | wait | fault | halted
  deriving DecidableEq, Repr

/-- A Spinner thread's registers and latches (chapter 19). -/
structure Thread where
  run   : ThreadRun := .stopped
  pc    : BitVec 48 := 0
  fl    : BitVec 4 := 0
  rf    : FMap Word := []
  cur   : Nat := 0
  depth : Nat := 0
  slot  : Option (BitVec 48 × Option (BitVec 48)) := none
  /-- The latches TIMER, PORTEVT, TXDONE and SOFT (R475). -/
  timer : Bool := false
  portEvt : Bool := false
  txDone  : Bool := false
  soft    : Bool := false
  rxThr : Nat := 1
  txThr : Nat := 1
  wqMask : BitVec 32 := 0
  /-- The conditions, the register for the outcome, whether slots are counted, and the pc after the `wait` in progress. -/
  waitMask : BitVec 7 := 0
  waitRd   : Reg5 := 0
  waitTmo  : Bool := false
  waitSlots : Word := 0
  waitNext : BitVec 48 := 0
  /-- The thread's slots since its START, as far as its instructions and expired waits account for them (R463). -/
  slots    : Word := 0
  /-- One instruction runs and the thread halts again; the breakpoint does not act on the next instruction (R566). -/
  stepping : Bool := false
  skipBrk  : Bool := false
  /-- A line read ahead of the thread's next instruction, and the stores that are still to be performed, oldest first: posted
  stores to HBM, and the half of a split store elsewhere; address, bytes and value (R233, R312, R465). -/
  early : Option (Nat × LineData) := none
  rest  : List (Nat × Nat × Nat) := []
  deriving DecidableEq, Repr

/-- A frame that a port sends or is about to send (R451, R481): what TXSTART or the descriptor asked for, and the stamp
of its start once it has started. -/
structure TxFrame where
  tsreq  : Bool := false
  drive  : Bool := false
  tc     : Nat := 0
  start  : Option Nat := none
  /-- Bytes of it that have left. -/
  sent   : Nat := 0
  /-- The stream and the sequence number of its R-TAG (R453). -/
  tag    : Option (Nat × Nat) := none
  deriving DecidableEq, Repr

/-- A copy of a replicated frame that a lane still has to send (R453): its traffic class, stream and sequence number, the
bytes known of it, and whether those are all. -/
structure FrameCopy where
  tc     : Nat := 0
  stream : Nat := 0
  seq    : Nat := 0
  len    : Nat := 0
  whole  : Bool := true
  deriving DecidableEq, Repr

/-- What a port holds beside its registers (chapters 18, 19). -/
structure Port where
  /-- Entries of the receive FIFO in the layout of RXB, and of the transmit FIFO in the layout of TXB (R477, R478). -/
  rx      : List (BitVec 22) := []
  tx      : List (BitVec 17) := []
  /-- END entries of received frames that wait for room in the receive FIFO, oldest first (R480). -/
  rxLate  : List (BitVec 22) := []
  /-- The stamp of the frame last received, and of the last frame sent with TSREQ (R478). -/
  rxTs    : Nat := 0
  txTs    : Option Nat := none
  frame   : Option TxFrame := none
  /-- The rest of a frame cut off, up to its END, is discarded (R480). -/
  discard : Bool := false
  /-- RAW: the level for the next bit time, and the level received and not yet read (R441). -/
  rawTx   : Bool := false
  rawRx   : Option Bool := none
  /-- The level received last, that of an idle line before any (R448). -/
  rawLine : Bool := true
  /-- Clause 45 registers of the PHY that have been written, by 65,536 times the MMD plus the address (R436, R437). -/
  mmd     : FMap (BitVec 16) := []
  /-- A frame of the port's channel was in progress, on receive or on transmit, when the enable was cleared (R495). -/
  dmaRx   : Bool := false
  dmaTx   : Bool := false
  /-- A reflectometry test runs, or waits for a frame's end (R446). -/
  testing : Bool := false
  testDue : Bool := false
  /-- Both wires have read within 5 V at every sense sample since the last trip and the last sample outside; the 1 s of
  R445 has passed, and a write of MODE is awaited. -/
  calm      : Bool := false
  qualified : Bool := false
  /-- Characters received without a break that frame only when inverted (R443). -/
  inverted  : Nat := 0
  /-- The operating gate list, whether a cycle has started since EN was set, and whether the list has run out (R450). -/
  gates   : FMap Word := []
  gclOn   : Bool := false
  gclOver : Bool := false
  /-- The bell time at which the entry in force began (R450, R451). -/
  gclAt   : Nat := 0
  /-- Copies of replicated frames that wait to leave on this lane, oldest first (R453). -/
  copies  : List FrameCopy := []
  deriving DecidableEq, Repr

/-- The recovery function of an 802.1CB stream (R454): the next frame passes whatever its number; else the latest number
and the numbers of its history that have been seen, bit k for k before it. -/
structure Frer where
  takeAny : Bool := true
  seq     : Nat := 0
  seen    : BitVec 32 := 0
  deriving DecidableEq, Repr

/-- The levels that the outside drives and units only read: the GPIO lands (R456). -/
structure External where
  gpio : BitVec 8 := 0
  deriving DecidableEq, Repr

/-- A region write of an HBM firewall whose sweep runs (R533): the register's index, whether it is CK_FWB, the value,
and whether a broadcast made it. -/
structure FwPend where
  idx   : Nat
  limit : Bool
  val   : Word
  all   : Bool
  deriving DecidableEq, Repr

/-- The TAP (R458, R567, R568): the instruction selected, the boundary chain and the data register. -/
structure Tap where
  ir       : BitVec 8 := 0xFF
  boundary : BitVec 256 := 0
  extest   : Bool := false
  dr       : BitVec 256 := 0
  deriving DecidableEq, Repr

/-- The answer the latest request returned: an error response (R20), or data and whether they are poisoned (R613); and, where
two ports of a Granary bank were granted in one step, the answer of the access granted second with its BUSY (R420). -/
structure Resp where
  err : Bool := false
  val : BitVec 256 := 0
  poison : Bool := false
  err2 : Bool := false
  val2 : BitVec 256 := 0
  poison2 : Bool := false
  busy : Bool := false
  deriving DecidableEq, Repr

/-! ## Memory behind the slices (chapters 12, 16) -/

/-- A request that waits in a controller (R394 to R397): its line's place in the stacks, its bank as 16 × SID + bank, its row,
its page hint, whether it is a secure request's, and how many younger ones have passed it in its bank queue. -/
structure HbmReq where
  loc    : Nat
  bank   : Nat
  row    : Nat
  write  : Bool
  stay   : Bool
  sec    : Bool
  passed : Nat := 0
  deriving DecidableEq, Repr

/-- The bits of a burst, lanes 0 to 71: bit 4 L + b is lane L's in beat b, the four of a lane its symbol (R406). -/
abbrev Burst := BitVec 288

/-- What the primitives of a stack block have driven (R404, R405): the wrapper instruction with its channel select, the bits
shifted into the data register it selects, the first first, and of each channel the bus and the edges of the latest raw
command. -/
structure StackPort where
  instr : Option (BitVec 8 × BitVec 4) := none
  dr    : List Bool := []
  raw   : FMap (Option (Bool × List (BitVec 8))) := []
  deriving DecidableEq, Repr

/-- What a pseudo-channel controller holds beside its registers (R396 to R413). -/
structure HbmCtl where
  /-- Open rows: 0 for a closed bank, else the row plus 1, by 16 × SID + bank. -/
  openRow : FMap Nat := []
  /-- The requests that wait in the bank queues, reads and writes together, the oldest first (R394, R395). -/
  queue : List HbmReq := []
  /-- Writes go before reads: the queue has held 48 of them, and not yet fallen to 16 (R395). -/
  drain : Bool := false
  /-- The place in the rotation of the bank that was activated last; none yet is the place before the first (R396). -/
  lastAct : Nat := 47
  /-- Refreshes postponed, by SID, and the bank that a single-bank refresh takes next (R398). -/
  postponed : FMap Nat := []
  refNext : FMap Nat := []
  /-- Corrected bursts that wait to be written back, by their place in the stacks (R409). -/
  wb    : List Nat := []
  /-- The millisecond of the latest corrected record, plus 1; 0 for none (R407). -/
  ceMs  : Nat := 0
  /-- The next line patrol scrub reads, in units of 64 B of PCA (R409). -/
  scrub : Nat := 0
  /-- Lanes 64 to 79 of the bursts that pattern runs have written, four beats of 16, by burst (R402). -/
  lanes : FMap (BitVec 64) := []
  deriving DecidableEq, Repr

/-! ## Checked groups (chapter 14) -/

/-- A member's digest of an instar, or INTERNAL (R362); `none` as a value. -/
structure Digest where
  core   : Nat
  instar : Nat
  value  : Option (BitVec 64)
  /-- In place of a digest: poison consumed at an address, after so many instructions (R362). -/
  poison : Option (Nat × Nat) := none
  /-- DLIMIT was granted before it: it is dropped, and counted, when it arrives (R355). -/
  dead   : Bool := false
  deriving DecidableEq, Repr

/-- What a group's checker holds beside the group table (R338 to R363). -/
structure Group where
  /-- Digests on their way to the checker, oldest first. -/
  sent     : List Digest := []
  /-- Digests that have arrived and are not decided. -/
  arrived  : List Digest := []
  /-- Cores that DLIMIT has counted as disagreeing, with the instar (R355). -/
  expired  : List (Nat × Nat) := []
  /-- The next instar to decide. -/
  next     : Nat := 0
  /-- The instar that has been rolled back once (R356, R361). -/
  retry    : Option Nat := none
  /-- Cores in the first instar after their re-admission (R359). -/
  fresh    : List Nat := []
  /-- A cut is requested (R344), and what it delivers: an interrupt, a machine check (R352), or a debug halt (R369). -/
  cut      : Bool := false
  irq      : Bool := false
  mc       : Bool := false
  halt     : Option Nat := none
  /-- The HCAUSE with which the core named by `halt` halts (R564). -/
  cause    : Nat := 1
  /-- The instar at whose start the majority waits for a state copy (R358, R360). -/
  resync   : Option Nat := none
  /-- Digests still out of instars that two others have confirmed: core, instar and the confirmed value (R354). -/
  late     : List (Nat × Nat × BitVec 64) := []
  /-- Instars below this one have drained from the primary's fold (R348). -/
  drained  : Nat := 0
  /-- The core that ADMIT adds at the next boundary (R341). -/
  joining    : Option Nat := none
  /-- Replicated reads of R350 by number. -/
  repl     : FMap Word := []
  /-- The last digest of each member core (R363). -/
  last     : FMap (BitVec 64) := []
  /-- The anchor, where ADMIT has since given M0 to another core (R341, R383). -/
  anchor   : Option Nat := none
  /-- Its latest rollback came after the power-fail warning: nothing is executed again (R365). -/
  ended    : Bool := false
  deriving DecidableEq, Repr

/-- The state of the module, with the queue of the commands that wait. -/
structure State where
  pending : List Instr := []
  resp    : Resp := {}
  /-- Undefined values used so far (Config.freeValue), random bits drawn so far (Config.random): the model's own. -/
  free    : Nat := 0
  draws   : Nat := 0
  /-- Every register of CSR space by number and instance. -/
  csr     : FMap Word := []
  /-- HBM, Granary and Spinner memories by physical address (R19). -/
  mem     : List Host.Cell := []
  /-- Fuse bits blown since the factory (R596). -/
  blown   : BitVec 8192 := 0
  ext     : External := {}
  tap     : Tap := {}
  pwr     : Power := {}
  isl     : FMap Island := []
  bell    : Bell := {}
  reeve   : Tally := {}
  cocoon  : Tally := {}
  slots   : FMap Slot := []
  ckSlots : FMap Slot := []
  svc     : Services := {}
  /-- The version of the Cocoon's firmware (R526). -/
  cocoonVer : BitVec 32 := 0
  /-- The Cocoon's CAPCTL.NS: its aperture's requests carry no secure attribute (R518). -/
  capNs   : Bool := false
  /-- Region writes of the HBM firewalls that wait for their sweep, by firewall (R533). -/
  fwPend  : FMap (Option FwPend) := []
  /-- The Cocoon's key slots (R528). -/
  keys    : FMap KeySlot := []
  /-- The priority stack of each interrupt target, top first: source and priority (R374, R377). -/
  icStack : FMap (List (Nat × Nat)) := []
  /-- Spinner threads (chapter 19). -/
  threads : FMap Thread := []
  /-- Gate-list events of route 2 that wait at a backbone lane (R109, R450). -/
  gclDue  : FMap Bool := []
  /-- Ports, and the recovery functions of the 802.1CB streams 32m + i (chapter 18). -/
  ports   : FMap Port := []
  frer    : FMap Frer := []
  /-- The flow-match table: key 2^32 port + flow key, value 2^16 queue index + tag (R490). -/
  flow    : FMap Nat := []
  /-- Queues whose coalescing timer runs (R485). -/
  coal    : FMap Bool := []
  /-- The status bits of the management port (R459). -/
  pmbus   : BitVec 16 := 0
  cores   : FMap Core := []
  /-- Lines of the LLC slices by slice, most recently used first (chapter 12). -/
  llc     : FMap (List LlcLine) := []
  /-- Poison of HBM bursts by line, at the line's place in the stacks (R408). -/
  hbmBad  : FMap (BitVec 2) := []
  /-- Bits that an injected write left wrong, by burst (R406, R410). -/
  hbmSym  : FMap Burst := []
  hbmc    : FMap HbmCtl := []
  /-- The 1500 port and the command buses of each stack (R404, R405). -/
  stkPort : FMap StackPort := []
  /-- Words of the Granary that hold an error, by address: 1 correctable, 2 uncorrectable (R418, R615). -/
  granBad : FMap Nat := []
  /-- Calls of BANK_RETAIN (true) and BANK_WAKE (false) that wait: bank, which, and slot (R428, R429). -/
  granWait : List (Nat × Bool × Nat) := []
  groups  : FMap Group := []
  /-- A snapshot is being distributed, and not only a change of FREEZE (R577). -/
  pmSnap  : Bool := false
  /-- Blocks that the triggered sink still writes (R556). -/
  sinkPost : Nat := 0
  deriving DecidableEq, Repr

/-- The module right after reset: unpowered, every register at its reset value, nothing waiting (R6, R584). -/
def State.reset : State := {}

end Sys2Proof.Machine
end

