-- ==== Sys2Proof/Machine/Ops.lean ====
section
/-!
DEFINITION. The operations every unit shares: registers and their fields, requesters, free values, XGATE, the memory's
bytes, the bell counter's readings and error records.
-/

namespace Sys2Proof.Machine

/-- The outcome of a command. -/
abbrev Result := Host.Outcome State Fault Refusal

/-! ## Registers -/

/-- The operating point an island resets to (R67): 5 for S, 0 for A and K, 2 otherwise. -/
def resetPoint (j : Nat) : Nat := if j = 21 then 5 else if j = 23 ∨ j = 24 then 0 else 2

/-- The kind of an interrupt source (R370): 1 where its producer sends events. -/
def srcKindReset (n : Nat) : Nat :=
  if (8192 ≤ n ∧ n < 8704) ∨ n = 8762 ∨ (9280 ≤ n ∧ n < 9536) ∨ (10240 ≤ n ∧ n < 11264) then 1 else 0

/-- GR_REPAIR of a bank: USED of its eight subarrays; BAD is 0 in every bank of a shipped module (R431, R432). -/
def granaryRepair (b : Nat) : Word :=
  BitVec.ofNat 64 ((List.range 8).foldr (fun i v => (Config.granaryRepair b i).val * 4 ^ i + v) 0)

/-- A register's reset value: its fields' (R6), and where a field's reset depends on the instance, that. -/
def Reg.reset (r : Reg) (i : Nat) : Word :=
  let w := r.fields.foldl (fun w f => withBits w f.hi f.lo f.rst) 0
  match r with
  | .PW_VSET => if i = 21 ∨ i = 23 ∨ i = 24 then 0xA0 else w
  | .PW_RCTL => if i = 21 then withBits (withBits w 31 12 160000) 1 0 2 else 0
  | .PW_ISTATE => withBits w 23 16 (resetPoint i)
  | .IC_SRC => withBits w 27 27 (srcKindReset i)
  | .GR_REPAIR => granaryRepair i
  | _ => w

/-- The key of a register instance in `State.csr`. -/
def regKey (r : Reg) (i : Nat) : Nat := r.ctorIdx * 65536 + i

/-- A CSR as it is held. -/
def State.csrGet (s : State) (r : Reg) (i : Nat) : Word := FMap.get s.csr (Reg.reset r i) (regKey r i)

/-- Set a CSR as a whole. -/
def State.csrSet (s : State) (r : Reg) (i : Nat) (v : Word) : State :=
  { s with csr := FMap.set s.csr (regKey r i) v }

/-- A field of a CSR, as a number. -/
def State.fld (s : State) (f : Fld) (i : Nat) : Nat := bitsOf (s.csrGet f.reg i) f.hi f.lo

/-- Whether a one-bit field is set. -/
def State.flag (s : State) (f : Fld) (i : Nat) : Bool := s.fld f i != 0

/-- Set a field of a CSR. -/
def State.setFld (s : State) (f : Fld) (i : Nat) (v : Nat) : State :=
  s.csrSet f.reg i (withBits (s.csrGet f.reg i) f.hi f.lo v)

/-- The bits a write of `w` carries for a field. -/
def Fld.of (f : Fld) (w : Word) : Nat := bitsOf w f.hi f.lo

/-- Count up in a field, saturating at its largest value. -/
def State.satField (s : State) (f : Fld) (i : Nat) : State :=
  s.setFld f i (satInc (f.hi + 1 - f.lo) (s.fld f i))

/-- Count up in a field, modulo its size. -/
def State.incField (s : State) (f : Fld) (i : Nat) : State := s.setFld f i (s.fld f i + 1)

/-- Drop every register of the given kind back to its reset value. -/
def State.resetRegs (s : State) (p : Reg → Nat → Bool) : State :=
  { s with csr := FMap.dropIf s.csr (fun k => match Reg.all[k / 65536]? with
                                       | some r => p r (k % 65536)
                                       | none => false) }

/-- Answer a request with data. -/
def State.reply (s : State) (v : BitVec 256) : State := { s with resp := { err := false, val := v } }

/-- Answer a request with an error response (R20). -/
def State.replyErr (s : State) : State := { s with resp := { err := true, val := 0 } }

/-- A value that the spec leaves open, and the state after its use. -/
def State.freeVal (s : State) : BitVec 512 × State := (Config.freeValue s.free, { s with free := s.free + 1 })

/-! ## Requesters (R38) -/

/-- The 12-bit source identifier of a requester. -/
def srcId : Src → Nat
  | .core c => c.val
  | .thread t => 0x100 + t.val
  | .reeve => 0x200
  | .cocoon => 0x201
  | .jtag => 0x202
  | .svc => 0x203
  | .sink => 0x204
  | .dma d => 0x300 + d.val
  | .group g => 0x480 + g.val

/-- The island a core lies in (R15). -/
def coreIsland (c : Nat) : Nat := 5 * (c / 2 / 10 / 2) + (c / 2 % 10) / 2

/-- The cores of an island (R15). -/
def islandCores (j : Nat) : List Nat := (List.range 160).filter (fun c => coreIsland c == j)

/-- The state of an island: 0 OFF, 1 ON, 2 ENTERING, 3 RETAINED, 4 EXITING, 5 GATED (R72). -/
def State.islState (s : State) (j : Nat) : Nat := s.fld Fld.PW_ISTATE_STATE j

/-- An island whose crossings are open: ON, or ENTERING before the commit point (R79). -/
def State.islOpen (s : State) (j : Nat) : Bool :=
  s.islState j == 1 || (s.islState j == 2 && (FMap.get s.isl {} j).entry.isSome)

/-- A core's record. -/
def State.core (s : State) (c : Nat) : Core := FMap.get s.cores {} c

/-- Replace a core's record. -/
def State.setCore (s : State) (c : Nat) (k : Core) : State := { s with cores := FMap.set s.cores c k }

/-- Change a core's record. -/
def State.modCore (s : State) (c : Nat) (f : Core → Core) : State := s.setCore c (f (s.core c))

/-- An island's control record. -/
def State.island (s : State) (j : Nat) : Island := FMap.get s.isl {} j

/-- Change an island's control record. -/
def State.modIsland (s : State) (j : Nat) (f : Island → Island) : State :=
  { s with isl := FMap.set s.isl j (f (s.island j)) }

/-- The core that is member `i` of a group's definition (R336). -/
def State.groupMember (s : State) (g i : Nat) : Nat :=
  if i = 0 then s.fld Fld.CG_DEF_M0 g else if i = 1 then s.fld Fld.CG_DEF_M1 g else s.fld Fld.CG_DEF_M2 g

/-- The core that is a group's primary at present (R336). -/
def State.groupPrimary (s : State) (g : Nat) : Nat := s.groupMember g (s.fld Fld.CG_STAT_PRIM g)

/-- Whether a group is formed and has not failed: its identifier can appear on requests, and sources are routed to it
(R38, R372). -/
def State.groupLive (s : State) (g : Nat) : Bool := 1 ≤ s.fld Fld.CG_STAT_STATE g && s.fld Fld.CG_STAT_STATE g ≤ 3

/-- Whether a requester can send anything now: its island's crossings are open, and a core has left reset. -/
def State.srcLive (s : State) : Src → Bool
  | .core c => s.islOpen (coreIsland c.val) && (s.core c.val).run != .reset
  | .thread _ => s.islOpen 21
  | .reeve => s.islOpen 23 && s.reeve.run == .running
  | .cocoon => s.islOpen 24 && s.cocoon.run == .running
  | .jtag => s.pwr.standby
  | .svc => s.islOpen 20
  | .sink => s.islOpen 20
  | .dma _ => s.islOpen 20
  | .group g => s.groupLive g.val

/-- The mode a request carries: the core's, or the group's primary's (R38). -/
def State.srcMode (s : State) : Src → Nat
  | .core c => (s.core c.val).arch.mode.toNat
  | .group g => (s.core (s.groupPrimary g.val)).arch.mode.toNat
  | _ => 0

/-- The requests that rules admit as "a core in H mode" (R38). -/
def State.srcIsH (s : State) (src : Src) : Bool := s.srcMode src == 2

/-- A core in H mode, the Reeve or JTAG debug: the writers of R587, R604 and others. -/
def State.srcSys (s : State) (src : Src) : Bool := s.srcIsH src || src == .reeve || src == .jtag

/-! ## Units and their islands (R17, R79) -/

/-- The island whose crossing a request to a register's unit meets; the Cocoon's mailbox block lies in island A (R524). -/
def Reg.island (r : Reg) : Nat :=
  let w := (r.base - 0xFE00000000) / 0x1000000
  if r.base = 0 then 20
  else if w = 0 ∨ w = 1 ∨ w = 2 ∨ w = 12 then 23
  else if w = 6 then 22
  else if w = 9 then (if r.base < 0xFE09010000 then 23 else 24)
  else if 0xFE07800000 ≤ r.base ∧ r.base < 0xFE08000000 then 21
  else 20

/-- Whether a unit answers: its island's crossings are open; the time base runs on standby power (R17, R79). -/
def State.unitUp (s : State) (r : Reg) : Bool := s.islOpen r.island

/-! ## XGATE (R9 to R13) -/

/-- The expert state of the unit that holds a register: 0 LOCKED, 1 HALF, 2 OPEN; 2 where the unit has no XGATE. -/
def State.gateState (s : State) (r : Reg) (i : Nat) : Nat :=
  match r.gate i with
  | some (g, k) => bitsOf (s.csrGet g k) 17 16
  | none => 2

/-- Whether an XRW field of the register takes a write (R5). -/
def State.gateOpen (s : State) (r : Reg) (i : Nat) : Bool := s.gateState r i == 2

/-- A write that is no key: HALF falls to LOCKED (R10). -/
def State.gateFall (s : State) (g : Reg) (k : Nat) : State :=
  if bitsOf (s.csrGet g k) 17 16 = 1 then s.csrSet g k (withBits (s.csrGet g k) 17 16 0) else s

/-- What any write to a register other than XGATE does to the unit's expert state (R10). -/
def State.gateSees (s : State) (r : Reg) (i : Nat) : State :=
  match r.gate i with
  | some (g, k) => s.gateFall g k
  | none => s

/-- Whether a unit refuses a write to its XGATE by its source (R336, R393, R604). -/
def State.gateRefuses (s : State) (g : Reg) (k : Nat) (src : Src) : Bool :=
  match g with
  | .CG_XGATE => !s.srcSys src
  | .ER_XGATE => !s.srcSys src
  | .MC_XGATE => k == 68 && !s.srcSys src && src != .cocoon
  | _ => false

/-- Record that an XRW write was ignored (R9, R13). -/
def State.gateDeny (s : State) (r : Reg) (i : Nat) : State :=
  match r.gate i with
  | some (g, k) => s.csrSet g k (withBits (s.csrGet g k) 18 18 1)
  | none => s

/-- The next expert state after a write of `key` to XGATE (R10). -/
def gateNext (st key : Nat) : Nat :=
  if st = 0 then (if key = 0x5170 then 1 else 0)
  else if st = 1 then (if key = 0xE7A1 then 2 else if key = 0x5170 then 1 else 0)
  else 0

/-- A write to an XGATE register (R9, R10): the state moves on the key, and a 1 in DENIED clears it. -/
def State.xgateWrite (s : State) (g : Reg) (k : Nat) (v : Word) : State :=
  let w := s.csrGet g k
  let w := if bitsOf v 18 18 = 1 then withBits w 18 18 0 else w
  s.csrSet g k (withBits w 17 16 (gateNext (bitsOf w 17 16) (bitsOf v 15 0)))

/-- One field of a write (R5): `opened` while the unit's XGATE is OPEN, `locked` once its lock bit is set. -/
def writeField (opened locked : Bool) (old v w : Word) (f : Fld) : Word :=
  match f.acc with
  | .ro => w
  | .wo => w
  | .rw => withBits w f.hi f.lo (bitsOf v f.hi f.lo)
  | .w1c => w &&& ~~~ (v &&& bitMask f.hi f.lo)
  | .rwl => if locked then w else withBits w f.hi f.lo (bitsOf v f.hi f.lo)
  | .xrw => if opened then withBits w f.hi f.lo (bitsOf v f.hi f.lo) else withBits w f.hi f.lo (bitsOf old f.hi f.lo)

/-- A register's new value after a write by its fields' access codes (R4, R5, R13). -/
def writeFields (opened locked : Bool) (fs : List Fld) (old v : Word) : Word :=
  fs.foldl (fun w f => writeField opened locked old v w f) old

/-- A write to a register all of whose fields do no more than their access codes say; an XRW field written while the
unit is not OPEN sets DENIED (R5, R13). -/
def State.codeWrite (s : State) (r : Reg) (i : Nat) (v : Word) : State :=
  let opened := s.gateOpen r i
  let t := s.csrSet r i (writeFields opened false r.fields (s.csrGet r i) v)
  if !opened && r.fields.any (fun f => f.acc == .xrw) then t.gateDeny r i else t

/-- A CSR write as the unit's port takes it: a requester that cannot send sends nothing, a unit whose island is closed
answers with an error (R79), and a write that is taken moves XGATE and then has the effect `k` (R10, R11). A write that the
unit goes on to refuse by its source (R336, R373, R393, R434, R604) has been accepted by the port, so that it is one of R10's
other writes all the same, and drops HALF (DESIGN CHOICE, assumption log 335). -/
def State.csrPort (s : State) (src : Src) (r : Reg) (i : Nat) (k : State → State) : State :=
  if !s.srcLive src then s
  else if !s.unitUp r then s.replyErr
  else k ((s.gateSees r i).reply 0)

/-- A CSR write that the state machine of R10 does not see when the Reeve makes it (R66, R105). -/
def State.csrPortReeve (s : State) (src : Src) (r : Reg) (i : Nat) (k : State → State) : State :=
  if !s.srcLive src then s
  else if !s.unitUp r then s.replyErr
  else if src = .reeve then k (s.reply 0) else k ((s.gateSees r i).reply 0)

/-! ## Ownership registers (R39, R107) -/

/-- The status codes of R14 and R134. -/
def stOk : Nat := 0x00
def stBusy : Nat := 0x01
def stOwned : Nat := 0x02
def stTableFull : Nat := 0x03
def stNoService : Nat := 0x04
def stBlockHeld : Nat := 0x05
def stTimeout : Nat := 0x06
def stDenied : Nat := 0x07
def stBadService : Nat := 0x08
def stBadArg : Nat := 0x09
def stNotParked : Nat := 0x10
def stInGroup : Nat := 0x11
def stOverBudget : Nat := 0x12
def stWoken : Nat := 0x13
def stTrainFail : Nat := 0x14
def stBadImage : Nat := 0x15
def stExtFault : Nat := 0x16

/-- The table of R39: the function held, its owner, the write's function and FORCE, the writer, and whether the value
is reserved, give the new function, owner and status. -/
def ownStep (func owner wfunc : Nat) (force reserved : Bool) (src : Nat) : Nat × Nat × Nat :=
  if reserved then (func, owner, stDenied)
  else if force && src != 0x200 then (func, owner, stDenied)
  else if force then (wfunc, 0x200, stOk)
  else if func = 0 ∧ wfunc ≠ 0 then (wfunc, src, stOk)
  else if func = 0 then (func, owner, stOk)
  else if src = owner then (wfunc, owner, stOk)
  else (func, owner, stOwned)

/-- A write to a register with the fields of TB_CMP_OWN_n (R107): CLAIM in place of FUNC. -/
def State.ownWrite (s : State) (r : Reg) (i : Nat) (src : Src) (v : Word) : State :=
  let w := s.csrGet r i
  let (f, o, st) := ownStep (bitsOf w 0 0) (bitsOf w 23 12) (bitsOf v 0 0) (bitsOf v 8 8 == 1) false (srcId src)
  s.csrSet r i (withBits (withBits (withBits (withBits w 0 0 f) 23 12 o) 31 24 st) 43 32 (srcId src))

/-- Whether a source owns the unit of such a register (R107): claimed, and by it. -/
def State.ownedBy (s : State) (r : Reg) (i : Nat) (src : Src) : Bool :=
  bitsOf (s.csrGet r i) 0 0 == 1 && bitsOf (s.csrGet r i) 23 12 == (srcId src)

/-! ## Bell time (R90, R111) -/

/-- The bell counter: SEC and FRAC (R90). -/
def State.bell80 (s : State) : BitVec 80 := (s.bell.acc >>> 32).truncate 80

/-- The time in the form TS48 (R111). -/
def State.ts48 (s : State) : Nat := s.bell80.toNat % 2 ^ 48

/-! ## Memory (R19, R136) -/

/-- The populated ranges of memory (R19): HBM, Granary, Spinner memories. -/
def hbmTop : Nat := 0x1800000000
def granaryBase : Nat := 0xF000000000
def spinnerBase : Nat := 0xF100000000
def csrBase : Nat := 0xFE00000000
def romBase : Nat := 0xFFFFF00000

def isHbm (a : Nat) : Bool := a < hbmTop
def isGranary (a : Nat) : Bool := granaryBase ≤ a && a < granaryBase + 0x1000000
def isSpinnerMem (a : Nat) : Bool := spinnerBase ≤ a && a < spinnerBase + 0x400000
def isCsr (a : Nat) : Bool := csrBase ≤ a && a < csrBase + 0x100000000
def isRom (a : Nat) : Bool := romBase ≤ a && a < romBase + 0x10000

/-- Write `n` bytes of `v` at `a`. -/
def State.memWrite (s : State) (a n v : Nat) : State := { s with mem := BMap.writeLE s.mem a v n }

/-- Read `n` bytes at `a`. -/
def State.memRead (s : State) (a n : Nat) : Nat := BMap.readLE s.mem a n

/-! ## Events of the Tally cores (R124, R519) -/

/-- Set a bit of the Reeve's EVPEND (R124). -/
def State.reeveEvent (s : State) (b : Nat) : State :=
  { s with reeve := { s.reeve with
      xregs := FMap.set s.reeve.xregs 5 (FMap.get s.reeve.xregs 0 5 ||| BitVec.ofNat 32 (2 ^ b)) } }

/-- Set a bit of the Cocoon's EVPEND (R519). -/
def State.cocoonEvent (s : State) (b : Nat) : State :=
  { s with cocoon := { s.cocoon with
      xregs := FMap.set s.cocoon.xregs 5 (FMap.get s.cocoon.xregs 0 5 ||| BitVec.ofNat 32 (2 ^ b)) } }

/-! ## Error records (R600 to R610) -/

/-- An error as a unit reports it. -/
structure ErrRec where
  unit  : Nat
  sev   : Nat
  type  : Nat
  addr  : Option Nat := none
  src   : Nat := 0xFFF
  loc   : Nat := 0
  data  : List Nat := []
  sec   : Bool := false
  inj   : Bool := false
  /-- The cores that own an uncorrected-recoverable error by the raising rule (R608). -/
  owner : Option (List Nat) := none
  deriving DecidableEq, Repr

/-- The instance of record `r` of unit `u`. -/
def recInst (u r : Nat) : Nat := 4 * u + r

/-- Whether a record is valid. -/
def State.recValid (s : State) (u r : Nat) : Bool := s.flag Fld.ER_STATUS_VALID (recInst u r)

/-- Whether an error merges into a record (R605, case 1). -/
def State.recMerges (s : State) (e : ErrRec) (r : Nat) : Bool :=
  let i := recInst e.unit r
  s.recValid e.unit r && s.fld Fld.ER_STATUS_SEV i == 0 && e.sev == 0 && s.fld Fld.ER_STATUS_TYPE i == e.type &&
  (match e.addr with
   | some a => s.flag Fld.ER_STATUS_AV i && s.fld Fld.ER_ADDR_ADDR i == a % 2 ^ 48
   | none => !s.flag Fld.ER_STATUS_AV i && s.fld Fld.ER_STATUS_LOC i == e.loc % 2 ^ 20)

/-- The valid record of lower severity with the oldest first error (R605, case 3). -/
def State.recOldest (s : State) (e : ErrRec) : Option Nat :=
  [0, 1, 2, 3].foldl (fun best r =>
    if s.recValid e.unit r && s.fld Fld.ER_STATUS_SEV (recInst e.unit r) < e.sev then
      match best with
      | none => some r
      | some b =>
        if s.fld Fld.ER_TFIRST_TS (recInst e.unit r) < s.fld Fld.ER_TFIRST_TS (recInst e.unit b) then some r
        else best
    else best) none

/-- Where an error goes (R605): merged, placed in a record, or lost. -/
inductive RecPlace where
  | merge (r : Nat)
  | place (r : Nat)
  | lost
  deriving DecidableEq, Repr

def State.recPlace (s : State) (e : ErrRec) : RecPlace :=
  match [0, 1, 2, 3].find? (s.recMerges e) with
  | some r => .merge r
  | none =>
    match [0, 1, 2, 3].find? (fun r => !s.recValid e.unit r) with
    | some r => .place r
    | none =>
      match s.recOldest e with
      | some r => .place r
      | none => .lost

/-- The STATUS word of a new record (R603). -/
def ErrRec.status (e : ErrRec) : Word :=
  let b (h l v : Nat) (w : Word) := withBits w h l v
  b 63 63 1 (b 61 61 (bit e.inj) (b 60 60 (bit e.sec) (b 59 59 (bit e.addr.isSome) (b 57 56 e.sev (b 55 48 e.type
    (b 47 32 1 (b 31 20 e.src (b 19 0 e.loc 0))))))))

/-- Fill record `r` with a new error (R603). -/
def State.recFill (s : State) (e : ErrRec) (r : Nat) : State :=
  let i := recInst e.unit r
  let s := s.csrSet .ER_STATUS i e.status
  let s := s.csrSet .ER_ADDR i (BitVec.ofNat 64 ((e.addr.getD 0) % 2 ^ 48))
  let s := s.csrSet .ER_TFIRST i (BitVec.ofNat 64 s.ts48)
  let s := s.csrSet .ER_TLAST i (BitVec.ofNat 64 s.ts48)
  (List.range 12).foldl (fun s k => s.csrSet .ER_DATA (12 * i + k) (BitVec.ofNat 64 (e.data.getD k 0))) s

/-- ER_UCTL.VALID follows the records' VALID bits (R602). -/
def State.recSync (s : State) (u : Nat) : State :=
  s.setFld Fld.ER_UCTL_VALID u
    ((List.range 4).foldl (fun n r => n + (if s.recValid u r then 2 ^ r else 0)) 0)

/-- Place an error in its unit's records (R605); the number of the record that holds it, if one does. -/
def State.recStore (s : State) (e : ErrRec) : State × Option Nat :=
  match s.recPlace e with
  | .merge r =>
    let i := recInst e.unit r
    ((s.satField Fld.ER_STATUS_COUNT i).csrSet .ER_TLAST i (BitVec.ofNat 64 s.ts48), some r)
  | .place r => ((s.recFill e r).recSync e.unit, some r)
  | .lost => (s.satField Fld.ER_UCTL_LOST e.unit, none)

/-- A machine check reaches a core and waits there until it is entered (R254, R609). -/
def State.mcheck (s : State) (c : Nat) (m : McPend) : State :=
  s.modCore c (fun k => { k with mchecks := k.mchecks ++ [m] })

/-- cs.HCAUSE.DETAIL of a machine check (R609). -/
def mcDetail (u sev : Nat) (r : Option Nat) : BitVec 16 :=
  BitVec.ofNat 16 (u * 256 + sev * 64 + (r.getD 0) * 16)

/-- cs.HADDR of a machine check: the record's address, and 0 where no record took the error (R609). -/
def mcAddr (r : Option Nat) (a : Nat) : Word := if r.isSome then BitVec.ofNat 64 a else 0

/-- The cores that a unit's uncorrected-recoverable error is told to (R608). -/
def State.errOwner (s : State) (e : ErrRec) : List Nat :=
  match e.owner with
  | some cs => cs
  | none =>
    if e.unit < 160 then [e.unit]
    else if s.fld Fld.ER_UCTL_MCTGT e.unit < 160 then [s.fld Fld.ER_UCTL_MCTGT e.unit] else []

/-- A machine check goes to the owner of an error: a core, or the Cocoon, of which the spec does not say what it does with one:
it is held there (R413; log 337). -/
def State.errCheck (s : State) (c : Nat) (detail : BitVec 16) (addr : Word) : State :=
  if c = 0xFE then { s with cocoon := { s.cocoon with mchecks := (detail, addr) :: s.cocoon.mchecks } }
  else s.mcheck c ⟨detail, addr, true, true, none⟩

/-- Record an error and signal it by its severity (R605, R608). A deferred error is signalled at consumption by the
rule that consumes it (R613). -/
def State.logErr (s : State) (e : ErrRec) : State :=
  let (s, r) := s.recStore e
  if e.sev = 2 then
    let s := s.reeveEvent 7
    (s.errOwner e).foldl (fun s c => s.errCheck c (mcDetail e.unit 2 r) (mcAddr r (e.addr.getD 0))) s
  else if e.sev = 3 then
    let s := s.reeveEvent 7
    if e.unit < 160 then s.modCore e.unit (fun k => { k with run := .stopped }) else s
  else s

/-- Poison that a consumer meets (R613): the deferred record, signalled now to the Reeve by event 7 (R124, R608), and the
number of the record that holds it. -/
def State.logPoison (s : State) (e : ErrRec) : State × Option Nat :=
  let (t, r) := s.recStore e
  (t.reeveEvent 7, r)

/-- Use an armed injection (R615): the class and place, for the next access of the kind, and the injection disarmed. -/
def State.takeInj (s : State) (u place : Nat) (read : Bool) : Option Nat × State :=
  if s.flag Fld.ER_INJ_ARM u && s.fld Fld.ER_INJ_WHERE u == place && s.flag Fld.ER_INJ_ONREAD u == read then
    (some (s.fld Fld.ER_INJ_CLASS u), s.setFld Fld.ER_INJ_ARM u 0)
  else (none, s)

end Sys2Proof.Machine
end

