-- ==== Sys2Proof/Machine/Mailbox.lean ====
section
/-!
DEFINITION. The Reeve's service mailboxes: slots, doorbells, expiry, takes and completions (R127 to R132).
-/

namespace Sys2Proof.Machine

/-- A slot's side that the Reeve sees. -/
def State.slot (s : State) (m : Nat) : Slot := FMap.get s.slots {} m

/-- Change a slot's side that the Reeve sees. -/
def State.modSlot (s : State) (m : Nat) (f : Slot → Slot) : State :=
  { s with slots := FMap.set s.slots m (f (s.slot m)) }

/-- The state of a call: 0 IDLE, 1 PENDING, 2 TAKEN, 3 DONE, 4 EXPIRED (R127). -/
def State.callState (s : State) (m : Nat) : Nat := s.fld Fld.RV_STAT_STATE m

/-- A Spinner engine is secure while any of its eight ports has SEC = 1 (R467). -/
def State.engineSecure (s : State) (n : Nat) : Bool := (List.range 8).any (fun i => s.flag Fld.PT_CTL_SEC (8 * n + i))

/-- Whether a requester is secure: the Cocoon with NS = 0, a thread of a secure engine, or a secure DMA channel (R529). -/
def State.srcSecure (s : State) : Src → Bool
  | .cocoon => !s.capNs
  | .thread t => s.engineSecure (t.val / 8)
  | .dma d => s.flag Fld.QE_DMA_CTL_SEC d.val
  | _ => false

/-- A write to RV_OWN_m (R127): as R107, but a release while a call is in progress returns BUSY. -/
def State.slotOwnWrite (s : State) (m : Nat) (src : Src) (v : Word) : State :=
  if Fld.RV_OWN_CLAIM.of v = 0 ∧ (s.callState m = 1 ∨ s.callState m = 2) then
    (s.setFld Fld.RV_OWN_LAST_STATUS m stBusy).setFld Fld.RV_OWN_LAST_SRC m (srcId src)
  else s.ownWrite .RV_OWN m src v

/-- A write to RV_CMD_m from the slot's owner (R128): it rings the doorbell, or meets a call in progress. The Cocoon's
doorbell is also the Reeve's event CKMSG (R124; DEDUCED, assumption log 314). -/
def State.doorbell (s : State) (m : Nat) (src : Src) (v : Word) : State :=
  if !s.ownedBy .RV_OWN m src then s
  else if s.callState m = 1 ∨ s.callState m = 2 then s.setFld Fld.RV_STAT_WR_BUSY m 1
  else
    let h := s.srcIsH src || src == .jtag
    let s := s.codeWrite .RV_CMD m v
    let s := (s.setFld Fld.RV_STAT_STATE m 1).incField Fld.RV_STAT_SEQ m
    let s := s.modSlot m (fun k => { k with dbH := h, dbSrc := srcId src })
    let s := { s with reeve := { s.reeve with mbq := s.reeve.mbq ++ [(m, Fld.RV_CMD_CODE.of v, h, s.srcSecure src)],
                                              readQ := s.reeve.readQ.filter (· != m) } }
    if src = .cocoon then s.reeveEvent 6 else s

/-- A write to one of a slot's other registers: performed only from its owner (R127). -/
def State.slotRegWrite (s : State) (r : Reg) (m : Nat) (src : Src) (v : Word) : State :=
  if s.ownedBy .RV_OWN m src then s.codeWrite r m v else s

/-- The expiry of a call's timeout (R129, R130). -/
def State.callExpire (s : State) (m : Nat) : State :=
  if s.callState m = 1 then (s.setFld Fld.RV_STAT_STATE m 4).setFld Fld.RV_STAT_STATUS m stNoService
  else if s.callState m = 2 then (s.setFld Fld.RV_STAT_STATE m 4).setFld Fld.RV_STAT_STATUS m stTimeout
  else s

/-- Record for the Reeve whether its latest take or completion came before the expiry (R126). -/
def State.setMbres (s : State) (b : Bool) : State := { s with reeve := { s.reeve with mbres := b } }

/-- Whether a call asks for a long service that can begin: STACK_UP of a stack, LOAD_EXT or COCOON_RESET, from a caller
that may make it (R131, R133). -/
def State.longCall (s : State) (m : Nat) : Bool :=
  let c := s.fld Fld.RV_CMD_CODE m
  (s.slot m).dbH && (c == 0x0C || c == 0x0D || (c == 0x09 && decide ((s.csrGet .RV_ARG0 m).toNat ≤ 3)))

/-- The Reeve takes a call (R129). A long service begins with its take, unless another is in progress (R131). -/
def State.callTake (s : State) (m : Nat) : State :=
  let s := { s with reeve := { s.reeve with readQ := s.reeve.readQ.filter (· != m) } }
  if s.callState m = 1 then
    let long := s.longCall m
    let busy := long && s.svc.long.isSome
    let s := if long && !busy then { s with svc := { s.svc with long := some m } } else s
    ((s.setFld Fld.RV_STAT_STATE m 2).modSlot m (fun k =>
      { k with taken := true, code := s.fld Fld.RV_CMD_CODE m, second := busy, hmode := k.dbH, src := k.dbSrc })).setMbres true
  else s.setMbres false

/-- A long service ends with its completion (R131). -/
def State.longEnd (s : State) (m : Nat) : State :=
  if s.svc.long = some m then { s with svc := { s.svc with long := none } } else s

/-- The Reeve completes a call (R130): granted before the expiry, or dropped and counted late. -/
def State.callDone (s : State) (m status : Nat) : State :=
  let s := s.longEnd m
  if s.callState m = 2 then
    let k := s.slot m
    let s := (s.csrSet .RV_RES0 m k.res0).csrSet .RV_RES1 m k.res1
    let s := (s.setFld Fld.RV_STAT_STATUS m status).setFld Fld.RV_STAT_STATE m 3
    (s.modSlot m (fun k => { k with taken := false })).setMbres true
  else if (s.slot m).taken then
    ((s.satField Fld.RV_STAT_LATE_CNT m).modSlot m (fun k => { k with taken := false })).setMbres false
  else s.setMbres false

/-- A service's reply: results in the mirror, then the completion (R126, R130). A mirror word for which the service lists
no result, and both after a failing status, are 0 (DESIGN CHOICE, assumption log 315). -/
def State.serviceReply (s : State) (m status : Nat) (res0 res1 : Word := 0) : State :=
  (s.modSlot m (fun k => { k with res0 := res0, res1 := res1 })).callDone m status

/-- Whether the Reeve has taken a call of this slot, with this service code, and has not completed it. -/
def State.serving (s : State) (m code : Nat) : Bool := (s.slot m).taken && (s.slot m).code == code

/-- A long service of slot `m`: BUSY where another was in progress when its call was taken, else what `k` does (R131). -/
def State.longService (s : State) (m : Nat) (k : State → State) : State :=
  if (s.slot m).second then s.serviceReply m stBusy else k s

/-- The Reeve has begun a service whose reply comes later: the service is not begun twice. -/
def State.begun (s : State) (m : Nat) : State := s.modSlot m (fun k => { k with code := 256 })

/-- A call's first and second argument (R127). -/
def State.arg0 (s : State) (m : Nat) : Nat := (s.csrGet .RV_ARG0 m).toNat
def State.arg1 (s : State) (m : Nat) : Nat := (s.csrGet .RV_ARG1 m).toNat

/-! ## The Cocoon's mailboxes (R524, R525) -/

/-- A mailbox's side that the Cocoon sees. -/
def State.ckSlot (s : State) (m : Nat) : Slot := FMap.get s.ckSlots {} m

/-- Change a mailbox's side that the Cocoon sees. -/
def State.modCkSlot (s : State) (m : Nat) (f : Slot → Slot) : State :=
  { s with ckSlots := FMap.set s.ckSlots m (f (s.ckSlot m)) }

/-- The state of a Cocoon call, as `State.callState`. -/
def State.ckState (s : State) (m : Nat) : Nat := s.fld Fld.CK_STAT_STATE m

/-- An address lies in the ring of an enabled queue of port `p` with SEC = 1 (R482, R488). -/
def State.secRing (s : State) (p pa : Nat) : Bool :=
  (List.range 32).any (fun j =>
    let q := 32 * p + j
    let base := 32 * s.fld Fld.QE_CFG_BASE q
    s.flag Fld.QE_CFG_SEC q && s.flag Fld.QE_CFG_EN q && base ≤ pa && pa < base + 32 * 2 ^ (4 + s.fld Fld.QE_CFG_SIZE q))

/-- Whether an access carries the secure attribute: that of its requester, and that of the ring on which the port side
acts (R467, R488, R498). -/
def State.accSecure (s : State) (src : Src) (pa : Nat) : Bool :=
  s.srcSecure src || (match src with
    | .thread t => s.secRing t.val pa
    | .dma d => s.secRing d.val pa
    | _ => false)

/-- A write to CK_OWN_m (R524): as RV_OWN_m; slot 15 accepts a claim from the Reeve alone. -/
def State.ckOwnWrite (s : State) (m : Nat) (src : Src) (v : Word) : State :=
  if Fld.CK_OWN_CLAIM.of v = 0 ∧ (s.ckState m = 1 ∨ s.ckState m = 2) then
    (s.setFld Fld.CK_OWN_LAST_STATUS m stBusy).setFld Fld.CK_OWN_LAST_SRC m (srcId src)
  else if m = 15 ∧ Fld.CK_OWN_CLAIM.of v = 1 ∧ src ≠ .reeve then
    (s.setFld Fld.CK_OWN_LAST_STATUS m stDenied).setFld Fld.CK_OWN_LAST_SRC m (srcId src)
  else s.ownWrite .CK_OWN m src v

/-- A write to CK_CMD_m from the mailbox's owner (R128, R524). The Reeve's doorbell is also the Cocoon's event RMSG (R519;
DEDUCED, assumption log 314). -/
def State.ckDoorbell (s : State) (m : Nat) (src : Src) (v : Word) : State :=
  if !s.ownedBy .CK_OWN m src then s
  else if s.ckState m = 1 ∨ s.ckState m = 2 then s.setFld Fld.CK_STAT_WR_BUSY m 1
  else
    let h := s.srcIsH src || src == .jtag
    let sec := s.srcSecure src
    let s := s.codeWrite .CK_CMD m v
    let s := (s.setFld Fld.CK_STAT_STATE m 1).incField Fld.CK_STAT_SEQ m
    let s := s.modCkSlot m (fun k => { k with dbH := h, dbSec := sec, dbSrc := srcId src })
    let s := { s with cocoon := { s.cocoon with mbq := s.cocoon.mbq ++ [(m, Fld.CK_CMD_CODE.of v, h, sec)] } }
    if src = .reeve then s.cocoonEvent 3 else s

/-- A write to CK_MSG_m_i (R525). -/
def State.ckMsgWrite (s : State) (m i : Nat) (src : Src) (v : Word) : State :=
  if !s.ownedBy .CK_OWN m src then s
  else if s.ckState m = 1 ∨ s.ckState m = 2 then s.setFld Fld.CK_STAT_WR_BUSY m 1
  else s.csrSet .CK_MSG (8 * m + i) v

/-- A write to CK_STAT_m (R127, R524). -/
def State.ckRegWrite (s : State) (r : Reg) (m : Nat) (src : Src) (v : Word) : State :=
  if s.ownedBy .CK_OWN m src then s.codeWrite r m v else s

/-- The expiry of a Cocoon call (R129, R130, R524). -/
def State.ckExpire (s : State) (m : Nat) : State :=
  if s.ckState m = 1 then (s.setFld Fld.CK_STAT_STATE m 4).setFld Fld.CK_STAT_STATUS m stNoService
  else if s.ckState m = 2 then (s.setFld Fld.CK_STAT_STATE m 4).setFld Fld.CK_STAT_STATUS m stTimeout
  else s

/-- Record for the Cocoon whether its latest take or completion came before the expiry. -/
def State.setCkMbres (s : State) (b : Bool) : State := { s with cocoon := { s.cocoon with mbres := b } }

/-- The Cocoon takes a call (R129, R524); its mirror holds the request from then on (R525). -/
def State.ckTake (s : State) (m : Nat) : State :=
  if s.ckState m = 1 then
    let mirror : FMap Word := (List.range 8).foldl (fun r i => FMap.set r i (s.csrGet .CK_MSG (8 * m + i))) []
    ((s.setFld Fld.CK_STAT_STATE m 2).modCkSlot m (fun k =>
      { k with taken := true, code := s.fld Fld.CK_CMD_CODE m, hmode := k.dbH, sec := k.dbSec, src := k.dbSrc,
               reply := mirror })).setCkMbres true
  else s.setCkMbres false

/-- The Cocoon completes a call (R130, R525): the mirror's eight words replace the message. -/
def State.ckDone (s : State) (m status : Nat) : State :=
  if s.ckState m = 2 then
    let k := s.ckSlot m
    let s := (List.range 8).foldl (fun s i =>
      s.csrSet .CK_MSG (8 * m + i) (FMap.get k.reply (s.csrGet .CK_MSG (8 * m + i)) i)) s
    let s := (s.setFld Fld.CK_STAT_STATUS m status).setFld Fld.CK_STAT_STATE m 3
    (s.modCkSlot m (fun k => { k with taken := false })).setCkMbres true
  else if (s.ckSlot m).taken then
    ((s.satField Fld.CK_STAT_LATE_CNT m).modCkSlot m (fun k => { k with taken := false })).setCkMbres false
  else s.setCkMbres false

/-- A Cocoon service's reply: words 0 up, then the completion (R525). -/
def State.ckReply (s : State) (m status : Nat) (ws : List Word := []) : State :=
  let r := (List.range ws.length).foldl (fun (r : FMap Word) i => FMap.set r i (ws.getD i 0)) []
  (s.modCkSlot m (fun k => { k with reply := r })).ckDone m status

/-- Whether the Cocoon has taken a call of this mailbox, with this service code. -/
def State.ckServing (s : State) (m code : Nat) : Bool := (s.ckSlot m).taken && (s.ckSlot m).code == code

/-- Request word `i` of a mailbox, as the Cocoon's mirror holds it (R525). -/
def State.ckWord (s : State) (m i : Nat) : Nat := (FMap.get (s.ckSlot m).reply (s.csrGet .CK_MSG (8 * m + i)) i).toNat

end Sys2Proof.Machine
end

