-- ==== Sys2Proof/Machine/Irq.lean ====
section
/-!
DEFINITION. The interrupt controller (chapter 15): sources, routing, levels, claims and completions, and the wake it
sends to an island in retention (R77, R376).
-/

namespace Sys2Proof.Machine

/-! ## Sources (R370 to R373, R380) -/

/-- Whether a source is an event source (R370). -/
def icIsEvent (n : Nat) : Bool := srcKindReset n == 1

/-- Whether a source is secure: by its SEC bit, or by its producing queue or DMA channel (R380). -/
def State.icSec (s : State) (n : Nat) : Bool :=
  s.flag Fld.IC_SRC_SEC n || (n < 8192 && s.flag Fld.QE_CFG_SEC n) ||
  (9024 ≤ n && n < 9280 && s.flag Fld.QE_DMA_CTL_SEC (n - 9024))

/-- Reserved sources, and the spurious number of Torber mode, are never asserted (R370). -/
def icReserved (n : Nat) : Bool :=
  (8765 ≤ n && n < 8768) || (10112 ≤ n && n < 10240) || 11264 ≤ n

/-- FORCE asserts a source's input (R370, R371). -/
def State.icForced (s : State) (n : Nat) : Bool := s.flag Fld.IC_SRC_FORCE n && !icReserved n

/-- PEND follows the input, or the latch, and ACT; FORCE asserts the input, and holds a latch set (R371). The field IN holds
the producer's level, or the latch; what a register read shows of a forced level is in `icSrcRead`. -/
def State.icSync (s : State) (n : Nat) : State :=
  let f := s.icForced n
  let s := if f && icIsEvent n then s.setFld Fld.IC_SRC_IN n 1 else s
  s.setFld Fld.IC_SRC_PEND n (bit ((s.flag Fld.IC_SRC_IN n || f) && !s.flag Fld.IC_SRC_ACT n))

/-- A level source's input takes a value (R371). -/
def State.icInput (s : State) (n : Nat) (level : Bool) : State := (s.setFld Fld.IC_SRC_IN n (bit level)).icSync n

/-- What a source reads of IC_SRC_n (R371, R380): IN with FORCE, SEC as it stands; of a secure source all but SEC is for the
Cocoon alone. -/
def State.icSrcRead (s : State) (src : Src) (n : Nat) : Word :=
  if s.icSec n && src != .cocoon then withBits 0 31 31 1
  else withBits (withBits (s.csrGet .IC_SRC n) 31 31 (bit (s.icSec n))) 30 30 (bit (s.flag Fld.IC_SRC_IN n || s.icForced n))

/-- An event source's latch sets (R371). -/
def State.icLatch (s : State) (n : Nat) : State := (s.setFld Fld.IC_SRC_IN n 1).icSync n

/-! ## Groups and targets (R372, R374, R375, R383) -/

/-- The group that a core is a member of at present (R336). -/
def State.groupOf (s : State) (c : Nat) : Option Nat :=
  if s.flag Fld.CG_CORE_IN c then some (s.fld Fld.CG_CORE_GROUP c) else none

/-- The cores of a group that are active members (R336): bit i of ACTIVE for member i. -/
def State.groupActive (s : State) (g : Nat) : List Nat :=
  ([0, 1, 2].filter (fun i => (s.fld Fld.CG_STAT_ACTIVE g) / 2 ^ i % 2 == 1)).map (s.groupMember g)

/-- A group's anchor: the core named M0 when it was formed (R383). -/
def State.groupAnchor (s : State) (g : Nat) : Nat := ((FMap.get s.groups {} g).anchor).getD (s.groupMember g 0)

/-- Where a source is routed: its target, or held (R372, R375, R380, R383). -/
def State.icRoute (s : State) (n : Nat) : Option Nat :=
  let t := s.fld Fld.IC_SRC_TARGET n
  if s.icSec n then some 321
  else if s.fld Fld.IC_SRC_GRP n = 0 then (if t ≤ 321 then some t else none)
  else if t / 256 = 1 ∨ 79 < t % 128 then none
  else if !s.groupLive (t % 128) then none
  else some (2 * s.groupAnchor (t % 128) + t / 128 % 2)

/-- A target is held while its core is a member, other than the anchor, of a group, from FORM on (R383). -/
def State.icHeld (s : State) (t : Nat) : Bool :=
  t < 320 && (List.range 80).any (fun g =>
    s.groupLive g && (s.groupActive g).contains (t / 2) && s.groupAnchor g != t / 2)

/-- The priority stack of a target, top first (R374). -/
def State.icStk (s : State) (t : Nat) : List (Nat × Nat) := FMap.get s.icStack [] t

/-- The running priority: that of the top entry, or 0 (R374). -/
def State.icRprio (s : State) (t : Nat) : Nat := ((s.icStk t).head?.map Prod.snd).getD 0

/-- The effective threshold of a target (R374). -/
def State.icThresh (s : State) (t : Nat) : Nat := max (s.fld Fld.IC_TCTL_THRESH t) (s.icRprio t)

/-- Whether a source is eligible for a target (R371). -/
def State.icEligible (s : State) (t n : Nat) : Bool :=
  s.flag Fld.IC_SRC_EN n && s.fld Fld.IC_SRC_PRIO n != 0 && s.flag Fld.IC_SRC_PEND n && s.icRoute n == some t &&
  !s.icHeld t

/-- The sources whose registers have been written since reset; no other is enabled. -/
def State.icListed (s : State) : List Nat :=
  (s.csr.filter (fun e => e.1 / 65536 == Reg.IC_SRC.ctorIdx)).map (fun e => e.1 % 65536)

/-- The source a claim of target `t` selects: the highest priority above the effective threshold, and of equals the
lowest number (R377). -/
def State.icBest (s : State) (t : Nat) : Option Nat :=
  s.icListed.foldl (fun best n =>
    if s.icEligible t n && s.icThresh t < s.fld Fld.IC_SRC_PRIO n then
      match best with
      | none => some n
      | some b =>
        if s.fld Fld.IC_SRC_PRIO b < s.fld Fld.IC_SRC_PRIO n ∨
           (s.fld Fld.IC_SRC_PRIO b = s.fld Fld.IC_SRC_PRIO n ∧ n < b) then some n else best
    else best) none

/-- The level of a target (R375). -/
def State.icLevel (s : State) (t : Nat) : Bool := (s.icBest t).isSome

/-- Whether a core is the anchor of a formed group, of which it need no longer be a member (R359, R383). -/
def State.isAnchor (s : State) (c : Nat) : Bool :=
  (List.range 80).any (fun g => s.groupLive g && s.groupAnchor g == c)

/-- The level that a core sees for mode S (`h = 0`) or H (`h = 1`): its own target's, or, for the primary of a group,
the anchor's (R375, R383). -/
def State.coreLevel (s : State) (c h : Nat) : Bool :=
  match s.groupOf c with
  | none => !s.isAnchor c && s.icLevel (2 * c + h)
  | some g => if s.groupPrimary g = c then s.icLevel (2 * s.groupAnchor g + h) else false

/-- A level that has fallen wakes a parked core when it rises again (R252). -/
def State.icFell (s : State) : State :=
  { s with cores := s.cores.map (fun e =>
      if e.2.lvlHeld.isEmpty then e else (e.1, { e.2 with lvlHeld := e.2.lvlHeld.filter (fun h => s.coreLevel e.1 h) })) }

/-- Write back the registers that report a target's stack (R387). -/
def State.icStkSet (s : State) (t : Nat) (l : List (Nat × Nat)) : State :=
  let s := { s with icStack := FMap.set s.icStack t l }
  let s := (s.setFld Fld.IC_TSTAT_DEPTH t l.length).setFld Fld.IC_TSTAT_RPRIO t (s.icRprio t)
  match l.head? with
  | some (n, p) => (s.setFld Fld.IC_TOP_SRC t n).setFld Fld.IC_TOP_PRIO t p
  | none => (s.setFld Fld.IC_TOP_SRC t 0).setFld Fld.IC_TOP_PRIO t 0

/-- Whether a requester may use a target's registers (R380, R383, R387). -/
def State.icAccepts (s : State) (src : Src) (t : Nat) : Bool :=
  if t = 321 then src == .cocoon
  else if t = 320 then src == .reeve
  else match src with
    | .core c =>
      c.val == t / 2 && !s.isAnchor c.val && (s.srcMode src == 2 || (s.srcMode src == 1 && t % 2 == 0))
    | .group g =>
      s.groupAnchor g.val == t / 2 && (s.srcMode src == 2 || (s.srcMode src == 1 && t % 2 == 0))
    | .reeve => true
    | .jtag => true
    | _ => false

/-- What a claim returns when it selects nothing (R381). -/
def State.icNone (s : State) (t : Nat) : Word := if s.flag Fld.IC_TCTL_TORBER t then 0x2FFF else 0

/-- Set LAST_STATUS of a target (R387). -/
def State.icStatus (s : State) (t st : Nat) : State := s.setFld Fld.IC_TSTAT_LAST_STATUS t st

/-- A read of IC_CLAIM_t (R377, R380, R381, R387): the value returned and the state after it. -/
def State.icClaim (s : State) (src : Src) (t : Nat) : Word × State :=
  if !s.icAccepts src t then
    if t = 321 then (0, s) else (s.icNone t, s.icStatus t stDenied)
  else match s.icBest t with
    | none => (s.icNone t, (s.satField Fld.IC_TSTAT_SPUR_CNT t).icStatus t stOk)
    | some n =>
      let p := s.fld Fld.IC_SRC_PRIO n
      let s := if icIsEvent n then s.setFld Fld.IC_SRC_IN n 0 else s
      let s := (s.setFld Fld.IC_SRC_ACT n 1).icSync n
      let s := (s.icStkSet t ((n, p) :: s.icStk t)).icStatus t stOk
      (if s.flag Fld.IC_TCTL_TORBER t then BitVec.ofNat 64 n else withBits (BitVec.ofNat 64 n) 31 31 1, s)

/-- The cores that an out-of-order fault of a target is told to: the target's, or the members of the group whose anchor's it
is, an expelled anchor's too (R382, R383). -/
def State.icOwners (s : State) (t : Nat) : Option (List Nat) :=
  if 320 ≤ t then none
  else match (List.range 80).find? (fun g => s.groupLive g && s.groupAnchor g == t / 2) with
    | some g => some (s.groupActive g)
    | none => match s.groupOf (t / 2) with
      | some g => some (s.groupActive g)
      | none => some [t / 2]

/-- A completion that leaves the stack: ACT clears and the source is sampled again (R379). -/
def State.icPop (s : State) (t n : Nat) : State :=
  ((s.icStkSet t ((s.icStk t).filter (fun e => e.1 != n))).setFld Fld.IC_SRC_ACT n 0).icSync n

/-- A write to IC_COMPLETE_t (R379, R381, R382, R387). -/
def State.icComplete (s : State) (src : Src) (t : Nat) (v : Word) : State :=
  let n := Fld.IC_COMPLETE_SRC.of v
  let torber := s.flag Fld.IC_TCTL_TORBER t
  if !s.icAccepts src t then (if t = 321 then s else s.icStatus t stDenied)
  else if torber && n == 0x2FFF then s.icStatus t stOk
  else if !(s.icStk t).any (fun e => e.1 == n) then s.icStatus t 0x21
  else if torber || (s.icStk t).head?.map Prod.fst == some n then (s.icPop t n).icStatus t stOk
  else
    let top := ((s.icStk t).head?.map Prod.fst).getD 0
    ((s.icStatus t 0x20).satField Fld.IC_TSTAT_OOC_CNT t).logErr
      { unit := 247, sev := 2, type := 0x24, src := srcId src, loc := t,
        data := [t + n * 2 ^ 16 + top * 2 ^ 32], owner := s.icOwners t }

/-- A write to IC_TCTL_t (R382, R387). -/
def State.icTctlWrite (s : State) (src : Src) (t : Nat) (v : Word) : State :=
  if !s.icAccepts src t then (if t = 321 then s else s.icStatus t stDenied)
  else if Fld.IC_TCTL_TORBER.of v ≠ s.fld Fld.IC_TCTL_TORBER t ∧ s.icStk t ≠ [] then s.icStatus t stBusy
  else (s.codeWrite .IC_TCTL t v).icStatus t stOk

/-- A write to IC_SRC_n (R372, R373, R380), recorded in IC_STAT. -/
def State.icSrcWrite (s : State) (src : Src) (n : Nat) (v : Word) : State :=
  let ok := (s.srcSys src || src == .cocoon) && (!s.icSec n || src == .cocoon)
  let t := if ok then
      let old := s.fld Fld.IC_SRC_SEC n
      let t := s.codeWrite .IC_SRC n v
      (if src = .cocoon then t else t.setFld Fld.IC_SRC_SEC n old).icSync n
    else s
  ((t.setFld Fld.IC_STAT_LAST_SRC 0 (srcId src)).setFld Fld.IC_STAT_LAST_STATUS 0 (if ok then stOk else stDenied)).setFld
    Fld.IC_STAT_LAST_N 0 n

/-- Who may set a software interrupt (R386): any core, the Reeve, the Cocoon or JTAG debug. -/
def swiAccepts : Src → Bool
  | .core _ => true
  | .group _ => true
  | .reeve => true
  | .cocoon => true
  | .jtag => true
  | _ => false

/-! ## Wakes of islands (R76, R77, R376) -/

/-- An entry is abandoned before its commit point: the island stays ON, LAST_ENTRY records why, and the request returns
its status (R76, R82). -/
def State.entryAbandon (s : State) (j lastEntry status : Nat) : State :=
  match (s.island j).entry with
  | some e =>
    let s := (s.setFld Fld.PW_ISTATE_STATE j 1).setFld Fld.PW_ISTATE_LAST_ENTRY j lastEntry
    let s := s.modIsland j (fun k => { k with entry := none })
    match e.slot with
    | some m => s.serviceReply m status
    | none => s
  | none => s

/-- The wake that the interrupt controller raises for an island (R76 to R78). -/
def State.icWakeIsland (s : State) (j : Nat) : State :=
  if s.islState j = 3 then s.setFld Fld.PW_ISTATE_STATE j 4
  else if s.islState j = 2 then
    if (s.island j).entry.isSome then s.entryAbandon j 2 stWoken
    else if (s.island j).gating then s
    else s.setFld Fld.PW_ISTATE_STATE j 4
  else s

/-- The core to which a core's target sends its level: the primary of the group whose anchor's it is, or the core itself
(R375, R383). -/
def State.icCore (s : State) (t : Nat) : Nat :=
  match (List.range 80).find? (fun g => s.groupLive g && s.groupAnchor g == t / 2) with
  | some g => s.groupPrimary g
  | none => t / 2

/-- The island that source `n` asks to wake, where a change leads from `old` to `s`: the source is deliverable, and it has
just become pending or the level at the core has just risen (R77, R376). -/
def State.icCalls (s old : State) (n : Nat) : Option Nat :=
  match s.icRoute n with
  | some t =>
    let d := s.icCore t
    if t < 320 && s.icEligible t n && decide (s.icThresh t < s.fld Fld.IC_SRC_PRIO n) &&
        (!old.flag Fld.IC_SRC_PEND n || !old.coreLevel d (t % 2)) then some (coreIsland d)
    else none
  | none => none

/-- The controller sends the wake that source `n` asks for (R376). -/
def State.icWake (s old : State) (n : Nat) : State :=
  match s.icCalls old n with
  | some j => s.icWakeIsland j
  | none => s

/-- What a change that leads from `old` to `s` brings at the levels: those that have fallen can wake a core again, and those
that have risen wake islands (R252, R376). -/
def State.icSettle (s old : State) : State := s.icListed.foldl (fun u n => u.icWake old n) s.icFell

/-- An event of a producer reaches its source (R371, R376). -/
def State.icEvent (s : State) (n : Nat) : State := (s.icLatch n).icFell.icWake s n

/-! ## Producers' levels (R370) -/

/-- Whether any valid record of a unit asks for its source (R608). -/
def State.errLevel (s : State) (u : Nat) : Bool :=
  [0, 1, 2, 3].any (fun r => s.recValid u r &&
    (let v := s.fld Fld.ER_STATUS_SEV (recInst u r)
     if v = 0 then s.flag Fld.ER_UCTL_CEIE u else if v = 1 then s.flag Fld.ER_UCTL_DIE u else true))

/-- A core system register of a core, with its reset value where it has not been written. -/
def csReset (c csn : Nat) : Word :=
  match csRegs.find? (fun r => r.csn ≤ csn && csn < r.csn + r.count * r.step && (csn - r.csn) % r.step == 0) with
  | some r =>
    let w := r.fields.foldl (fun w f => withBits w f.hi f.lo f.rst) 0
    if csn = 0 then w ||| BitVec.ofNat 64 c else w
  | none => 0

/-- Read a core system register as it is held. -/
def CoreArch.cs (a : CoreArch) (c csn : Nat) : Word := FMap.get a.sys (csReset c csn) csn

/-- A field of a core system register. -/
def CoreArch.csf (a : CoreArch) (f : CsFld) (off : Nat := 0) : Nat := bitsOf (a.cs 0 (f.csn + off)) f.hi f.lo

/-- Set a field of a core system register. -/
def CoreArch.setCsf (a : CoreArch) (f : CsFld) (v : Nat) (off : Nat := 0) : CoreArch :=
  { a with sys := FMap.set a.sys (f.csn + off) (withBits (a.cs 0 (f.csn + off)) f.hi f.lo v) }

/-- Set a core system register as a whole. -/
def CoreArch.setCs (a : CoreArch) (csn : Nat) (v : Word) : CoreArch := { a with sys := FMap.set a.sys csn v }

/-- Events of a port that ask for its source (R436): PT_STAT[23:16] masked by EVTEN. -/
def State.portLevel (s : State) (p : Nat) : Bool :=
  (bitsOf (s.csrGet .PT_STAT p) 23 16) &&& (s.fld Fld.PT_CTL_EVTEN p) != 0

/-- A core's performance-counter overflow level (R570): an overflow bit whose counter asks for it. -/
def State.pmLevel (s : State) (c : Nat) : Bool :=
  (List.range 8).any (fun i => (((s.core c).arch.csf CsFld.PMOVF_OVF) / 2 ^ i % 2 == 1) &&
    ((s.core c).arch.csf CsFld.PMEV_OVIE i == 1))

/-- The level a level source's producer drives (R370). -/
def State.producerLevel (s : State) (n : Nat) : Bool :=
  if n < 8192 then s.flag Fld.QE_STAT_LEVEL n
  else if n < 8704 then false
  else if n < 8736 then s.flag Fld.RV_STAT_IRQ_EN (n - 8704) && 3 ≤ s.callState (n - 8704)
  else if n < 8752 then s.flag Fld.CK_STAT_IRQ_EN (n - 8736) && 3 ≤ s.fld Fld.CK_STAT_STATE (n - 8736)
  else if n < 8760 then
    s.fld Fld.BT_LOWN_FUNC (2 + (n - 8752)) == 1 && (s.fld Fld.PT_GPIO_IN 0) / 2 ^ (n - 8752) % 2 == 1
  else if n = 8760 then s.flag Fld.PW_INSTAT_PFW 0
  else if n = 8761 then decide (4 * (s.fld Fld.PW_THERM_T_WARN 0 : Int) ≤ s.pwr.hottest)
  else if n = 8763 then s.flag Fld.TB_STAT_PPS_LOST 0
  else if n = 8764 then (List.range 25).any (fun j => s.flag Fld.PW_ISTATE_LOCK_LOST j)
  else if n < 8768 then false
  else if n < 9024 then s.portLevel (n - 8768)
  else if n < 9280 then s.fld Fld.QE_DMA_CTL_STATE (n - 9024) == 2
  else if n < 9536 then false
  else if n < 9856 then if n % 2 = 0 then s.pmLevel ((n - 9536) / 2) else (s.core ((n - 9536) / 2)).trace.event
  else if n < 10112 then s.errLevel (n - 9856)
  else false

end Sys2Proof.Machine
end

