-- ==== Sys2Proof/Machine/Bell.lean ====
section
/-!
DEFINITION. Bell time (chapter 04): the counter and its advance, slews, steps and seconds loads, PPS_IN and PPS_OUT,
the reference, and the compare units.
-/

namespace Sys2Proof.Machine

/-! ## The counter -/

/-- TB_ADDEND in units of 2^-64 s (R90). -/
def State.addend (s : State) : Nat := s.fld Fld.TB_ADDEND_ADDEND 0

/-- What a slew adds to, or takes from, each increment: 500 ppm of TB_ADDEND (R98). -/
def State.slewDelta (s : State) : Nat := s.addend * 500 / 1000000

/-- The part of the slew that `k` cycles apply (R98). -/
def State.slewApplied (s : State) (k : Nat) : Int :=
  let m : Int := min (s.bell.slewRem.natAbs : Int) (k * s.slewDelta : Int)
  if s.bell.slewRem < 0 then -m else m

/-- What `k` cycles add to the accumulator (R90, R98). -/
def State.bellGain (s : State) (k : Nat) : Nat := ((k * s.addend : Int) + s.slewApplied k).toNat

/-- Set the part of a slew that remains, as AMOUNT and SLEW_BUSY report it (R97, R98). -/
def State.setSlew (s : State) (rem : Int) : State :=
  let s := { s with bell := { s.bell with slewRem := rem } }
  (s.setFld Fld.TB_SLEW_AMOUNT 0 (encSigned 32 (rem.tdiv (2 ^ 32)))).setFld Fld.TB_STAT_SLEW_BUSY 0 (bit (rem != 0))

/-- How often FRAC wraps while the accumulator gains `g`. -/
def State.bellWraps (s : State) (g : Nat) : Nat := (s.bell.acc.toNat + g) / 2 ^ 64 - s.bell.acc.toNat / 2 ^ 64

/-- Whether a pending seconds load is taken within a gain: at the first wrap of FRAC (R97). -/
def State.bellLoads (s : State) (g : Nat) : Bool := s.flag Fld.TB_SECSET_PENDING 0 && decide (1 ≤ s.bellWraps g)

/-- The accumulator after a gain of `g`, with a pending seconds load in place of SEC + 1 at the first wrap (R90, R97). -/
def State.accAfter (s : State) (g : Nat) : BitVec 112 :=
  let sec := if s.bellLoads g then s.fld Fld.TB_SECSET_SEC 0 + (s.bellWraps g - 1)
    else s.bell.acc.toNat / 2 ^ 64 + s.bellWraps g
  BitVec.ofNat 112 (sec * 2 ^ 64 + (s.bell.acc.toNat + g) % 2 ^ 64)

/-- `k` cycles of domain T's 400 MHz clock (R90, R97, R98): the increments, the slew, and a pending seconds load at the
first wrap of FRAC. -/
def State.advance (s : State) (k : Nat) : State :=
  let g := s.bellGain k
  let t := { s with bell := { s.bell with
    acc := s.accAfter g, cyc := (s.bell.cyc + k) % 40000, ppsAge := s.bell.ppsAge + g,
    lateNow := if k = 0 then s.bell.lateNow else [] } }
  let t := if s.bellLoads g then (t.setFld Fld.TB_SECSET_PENDING 0 0).incField Fld.TB_NOW_HI_GEN 0 else t
  if s.bell.slewRem = 0 then t else t.setSlew (s.bell.slewRem - s.slewApplied k)

/-- The least number of cycles after which the accumulator has gained at least `d` (R90, R98). -/
def State.cyclesTo (s : State) (d : Nat) : Nat :=
  let a := s.addend
  let m := s.slewDelta
  let r := s.bell.slewRem
  let up (x y : Nat) : Nat := if y = 0 then 0 else (x + y - 1) / y
  let n := up r.natAbs m
  let rate := ((a : Int) + (if r < 0 then -(m : Int) else m)).toNat
  if r = 0 then up d a
  else if d ≤ (r.natAbs / (max m 1)) * rate then up d rate
  else max n (up ((d : Int) - r).toNat a)

/-- Whether domain T's clock runs: on standby power, and not held by RESET_N (R17, R91, R585). -/
def State.clockRuns (s : State) : Bool := s.pwr.standby && !s.pwr.resetLow

/-- What passes on an empty queue: one cycle of domain T, if its clock runs (R90, R91). -/
def State.idle (s : State) : State := if s.clockRuns then s.advance 1 else s

/-- What the accumulator must gain for FRAC to pass the value `frac` next. -/
def State.toFrac (s : State) (frac : Nat) : Nat :=
  let low := s.bell.acc.toNat % 2 ^ 64
  let t := frac % 2 ^ 32 * 2 ^ 32
  if low < t then t - low else t + 2 ^ 64 - low

/-- The next of `n` equal divisions of the bell second after the fraction `f`: the least of floor(k 2^32 / n), k = 1 to n,
above it, the last being the wrap (R61, R578). -/
def bellBoundary (n f : Nat) : Nat :=
  let k := f * n / 2 ^ 32
  if f < k * 2 ^ 32 / n then k * 2 ^ 32 / n
  else if f < (k + 1) * 2 ^ 32 / n then (k + 1) * 2 ^ 32 / n
  else (k + 2) * 2 ^ 32 / n

/-! ## Register writes (R97 to R105) -/

/-- The mean of TB_ADDEND over the last accepted seconds, at most 16, rounded down; where none has passed, TB_ADDEND as it
stands (R106; the rounding is a DESIGN CHOICE, assumption log 311). -/
def State.meanAddend (s : State) : Nat :=
  if s.bell.addends = [] then s.addend else s.bell.addends.foldl (· + ·) 0 / s.bell.addends.length

/-- HOLDOVER is DISC = 1 with PPS_LOST set (R92). While it is set the Reeve holds TB_ADDEND at its mean over the last
accepted seconds, unless an expert write has made it stop; a write of DISC makes it resume (R104, R106). -/
def State.syncHoldover (s : State) : State :=
  let h := s.fld Fld.TB_CTL_DISC 0 == 1 && s.flag Fld.TB_STAT_PPS_LOST 0
  let t := s.setFld Fld.TB_STAT_HOLDOVER 0 (bit h)
  if h && !s.flag Fld.TB_STAT_XOVR 0 then
    t.setFld Fld.TB_ADDEND_ADDEND 0 s.meanAddend
  else t

/-- A write to TB_CTL (R92, R93, R104). -/
def State.tbCtlWrite (s : State) (v : Word) : State :=
  let refsel := Fld.TB_CTL_REFSEL.of v
  let disc := Fld.TB_CTL_DISC.of v
  let newEn := Fld.TB_CTL_PPSIN_EN.of v = 1 ∧ s.fld Fld.TB_CTL_PPSIN_EN 0 = 0
  let t := (s.setFld Fld.TB_CTL_PPSIN_EN 0 (Fld.TB_CTL_PPSIN_EN.of v)).setFld Fld.TB_CTL_PPS_POL 0
    (Fld.TB_CTL_PPS_POL.of v)
  let t := if newEn then { t with bell := { t.bell with ppsSeen := false } } else t
  let t := if refsel ≤ 1 then
      { t.setFld Fld.TB_CTL_REFSEL 0 refsel with bell := { t.bell with onRefclk := refsel == 1 } } else t
  let t := if disc ≤ 1 then (t.setFld Fld.TB_CTL_DISC 0 disc).setFld Fld.TB_STAT_XOVR 0 0 else t
  t.syncHoldover

/-- A write to TB_STAT: a 1 clears REF_LOST (R92). -/
def State.tbStatWrite (s : State) (v : Word) : State := s.codeWrite .TB_STAT 0 v

/-- A write to TB_SECSET (R97). -/
def State.secsetWrite (s : State) (v : Word) : State :=
  (s.setFld Fld.TB_SECSET_SEC 0 (Fld.TB_SECSET_SEC.of v)).setFld Fld.TB_SECSET_PENDING 0 1

/-- Whether an XRW write of the time block is performed (R105). -/
def State.tbPerforms (s : State) (src : Src) : Bool := src == .reeve || s.gateOpen .TB_ADDEND 0

/-- Mark an expert override by a source other than the Reeve (R92, R105). -/
def State.tbXovr (s : State) (src : Src) : State :=
  if src = .reeve then s else s.setFld Fld.TB_STAT_XOVR 0 1

/-- A write to TB_ADDEND (R100, R105). -/
def State.addendWrite (s : State) (src : Src) (v : Word) : State :=
  if s.tbPerforms src then
    (s.setFld Fld.TB_ADDEND_ADDEND 0 (clampNat 46107636812 46126083556 v.toNat)).tbXovr src
  else s.gateDeny .TB_ADDEND 0

/-- Whether a step may be performed (R99): island S is not ON, and no other island is in mode LOCK. -/
def State.stepAllowed (s : State) : Bool :=
  s.islState 21 != 1 && (List.range 25).all (fun j => j == 21 || s.fld Fld.PW_RCTL_MODE j != 2)

/-- The immediate step (R99). A carry of the step into SEC is no wrap of FRAC at which a pending seconds load is taken: the
load waits for the counter's own next wrap (DESIGN CHOICE, assumption log 312). A step over FRAC = OFFSET, or over the end
of the pulse, begins and ends no pulse of PPS_OUT: the counter passes a value by counting (DESIGN CHOICE, log 333). -/
def State.bellStep (s : State) (amount : Int) : State :=
  let acc := ((s.bell.acc.toNat : Int) + amount * 2 ^ 32) % 2 ^ 112
  let s := { s with bell := { s.bell with acc := BitVec.ofNat 112 acc.toNat } }
  (s.setSlew 0).incField Fld.TB_NOW_HI_GEN 0

/-- A write to TB_SLEW (R97 to R99, R105). -/
def State.slewWrite (s : State) (src : Src) (v : Word) : State :=
  let amount := signedOf 32 (Fld.TB_SLEW_AMOUNT.of v)
  if !s.tbPerforms src then (s.setFld Fld.TB_SLEW_STATUS 0 stDenied).gateDeny .TB_SLEW 0
  else if Fld.TB_SLEW_NOW.of v = 0 then
    ((s.setSlew (amount * 2 ^ 32)).setFld Fld.TB_SLEW_STATUS 0 stOk).tbXovr src
  else if s.stepAllowed then ((s.bellStep amount).setFld Fld.TB_SLEW_STATUS 0 stOk).tbXovr src
  else s.setFld Fld.TB_SLEW_STATUS 0 stDenied

/-- A write to TB_PPSOUT (R103): WIDTH within 1..500. -/
def State.ppsoutWrite (s : State) (v : Word) : State :=
  (s.setFld Fld.TB_PPSOUT_WIDTH 0 (clampNat 1 500 (Fld.TB_PPSOUT_WIDTH.of v))).setFld Fld.TB_PPSOUT_OFFSET 0
    (Fld.TB_PPSOUT_OFFSET.of v)

/-! ## Compare units (R106 to R110) -/

/-- A unit's target as the counter compares it (R107). -/
def State.cmpTarget (s : State) (n : Nat) : Nat := (s.csrGet .TB_CMP_TGT n).toNat % 2 ^ 48

/-- Whether a unit's target is reached (R108). -/
def State.cmpReached (s : State) (n : Nat) : Bool :=
  (s.ts48 + 2 ^ 48 - s.cmpTarget n) % 2 ^ 48 < 2 ^ 47

/-- Where the target of an armed unit is already reached, LATE sets and the unit fires in the next cycle (R108). -/
def State.cmpLate (s : State) (n : Nat) : State :=
  if s.flag Fld.TB_CMP_CTL_EN n && s.cmpReached n then
    let s := s.setFld Fld.TB_CMP_CTL_LATE n 1
    { s with bell := { s.bell with lateNow := n :: s.bell.lateNow } }
  else s

/-- The event of a firing reaches its destination by the unit's route (R109). -/
def State.cmpDeliver (s : State) (n : Nat) : State :=
  let dest := s.fld Fld.TB_CMP_CTL_DEST n
  match s.fld Fld.TB_CMP_CTL_ROUTE n with
  | 1 => { s with threads := FMap.set s.threads dest { FMap.get s.threads {} dest with timer := true } }
  | 2 => { s with gclDue := FMap.set s.gclDue dest true }
  | 3 => s.icEvent (8192 + n)
  | _ => s

/-- A firing (R108): FIRES counts, the event goes out, and the unit reloads or disarms. -/
def State.cmpFire (s : State) (n : Nat) : State :=
  let per := s.fld Fld.TB_CMP_PER_PERIOD n
  let s := (s.incField Fld.TB_CMP_CTL_FIRES n).cmpDeliver n
  if per = 0 then s.setFld Fld.TB_CMP_CTL_EN n 0
  else (s.csrSet .TB_CMP_TGT n (BitVec.ofNat 64 ((s.cmpTarget n + per) % 2 ^ 48))).cmpLate n

/-- The cycles until the counter, with no seconds load, reaches a unit's target. -/
def State.cmpCycles (s : State) (n : Nat) : Nat :=
  s.cyclesTo (((s.cmpTarget n + 2 ^ 48 - s.ts48) % 2 ^ 48) * 2 ^ 32 - s.bell.acc.toNat % 2 ^ 32)

/-- The cycles until an armed unit fires (R108): none where its target has just been reached, one where it was reached
already when it was armed, rewritten or reloaded. A pending seconds load changes SEC at the next wrap of FRAC (R97): a
target that the wrap comes before is judged from the loaded value on. -/
def State.cmpWait (s : State) (n : Nat) : Nat :=
  let w := s.cyclesTo (s.toFrac 0)
  if s.cmpReached n then (if s.bell.lateNow.contains n then 1 else 0)
  else if !s.flag Fld.TB_SECSET_PENDING 0 || decide (s.cmpCycles n < w) then s.cmpCycles n
  else if (s.advance w).cmpReached n then w
  else w + (s.advance w).cmpCycles n

/-- An armed unit fires: the counter runs on to the cycle in which it does (R108). -/
def State.cmpRun (s : State) (n : Nat) : State := (s.advance (s.cmpWait n)).cmpFire n

/-- An armed unit whose target is reached fires before a write to the unit, which finds the old values gone (R27, R110). -/
def State.cmpDue (s : State) (n : Nat) : State :=
  if s.clockRuns && s.flag Fld.TB_CMP_CTL_EN n && s.cmpReached n then s.cmpRun n else s

/-- A write to TB_CMP_OWN_n (R107): a release also clears EN. -/
def State.cmpOwnWrite (s : State) (n : Nat) (src : Src) (v : Word) : State :=
  let t := (s.cmpDue n).ownWrite .TB_CMP_OWN n src v
  if t.flag Fld.TB_CMP_OWN_CLAIM n then t else t.setFld Fld.TB_CMP_CTL_EN n 0

/-- A write to TB_CMP_TGT_n (R107, R108, R110). -/
def State.cmpTgtWrite (s : State) (n : Nat) (src : Src) (v : Word) : State :=
  let s := s.cmpDue n
  if s.ownedBy .TB_CMP_OWN n src then (s.codeWrite .TB_CMP_TGT n v).cmpLate n else s

/-- A write to TB_CMP_PER_n (R107, R110): a period below 1,024 units that is not 0 is stored as 1,024. -/
def State.cmpPerWrite (s : State) (n : Nat) (src : Src) (v : Word) : State :=
  let p := Fld.TB_CMP_PER_PERIOD.of v
  let s := s.cmpDue n
  if s.ownedBy .TB_CMP_OWN n src then
    s.setFld Fld.TB_CMP_PER_PERIOD n (if p ≠ 0 ∧ p < 1024 then 1024 else p) else s

/-- A write to TB_CMP_CTL_n (R107, R108, R110): arming a unit whose target is already reached sets LATE. -/
def State.cmpCtlWrite (s : State) (n : Nat) (src : Src) (v : Word) : State :=
  let s := s.cmpDue n
  if s.ownedBy .TB_CMP_OWN n src then
    let armed := s.flag Fld.TB_CMP_CTL_EN n
    let t := s.codeWrite .TB_CMP_CTL n v
    if armed then t else t.cmpLate n
  else s

/-! ## PPS_IN (R101) -/

/-- What the accumulator gains up to an instant within the next cycle, `part` / 2^32 of it in (R101). -/
def State.partGain (s : State) (part : BitVec 32) : Nat := s.bellGain 1 * part.toNat / 2 ^ 32

/-- An edge is accepted when it is the first since PPSIN_EN was set, or 0.5 s of bell time after the last accepted (R101).
Bell time is what the cycles add: an immediate step or a seconds load passes none (DESIGN CHOICE, assumption log 313). -/
def State.ppsAccepts (s : State) (part : BitVec 32) : Bool :=
  !s.bell.ppsSeen || decide (2 ^ 63 ≤ s.bell.ppsAge + s.partGain part)

/-- The Reeve's firmware at an accepted edge that ends a holdover removes the accumulated error, the signed FRAC of the
capture, by slew (R106). -/
def State.endHoldover (s : State) (frac : Nat) : State :=
  if s.flag Fld.TB_STAT_HOLDOVER 0 && !s.flag Fld.TB_STAT_XOVR 0 then
    (s.setSlew (-(signedOf 32 frac) * 2 ^ 32)).setFld Fld.TB_SLEW_STATUS 0 stOk
  else s

/-- A marking edge at an instant within this cycle (R101, R102, R106): the capture is the counter's value there, which a
pending seconds load has set where the instant lies past the wrap (R97). -/
def State.ppsEdge (s : State) (part : BitVec 32) : State :=
  if s.ppsAccepts part then
    let g := s.partGain part
    let b : BitVec 80 := (s.accAfter g >>> 32).truncate 80
    let s := { s with bell := { s.bell with
      ppsSeen := true, ppsAge := -(g : Int), addends := (s.addend :: s.bell.addends).take 16 } }
    let s := s.endHoldover (b.toNat % 2 ^ 32)
    let s := (s.incField Fld.TB_PPSCAP_CNT 0).setFld Fld.TB_PPSCAP_SEC 0 (b.toNat / 2 ^ 32)
    let s := s.setFld Fld.TB_PPSCAP_FRAC 0 (b.toNat)
    ((s.setFld Fld.TB_STAT_PPS_LOST 0 0).syncHoldover.reeveEvent 3).icEvent 8762
  else s.satField Fld.TB_STAT_REJ_CNT 0

/-! ## Commands -/

/-- SECSET_WRITE (R97). -/
def execSecsetWrite (src : Src) (v : Word) (s : State) : Result :=
  .next (s.csrPort src .TB_SECSET 0 (fun s => s.secsetWrite v))

/-- SECONDS_LOAD (R97): the counter runs on to the next wrap of FRAC, where the pending value is taken. -/
def execSecondsLoad (s : State) : Result :=
  .next (if s.clockRuns && s.flag Fld.TB_SECSET_PENDING 0 then s.advance (s.cyclesTo (s.toFrac 0)) else s)

/-- SLEW (R98): a write with NOW = 0. -/
def execSlew (src : Src) (v : Word) (s : State) : Result :=
  .next (s.csrPortReeve src .TB_SLEW 0 (fun s => s.slewWrite src (withBits v 40 40 0)))

/-- SLEW_DONE (R98): the counter runs on until the amount is absorbed. -/
def execSlewDone (s : State) : Result :=
  .next (if s.clockRuns && s.bell.slewRem != 0 then
    s.advance ((s.bell.slewRem.natAbs + s.slewDelta - 1) / s.slewDelta) else s)

/-- IMMEDIATE_STEP (R99): a write with NOW = 1. -/
def execImmediateStep (src : Src) (v : Word) (s : State) : Result :=
  .next (s.csrPortReeve src .TB_SLEW 0 (fun s => s.slewWrite src (withBits v 40 40 1)))

/-- ADDEND_WRITE (R100). -/
def execAddendWrite (src : Src) (v : Word) (s : State) : Result :=
  .next (s.csrPortReeve src .TB_ADDEND 0 (fun s => s.addendWrite src v))

/-- TB_CTL_WRITE (R104). -/
def execTbCtlWrite (src : Src) (v : Word) (s : State) : Result :=
  .next (s.csrPort src .TB_CTL 0 (fun s => s.tbCtlWrite v))

/-- REFCLK_LOSS (R93). -/
def execRefclkLoss (s : State) : Result :=
  .next (if s.clockRuns && s.bell.onRefclk then
    let s := { s with bell := { s.bell with onRefclk := false } }
    (s.setFld Fld.TB_STAT_REF_LOST 0 1).logErr { unit := 249, sev := 0, type := 0x33 }
  else s)

/-- PPS_IN_EDGE (R101): an edge at an instant from now, rising or falling. -/
def execPpsInEdge (time : EdgeTime) (rising : Bool) (s : State) : Result :=
  .next (if s.clockRuns then
    let s := s.advance time.cycles
    if s.flag Fld.TB_CTL_PPSIN_EN 0 && (rising == !s.flag Fld.TB_CTL_PPS_POL 0) then s.ppsEdge time.part else s
  else s)

/-- PPS_LOST_EXPIRY (R101): the counter runs on to 1.5 s of bell time after the last accepted edge, and past the cycle in
which it gets there, whose edge would come first (R102). -/
def execPpsLostExpiry (s : State) : Result :=
  .next (if s.clockRuns && !s.flag Fld.TB_STAT_PPS_LOST 0 then
    let s := s.advance (s.cyclesTo (3 * 2 ^ 63 - s.bell.ppsAge).toNat + 1)
    (s.setFld Fld.TB_STAT_PPS_LOST 0 1).syncHoldover
  else s)

/-- PPS_OUT_START (R103): the counter runs on until it passes FRAC = OFFSET. From the 380 µs point of the power-fail sequence
on the land is released (R49). -/
def execPpsOutStart (s : State) : Result :=
  .next (if s.clockRuns && s.fld Fld.BT_LOWN_FUNC 5 == 2 && !s.pwr.past380 && !s.bell.ppsOut then
    let s := s.advance (s.cyclesTo (s.toFrac (s.fld Fld.TB_PPSOUT_OFFSET 0)))
    { s with bell := { s.bell with ppsOut := true } }
  else s)

/-- PPS_OUT_END (R103): the counter runs on until it passes OFFSET plus WIDTH ms. -/
def execPpsOutEnd (s : State) : Result :=
  .next (if s.clockRuns && s.bell.ppsOut then
    let f := s.fld Fld.TB_PPSOUT_OFFSET 0 + s.fld Fld.TB_PPSOUT_WIDTH 0 * 2 ^ 32 / 1000
    let s := s.advance (s.cyclesTo (s.toFrac f))
    { s with bell := { s.bell with ppsOut := false } }
  else s)

/-- COMPARE_OWN_WRITE (R107). -/
def execCompareOwnWrite (src : Src) (n : CmpId) (v : Word) (s : State) : Result :=
  .next (s.csrPort src .TB_CMP_OWN n.val (fun s => s.cmpOwnWrite n.val src v))

/-- COMPARE_TARGET_WRITE (R108). -/
def execCompareTargetWrite (src : Src) (n : CmpId) (v : Word) (s : State) : Result :=
  .next (s.csrPort src .TB_CMP_TGT n.val (fun s => s.cmpTgtWrite n.val src v))

/-- COMPARE_CTL_WRITE (R108). -/
def execCompareCtlWrite (src : Src) (n : CmpId) (v : Word) (s : State) : Result :=
  .next (s.csrPort src .TB_CMP_CTL n.val (fun s => s.cmpCtlWrite n.val src v))

/-- COMPARE_FIRE (R108): the counter runs on to the cycle in which the armed unit fires. -/
def execCompareFire (n : CmpId) (s : State) : Result :=
  .next (if s.clockRuns && s.flag Fld.TB_CMP_CTL_EN n.val then s.cmpRun n.val else s)

end Sys2Proof.Machine
end

