-- ==== Sys2Proof/Machine/Flags.lean ====
section
/-!
DEFINITION. Every flag computation (R117, R120, R161 to R164): N, Z, C and V as four bits from bit 3 down, the
conditions that test them, and the arithmetic that sets them, at 32 and 64 bits.
-/

namespace Sys2Proof.Machine

/-- Flags N, Z, C, V in bits 3, 2, 1, 0. -/
abbrev Flg := BitVec 4

/-- Put four flags together. -/
def mkFlags (n z c v : Bool) : Flg := BitVec.ofBool n ++ BitVec.ofBool z ++ BitVec.ofBool c ++ BitVec.ofBool v

def Flg.n (f : Flg) : Bool := f.getLsbD 3
def Flg.z (f : Flg) : Bool := f.getLsbD 2
def Flg.c (f : Flg) : Bool := f.getLsbD 1
def Flg.v (f : Flg) : Bool := f.getLsbD 0

/-- The conditions of R120, which ZIS shares (R163). -/
def condHolds (cond : Cond) (f : BitVec 4) : Bool :=
  let n := Flg.n f
  let z := Flg.z f
  let c := Flg.c f
  let v := Flg.v f
  match cond.toNat with
  | 0 => z
  | 1 => !z
  | 2 => c
  | 3 => !c
  | 4 => n
  | 5 => !n
  | 6 => v
  | 7 => !v
  | 8 => c && !z
  | 9 => !c || z
  | 10 => n == v
  | 11 => n != v
  | 12 => !z && n == v
  | 13 => z || n != v
  | 14 => true
  | _ => false

/-- N and Z of a result; C and V as they were (R161, R162). -/
def flagsNZ {w : Nat} (r : BitVec w) (old : BitVec 4) : BitVec 4 :=
  mkFlags r.msb (r == 0) (Flg.c old) (Flg.v old)

/-- The sum `a + b + cin` with its four flags: C the carry out, V signed overflow (R162). -/
def addFlags {w : Nat} (a b : BitVec w) (cin : Bool) : BitVec w × BitVec 4 :=
  let x := a.toNat + b.toNat + cin.toNat
  let r := BitVec.ofNat w x
  (r, mkFlags r.msb (r == 0) (decide (2 ^ w ≤ x)) (a.msb == b.msb && r.msb != a.msb))

/-- The difference `a − b − (1 − cin)` with its four flags: C is 1 when no borrow occurs (R162). -/
def subFlags {w : Nat} (a b : BitVec w) (cin : Bool) : BitVec w × BitVec 4 := addFlags a (~~~ b) cin

/-- The kinds of shift. -/
inductive ShiftKind where
  | left | right | arith
  deriving DecidableEq, Repr

/-- A shift by `n`, below the width (R162). -/
def shiftBy {w : Nat} (k : ShiftKind) (a : BitVec w) (n : Nat) : BitVec w :=
  match k with
  | .left => a <<< n
  | .right => a >>> n
  | .arith => a.sshiftRight n

/-- The last bit a shift by `n > 0` moves out. -/
def shiftOut {w : Nat} (k : ShiftKind) (a : BitVec w) (n : Nat) : Bool :=
  match k with
  | .left => a.getLsbD (w - n)
  | .right => a.getLsbD (n - 1)
  | .arith => a.getLsbD (n - 1)

/-- A shift with its flags: N and Z of the result, C the last bit out and unchanged for a count of 0, V unchanged
(R117, R161, R162). -/
def shiftFlags {w : Nat} (k : ShiftKind) (a : BitVec w) (n : Nat) (old : BitVec 4) : BitVec w × BitVec 4 :=
  let r := shiftBy k a n
  (r, mkFlags r.msb (r == 0) (if n = 0 then Flg.c old else shiftOut k a n) (Flg.v old))

/-- Leading zeros of the low `k` bits. -/
def clzLow {w : Nat} (a : BitVec w) : Nat → Nat
  | 0 => 0
  | k + 1 => if a.getLsbD k then 0 else clzLow a k + 1

/-- Leading zeros. -/
def leadingZeros {w : Nat} (a : BitVec w) : Nat := clzLow a w

/-- Trailing zeros of the `k` bits from bit `w - k` up. -/
def ctzFrom {w : Nat} (a : BitVec w) : Nat → Nat
  | 0 => 0
  | k + 1 => if a.getLsbD (w - (k + 1)) then 0 else ctzFrom a k + 1

/-- Trailing zeros. -/
def trailingZeros {w : Nat} (a : BitVec w) : Nat := ctzFrom a w

/-- Set bits among the low `k`. -/
def popLow {w : Nat} (a : BitVec w) : Nat → Nat
  | 0 => 0
  | k + 1 => popLow a k + (a.getLsbD k).toNat

/-- Set bits. -/
def popCount {w : Nat} (a : BitVec w) : Nat := popLow a w

/-- The low `n` bytes of a number in reverse order. -/
def revBytes (v : Nat) : Nat → Nat
  | 0 => 0
  | n + 1 => (v % 256) * 256 ^ n + revBytes (v / 256) n

/-- The flags of a floating-point compare (R164). -/
inductive FpOrder where
  | equal | less | greater | unordered
  deriving DecidableEq, Repr

def fcmpFlags : FpOrder → BitVec 4
  | .equal => 0b0110
  | .less => 0b1000
  | .greater => 0b0010
  | .unordered => 0b0001

end Sys2Proof.Machine
end

