-- ==== Sys2Proof/Machine/Firewall.lean ====
section
/-!
DEFINITION. The region firewalls of the HBM controllers and the Granary banks (R415, R530 to R535).
-/

namespace Sys2Proof.Machine

/-- The registers of one firewall: an HBM controller's, or, for `gran`, a Granary bank's (R530). -/
structure FwRegs where
  src   : Fld
  base  : Fld
  en    : Fld
  sr    : Fld
  sw    : Fld
  nr    : Fld
  nw    : Fld
  smask : Fld
  limit : Fld
  cnt   : Fld
  last  : Fld
  stat  : Fld
  busy  : Fld
  lock  : Fld
  dflt  : Fld
  lastPa : Fld

/-- The register set of each kind of firewall. -/
def fwRegs (gran : Bool) : FwRegs :=
  if gran then
    ⟨Fld.CK_GFWA_SRC, Fld.CK_GFWA_BASE, Fld.CK_GFWA_EN, Fld.CK_GFWA_SR, Fld.CK_GFWA_SW, Fld.CK_GFWA_NR, Fld.CK_GFWA_NW,
     Fld.CK_GFWB_SMASK, Fld.CK_GFWB_LIMIT, Fld.CK_GFWCTL_REF_CNT, Fld.CK_GFWCTL_LAST_SRC, Fld.CK_GFWCTL_WR_STATUS,
     Fld.CK_GFWCTL_BUSY, Fld.CK_GFWCTL_LOCK, Fld.CK_GFWCTL_DFLT, Fld.CK_GFWLAST_PA⟩
  else
    ⟨Fld.CK_FWA_SRC, Fld.CK_FWA_BASE, Fld.CK_FWA_EN, Fld.CK_FWA_SR, Fld.CK_FWA_SW, Fld.CK_FWA_NR, Fld.CK_FWA_NW,
     Fld.CK_FWB_SMASK, Fld.CK_FWB_LIMIT, Fld.CK_FWCTL_REF_CNT, Fld.CK_FWCTL_LAST_SRC, Fld.CK_FWCTL_WR_STATUS,
     Fld.CK_FWCTL_BUSY, Fld.CK_FWCTL_LOCK, Fld.CK_FWCTL_DFLT, Fld.CK_FWLAST_PA⟩

/-- The identity and attribute a request is judged by: its 12-bit source, or none for a write-back, which has no source
of its own (R532), and the secure attribute; and the class whose page hint the home slice attaches (R397): 0 demand, 1
prefetch, 2 write-back, 3 NORMAL_NC, 4 Spinner, 5 DMA; 6 OPEN and 7 CLOSE by a descriptor's own hint. -/
structure FwReq where
  src : Option Nat
  sec : Bool
  cls : Nat := 0
  deriving DecidableEq, Repr

/-- The region a page lies in: the lowest-numbered that is enabled and holds it (R531). -/
def State.fwRegion (s : State) (gran : Bool) (f page : Nat) : Option Nat :=
  let R := fwRegs gran
  (List.range 16).find? (fun r =>
    s.flag R.en (16 * f + r) && s.fld R.base (16 * f + r) ≤ page && page ≤ s.fld R.limit (16 * f + r))

/-- Whether a firewall permits an access (R531, R532). -/
def State.fwPermits (s : State) (gran : Bool) (f pa : Nat) (q : FwReq) (write : Bool) : Bool :=
  let R := fwRegs gran
  match s.fwRegion gran f (pa / 4096) with
  | none => q.sec || s.fld R.dflt f == 0
  | some r =>
    let i := 16 * f + r
    if q.sec then (if write then s.flag R.sw i else s.flag R.sr i)
    else (if write then s.flag R.nw i else s.flag R.nr i) &&
      (match q.src with
       | some id => (id &&& s.fld R.smask i) == (s.fld R.src i &&& s.fld R.smask i)
       | none => true)

/-- What a refusal leaves in the firewall (R531); the source of a write-back reads as 0xFFF, the code that records use
for none. -/
def State.fwRefused (s : State) (gran : Bool) (f pa : Nat) (q : FwReq) : State :=
  let R := fwRegs gran
  ((s.satField R.cnt f).setFld R.last f (q.src.getD 0xFFF)).setFld R.lastPa f pa

/-- The error record of a refused access (R415, R424). -/
def State.fwRecord (s : State) (gran : Bool) (f pa : Nat) (q : FwReq) : State :=
  s.logErr { unit := if gran then 244 else 240 + f / 16, sev := 0, type := 0x13, addr := some pa,
             src := q.src.getD 0xFFF, loc := f, data := [(s.fwRegion gran f (pa / 4096)).getD 0xFF], sec := q.sec }

/-- Judge an access at a firewall: permitted, with the state as it was, or refused, with the refusal counted and, for a
write, recorded. -/
def State.fwCheck (s : State) (gran : Bool) (f pa : Nat) (q : FwReq) (write : Bool) : Bool × State :=
  if s.fwPermits gran f pa q write then (true, s)
  else (false, (if write then (s.fwRefused gran f pa q).fwRecord gran f pa q else s.fwRefused gran f pa q))

end Sys2Proof.Machine
end

