-- ==== Sys2Proof/Machine/Hbm.lean ====
section
/-!
DEFINITION. HBM behind the home slices (chapter 16): the placement of addresses, the controllers' accesses with their
ECC, poison, mirrors and open rows, and the unit counters they feed (R574 to R576).

The stacks' contents lie in `State.mem` at their place in the stacks, s × 0x6_0000_0000 + SA, so that a change of
MC_ILV moves no data.
-/

namespace Sys2Proof.Machine

/-! ## Unit counters (R574 to R576) -/

/-- The events a unit counter adds in this command: its own event's, or the wraps of its predecessor. -/
def pmAdd (cnt n : Nat) : Nat × Nat := ((cnt + n) % 2 ^ 48, (cnt + n) / 2 ^ 48)

/-- Unit counters `k` of a unit whose registers start at instance `b` count `n` of event `code`: a wrap sets OVF, or
passes on where the successor chains (R571, R574). -/
def State.pmUnitFrom (s : State) (sel cnt : Reg) (b code n carry k : Nat) : Nat → State
  | 0 => s
  | left + 1 =>
    let w := s.csrGet sel (b + k)
    let chain := k % 2 == 1 && bitsOf w 2 2 == 1
    let add := if chain then carry else if bitsOf w 0 0 = 0 then 0 else if bitsOf w 15 8 = code then n else 0
    let (v, c) := pmAdd (bitsOf (s.csrGet cnt (b + k)) 47 0) add
    let next := bitsOf (s.csrGet sel (b + k + 1)) 2 2 == 1 && k % 2 == 0 && left != 0
    let s := if add = 0 then s else s.csrSet cnt (b + k) (BitVec.ofNat 64 v)
    let s := if c ≠ 0 ∧ !next then s.csrSet sel (b + k) (withBits (s.csrGet sel (b + k)) 1 1 1) else s
    s.pmUnitFrom sel cnt b code n c (k + 1) left

/-- A slice's counters count an event, unless all counters are frozen or a secure request is in flight (R536, R576). -/
def State.pmSlice (s : State) (t code n : Nat) (sec : Bool) : State :=
  if sec || s.flag Fld.PM_GCTL_FREEZE 0 then s else s.pmUnitFrom .PM_LSEL .PM_LCNT (4 * t) code n 0 0 4

/-- A slice's counters as they stood before a secure request, which counts nothing there (R536). -/
def State.pmSliceAs (s t : State) (slice : Nat) : State :=
  (List.range 4).foldl (fun t k =>
    (t.csrSet .PM_LSEL (4 * slice + k) (s.csrGet .PM_LSEL (4 * slice + k))).csrSet .PM_LCNT (4 * slice + k)
      (s.csrGet .PM_LCNT (4 * slice + k))) t

/-- One of the `n` counters of a unit from instance `b` up counts events of a code (R574). -/
def State.pmUnitWants (s : State) (sel : Reg) (b n code : Nat) : Bool :=
  (List.range n).any (fun k => bitsOf (s.csrGet sel (b + k)) 0 0 == 1 && bitsOf (s.csrGet sel (b + k)) 15 8 == code)

/-- Flits and waits in a tile's router: a counter that counts them adds a free number (R575; DESIGN CHOICE, assumption log
111). -/
def State.pmSliceFree (s : State) (t code : Nat) (sec : Bool) : State :=
  if !s.pmUnitWants .PM_LSEL (4 * t) 4 code then s
  else
    let (w, s) := s.freeVal
    s.pmSlice t code (w.toNat % 2 ^ 32) sec
/-! ## Placement (R389, R390) -/

/-- Where a physical address lies: its stack and stack address (R390). -/
def State.hbmPlace (s : State) (pa : Nat) : Nat × Nat :=
  if s.fld Fld.MC_ILV_MODE 0 = 0 then (pa / 4096 % 4, pa / 16384 * 4096 + pa % 4096)
  else (pa / 0x600000000, pa % 0x600000000)

/-- The place of a physical address in the stacks' contents. -/
def State.hbmLoc (s : State) (pa : Nat) : Nat :=
  let (st, sa) := s.hbmPlace pa
  st * 0x600000000 + sa

/-- The physical address that lies at a stack address (the inverse of R390). -/
def State.hbmAddr (s : State) (st sa : Nat) : Nat :=
  if s.fld Fld.MC_ILV_MODE 0 = 0 then sa / 4096 * 16384 + st * 4096 + sa % 4096 else st * 0x600000000 + sa

/-- The controller of a stack address (R389, R390). -/
def hbmCtlOf (st sa : Nat) : Nat := 16 * st + sa / 256 % 16

/-- The pseudo-channel address (R390). -/
def hbmPca (sa : Nat) : Nat := sa / 4096 * 256 + sa % 256

/-- SID, bank and row of a pseudo-channel address (R390). -/
def pcaSid (pca : Nat) : Nat := pca / 2 ^ 29 % 4
def pcaRow (pca : Nat) : Nat := pca / 2 ^ 14 % 2 ^ 15
def pcaBank (pca : Nat) : Nat := (pca / 2 ^ 10 % 16) ^^^ (pca / 2 ^ 14 % 16)

/-- The controller that serves a physical address. -/
def State.hbmCtl (s : State) (pa : Nat) : Nat :=
  let (st, sa) := s.hbmPlace pa
  hbmCtlOf st sa

/-- The runtime record of a controller. -/
def State.hctl (s : State) (p : Nat) : HbmCtl := FMap.get s.hbmc {} p

/-- Change a controller's runtime record. -/
def State.modHctl (s : State) (p : Nat) (f : HbmCtl → HbmCtl) : State :=
  { s with hbmc := FMap.set s.hbmc p (f (s.hctl p)) }

/-- A controller's counters count an event, unless all counters are frozen or a secure request is in flight there: it makes
the event, or waits in the queues (R536, R576). -/
def State.pmHbm (s : State) (p code n : Nat) (sec : Bool) : State :=
  if sec || (s.hctl p).queue.any (·.sec) || s.flag Fld.PM_GCTL_FREEZE 0 then s
  else s.pmUnitFrom .PM_HSEL .PM_HCNT (8 * p) code n 0 0 8

/-- Steps of a controller: a counter that counts them adds a free number (R575; DESIGN CHOICE, assumption log 111). -/
def State.pmHbmFree (s : State) (p code : Nat) (sec : Bool) : State :=
  if !s.pmUnitWants .PM_HSEL (8 * p) 8 code then s
  else
    let (w, s) := s.freeVal
    s.pmHbm p code (w.toNat % 2 ^ 32) sec

/-! ## The bank queues (R394 to R397, R399) -/

/-- A bank's place in the rotation: bank group 0 bank 0, group 1 bank 0, and so on, over SID 0, 1, 2 (R396). -/
def bankPlace (k : Nat) : Nat := k / 16 * 16 + k % 4 * 4 + k % 16 / 4

/-- A request for a row that its bank has open. -/
def HbmCtl.isHit (h : HbmCtl) (x : HbmReq) : Bool := FMap.get h.openRow 0 x.bank == x.row + 1

/-- The requests that may issue, by their places in the queue: those no older one to the same line waits before; of these the
reads, or the writes where writes are being drained or no read can issue (R395). -/
def HbmCtl.ready (h : HbmCtl) : List (Nat × HbmReq) :=
  let free := ((List.range h.queue.length).zip h.queue).filter (fun x => (h.queue.take x.1).all (fun y => y.loc != x.2.loc))
  let rd := free.filter (fun x => !x.2.write)
  let wr := free.filter (fun x => x.2.write)
  if h.drain then (if wr.isEmpty then rd else wr) else if rd.isEmpty then wr else rd

/-- The request of a bank queue that goes next: the oldest that 16 younger ones have passed, whatever else would go; else, of
those that may issue, one to the open row; else the oldest (R395). -/
def HbmCtl.bankHead (h : HbmCtl) (l : List (Nat × HbmReq)) (k : Nat) : Option (Nat × HbmReq) :=
  let all := ((List.range h.queue.length).zip h.queue).filter (fun x => x.2.bank == k)
  let b := l.filter (fun x => x.2.bank == k)
  (all.find? (fun x => 16 ≤ x.2.passed)).or ((b.find? (fun x => h.isHit x.2)).or b.head?)

/-- What may issue next: the next request of each bank whose row is open, and the one whose bank is the next in the rotation
to be activated (R396). -/
def HbmCtl.choices (h : HbmCtl) : List (Nat × HbmReq) :=
  let heads := (List.range 48).filterMap (h.bankHead h.ready)
  let acts := heads.filter (fun x => !h.isHit x.2)
  let next (n : Nat) : Option (Nat × HbmReq) := acts.find? (fun x => bankPlace x.2.bank == (h.lastAct + 1 + n) % 48)
  heads.filter (fun x => h.isHit x.2) ++ ((List.range 48).findSome? next).toList

/-- An access to a row: a hit, or an activate of its bank; by its hint the row stays open, or closes, unless another request to
it waits (R396, R397). -/
def HbmCtl.access (h : HbmCtl) (x : HbmReq) : HbmCtl :=
  let stay := x.stay || h.queue.any (fun y => y.bank == x.bank && y.row == x.row)
  { h with
    lastAct := if h.isHit x then h.lastAct else bankPlace x.bank
    openRow := FMap.set h.openRow x.bank (if stay then x.row + 1 else 0) }

/-- Writes begin to be drained at 48 of them, and stop at 16 (R395). -/
def HbmCtl.level (h : HbmCtl) : HbmCtl :=
  let n := (h.queue.filter (·.write)).length
  { h with drain := 48 ≤ n || (h.drain && 16 < n) }

/-- The request at place `i` leaves the queue; older ones in its bank queue have been passed (R395). -/
def HbmCtl.issue (h : HbmCtl) (i : Nat) (x : HbmReq) : HbmCtl :=
  let older := (h.queue.take i).map (fun y =>
    if y.bank = x.bank then { y with passed := y.passed + 1 } else y)
  ({ h with queue := older ++ h.queue.drop (i + 1) }.access x).level

/-- An access feeds the unit counters. -/
def State.hbmCountRow (s : State) (p : Nat) (x : HbmReq) : State :=
  let s := if (s.hctl p).isHit x then s.pmHbm p 0x04 1 x.sec else s.pmHbm p 0x03 1 x.sec
  s.pmHbm p (if x.write then 0x02 else 0x01) 2 x.sec

/-- A controller issues one of the requests that may go, a free value choosing (R395, R396). -/
def State.hbmIssue (s : State) (p : Nat) : State :=
  let l := (s.hctl p).choices
  let (w, s) := s.freeVal
  match l[w.toNat % l.length]? with
  | some (i, x) => (s.hbmCountRow p x).modHctl p (fun h => h.issue i x)
  | none => s

/-- It issues `n` of them. -/
def State.hbmIssueN (s : State) (p : Nat) : Nat → State
  | 0 => s
  | n + 1 => (s.hbmIssue p).hbmIssueN p n

/-- Every request that waits issues (R392, R409). -/
def State.hbmDrain (s : State) (p : Nat) : State := s.hbmIssueN p (s.hctl p).queue.length

/-- A request wakes its rank and its channel, whose steps in power-down PD_STEPS counts (R399, R575). -/
def State.hbmWake (s : State) (p sid : Nat) : State :=
  let s := [p, p ^^^ 1].foldl (fun s q => if s.flag Fld.MC_PCSTAT_PD q then s.pmHbmFree q 0x06 false else s) s
  let idle := s.fld Fld.MC_PCSTAT_SIDIDLE p
  let s := s.setFld Fld.MC_PCSTAT_SIDIDLE p (idle - (idle &&& 2 ^ sid))
  (s.setFld Fld.MC_PCSTAT_PD p 0).setFld Fld.MC_PCSTAT_PD (p ^^^ 1) 0

/-- A request enters the queues, once there is an entry of its kind free (R394); then as many of those that wait issue as a
free value says. -/
def State.hbmAccept (s : State) (p : Nat) (x : HbmReq) : State :=
  let s := s.hbmWake p (x.bank / 16)
  let s := if ((s.hctl p).queue.filter (fun y => y.write == x.write)).length < 64 then s
    else (s.pmHbmFree p 0x07 x.sec).hbmDrain p
  let s := s.modHctl p (fun h => { h with queue := h.queue ++ [x] }.level)
  let (w, s) := s.freeVal
  s.hbmIssueN p (w.toNat % ((s.hctl p).queue.length + 1))

/-- The request of an access to a line. -/
def hbmReq (loc pca : Nat) (stay write sec : Bool) : HbmReq :=
  ⟨loc, 16 * pcaSid pca + pcaBank pca, pcaRow pca, write, stay, sec, 0⟩

/-- A write to the line waits in the queues: a read is answered from it (R395). -/
def State.hbmForwards (s : State) (p loc : Nat) : Bool := (s.hctl p).queue.any (fun y => y.write && y.loc == loc)

/-- The read and write entries in use, as MC_PCSTAT shows them (R394). -/
def State.pcstatRead (s : State) (p : Nat) : Word :=
  let q := (s.hctl p).queue
  withBits (withBits (s.csrGet .MC_PCSTAT p) 31 24 (q.filter (·.write)).length) 23 16 (q.filter (fun x => !x.write)).length

/-! ## Mirrored regions (R411 to R414) -/

/-- The region of an address: the lowest-numbered enabled region that covers its stack address in its pair (R411). -/
def State.mirOf (s : State) (st sa : Nat) : Option Nat :=
  (List.range 8).find? (fun n =>
    s.flag Fld.MC_MIR_EN n && s.fld Fld.MC_MIR_PAIR n == st / 2 && s.fld Fld.MC_MIR_BASE n ≤ sa / 2 ^ 24 &&
    sa / 2 ^ 24 ≤ s.fld Fld.MC_MIR_LIMIT n)

/-- The primary stack of a region, and the other (R411). -/
def State.mirPri (s : State) (n : Nat) : Nat := 2 * s.fld Fld.MC_MIR_PAIR n + s.fld Fld.MC_MIR_PRI n
def State.mirAlt (s : State) (n : Nat) : Nat := 2 * s.fld Fld.MC_MIR_PAIR n + (1 - s.fld Fld.MC_MIR_PRI n)

/-! ## Bursts: data, poison and ECC (R406 to R410) -/

/-- What a read of the DRAM returns: an error kind (0 none, 2 an error response, 3 a refusal, as DATA_ERR names them,
R242), the line and its poison by half. -/
structure LineAns where
  err    : Nat := 0
  data   : LineData := 0
  poison : BitVec 2 := 0
  deriving DecidableEq, Repr

/-- The line stored at a place in the stacks, and its poison. -/
def State.rawLine (s : State) (loc : Nat) : LineData := BitVec.ofNat 512 (BMap.readLE s.mem loc 64)
def State.rawPoison (s : State) (loc : Nat) : BitVec 2 := FMap.get s.hbmBad 0 (loc / 64)

/-- Whether the burst at a place is poisoned. -/
def State.burstBad (s : State) (loc : Nat) : Bool := (s.rawPoison loc).getLsbD (loc / 32 % 2)

/-- The controller of a place in the stacks, and the number that the burst there has in it. -/
def locCtl (loc : Nat) : Nat := hbmCtlOf (loc / 0x600000000) (loc % 0x600000000)
def locBurst (loc : Nat) : Nat := hbmPca (loc % 0x600000000) / 32

/-- Store a line with its poison (R408); nothing is wrong with its bits then. -/
def State.rawStore (s : State) (loc : Nat) (d : LineData) (bad : BitVec 2) : State :=
  { s with mem := BMap.writeLE s.mem loc d.toNat 64
           hbmBad := if bad = 0 then FMap.dropIf s.hbmBad (fun k => k == loc / 64)
                     else FMap.set s.hbmBad (loc / 64) bad
           hbmSym := FMap.dropIf s.hbmSym (fun k => k / 2 == loc / 64) }

/-- Store one burst with its poison: the other burst of the line stays as it is, and what a pattern run left on the lanes
beside it goes (R402, R408). -/
def State.burstStore (s : State) (loc : Nat) (d : BitVec 256) (bad : Bool) : State :=
  let m : BitVec 2 := BitVec.ofNat 2 (2 ^ (loc / 32 % 2))
  let b := if bad then s.rawPoison loc ||| m else s.rawPoison loc &&& ~~~ m
  ({ s with mem := BMap.writeLE s.mem loc d.toNat 32
            hbmBad := if b = 0 then FMap.dropIf s.hbmBad (fun k => k == loc / 64) else FMap.set s.hbmBad (loc / 64) b
            hbmSym := FMap.dropIf s.hbmSym (fun k => k == loc / 32) }).modHctl (locCtl loc) (fun h =>
    { h with lanes := FMap.dropIf h.lanes (fun k => k == locBurst loc) })

/-- The symbols that hold a wrong bit, and how many they are (R406). -/
def symsOf (e : Burst) : List Nat := (List.range 72).filter (fun l => e.extractLsb' (4 * l) 4 != 0)
def symCount (e : Burst) : Nat := (symsOf e).length

/-- The wrong bits of a burst's data: lane L in beat b is bit 64 b + L of it (R389). -/
def burstData (e : Burst) : BitVec 256 :=
  BitVec.ofNat 256 ((List.range 256).foldl (fun n i => if e.getLsbD (4 * (i % 64) + i / 64) then n + 2 ^ i else n) 0)

/-- Lanes 64 to 79 of a burst, 16 to a beat: a byte whose DBI lane is 1 stands inverted (PRESUMED, log 338; R389, R406); and
the check bits. -/
def dbiDecode (d : BitVec 256) (x : BitVec 64) : BitVec 256 :=
  d ^^^ BitVec.ofNat 256 ((List.range 32).foldl (fun n i =>
    if x.getLsbD (16 * (i / 8) + 8 + i % 8) then n + 255 * 2 ^ (8 * i) else n) 0)
def checkBits (x : BitVec 64) : BitVec 32 :=
  x.extractLsb' 48 8 ++ x.extractLsb' 32 8 ++ x.extractLsb' 16 8 ++ x.extractLsb' 0 8

/-- The burst that a read of the DRAM finds at a place: its data, set right, and its bits that are wrong (R406). A burst that
a pattern run wrote is as its lanes stand: right where all are 0, as R400 initialises a stack, and else as the code judges
it, which the spec does not give. -/
def State.burstAt (s : State) (loc : Nat) : BitVec 256 × Burst :=
  let d := BitVec.ofNat 256 (BMap.readLE s.mem loc 32)
  match (s.hctl (locCtl loc)).lanes.find? (fun e => e.1 == locBurst loc) with
  | none => (d, FMap.get s.hbmSym 0 (loc / 32))
  | some (_, x) =>
    let d := dbiDecode d x
    let e := if d = 0 ∧ checkBits x = 0 then 0 else Config.eccError d (checkBits x)
    (d ^^^ burstData e, e)

/-- The data of both bursts of a line. -/
def State.hbmLine (s : State) (loc : Nat) : LineData := (s.burstAt (loc + 32)).1 ++ (s.burstAt loc).1

/-- No bit of either burst of a line is wrong, and none of its lanes is as a pattern run left it. -/
def State.soundLine (s : State) (loc : Nat) : Bool :=
  [loc, loc + 32].all (fun b => FMap.get s.hbmSym 0 (b / 32) == 0 &&
    ((s.hctl (locCtl b)).lanes.find? (fun e => e.1 == locBurst b)).isNone)

/-- The bits of the first burst that the injection armed for this access makes wrong, and the state with it used (R410). -/
def State.takeMcInj (s : State) (p : Nat) (read : Bool) : Burst × State :=
  if s.flag Fld.MC_INJ_ARM p && s.flag Fld.MC_INJ_ONREAD p == read then
    let at_ (sym mask : Nat) : Burst := BitVec.ofNat 288 mask <<< (4 * sym)
    let b := s.fld Fld.MC_INJ_SYMB p
    (at_ (s.fld Fld.MC_INJ_SYMA p) (s.fld Fld.MC_INJ_MASKA p) ^^^
      (if b = 0xFF then 0 else at_ b (s.fld Fld.MC_INJ_MASKB p)), s.setFld Fld.MC_INJ_ARM p 0)
  else (0, s)

/-- The millisecond the bell counter stands in, plus 1, as the time of domain T by which R407 spaces its records. -/
def State.nowMs (s : State) : Nat := s.bell80.toNat / 2 ^ 32 * 1000 + s.bell80.toNat % 2 ^ 32 * 1000 / 2 ^ 32 + 1

/-- The record of an ECC error: its controller, PCA and symbol (R407, R607). -/
def eccRec (sev p pca pa sym : Nat) (sec inj : Bool) : ErrRec :=
  { unit := 240 + p / 16, sev := sev, type := 0x10, addr := some pa, loc := p, data := [pca + sym * 2 ^ 32], sec := sec,
    inj := inj }

/-- A corrected symbol (R407): counted, and recorded at most once a millisecond. -/
def State.hbmCorrected (s : State) (p pca pa sym : Nat) (sec inj : Bool) : State :=
  let s := (s.satField Fld.MC_ECC_CE_CNT p).pmHbm p 0x09 1 sec
  if (s.hctl p).ceMs = s.nowMs then s
  else (s.modHctl p (fun h => { h with ceMs := s.nowMs })).logErr (eccRec 0 p pca pa sym sec inj)

/-- An uncorrectable burst (R407). -/
def State.hbmUncorrected (s : State) (p pca pa : Nat) (sec inj : Bool) : State :=
  (s.satField Fld.MC_ECC_UE_CNT p).logErr (eccRec 1 p pca pa 0xFF sec inj)

/-- One burst of a read: `e` the bits that are wrong, `bad` the stored poison (R406, R407); the poison returned. -/
def State.hbmBurst (s : State) (p pca pa : Nat) (e : Burst) (bad sec inj : Bool) : Bool × State :=
  if bad then (true, s)
  else match symsOf e with
    | [] => (false, s)
    | [l] => (false, s.hbmCorrected p pca pa l sec inj)
    | _ => (true, s.hbmUncorrected p pca pa sec inj)

/-- The page hint of a request: OPEN, or CLOSE (R397). -/
def State.hintOpen (s : State) (q : FwReq) : Bool :=
  if q.cls = 6 then true else if q.cls = 7 then false else (s.csrGet .MC_HINT 0).getLsbD q.cls

/-- One burst of a line that a read finds in the DRAM, `x` wrong beside what is wrong there; a demand read that corrects it
queues its write-back (R409). The poison returned. -/
def State.demandBurst (s : State) (p pa loc : Nat) (x : Burst) (sec inj : Bool) : Bool × State :=
  let e := (s.burstAt loc).2 ^^^ x
  let bad := s.burstBad loc
  let (b, s) := s.hbmBurst p (hbmPca (loc % 0x600000000)) pa e bad sec inj
  (b, if s.flag Fld.MC_SCRUB_DEMAND p && !bad && symCount e == 1 then
        s.modHctl p (fun h => { h with wb := h.wb.filter (· != loc) ++ [loc] }) else s)

/-- A read of one copy of a line at its controller (R395, R406, R407, R409, R410): from the write that waits for its line, or
from the DRAM, where `upsets` are the bits that this read finds wrong in each of the two bursts. -/
def State.hbmCopyRead (s : State) (pa st sa : Nat) (upsets : List Burst) (q : FwReq) : LineAns × State :=
  let p := hbmCtlOf st sa
  let pca := hbmPca sa
  let loc := st * 0x600000000 + sa
  if s.hbmForwards p loc then ({ data := s.hbmLine loc, poison := s.rawPoison loc }, s.hbmWake p (pcaSid pca))
  else
    let s := s.hbmAccept p (hbmReq loc pca (s.hintOpen q) false q.sec)
    let (inj, s) := s.takeMcInj p true
    let d := s.hbmLine loc
    let (b0, s) := s.demandBurst p pa loc (upsets.getD 0 0 ^^^ inj) q.sec (inj != 0)
    let (b1, s) := s.demandBurst p (pa + 32) (loc + 32) (upsets.getD 1 0) q.sec false
    ({ data := d, poison := BitVec.ofBool b1 ++ BitVec.ofBool b0 }, s)

/-- The lanes that pattern runs wrote beside the two bursts of a line are written over (R402). -/
def State.lanesOver (s : State) (p pca : Nat) : State :=
  s.modHctl p (fun h => { h with lanes := FMap.dropIf h.lanes (fun k => k == pca / 32 || k == pca / 32 + 1) })

/-- A write of one copy of a line at its controller (R408, R410): a newer write drops a waiting write-back (R409); an
injection armed for a write leaves the bits it changes wrong in memory. -/
def State.hbmCopyWrite (s : State) (st sa : Nat) (d : LineData) (bad : BitVec 2) (q : FwReq) : State :=
  let p := hbmCtlOf st sa
  let pca := hbmPca sa
  let loc := st * 0x600000000 + sa
  let s := s.hbmAccept p (hbmReq loc pca (s.hintOpen q) true q.sec)
  let (inj, s) := s.takeMcInj p false
  let s := (s.modHctl p (fun h => { h with wb := h.wb.filter (fun b => b / 64 != loc / 64) })).lanesOver p pca
  let s := s.rawStore loc d bad
  if inj = 0 then s else { s with hbmSym := FMap.set s.hbmSym (loc / 32) inj }

/-! ## Requests of home slices (R392, R411 to R415) -/

/-- Whether a controller accepts requests (R392). -/
def State.hbmRun (s : State) (p : Nat) : Bool := s.fld Fld.MC_PCSTAT_STATE p == 2

/-- Whether the address is a shadow address of an enabled region (R411). -/
def State.isShadow (s : State) (st sa : Nat) : Bool :=
  match s.mirOf st sa with
  | some n => s.mirAlt n == st
  | none => false

/-- The record, and the machine check to OWNER, of two clean copies of a burst that differ: `h` its first bit in the line, `a`
and `b` the copies (R413). -/
def State.mirDiff (s : State) (n pa h : Nat) (a b : LineData) (home : Nat) (sec : Bool) : State :=
  let o := s.fld Fld.MC_MIR_OWNER n
  let w (x : LineData) (k : Nat) : Nat := (x.toNat >>> (h + 64 * k)) % 2 ^ 64
  (s.satField Fld.MC_MIR_DIFF_CNT n).logErr
    { unit := 160 + home, sev := 2, type := 0x12, addr := some (pa + h / 8), loc := n, sec := sec,
      data := [w a 0, w a 1, w a 2, w a 3, w b 0, w b 1, w b 2, w b 3],
      owner := some (if o < 160 ∨ o = 0xFE then [o] else []) }

/-- The halves of a line of which a mask names bits 0 and 1. -/
def halves (a b : LineData) (m : BitVec 2) : LineData :=
  (if m.getLsbD 1 then b.extractLsb' 256 256 else a.extractLsb' 256 256) ++
  (if m.getLsbD 0 then b.extractLsb' 0 256 else a.extractLsb' 0 256)

/-- What the alternate's data, `b`, mends of the primary's, `a`: its burst is rewritten, counted and recorded; a burst that is
uncorrectable in both stays poisoned (R412). -/
def State.mirMend (s : State) (n pa sa : Nat) (a b : LineAns) (q : FwReq) : LineAns × State :=
  let m := a.poison &&& ~~~ b.poison
  if m = 0 then (a, s)
  else
    let r : LineAns := { data := halves a.data b.data m, poison := a.poison &&& b.poison }
    let s := (s.hbmCopyWrite (s.mirPri n) sa r.data r.poison q).satField Fld.MC_MIR_ALT_CNT n
    (r, s.logErr { unit := 240 + s.mirPri n, sev := 0, type := 0x11, addr := some pa, loc := hbmCtlOf (s.mirPri n) sa,
                   data := [s.mirAlt n], sec := q.sec })

/-- A mirrored read (R412, R413, R415): the read of the alternate that VERIFY makes is the home slice's, and its firewall judges
it; the one for an uncorrectable burst is the primary's own. An alternate controller that is not in RUN answers with an error
(R392): what is verified then cannot be returned, and what is uncorrectable stays so (DESIGN CHOICE, log 328). -/
def State.mirRead (s : State) (n pa sa : Nat) (upsets : List Burst) (home : Nat) (q : FwReq) : LineAns × State :=
  let pri := s.mirPri n
  let alt := s.mirAlt n
  let (a, s) := s.hbmCopyRead pa pri sa upsets q
  if s.fld Fld.MC_MIR_STATE n ≠ 2 then (a, s)
  else if s.flag Fld.MC_MIR_VERIFY n then
    if !s.hbmRun (hbmCtlOf alt sa) then ({ err := 2 }, s)
    else
      let (ok, s) := s.fwCheck false (hbmCtlOf alt sa) pa q false
      if !ok then ({ err := 3 }, s)
      else
        let (b, s) := s.hbmCopyRead pa alt sa (upsets.drop 2) q
        let d := (BitVec.ofBool (a.data.extractLsb' 256 256 != b.data.extractLsb' 256 256) ++
          BitVec.ofBool (a.data.extractLsb' 0 256 != b.data.extractLsb' 0 256)) &&& ~~~ (a.poison ||| b.poison)
        if d = 0 then s.mirMend n pa sa a b q
        else
          let s := (s.hbmCopyWrite pri sa a.data 3 q).hbmCopyWrite alt sa b.data 3 q
          ({ a with poison := 3 }, s.mirDiff n pa (if d.getLsbD 0 then 0 else 256) a.data b.data home q.sec)
  else if a.poison = 0 ∨ !s.hbmRun (hbmCtlOf alt sa) then (a, s)
  else
    let (b, s) := s.hbmCopyRead pa alt sa (upsets.drop 2) q
    s.mirMend n pa sa a b q

/-- A read of a line that a home slice forwards (R392, R407, R412, R415). -/
def State.hbmRead (s : State) (pa : Nat) (q : FwReq) (upsets : List Burst) (home : Nat) : LineAns × State :=
  let (st, sa) := s.hbmPlace pa
  let p := hbmCtlOf st sa
  if !s.hbmRun p || s.isShadow st sa then ({ err := 2 }, s)
  else
    let (ok, s) := s.fwCheck false p pa q false
    if !ok then ({ err := 3 }, s)
    else match s.mirOf st sa with
      | some n => s.mirRead n pa sa upsets home q
      | none => s.hbmCopyRead pa st sa upsets q

/-- A write at one controller: the error kind, 0 where the controller accepts it (R392, R415, R532). -/
def State.ctlWrite (s : State) (st pa sa : Nat) (q : FwReq) (d : LineData) (bad : BitVec 2) : Nat × State :=
  let p := hbmCtlOf st sa
  if !s.hbmRun p then (2, s)
  else
    let (ok, s) := s.fwCheck false p pa q true
    if !ok then (3, s) else (0, s.hbmCopyWrite st sa d bad q)

/-- A write of a line that a home slice forwards: the error kind, 0 where it is performed; of a mirrored region, at both
controllers, each of which judges it (R392, R408, R411, R412, R415, R532). -/
def State.hbmWrite (s : State) (pa : Nat) (q : FwReq) (d : LineData) (bad : BitVec 2) : Nat × State :=
  let (st, sa) := s.hbmPlace pa
  if s.isShadow st sa then (2, s)
  else match s.mirOf st sa with
    | none => s.ctlWrite st pa sa q d bad
    | some n =>
      let (e, s) := s.ctlWrite st pa sa q d bad
      let (f, s) := s.ctlWrite (s.mirAlt n) pa sa q d bad
      (if e = 0 then f else e, s)

end Sys2Proof.Machine
end

