-- ==== Sys2Proof/Machine/Granary.lean ====
section
/-!
DEFINITION. The Granary scratchpad banks (chapter 17): ownership, access checks, ports and collisions, check bits,
commands and retention.
-/

namespace Sys2Proof.Machine

/-- What an access returns: an error kind (0 none; 1 unmapped, 2 an error response, 3 a refusal, the DETAIL values of
DATA_ERR, R242), data, and whether it is poisoned. -/
structure MemAns where
  err    : Nat := 0
  val    : Nat := 0
  poison : Bool := false
  deriving DecidableEq, Repr

/-- The bank of an address (R417). -/
def granBank (pa : Nat) : Nat := (pa - granaryBase) / 0x40000

/-! ## Owners and masters (R423, R432) -/

/-- Whether an owner code is valid (R423). -/
def ownerValid (code : Nat) : Bool :=
  code < 160 || (0x400 ≤ code && code < 0x414) || (0x480 ≤ code && code < 0x4D0) || (0x500 ≤ code && code < 0x520) ||
  (0x300 ≤ code && code < 0x400) || code == 0x200 || code == 0x201

/-- Whether a requester is a member of an owner code (R423). -/
def State.ownerMember (s : State) (code : Nat) : Src → Bool
  | .core c =>
    code == c.val || code == 0x400 + coreIsland c.val ||
    (0x480 ≤ code && code < 0x4D0 && s.groupOf c.val == some (code - 0x480))
  | .group g => code == 0x480 + g.val
  | .thread t => code == 0x500 + t.val / 8
  | .dma d => code == 0x300 + d.val
  | .reeve => code == 0x200
  | .cocoon => code == 0x201
  | _ => false

/-- The master index of GR_CONF_m (R432); a group's requests count under its primary. -/
def State.granMaster (s : State) : Src → Option Nat
  | .core c => some c.val
  | .group g => some (s.groupPrimary g.val)
  | .thread t => some (160 + t.val)
  | .dma d => some (416 + d.val)
  | .reeve => some 672
  | .cocoon => some 673
  | .jtag => some 674
  | _ => none

/-- Count in a master's conflict register. -/
def State.granCount (s : State) (f : Fld) (src : Src) : State :=
  match s.granMaster src with
  | some m => s.satField f m
  | none => s

/-! ## Access checks (R424) -/

/-- SHARE as it acts: it reads 0 while the owner is the Cocoon (R424). -/
def State.granShare (s : State) (b : Nat) : Nat :=
  if s.fld Fld.GR_BANK_OWNER b = 0x201 then 0 else s.fld Fld.GR_BANK_SHARE b

/-- The second and third check of R424. -/
def State.granOpen (s : State) (b : Nat) (src : Src) (write : Bool) : Bool :=
  let ps := s.fld Fld.GR_BANK_PSTATE b
  let st := s.fld Fld.GR_BANK_STATE b
  let own := s.fld Fld.GR_BANK_OWNER b
  (ps == 0 || ps == 1) && (st == 1 || st == 2) &&
  (s.ownerMember own src || (s.granShare b == 1 && !write) || s.granShare b == 2 || (src == .jtag && own != 0x201))

/-- All the checks of an access: the error kind, 0 where it is performed (R79, R424). -/
def State.granCheck (s : State) (src : Src) (sec : Bool) (pa : Nat) (write : Bool) : Nat × State :=
  let b := granBank pa
  if !s.islOpen 22 then (2, s)
  else
    let (ok, s) := s.fwCheck true b pa { src := some (srcId src), sec := sec } write
    if !ok then (3, s)
    else if !s.granOpen b src write then (2, s) else (0, s)

/-! ## Words and check bits (R418, R615) -/

/-- The words an access touches, by address. -/
def granWords (pa n : Nat) : List Nat := (List.range ((pa % 8 + n + 7) / 8)).map (fun k => pa / 8 * 8 + 8 * k)

/-- What a word in error does to a read: a record that names the requester (R603), and whether the data is poisoned. -/
def State.granEcc (s : State) (src a kind : Nat) (sec inj : Bool) : Bool × State :=
  if kind = 0 then (false, s)
  else
    (decide (2 ≤ kind), s.logErr { unit := 244, sev := if kind = 1 then 0 else 1, type := 0x28, addr := some a, src := src,
                                    loc := granBank a, sec := sec, inj := inj })

/-- Read `n` bytes of a bank whose checks have passed; `upset` is the error of the first word read (0 none, 1
correctable, 2 not). -/
def State.granLoad (s : State) (src pa n upset : Nat) (sec : Bool) : MemAns × State :=
  let (inj, s) := s.takeInj 244 0 true
  let ikind := match inj with
    | none => 0
    | some c => if c = 0 then 1 else 2
  let (bad, s) := (granWords pa n).foldl (fun (acc : Bool × State) a =>
    let (b, s) := acc
    let first := a == pa / 8 * 8
    let held := FMap.get s.granBad 0 a
    let kind := max held (if first then max upset ikind else 0)
    let (b', s) := s.granEcc src a kind sec (first && ikind != 0 || held != 0)
    (b || b', s)) (false, s)
  ({ val := s.memRead pa n, poison := bad }, s)

/-- A word is written: as a whole, which clears its error, or in part: it is read, merged and written, right again where its
error was correctable, and still poisoned where it was not (R418, R611). -/
def State.granWord (s : State) (src a : Nat) (whole sec : Bool) : State :=
  let kind := FMap.get s.granBad 0 a
  let s := if whole then s else (s.granEcc src a kind sec false).2
  if whole ∨ kind = 1 then { s with granBad := FMap.dropIf s.granBad (· == a) } else s

/-- An injection armed for a write strikes the first word of it (R615). -/
def State.granStrike (s : State) (inj : Option Nat) (a : Nat) : State :=
  match inj with
  | some c => { s with granBad := FMap.set s.granBad a (if c = 0 then 1 else 2) }
  | none => s

/-- Write `n` bytes of a bank whose checks have passed (R418). -/
def State.granStore (s : State) (src pa n v : Nat) (sec : Bool) : State :=
  let (inj, s) := s.takeInj 244 0 false
  let s := (granWords pa n).foldl (fun (s : State) a => s.granWord src a (pa ≤ a && a + 8 ≤ pa + n) sec) s
  (s.granStrike inj (pa / 8 * 8)).memWrite pa n v

/-- A load from the Granary. -/
def State.granRead (s : State) (src : Src) (sec : Bool) (pa n upset : Nat) : MemAns × State :=
  let (e, s) := s.granCheck src sec pa false
  if e ≠ 0 then ({ err := e }, s) else s.granLoad (srcId src) pa n upset sec

/-- A store to the Granary. -/
def State.granWrite (s : State) (src : Src) (sec : Bool) (pa n v : Nat) : Nat × State :=
  let (e, s) := s.granCheck src sec pa true
  if e ≠ 0 then (e, s) else (0, s.granStore (srcId src) pa n v sec)

/-! ## Collisions (R419 to R422) -/

/-- Whether a requester reaches the banks through port B (R417). -/
def isPortB : Src → Bool
  | .thread _ => true
  | _ => false

/-- An access that a port of a bank presents: an atomic, `op`, reads its word and writes it. -/
structure GranAcc where
  src   : Src
  sec   : Bool
  pa    : Nat
  n     : Nat
  write : Bool
  data  : Nat
  op    : Option AtomOp

/-- It stores; and it holds its word from read to write (R419). -/
def GranAcc.stores (x : GranAcc) : Bool := x.write || x.op.isSome
def GranAcc.holds (x : GranAcc) : Bool := x.op.isSome || (x.write && decide (x.n < 8))

/-- What an atomic writes over the word it has read (R183). -/
def atomResult (o : AtomOp) (old v : Nat) : Nat :=
  match o with
  | .swp => v
  | .add => old + v
  | .and => old &&& v
  | .or => old ||| v

/-- An access is performed: what it reads. An atomic that reads poison writes nothing (R613). -/
def State.granPerform (s : State) (x : GranAcc) (upset : Nat) : MemAns × State :=
  match x.op with
  | some o =>
    let (a, s) := s.granLoad (srcId x.src) x.pa x.n upset x.sec
    (a, if a.poison then s else s.granStore (srcId x.src) x.pa x.n (atomResult o a.val x.data) x.sec)
  | none =>
    if x.write then ({}, s.granStore (srcId x.src) x.pa x.n x.data x.sec)
    else s.granLoad (srcId x.src) x.pa x.n upset x.sec

/-- The words that two accesses present in the same step, an access of 32 B one word in each of four (R417). -/
def GranAcc.meets (x y : GranAcc) : List Nat :=
  ((granWords x.pa x.n).zip (granWords y.pa y.n)).filterMap (fun p => if p.1 = p.2 then some p.1 else none)

/-- Data read of which the words `ws` are undefined (R420, R422). -/
def State.granBlur (s : State) (x : GranAcc) (ws : List Nat) (v : Nat) : Nat × State :=
  ws.foldl (fun (acc : Nat × State) w =>
    let (f, s) := acc.2.freeVal
    let lo := 8 * (w - x.pa)
    let k := 8 * min x.n 8
    (acc.1 - acc.1 / 2 ^ lo % 2 ^ k * 2 ^ lo + f.toNat % 2 ^ k * 2 ^ lo, s)) (v, s)

/-- `n` of an event of the conflict counters (R432). -/
def State.granCountN (s : State) (f : Fld) (src : Src) (n : Nat) : State :=
  (List.range n).foldl (fun s _ => s.granCount f src) s

/-- Two accesses through the two ports, `x` granted first (R419 to R422): on a word that `x` holds `y` waits; else, where one of
them writes, both count, `y` has BUSY, a read granted first is undefined there, and one granted second is repeated. A
part-word write or an atomic granted second presents its read first. -/
def State.granMeet (s : State) (x y : GranAcc) (upset : Nat) : State :=
  let ws := x.meets y
  let clash := !x.holds && (x.stores || (y.stores && !y.holds)) && !ws.isEmpty
  let s := if x.holds && !ws.isEmpty then s.granCount Fld.GR_CONF_WAIT_CNT y.src else s
  let s := if clash then (s.granCountN Fld.GR_CONF_HIT_CNT x.src ws.length).granCountN Fld.GR_CONF_BUSY_CNT y.src ws.length else s
  let (a, s) := s.granPerform x upset
  let (v, s) := if clash && !x.stores then s.granBlur x ws a.val else (a.val, s)
  let (b, s) := s.granPerform y 0
  { s with resp := { val := BitVec.ofNat 256 v, poison := a.poison, val2 := BitVec.ofNat 256 b.val, poison2 := b.poison,
                     busy := clash } }

/-- The size of an access, and whether a live requester may present it. -/
def granSize (n : Nat) : Nat := if n = 1 ∨ n = 2 ∨ n = 4 ∨ n = 8 ∨ n = 32 then n else 8
def State.granLive (s : State) (x : GranAcc) : Bool := s.srcLive x.src && isGranary x.pa && x.pa % x.n == 0

/-- GRANARY_ACCESS: an access, and, where `partner` is given, the access that the other port presents in the same step and
that is granted second (R417 to R422). An atomic is of one word. -/
def execGranaryAccess (src : Src) (addr : PA) (size : Nat) (write : Bool) (data : BitVec 256)
    (partner : Option GranaryPartner) (upset : Nat) (s : State) : Result :=
  let acc (src : Src) (a : PA) (n : Nat) (w : Bool) (d : BitVec 256) (op : Option AtomOp) : GranAcc :=
    { src := src, sec := s.accSecure src a.toNat, pa := a.toNat, n := if op.isSome then 8 else granSize n, write := w,
      data := d.toNat, op := op }
  let x := acc src addr size write data (partner.bind (·.lead))
  if !s.granLive x then .next s
  else
    let (e, s) := s.granCheck src x.sec x.pa x.stores
    if e ≠ 0 then .next s.replyErr
    else
      let alone (s : State) (err2 : Bool) : State :=
        let (a, s) := s.granPerform x upset
        { s with resp := { val := BitVec.ofNat 256 a.val, poison := a.poison, err2 := err2 } }
      match partner with
      | none => .next (alone s false)
      | some q =>
        let y := acc q.src q.addr q.size q.write q.data q.op
        if isPortB q.src == isPortB src || !s.granLive y then .next (alone s false)
        else
          let (e2, s) := s.granCheck q.src y.sec y.pa y.stores
          .next (if e2 ≠ 0 then alone s true else s.granMeet x y upset)

/-! ## Commands (R425 to R427) -/

/-- The end of a GR_CMD write: its status and source are recorded (R432). -/
def State.granStatus (s : State) (b : Nat) (src : Src) (st : Nat) : State :=
  (s.setFld Fld.GR_BANK_LAST_STATUS b st).setFld Fld.GR_BANK_LAST_SRC b (srcId src)

/-- SHARE as a command stores it: 3 is stored as 0, and while the owner is the Cocoon it stays 0 (R424, R432). -/
def shareStored (owner v : Nat) : Nat := if v = 3 ∨ owner = 0x201 then 0 else v

/-- CLAIM takes effect. -/
def State.granOwn (s : State) (b code share : Nat) : State :=
  ((s.setFld Fld.GR_BANK_OWNER b code).setFld Fld.GR_BANK_STATE b 1).setFld Fld.GR_BANK_SHARE b (shareStored code share)

/-- A CLAIM (R425). A forced claim is judged by the OWNER that GR_BANK holds, in a FREE bank too (DEDUCED, log 247). -/
def State.granClaim (s : State) (b : Nat) (src : Src) (v : Word) : State :=
  let code := Fld.GR_CMD_CODE.of v
  let next := s.fld Fld.GR_BANK_NEXT b
  let done := (s.granOwn b code (Fld.GR_CMD_SHARE.of v)).granStatus b src stOk
  if !ownerValid code then s.granStatus b src stDenied
  else if Fld.GR_CMD_FORCE.of v = 1 then
    if src = .reeve ∧ s.fld Fld.GR_BANK_OWNER b ≠ 0x201 then done else s.granStatus b src stDenied
  else if s.fld Fld.GR_BANK_STATE b ≠ 0 then s.granStatus b src stOwned
  else if next ≠ 0xFFF ∧ next ≠ code then s.granStatus b src stDenied
  else if code = 0x201 ∧ src ≠ .cocoon then s.granStatus b src stDenied
  else if !(s.ownerMember code src || s.srcSys src) then s.granStatus b src stDenied
  else done

/-- The conditions that RELEASE and SHARE have in common (R425). -/
def State.granMayYield (s : State) (b : Nat) (src : Src) : Bool :=
  s.fld Fld.GR_BANK_STATE b == 1 &&
  (s.ownerMember (s.fld Fld.GR_BANK_OWNER b) src || (s.fld Fld.GR_BANK_OWNER b != 0x201 && s.srcSys src))

/-- A RELEASE (R425). -/
def State.granRelease (s : State) (b : Nat) (src : Src) (v : Word) : State :=
  let code := Fld.GR_CMD_CODE.of v
  if !(ownerValid code || code == 0xFFF) || !s.granMayYield b src then s.granStatus b src stDenied
  else ((s.setFld Fld.GR_BANK_NEXT b code).setFld Fld.GR_BANK_STATE b 2).granStatus b src stOk

/-- A SHARE command (R425). -/
def State.granShareCmd (s : State) (b : Nat) (src : Src) (v : Word) : State :=
  if !s.granMayYield b src then s.granStatus b src stDenied
  else (s.setFld Fld.GR_BANK_SHARE b (shareStored (s.fld Fld.GR_BANK_OWNER b) (Fld.GR_CMD_SHARE.of v))).granStatus b src stOk

/-- A write to GR_CMD_b, by its OP (R425). -/
def State.granCmd (s : State) (b : Nat) (src : Src) (v : Word) : State :=
  match Fld.GR_CMD_OP.of v with
  | 1 => s.granClaim b src v
  | 2 => s.granRelease b src v
  | 3 => s.granShareCmd b src v
  | _ => s.granStatus b src stDenied

/-- GRANARY_CLAIM (R425). -/
def execGranaryClaim (src : Src) (b : BankId) (v : Word) (s : State) : Result :=
  .next (s.csrPort src .GR_CMD b.val (fun s => s.granCmd b.val src (withBits v 3 0 1)))

/-- GRANARY_RELEASE (R425). -/
def execGranaryRelease (src : Src) (b : BankId) (v : Word) (s : State) : Result :=
  .next (s.csrPort src .GR_CMD b.val (fun s => s.granCmd b.val src (withBits v 3 0 2)))

/-- GRANARY_SHARE (R425). -/
def execGranaryShare (src : Src) (b : BankId) (v : Word) (s : State) : Result :=
  .next (s.csrPort src .GR_CMD b.val (fun s => s.granCmd b.val src (withBits v 3 0 3)))

/-- RELEASE_COMPLETE: every access accepted before the release has been performed (R426). -/
def execReleaseComplete (b : BankId) (s : State) : Result :=
  .next (if s.fld Fld.GR_BANK_STATE b.val = 2 then s.setFld Fld.GR_BANK_STATE b.val 0 else s)

/-! ## Conflict counters (R432) -/

/-- A write to GR_CONF_m. -/
def State.granConfWrite (s : State) (m : Nat) (src : Src) (v : Word) : State :=
  let ok := if m = 673 then src == .cocoon else s.srcSys src || src == .cocoon
  if ok && Fld.GR_CONF_CLR.of v == 1 then s.csrSet .GR_CONF m 0 else s

/-! ## Retention (R428, R429) -/

/-- Answer every BANK_RETAIN or BANK_WAKE call that waits on a bank for PSTATE `want`. -/
def State.granCalls (s : State) (b : Nat) (retain : Bool) : State :=
  let q := s.granWait.filter (fun w => w.1 == b && w.2.1 == retain)
  let s := { s with granWait := s.granWait.filter (fun w => !(w.1 == b && w.2.1 == retain)) }
  q.foldl (fun s w => s.serviceReply w.2.2 stOk) s

/-- Enter retention: a bank in RELEASING first completes its release (R428). -/
def State.granEnter (s : State) (b : Nat) : State :=
  let s := if s.fld Fld.GR_BANK_STATE b = 2 then s.setFld Fld.GR_BANK_STATE b 0 else s
  s.setFld Fld.GR_BANK_PSTATE b 1

/-- A call of BANK_RETAIN or BANK_WAKE waits until the bank has the state it asks for. -/
def State.granHold (s : State) (b : Nat) (retain : Bool) (m : Nat) : State :=
  { s with granWait := s.granWait ++ [(b, retain, m)] }

/-- BANK_RETAIN (R428). -/
def execBankRetain (m : SlotId) (s : State) : Result :=
  .next (if !s.serving m.val 0x0A then s
    else if !(s.slot m.val).hmode then s.serviceReply m.val stDenied
    else
    let s := s.begun m.val
    let b := s.arg0 m.val
    let own := s.fld Fld.GR_BANK_OWNER b
    if 63 < b then s.serviceReply m.val stBadArg
    else if s.fld Fld.PW_HOLD_GR_BANK 0 / 2 ^ b % 2 = 1 then s.serviceReply m.val stBlockHeld
    else if own = 0x200 ∨ own = 0x201 then s.serviceReply m.val stDenied
    else match s.fld Fld.GR_BANK_PSTATE b with
      | 0 => (s.granEnter b).granHold b true m.val
      | 2 => s.serviceReply m.val stOk
      | _ => s.granHold b true m.val)

/-- BANK_WAKE (R429). -/
def execBankWake (m : SlotId) (s : State) : Result :=
  .next (if !s.serving m.val 0x0B then s
    else if !(s.slot m.val).hmode then s.serviceReply m.val stDenied
    else
    let s := s.begun m.val
    let b := s.arg0 m.val
    if 63 < b then s.serviceReply m.val stBadArg
    else match s.fld Fld.GR_BANK_PSTATE b with
      | 0 => s.serviceReply m.val stOk
      | 2 => (s.setFld Fld.GR_BANK_PSTATE b 3).granHold b false m.val
      | _ => s.granHold b false m.val)

/-- BANK_RETAIN_COMMIT: the entry commits; a BANK_WAKE that waits starts the exit at once (R428, R429). -/
def execBankRetainCommit (b : BankId) (s : State) : Result :=
  .next (if s.fld Fld.GR_BANK_PSTATE b.val ≠ 1 then s
    else
      let s := (s.setFld Fld.GR_BANK_PSTATE b.val 2).granCalls b.val true
      if s.granWait.any (fun w => w.1 == b.val && !w.2.1) then s.setFld Fld.GR_BANK_PSTATE b.val 3 else s)

/-- BANK_EXIT_COMPLETE: the bank is ON; a BANK_RETAIN that waits enters retention again (R428, R429). -/
def execBankExitComplete (b : BankId) (s : State) : Result :=
  .next (if s.fld Fld.GR_BANK_PSTATE b.val ≠ 3 then s
    else
      let s := (s.setFld Fld.GR_BANK_PSTATE b.val 0).granCalls b.val false
      if s.granWait.any (fun w => w.1 == b.val && w.2.1) then s.granEnter b.val else s)

/-- The Granary's logic at a reset of island G (R430): ownership, SHARE and NEXT, with PSTATE kept. -/
def State.granaryReset (s : State) : State :=
  (List.range 64).foldl (fun s b =>
    let ps := s.fld Fld.GR_BANK_PSTATE b
    let w := (s.csrGet .GR_BANK b)
    if w = Reg.reset .GR_BANK b then s else (s.csrSet .GR_BANK b (Reg.reset .GR_BANK b)).setFld Fld.GR_BANK_PSTATE b ps) s

end Sys2Proof.Machine
end

