-- ==== Sys2Proof/Machine/PmCore.lean ====
section
/-!
DEFINITION. What a core's own registers say of its mode and guest, and its performance counters (R257, R569 to R573).
-/

namespace Sys2Proof.Machine

/-- The guest whose identifier tags a core's accesses (R257, R570): none of its own in H mode. -/
def CoreArch.guest (a : CoreArch) : Nat :=
  if a.mode = 2 then 0 else if a.csf CsFld.G2CTL_EN = 1 then a.csf CsFld.G2BASE_GID else 0

/-- The ASID of a core's regime (R257). -/
def CoreArch.asid (a : CoreArch) : Nat := if a.mode = 2 then 0 else a.csf CsFld.STBASE_ASID

/-- Counter `i` counts events now (R570). -/
def CoreArch.pmOn (a : CoreArch) (i : Nat) : Bool :=
  a.csf CsFld.PMCTL_EN == 1 && a.csf CsFld.PMEV_EN i == 1 &&
  (if a.mode = 0 then a.csf CsFld.PMEV_U i == 1 else if a.mode = 1 then a.csf CsFld.PMEV_S i == 1
   else a.csf CsFld.PMEV_H i == 1) &&
  a.guest == a.csf CsFld.PMCTL_GID

/-- Counters `k` and up count `n` of event `code`, in the mode and by the settings of `x`; `carry` is the number of wraps of
the counter before (R570, R571). The increments of counter `own`, which the instruction writes, come before its write and
are lost under it (R572). -/
def CoreArch.pmCount (a x : CoreArch) (own : Option Nat) (code n carry k : Nat) : Nat → CoreArch
  | 0 => a
  | left + 1 =>
    let chain := k % 2 == 1 && x.csf CsFld.PMEV_CHAIN k == 1
    let add := if chain then carry else if x.pmOn k && x.csf CsFld.PMEV_EVENT k == code then n else 0
    let v := (if own = some k then x else a).csf CsFld.PMC_COUNT k + add
    let wraps := v / 2 ^ 48
    let next := k % 2 == 0 && x.csf CsFld.PMEV_CHAIN (k + 1) == 1
    let a := if add = 0 ∨ own = some k then a else a.setCsf CsFld.PMC_COUNT v k
    let a := if wraps ≠ 0 ∧ !next then a.setCsf CsFld.PMOVF_OVF (a.csf CsFld.PMOVF_OVF ||| 2 ^ k) else a
    a.pmCount x own code n wraps (k + 1) left

/-- An event of a core (R573), counted as `x` has it, unless every counter is frozen (R577). -/
def State.pmCoreBy (s : State) (c : Nat) (x : CoreArch) (own : Option Nat) (code n : Nat) : State :=
  if s.flag Fld.PM_GCTL_FREEZE 0 then s
  else if x.csf CsFld.PMCTL_EN = 0 then s
  else s.modCore c (fun k => { k with arch := k.arch.pmCount x own code n 0 0 8 })

/-- An event of a core, counted as the core stands. -/
def State.pmCore (s : State) (c code n : Nat) : State := s.pmCoreBy c (s.core c).arch none code n

/-- A counter of a core counts events of a code now (R570). -/
def CoreArch.pmWants (a : CoreArch) (code : Nat) : Bool :=
  (List.range 8).any (fun i => a.pmOn i && a.csf CsFld.PMEV_EVENT i == code)

/-- Events that count steps: the model has no steps of an island, so a counter that counts them adds a free number
(R573; DESIGN CHOICE, assumption log 111). -/
def State.pmFreeBy (s : State) (c : Nat) (x : CoreArch) (own : Option Nat) (code : Nat) : State :=
  if s.flag Fld.PM_GCTL_FREEZE 0 || !x.pmWants code then s
  else
    let (w, s) := s.freeVal
    s.pmCoreBy c x own code (w.toNat % 2 ^ 32)

/-- The same, counted as the core stands. -/
def State.pmFree (s : State) (c code : Nat) : State := s.pmFreeBy c (s.core c).arch none code

/-- The registers that count: cs.PMC_i, and cs.PMOVF, which their wraps set (R569, R570). -/
def csCounter (csn : Nat) : Bool := (0x300 ≤ csn && csn ≤ 0x307) || csn == 0x311

/-- The counter whose cs.PMC_i a CSN names (R569). -/
def csPmc (csn : Nat) : Option Nat := if 0x300 ≤ csn ∧ csn ≤ 0x307 then some (csn - 0x300) else none

/-- A checkpoint's state given to a core: its own counters stay as they are (R354, R368). -/
def CoreArch.given (own x : CoreArch) : CoreArch :=
  [0x300, 0x301, 0x302, 0x303, 0x304, 0x305, 0x306, 0x307, 0x311].foldl (fun a n => a.setCs n (own.cs 0 n)) x

end Sys2Proof.Machine
end

