-- ==== Sys2Proof/Machine/Cache.lean ====
section
/-!
DEFINITION. The home slices, the LLC, the directory and the cores' L2s (chapter 12): where a line's data is, how a
request of each kind reads or writes it, what moves between the caches, and the error modes of R298.

A line is named by PA[47:6].  The lists of lines are kept most recently used first.
-/

namespace Sys2Proof.Machine

/-! ## Places (R282, R288, R293) -/

/-- The home slice of a line (R288). -/
def homeSlice (line : Nat) : Nat := ((line % 65536) ^^^ (line / 65536 % 65536) ^^^ (line / 2 ^ 32 % 1024)) % 80

/-- The set of a line in an L2, an L1, an LLC slice and a directory. -/
def l2Index (line : Nat) : Nat := line % 2048
def l1Index (line : Nat) : Nat := line % 256
def llcIndex (line : Nat) : Nat := line % 1536
def dirIndex (line : Nat) : Nat := line % 4096

/-- STATE of a core's L2: 0 OFF, 1 ON, 2 CLEANING (R304). -/
def Core.l2State (k : Core) : Nat := k.arch.csf CsFld.L2CTL_STATE

/-- A core's copy of a line. -/
def State.l2Find (s : State) (c line : Nat) : Option L2Line := (s.core c).l2.find? (fun l => l.line == line)

/-- Every core whose L2 holds a copy of a line. -/
def State.l2Holders (s : State) (line : Nat) : List Nat :=
  (s.cores.filter (fun e => e.2.l2.any (fun l => l.line == line))).map Prod.fst

/-- The directory lists a core for a line: its L2 holds it, or, while its L2 is OFF, its L1 data cache (R293). -/
def Core.tracked (k : Core) (line : Nat) : Bool :=
  k.l2.any (fun l => l.line == line) || (k.l2State == 0 && k.l1d.any (fun e => e.1 == line))

/-- The cores that the directory lists for a line. -/
def State.sharers (s : State) (line : Nat) : List Nat := (s.cores.filter (fun e => e.2.tracked line)).map Prod.fst

/-- The L2 that answers for a line: the one that holds it in M, else any that holds it. -/
def State.l2Source (s : State) (line : Nat) : Option Nat :=
  ((s.l2Holders line).find? (fun c => (s.l2Find c line).any (fun l => l.st == .m))).or (s.l2Holders line).head?

/-- The core that holds a line in M, if one does (R292). -/
def State.l2Owner (s : State) (line : Nat) : Option L2Line :=
  (s.l2Holders line).findSome? (fun c => (s.l2Find c line).bind (fun l => if l.st = .m then some l else none))

/-- The lines of a slice. -/
def State.llcOf (s : State) (t : Nat) : List LlcLine := FMap.get s.llc [] t

/-- Set the lines of a slice. -/
def State.llcPutAll (s : State) (t : Nat) (l : List LlcLine) : State := { s with llc := FMap.set s.llc t l }

/-- The LLC's copy of a line. -/
def State.llcFind (s : State) (line : Nat) : Option LlcLine :=
  (s.llcOf (homeSlice line)).find? (fun l => l.line == line)

/-! ## Reservations (R328) -/

/-- Clear every reservation on the granule of a byte address but that of core `c`. -/
def State.clearResvBut (s : State) (pa : Nat) (c : Option Nat) : State :=
  { s with cores := s.cores.map (fun e =>
      if c ≠ some e.1 ∧ e.2.resv.any (fun r => r.granule == pa / 128) then (e.1, { e.2 with resv := none }) else e) }

/-- Whether a core other than `c` holds the line's granule against snoops (R332). -/
def State.heldAgainst (s : State) (line : Nat) (c : Option Nat) : Bool :=
  s.cores.any (fun e => c != some e.1 && e.2.resv.any (fun r => r.hold && r.granule == line / 2))

/-- The 64 steps of every hold on a line but core `c`'s have passed: a request of another agent that is served is served
after them (R332). -/
def State.unhold (s : State) (line : Nat) (c : Option Nat) : State :=
  if !s.heldAgainst line c then s
  else { s with cores := s.cores.map (fun e =>
      if c ≠ some e.1 then (e.1, { e.2 with resv := e.2.resv.map (fun r =>
        if r.granule = line / 2 then { r with hold := false } else r) }) else e) }

/-- A line of the core boot ROM (R285). -/
def romLine (line : Nat) : LineData :=
  BitVec.ofNat 512 ((List.range 64).foldr (fun i v => (Config.coreRomByte (64 * line - romBase + i)).toNat + 256 * v) 0)

/-! ## Write-backs (R296, R400, R532) -/

/-- A dirty line of a slice is written to HBM: judged by its secure bit alone (R532); a controller that is not in RUN
loses it (R400), and a refusal loses it too. -/
def State.writeBack (s : State) (line : Nat) (d : LineData) (bad : BitVec 2) (sec : Bool) : State :=
  let t := homeSlice line
  let s := s.pmSlice t 0x07 1 sec
  let (e, s) := s.hbmWrite (64 * line) { src := none, sec := sec, cls := 2 } d bad
  if e = 2 then s.logErr { unit := 160 + t, sev := 2, type := 0x14, addr := some (64 * line), sec := sec } else s

/-! ## L2 lines -/

/-- A core loses its copy of a line, and with it its L1 data line; the invalidation of an L2's copy ends a reservation on it
(R283, R328). -/
def State.l2Drop (s : State) (c line : Nat) : State :=
  s.modCore c (fun k => { k with
    l2 := k.l2.filter (fun l => l.line != line)
    l1d := k.l1d.filter (fun l => l.1 != line)
    resv := if k.l2.any (fun l => l.line == line) && k.resv.any (fun r => r.granule == line / 2) then none else k.resv })

/-- Replace a core's copy of a line, as its most recent. -/
def State.l2Set (s : State) (c : Nat) (x : L2Line) : State :=
  s.modCore c (fun k => { k with l2 := x :: k.l2.filter (fun l => l.line != x.line) })

/-! ## Errors of caches (R298, R615) -/

/-- What the table of R298 does to a line in error: nothing more, drop it, poison it, or stop. -/
inductive CacheFate where
  | keep | drop | poison | fatal
  deriving DecidableEq, Repr

/-- The table of R298 for an L2 or LLC line: mode E or P, dirty or not, and the class of the error (0 one bit, 1 two
bits, 2 tag or state). -/
def cacheFate (modeE dirty : Bool) (cls : Nat) : CacheFate :=
  if 2 ≤ cls then (if dirty then .fatal else .drop)
  else if dirty then (if modeE && cls == 0 then .keep else .poison)
  else if modeE && cls == 0 then .keep else .drop

/-- The record of a cache error; `set` counts a core's levels too, 4,096 to a level in the order of WHERE (R615). -/
def cacheRec (unit line set way cls : Nat) (f : CacheFate) : ErrRec :=
  { unit := unit, sev := if f = .fatal then 3 else if f = .poison then 1 else 0, type := if 2 ≤ cls then 2 else 1,
    addr := if 2 ≤ cls then none else some (64 * line), loc := set * 16 + way, inj := true }

/-- A read of a core's L2 line detects an error that an injection left, or makes now (R298, R615): the line as it is
then, none where it was dropped. -/
def State.l2Check (s : State) (c : Nat) (x : L2Line) : Option L2Line × State :=
  let (i, s) := s.takeInj c 2 true
  match x.err.or i with
  | none => (some x, s)
  | some cls =>
    let f := cacheFate ((s.core c).arch.csf CsFld.L2CTL_MODE == 1) (x.st == .m) cls
    let s := s.logErr (cacheRec c x.line (2 * 4096 + l2Index x.line) x.way cls f)
    match f with
    | .drop => (none, s.l2Drop c x.line)
    | .poison => let y := { x with poison := 3, err := none }
                 (some y, s.l2Set c y)
    | _ => let y := { x with err := none }
           (some y, s.l2Set c y)

/-- The same for an LLC line. -/
def State.llcCheck (s : State) (x : LlcLine) : Option LlcLine × State :=
  let t := homeSlice x.line
  let (i, s) := s.takeInj (160 + t) 0 true
  match x.err.or i with
  | none => (some x, s)
  | some cls =>
    let f := cacheFate (s.flag Fld.MC_LLC_CTL_MODE t) x.dirty cls
    let s := s.logErr { cacheRec (160 + t) x.line (llcIndex x.line) x.way cls f with sec := x.sec }
    let rest := (s.llcOf t).filter (fun l => l.line != x.line)
    match f with
    | .drop => (none, s.llcPutAll t rest)
    | .poison => let y := { x with poison := 3, err := none }
                 (some y, s.llcPutAll t (y :: rest))
    | _ => let y := { x with err := none }
           (some y, s.llcPutAll t (y :: rest))

/-- The copy of a line that a core's L2 gives up or answers with, the read checked (R298). -/
def State.l2Take (s : State) (c line : Nat) : Option L2Line × State :=
  match s.l2Find c line with
  | some x => s.l2Check c x
  | none => (none, s)

/-- A line of a slice is read to be written to HBM where it is dirty; the line as it is then. -/
def State.llcFlush (s : State) (x : LlcLine) : Option LlcLine × State :=
  let (r, s) := s.llcCheck x
  match r with
  | some y => (some y, if y.dirty then s.writeBack y.line y.data y.poison y.sec else s)
  | none => (none, s)

/-! ## Lines of a slice -/

/-- A way of a set that no listed line uses, or the way of the set's least recently used line. -/
def freeWay (ways : Nat) (used : List Nat) : Nat :=
  match (List.range ways).find? (fun w => !used.contains w) with
  | some w => w
  | none => (used.getLast?).getD 0

/-- Put a line into its slice: over its own copy, whose reuse and secure bits it keeps, into an invalid way, or over the
set's least recently used line, whose dirty data goes to HBM (R292, R296). -/
def State.llcPut (s : State) (x : LlcLine) : State :=
  let t := homeSlice x.line
  let ls := s.llcOf t
  match ls.find? (fun l => l.line == x.line) with
  | some o =>
    s.llcPutAll t ({ x with way := o.way, reuse := o.reuse || x.reuse, sec := o.sec || x.sec } ::
      ls.filter (fun l => l.line != x.line))
  | none =>
    let same := ls.filter (fun l => llcIndex l.line == llcIndex x.line)
    let w := freeWay 16 (same.map (fun l => l.way))
    let s := match same.find? (fun l => l.way == w) with
      | some v => (s.llcFlush v).2
      | none => s
    s.llcPutAll t ({ x with way := w } :: (s.llcOf t).filter (fun l => !(llcIndex l.line == llcIndex x.line && l.way == w)))

/-- A request hits a line that the slice holds: its reuse bit sets (R292). -/
def State.llcReuse (s : State) (line : Nat) : State :=
  if (s.llcFind line).any (fun l => !l.reuse) then
    s.llcPutAll (homeSlice line) ((s.llcOf (homeSlice line)).map (fun l => if l.line = line then { l with reuse := true } else l))
  else s

/-- Data that must be kept reaches its home slice: held in the LLC as a dirty line while the slice allocates, and written
through to HBM otherwise, a copy that the slice still holds staying clean (R296, R304, R309). -/
def State.toHome (s : State) (line : Nat) (d : LineData) (bad : BitVec 2) (sec : Bool) : State :=
  let x : LlcLine := { line := line, way := 0, dirty := true, reuse := false, sec := sec, data := d, poison := bad }
  match s.flag Fld.MC_LLC_CTL_ALLOC_EN (homeSlice line), s.llcFind line with
  | true, _ => s.llcPut x
  | false, some o => (s.writeBack line d bad (sec || o.sec)).llcPut { x with dirty := false }
  | false, none => s.writeBack line d bad sec

/-! ## L2 copies -/

/-- The home slice takes a line that an L2 offers, or declines it (R296). -/
def State.llcOffered (s : State) (x : L2Line) : State :=
  let t := homeSlice x.line
  let alloc := s.flag Fld.MC_LLC_CTL_ALLOC_EN t
  if x.st = .m then (s.pmSlice t 0x03 1 false).toHome x.line x.data x.poison false
  else
    let same := (s.llcOf t).filter (fun l => llcIndex l.line == llcIndex x.line)
    let offer := s.fld Fld.MC_LLC_CTL_OFFER t
    let accept := alloc && (offer == 2 || (offer == 0 &&
      (same.length < 16 || same.any (fun l => !l.dirty && !l.reuse))))
    if !accept then s.pmSlice t 0x04 1 false
    else if (s.llcFind x.line).isSome then s.pmSlice t 0x03 1 false
    else (s.pmSlice t 0x03 1 false).llcPut
      { line := x.line, way := 0, dirty := false, reuse := false, sec := false, data := x.data, poison := x.poison }

/-- An L2 evicts a line, and offers it to the home slice; a line of the boot ROM has none (R285, R296). -/
def State.l2Offer (s : State) (c line : Nat) : State :=
  let (r, s) := s.l2Take c line
  let s := s.l2Drop c line
  match r with
  | some x => if isHbm (64 * line) then s.llcOffered x else s
  | none => s

/-- How many cores an invalidation goes to: the sharers, up to three of which an entry records, or all eight cores of every
island recorded (R293). -/
def snoopCount (all : List Nat) (c : Option Nat) : Nat :=
  if all.length ≤ 3 then (all.filter (fun h => c ≠ some h)).length
  else 8 * (all.map coreIsland).eraseDups.length - bit (all.any (fun h => c = some h))

/-- Every copy that the directory lists of a line, but that of core `c`, is invalidated, for a request that is secure or not;
one in M reaches the home slice first. -/
def State.recallBut (s : State) (line : Nat) (c : Option Nat) (sec : Bool) : State :=
  let all := s.sharers line
  let hs := all.filter (fun h => c ≠ some h)
  let s := if hs.isEmpty then s else s.pmSlice (homeSlice line) 0x06 (snoopCount all c) sec
  hs.foldl (fun s h =>
    let (r, s) := s.l2Take h line
    let s := s.l2Drop h line
    match r with
    | some x => if x.st = .m then s.toHome line x.data x.poison false else s
    | none => s) s

/-- Every copy of a line but that of core `c` becomes S; one in M reaches the home slice first. -/
def State.shareBut (s : State) (line c : Nat) : State :=
  ((s.l2Holders line).filter (· != c)).foldl (fun s h =>
    let (r, s) := s.l2Take h line
    match r with
    | some y => (if y.st = .m then s.toHome line y.data y.poison false else s).l2Set h { y with st := .s }
    | none => s) s

/-! ## Requests at the home slice (R286, R287, R535) -/

/-- A normal request that hits a secure line is refused at the slice, as the firewall would refuse it, and recorded
(R535). -/
def State.secureHit (s : State) (line : Nat) (q : FwReq) : State :=
  let t := homeSlice line
  let p := s.hbmCtl (64 * line)
  (s.fwRefused false p (64 * line) q).logErr
    { unit := 160 + t, sev := 0, type := 0x16, addr := some (64 * line), src := q.src.getD 0xFFF, sec := true }

/-- A line below the L2s: the LLC's copy, or HBM's (R286, R315). -/
def State.homeBelow (s : State) (line : Nat) (q : FwReq) (upsets : List Burst) : LineAns × State :=
  let t := homeSlice line
  match s.llcFind line with
  | some l =>
    if l.sec && !q.sec then ({ err := 3 }, s.secureHit line q)
    else
      let s := s.pmSlice t 0x01 1 q.sec
      let (r, s) := s.llcCheck l
      match r with
      | some l =>
        let y := { l with reuse := true, sec := l.sec || q.sec }
        ({ data := l.data, poison := l.poison },
         s.llcPutAll t (y :: (s.llcOf t).filter (fun z => z.line != line)))
      | none => s.hbmRead (64 * line) q upsets t
  | none => (s.pmSlice t 0x02 1 q.sec).hbmRead (64 * line) q upsets t

/-- The current data of a line at its home slice, with nothing allocated (R286, R287, R315): the copy in M, any other
copy, the LLC's, or HBM's. A secure request first retrieves the L2 copies and marks the line (R535); a line that a core
holds for its `sc` answers once that has ended (R332). -/
def State.homeData (s : State) (line : Nat) (q : FwReq) (upsets : List Burst) : LineAns × State :=
  let t := homeSlice line
  let s := ((s.unhold line q.src).pmSliceFree t 0x10 q.sec).pmSliceFree t 0x11 q.sec
  let s := if q.sec then s.recallBut line none true else s
  match s.l2Source line with
  | some h =>
    let (r, s) := ((s.pmSlice t 0x01 1 q.sec).pmSlice t 0x06 1 q.sec).l2Take h line
    match r with
    | some l => ({ data := l.data, poison := l.poison }, s.llcReuse line)
    | none => s.homeBelow line q upsets
  | none => s.homeBelow line q upsets

/-- Whether a line lies at a shadow address, where every request meets an error (R411). -/
def State.shadowLine (s : State) (line : Nat) : Bool := s.isShadow (s.hbmPlace (64 * line)).1 (s.hbmPlace (64 * line)).2

/-- The slice's counters stand still while a secure request is served there (R536). -/
def State.quietIf (s t : State) (sec : Bool) (line : Nat) : State := if sec then s.pmSliceAs t (homeSlice line) else t

/-- A read at the home slice (R286, R287, R411, R536). -/
def State.homeRead (s : State) (line : Nat) (q : FwReq) (upsets : List Burst) : LineAns × State :=
  if s.shadowLine line then ({ err := 2 }, s)
  else
    let (a, t) := s.homeData line q upsets
    (a, s.quietIf t q.sec line)

/-- Bytes of `new` over `old` where `mask` is set, one mask bit for a byte. -/
def mergeBytes (old new : LineData) (mask : BitVec 64) : Nat → LineData
  | 0 => old
  | n + 1 =>
    let r := mergeBytes old new mask n
    if mask.getLsbD n then
      (r &&& ~~~ (BitVec.ofNat 512 0xFF <<< (8 * n))) ||| (new &&& (BitVec.ofNat 512 0xFF <<< (8 * n)))
    else r

/-- A line after a masked write: a half that is wholly written loses its poison (R611). -/
def mergeLine (old new : LineData) (bad : BitVec 2) (mask : BitVec 64) : LineData × BitVec 2 :=
  let lo := mask.extractLsb' 0 32 == BitVec.allOnes 32
  let hi := mask.extractLsb' 32 32 == BitVec.allOnes 32
  (mergeBytes old new mask 64, bad &&& ~~~ (BitVec.ofBool hi ++ BitVec.ofBool lo))

/-- A write of bytes of a line at its home slice (R286, R287): every copy is retrieved and invalidated, but for the L1 line
of a writing core whose L2 is OFF (R283), reservations of other agents end, a partial write is merged with the current data; Spinner and DMA writes allocate, others do not.
The error kind, 0 where the write is performed. -/
def State.homeMergeWrite (s : State) (line : Nat) (mask : BitVec 64) (d : LineData) (q : FwReq) (alloc : Bool)
    (by_ : Option Nat) : Nat × State :=
  let t := homeSlice line
  if (s.llcFind line).any (fun l => l.sec) && !q.sec then (3, s.secureHit line q)
  else
    let (a, s) := if mask = BitVec.allOnes 64 then (({ data := 0 } : LineAns), s) else s.homeRead line q []
    if a.err ≠ 0 then (a.err, s)
    else
      let own := by_.bind (fun c => if (s.core c).l2State = 0 then some c else none)
      let s := (s.pmSliceFree t 0x10 q.sec).pmSliceFree t 0x11 q.sec
      let s := ((s.unhold line by_).recallBut line own q.sec).clearResvBut (64 * line) by_
      let (m, bad) := mergeLine a.data d a.poison mask
      let (i, s) := s.takeInj (160 + t) 0 false
      if s.flag Fld.MC_LLC_CTL_ALLOC_EN t && ((s.llcFind line).isSome || alloc) then
        (0, s.llcPut { line := line, way := 0, dirty := true, reuse := (s.llcFind line).isSome, sec := q.sec, data := m,
                       poison := bad, err := i })
      else
        let (e, s) := s.hbmWrite (64 * line) q m bad
        match s.llcFind line with
        | some o => if e = 0 then (0, s.llcPut { o with dirty := false, reuse := true, sec := o.sec || q.sec, data := m,
                                                        poison := bad })
                    else (e, s)
        | none => (e, s)

/-- A write at the home slice, where the address is no shadow (R411); for a secure request the slice counts nothing (R536). -/
def State.homeWrite (s : State) (line : Nat) (mask : BitVec 64) (d : LineData) (q : FwReq) (alloc : Bool)
    (by_ : Option Nat) : Nat × State :=
  if s.shadowLine line then (2, s)
  else
    let (e, t) := s.homeMergeWrite line mask d q alloc by_
    (e, s.quietIf t q.sec line)

/-! ## A core's requests (R283, R294, R304, R310) -/

/-- A core's read of a line: its own L2's copy, or the home slice's (R286, R304). -/
def State.coreLine (s : State) (c line : Nat) (q : FwReq) (upsets : List Burst) : LineAns × State :=
  if isRom (64 * line) then ({ data := romLine line }, s)
  else if (s.core c).l2State = 0 then s.homeRead line q upsets
  else match s.l2Find c line with
    | some x =>
      let (r, s) := s.l2Check c x
      match r with
      | some y => ({ data := y.data, poison := y.poison }, s)
      | none => s.homeRead line q upsets
    | none => s.homeRead line q upsets

/-- The entries of a directory set: the lines homed in the slice that the directory tracks (R293). -/
def State.dirEntries (s : State) (t set : Nat) : List Nat :=
  ((s.cores.map (fun e => ((e.2.l2.map (fun l => l.line)) ++ (if e.2.l2State = 0 then e.2.l1d.map Prod.fst else [])).filter
    (fun l => isHbm (64 * l) && homeSlice l == t && dirIndex l == set))).flatten).eraseDups

/-- A directory set that is full loses an entry: every copy it tracks is invalidated, one in M reaching the LLC first
(R294). Which entry goes is not stated: `victim` picks it, or a free value. An injection armed for the directory is met
here (R298, R615). -/
def State.dirMake (s : State) (line : Nat) (victim : Option Nat) : State :=
  let t := homeSlice line
  let (i, s) := s.takeInj (160 + t) 1 true
  let s := match i with
    | some _ => s.logErr { unit := 160 + t, sev := 3, type := 2, loc := dirIndex line, inj := true }
    | none => s
  let es := s.dirEntries t (dirIndex line)
  if es.length < 12 ∨ es.contains line then s
  else
    let (v, s) := match victim with
      | some v => (v, s)
      | none => (s.freeVal.1.toNat, s.freeVal.2)
    (s.recallBut (es.getD (v % es.length) 0) none false).pmSlice t 0x05 1 false

/-- A line enters a core's L2, over an invalid way or the set's least recent line, which is offered (R282, R296). -/
def State.l2Fill (s : State) (c : Nat) (x : L2Line) : State :=
  let same := (s.core c).l2.filter (fun l => l2Index l.line == l2Index x.line)
  let w := freeWay 8 (same.map (fun l => l.way))
  let s := match same.find? (fun l => l.way == w) with
    | some v => s.l2Offer c v.line
    | none => s
  s.l2Set c { x with way := w }

/-- A core obtains a line for its L2 (R288, R292, R294): for a store every other copy goes; for a load or fetch a copy
in M is written to the home slice and becomes S, as does one in E. The error kind, 0 where the line is held. -/
def State.l2Obtain (s : State) (c line : Nat) (q : FwReq) (store : Bool) (victim : Option Nat) (upsets : List Burst) :
    Nat × State :=
  match s.l2Find c line with
  | some x =>
    if store && x.st != .m then
      (0, (((s.unhold line (some c)).llcReuse line).recallBut line (some c) false).l2Set c { x with st := .e })
    else (0, s)
  | none =>
    if isRom (64 * line) then
      (0, s.l2Fill c { line := line, way := 0, st := .s, data := romLine line, poison := 0 })
    else
      let s := s.dirMake line victim
      let others := (s.sharers line).filter (· != c)
      let (a, s) := s.homeRead line q upsets
      if a.err ≠ 0 then (a.err, s)
      else
        let s := if store then s.recallBut line none false else s.shareBut line c
        (0, s.l2Fill c { line := line, way := 0, st := if store || others.isEmpty then .e else .s,
                         data := a.data, poison := a.poison })

/-! ## L1 lines (R282, R283) -/

/-- A line enters an L1 of 4 ways and 256 sets. -/
def l1Put (l : List (Nat × Nat)) (line : Nat) : List (Nat × Nat) :=
  if l.any (fun e => e.1 == line) then l
  else
    let w := freeWay 4 ((l.filter (fun e => l1Index e.1 == l1Index line)).map Prod.snd)
    (line, w) :: l.filter (fun e => !(l1Index e.1 == l1Index line && e.2 == w))

/-- An access of the kind that an armed injection awaits corrupts the line in a core's L1 (R615). -/
def State.l1Inject (s : State) (c : Nat) (data read : Bool) (line : Nat) : State :=
  let (i, s) := s.takeInj c (bit data) read
  match i with
  | some cls => s.modCore c (fun k => { k with l1Bad := (data, line, cls) :: k.l1Bad })
  | none => s

/-- The line leaves a core's L1 instruction cache, and its L1 data cache. -/
def Core.dropI (k : Core) (line : Nat) : Core := { k with l1i := k.l1i.filter (fun l => l.1 != line) }
def Core.dropD (k : Core) (line : Nat) : Core := { k with l1d := k.l1d.filter (fun l => l.1 != line) }

/-- A read of an L1 line, where the L1 holds it: an error is detected, recorded as corrected, and the line invalidated, to
be fetched again (R298, R615). Whether the L1 answers. -/
def State.l1Read (s : State) (c : Nat) (data : Bool) (line : Nat) : Bool × State :=
  let k := s.core c
  match (if data then k.l1d else k.l1i).find? (fun e => e.1 == line) with
  | none => (false, s)
  | some (_, way) =>
    let s := s.l1Inject c data true line
    match (s.core c).l1Bad.find? (fun e => e.1 == data && e.2.1 == line) with
    | none => (true, s)
    | some (_, _, cls) =>
      let s := s.modCore c (fun k =>
        let k := if data then k.dropD line else k.dropI line
        { k with l1Bad := k.l1Bad.filter (fun e => !(e.1 == data && e.2.1 == line)) })
      (false, s.logErr (cacheRec c line (bit data * 4096 + l1Index line) way cls .drop))

/-- A line put into a core's L1 is a write of the structure: what was wrong with it is gone, and an injection may strike. -/
def State.l1Written (s : State) (c : Nat) (data : Bool) (line : Nat) : State :=
  (s.modCore c (fun k => { k with l1Bad := k.l1Bad.filter (fun e => !(e.1 == data && e.2.1 == line)) })).l1Inject c data false line

/-- A core's L1 data cache takes a line, while it is enabled. -/
def State.l1dFill (s : State) (c line : Nat) : State :=
  if (s.core c).arch.csf CsFld.L1CTL_DEN = 0 then s
  else ((s.modCore c (fun k => { k with l1d := l1Put k.l1d line })).l1Written c true line).pmCore c 0x13 1

/-- A core's L1 instruction cache takes a line with its poison (R298), while it is enabled. -/
def State.l1iFill (s : State) (c line : Nat) (bad : BitVec 2) : State :=
  if (s.core c).arch.csf CsFld.L1CTL_IEN = 0 then s
  else
    let rest (k : Core) : List (Nat × BitVec 2) := k.l1iBad.filter (fun e => e.1 != line)
    ((s.modCore c (fun k => { k with
      l1i := l1Put k.l1i line, l1iBad := if bad = 0 then rest k else (line, bad) :: rest k })).l1Written c false line).pmCore c 0x12 1

/-- The poison of a line that a core's L1 instruction cache holds (R298). -/
def Core.iPoison (k : Core) (line : Nat) : BitVec 2 :=
  ((k.l1iBad.find? (fun e => e.1 == line)).map Prod.snd).getD 0

/-! ## Refills (R282 to R285) -/

/-- The line that a core's L1 data cache holds: its L2's copy, or, while the L2 is OFF, the home slice's data (R283). -/
def State.l1Line (s : State) (c line : Nat) : LineAns :=
  if isRom (64 * line) then { data := romLine line }
  else match (s.l2Find c line).or ((s.l2Source line).bind (fun h => s.l2Find h line)) with
    | some x => { data := x.data, poison := x.poison }
    | none =>
      match s.llcFind line with
      | some x => { data := x.data, poison := x.poison }
      | none => { data := s.hbmLine (s.hbmLoc (64 * line)), poison := s.rawPoison (s.hbmLoc (64 * line)) }

/-- A load's or store's request for a line that the L1 does not answer: from the own L2, or into it; while the L2 is OFF from
the home slice, every other copy becoming S. -/
def State.l2Refill (s : State) (c line : Nat) (q : FwReq) (store : Bool) (victim : Option Nat) (upsets : List Burst) :
    LineAns × State :=
  if (s.core c).l2State ≠ 0 then
    let (r, s) := s.l2Take c line
    match r with
    | some x =>
      if store then ({}, (s.l2Obtain c line q true victim upsets).2) else ({ data := x.data, poison := x.poison }, s)
    | none =>
      let (e, s) := s.l2Obtain c line q store victim upsets
      let s := s.pmCore c 0x14 1
      match s.l2Find c line with
      | some x => if e = 0 then ({ data := x.data, poison := x.poison }, s) else ({ err := e }, s)
      | none => ({ err := if e = 0 then 2 else e }, s)
  else if isRom (64 * line) then ({ data := romLine line }, s)
  else
    let s := if (s.core c).arch.csf CsFld.L1CTL_DEN = 1 then s.dirMake line victim else s
    let (a, s) := s.homeRead line q upsets
    (a, if a.err = 0 then s.shareBut line c else s)

/-- A core's load of a line of NORMAL memory: the L1 answers, or takes the line (R282, R283). -/
def State.loadLine (s : State) (c line : Nat) (q : FwReq) (victim : Option Nat) : LineAns × State :=
  let (hit, s) := s.l1Read c true line
  if hit then (s.l1Line c line, s)
  else
    let (a, s) := s.l2Refill c line q false victim []
    (a, if a.err = 0 then s.l1dFill c line else s)

/-- A core's fetch of a line of NORMAL memory: the L1 answers, or takes the line from the L2 or beyond, which the fetch does
not fill. -/
def State.fetchLine (s : State) (c line : Nat) (q : FwReq) : LineAns × State :=
  let (hit, s) := s.l1Read c false line
  if hit then ({ poison := (s.core c).iPoison line }, s)
  else
    let (a, s) := s.coreLine c line q []
    (a, if a.err = 0 then s.l1iFill c line a.poison else s)

/-- Bytes of a store that the L2 writes through to the home slice while it is CLEANING (R304). -/
def State.homeMerge (s : State) (line : Nat) (mask : BitVec 64) (d : LineData) (q : FwReq) : State :=
  let (a, s) := s.homeBelow line q []
  if a.err ≠ 0 then s
  else
    let (m, bad) := mergeLine a.data d a.poison mask
    s.toHome line m bad false

/-- A masked write of a line by a core at its point of coherence (R304, R310): in the L2 with the line in M; while the
L2 is CLEANING also at the home slice, a clean line staying clean; at the home slice while it is OFF. The core's own
reservation on the granule ends with a plain store (R328). -/
def State.coreWrite (s : State) (c line : Nat) (mask : BitVec 64) (d : LineData) (q : FwReq) : Nat × State :=
  let st := (s.core c).l2State
  if st = 0 then s.homeWrite line mask d q false (some c)
  else
    let (e, s) := s.l2Obtain c line q true none []
    if e ≠ 0 then (e, s)
    else
      let s := s.clearResvBut (64 * line) (some c)
      match s.l2Find c line with
      | none => (2, s)
      | some x =>
        let (m, bad) := mergeLine x.data d x.poison mask
        let (i, s) := s.takeInj c 2 false
        if st = 2 ∧ x.st ≠ .m then
          ((0, (s.l2Set c { x with data := m, poison := bad, err := i.or x.err, st := .e }).toHome line m bad false))
        else
          let s := if st = 2 then s.homeMerge line mask d q else s
          (0, s.l2Set c { x with data := m, poison := bad, err := i.or x.err, st := .m })

end Sys2Proof.Machine
end

