-- ==== Sys2Proof/Machine/Mem.lean ====
section
/-!
DEFINITION. Accesses to memory: by the agents outside the cores at its target, and by a core through its store buffer,
its fold and its caches (R286, R287, R310 to R325, R345 to R348, R466).

An access here lies within one 64 B line; split accesses call these operations once for each half (R233).
-/

namespace Sys2Proof.Machine

/-! ## Bytes of a line -/

/-- `n` bytes of a line from byte `off` up. -/
def lineBytes (d : LineData) (off n : Nat) : Nat := (d.toNat >>> (8 * off)) % 2 ^ (8 * n)

/-- The byte mask of `n` bytes from byte `off` up. -/
def byteMask (off n : Nat) : BitVec 64 := BitVec.ofNat 64 ((2 ^ n - 1) * 2 ^ off)

/-- A line with `n` bytes of `v` placed from byte `off` up. -/
def lineOf (off n v : Nat) : LineData := BitVec.ofNat 512 ((v % 2 ^ (8 * n)) * 2 ^ (8 * off))

/-- Whether any byte of an access lies in a poisoned half (R611). -/
def poisonHit (bad : BitVec 2) (off n : Nat) : Bool :=
  (bad.getLsbD 0 && off < 32) || (bad.getLsbD 1 && 32 < off + n)

/-- The answer a line gives to an access of some of its bytes. -/
def LineAns.bytes (a : LineAns) (pa n : Nat) : MemAns :=
  { err := a.err, val := lineBytes a.data (pa % 64) n, poison := poisonHit a.poison (pa % 64) n }

/-! ## Spinner local memories from outside (R466, R467) -/

/-- The error kind of an outside access to an engine's local memory. -/
def State.spinCheck (s : State) (src : Src) (pa : Nat) : Nat :=
  let n := (pa - spinnerBase) / 0x20000
  let own := match src with
    | .thread t => t.val / 8 == n
    | _ => false
  if !s.islOpen 21 then 2
  else if own then 0
  else if s.engineSecure n && src != .cocoon then 3
  else if s.srcSys src || src == .cocoon then 0 else 2

/-! ## Agents outside the cores (R286, R287) -/

/-- A requester's identity as the firewalls see it. -/
def State.fwReq (s : State) (src : Src) (sec : Bool) (pa : Nat) : FwReq :=
  { src := some (srcId src), sec := sec && s.accSecure src pa,
    cls := match src with
      | .thread _ => 4
      | .dma _ => 5
      | _ => 0 }

/-- Whether a requester's writes to HBM allocate in the LLC (R287, R555). -/
def srcAllocates : Src → Bool
  | .thread _ => true
  | .dma _ => true
  | .sink => true
  | _ => false

/-- A read of memory outside CSR space, at its target, within a line; `hint` is a descriptor's own page hint (R397). -/
def State.physRead (s : State) (src : Src) (sec : Bool) (pa n : Nat) (hint : Option Nat := none) : MemAns × State :=
  if isHbm pa then
    let q := s.fwReq src sec pa
    let (a, s) := s.homeRead (pa / 64) { q with cls := hint.getD q.cls } []
    (a.bytes pa n, s)
  else if isGranary pa then s.granRead src (sec && s.accSecure src pa) pa n 0
  else if isSpinnerMem pa then
    let e := s.spinCheck src pa
    ({ err := e, val := if e = 0 then s.memRead pa n else 0 }, s)
  else if isRom pa then
    ({ val := (List.range n).foldr (fun i v => (Config.coreRomByte (pa - romBase + i)).toNat + 256 * v) 0 }, s)
  else ({ err := 1 }, s)

/-- A write to memory outside CSR space, at its target: the error kind. -/
def State.physWrite (s : State) (src : Src) (sec : Bool) (pa n v : Nat) (hint : Option Nat := none) : Nat × State :=
  if isHbm pa then
    let q := s.fwReq src sec pa
    s.homeWrite (pa / 64) (byteMask (pa % 64) n) (lineOf (pa % 64) n v) { q with cls := hint.getD q.cls } (srcAllocates src) none
  else if isGranary pa then s.granWrite src (sec && s.accSecure src pa) pa n v
  else if isSpinnerMem pa then
    let e := s.spinCheck src pa
    (e, if e = 0 then s.memWrite pa n v else s)
  else (1, s)

/-- One write of masked bytes of a line's place in a bank, each word it touches as in `granStore` (R348, R418). -/
def State.granStoreMask (s : State) (src pa : Nat) (mask : BitVec 64) (d : LineData) (sec : Bool) : State :=
  let (inj, s) := s.takeInj 244 0 false
  let words := [0, 1, 2, 3, 4, 5, 6, 7].filter (fun w => mask.toNat / 2 ^ (8 * w) % 256 != 0)
  let s := words.foldl (fun (s : State) w =>
    (s.granWord src (pa + 8 * w) (mask.toNat / 2 ^ (8 * w) % 256 == 255) sec).memWrite (pa + 8 * w) 8
      (lineBytes (mergeBytes (BitVec.ofNat 512 (s.memRead pa 64)) d mask 64) (8 * w) 8)) s
  s.granStrike inj (pa + 8 * words.headD 0)

/-- One write of a core of masked bytes of a line outside CSR space: the error kind (R348). -/
def State.physWriteMask (s : State) (c : CoreId) (line : Nat) (mask : BitVec 64) (d : LineData) : Nat × State :=
  let pa := 64 * line
  if isGranary pa then
    let (e, s) := s.granCheck (.core c) false pa true
    (e, if e = 0 then s.granStoreMask c.val pa mask d false else s)
  else if isSpinnerMem pa then
    let e := s.spinCheck (.core c) pa
    (e, if e = 0 then s.memWrite pa 64 (lineBytes (mergeBytes (BitVec.ofNat 512 (s.memRead pa 64)) d mask 64) 0 64) else s)
  else (1, s)

/-- A byte of HBM as every agent sees it: the copy in M, any other L2 copy, the LLC's, or the stack's (R315). -/
def State.peekByte (s : State) (a : Nat) : Byte :=
  let line := a / 64
  let pick (d : LineData) : Byte := BitVec.ofNat 8 (lineBytes d (a % 64) 1)
  if isHbm a then
    match (s.l2Source line).bind (fun c => s.l2Find c line) with
    | some l => pick l.data
    | none =>
      match s.llcFind line with
      | some l => pick l.data
      | none => BMap.get s.mem (s.hbmLoc a)
  else BMap.get s.mem a

/-! ## The store buffer (R310, R322 to R326) -/

/-- Whether two byte ranges overlap, and whether the first covers the second. -/
def overlaps (a n b m : Nat) : Bool := a < b + m && b < a + n
def covers (a n b m : Nat) : Bool := a ≤ b && b + m ≤ a + n

/-- A retired store that meets an error when it is performed (R236): recorded, and a machine check to the core. -/
def State.lateStore (s : State) (c e pa : Nat) : State :=
  if e = 0 then s
  else s.logErr { unit := c, sev := 2, type := 0x07, addr := some pa, src := c, data := [if e = 3 then 2 else 1] }

/-- Whether the core is a member of an active group whose work is checked. -/
def State.inGroup (s : State) (c : Nat) : Bool := (s.groupOf c).isSome

/-- A NORMAL_NC store at its target (R286, R321). -/
def State.physWriteCore (s : State) (c a n v : Nat) : Nat × State :=
  if isHbm a then
    s.homeWrite (a / 64) (byteMask (a % 64) n) (lineOf (a % 64) n v) { src := some c, sec := false, cls := 3 } false (some c)
  else if h : c < 160 then s.physWrite (.core ⟨c, h⟩) false a n v
  else (1, s)

/-- Bytes of an entry are performed at their point of coherence (R310). -/
def State.sbPut (s : State) (c kind a n v : Nat) : State :=
  let (k, s) :=
    if !(kind == 0 && isHbm a) then s.physWriteCore c a n v
    else s.coreWrite c (a / 64) (byteMask (a % 64) n) (lineOf (a % 64) n v) { src := some c, sec := false }
  s.lateStore c k a

/-- What is left of an entry is performed: all of it, or the words of a store of 32 bytes that remain. -/
def State.sbWrite (s : State) (c : Nat) (e : SbEntry) : State :=
  if e.words.isEmpty then s.sbPut c e.kind e.addr e.size e.data.toNat
  else e.words.foldl (fun s o => s.sbPut c e.kind (e.addr + o) 8 (e.data.toNat / 2 ^ (8 * o))) s

/-- Whether an access overlaps bytes of an entry that are not yet performed, and whether they cover it. -/
def SbEntry.meets (e : SbEntry) (pa n : Nat) : Bool :=
  if e.words.isEmpty then overlaps e.addr e.size pa n else e.words.any (fun o => overlaps (e.addr + o) 8 pa n)
def SbEntry.holds (e : SbEntry) (pa n : Nat) : Bool :=
  covers e.addr e.size pa n &&
  (e.words.isEmpty || [0, 8, 16, 24].all (fun o => e.words.contains o || !overlaps (e.addr + o) 8 pa n))

/-- Entry `i` may be performed now: no older entry overlaps it (R322), and it is not the high half of a split store whose
low half is still in the buffer, next before it (R236). -/
def sbReady (sb : List SbEntry) (i : Nat) : Bool :=
  match sb[i]? with
  | some e =>
    (sb.take i).all (fun o => !overlaps o.addr o.size e.addr e.size) &&
    !(e.half == 2 && i != 0 && (sb[i - 1]?).any (fun o => o.half == 1))
  | none => false

/-- Perform entry `i` and take it out of the buffer. -/
def State.sbPerform (s : State) (c i : Nat) : State :=
  match (s.core c).sb[i]? with
  | some e => (s.modCore c (fun k => { k with sb := k.sb.eraseIdx i })).sbWrite c e
  | none => s

/-- Perform the oldest `n` entries in order. -/
def State.sbPerformN (s : State) (c : Nat) : Nat → State
  | 0 => s
  | n + 1 => (s.sbPerform c 0).sbPerformN c n

/-- Perform every retired store of a core (R247, R316, R324). -/
def State.drainSb (s : State) (c : Nat) : State := s.sbPerformN c (s.core c).sb.length

/-- A store of the buffer cannot be performed now: another core holds its line for its `sc` (R332). -/
def State.drainBlocked (s : State) (c : Nat) : Bool :=
  (s.core c).sb.any (fun e => isHbm e.addr && s.heldAgainst (e.addr / 64) (some c))

/-- The youngest entry that overlaps an access, by index. -/
def sbYoungest (sb : List SbEntry) (pa n : Nat) : Option Nat :=
  ((List.range sb.length).filter (fun i => (sb[i]?).any (fun e => e.meets pa n))).getLast?

/-- How many of the oldest entries are performed before a load of these bytes that none of them covers (R323). -/
def sbFirst (sb : List SbEntry) (pa n : Nat) : Nat :=
  match sbYoungest sb pa n with
  | some i => if (sb[i]?).any (fun e => e.holds pa n) then 0 else i + 1
  | none => 0

/-- Of the oldest `n` entries one cannot be performed now: another core holds its line for its `sc` (R332). -/
def State.oldestHeld (s : State) (c n : Nat) : Bool :=
  ((s.core c).sb.take n).any (fun e => isHbm e.addr && s.heldAgainst (e.addr / 64) (some c))

/-! ## The fold (R345 to R348) -/

/-- The youngest entry of a store's line in its epoch. -/
def foldPlace (f : List FoldEntry) (x : FoldEntry) : Option Nat :=
  ((List.range f.length).filter (fun i => (f[i]?).any (fun e => e.line == x.line && e.epoch == x.epoch))).getLast?

/-- A store enters the fold: into the entry of its line in the current half and epoch, the youngest where there are several,
or, for the half of a split store and where there is none, a new entry (R346). -/
def foldPut (f : List FoldEntry) (x : FoldEntry) (fresh : Bool) : List FoldEntry :=
  match if fresh then none else foldPlace f x with
  | some i => f.modify i (fun e => { e with mask := e.mask ||| x.mask, data := mergeBytes e.data x.data x.mask 64 })
  | none => f ++ [x]

/-- How many entries of the current half a list of stores would need (R342). -/
def foldNeeds (f : List FoldEntry) (xs : List FoldEntry) (fresh : Bool) : Nat :=
  (xs.foldl (fun f x => foldPut f x fresh) f).length

/-- A line with a fold half's bytes over it, the youngest entry last (R347). -/
def foldOver (f : List FoldEntry) (line : Nat) (d : LineData) : LineData :=
  f.foldl (fun d e => if e.line = line then mergeBytes d e.data e.mask 64 else d) d

/-- The bytes of a line that a fold half holds. -/
def foldMask (f : List FoldEntry) (line : Nat) : BitVec 64 :=
  f.foldl (fun m e => if e.line = line then m ||| e.mask else m) 0

/-! ## A core's loads (R286, R313, R315, R323, R347) -/

/-- The load's value with nothing of the store buffer overlapping it. -/
def State.coreTarget (s : State) (c : Nat) (nc : Bool) (pa n : Nat) (q : FwReq) : MemAns × State :=
  let m := (s.core c).mem
  let line := pa / 64
  let held := if s.inGroup c then foldMask m.openF line ||| foldMask m.closedF line else 0
  let want := byteMask (pa % 64) n
  let merged (d : LineData) : LineData := foldOver m.openF line (foldOver m.closedF line d)
  if held &&& want = want ∧ want ≠ 0 then ({ val := lineBytes (merged 0) (pa % 64) n }, s)
  else if isHbm pa || (isRom pa && !nc) then
    let (a, s) := if nc then s.homeRead line { q with cls := 3 } [] else s.loadLine c line q none
    let d := if held = 0 then a.data else merged a.data
    ({ a with data := d }.bytes pa n, s)
  else if h : c < 160 then
    let (a, s) := s.physRead (.core ⟨c, h⟩) false pa n
    if a.err = 0 ∧ held ≠ 0 then
      ({ a with val := lineBytes (merged (lineOf (pa % 64) n a.val)) (pa % 64) n }, s)
    else (a, s)
  else ({ err := 1 }, s)

/-- A core's load of normal memory: from the youngest store that covers it, or, once every store that overlaps it in
part has been performed, from the fold, the caches or the target. `nc` is the NORMAL_NC type. -/
def State.coreLoad (s : State) (c : Nat) (nc : Bool) (pa n : Nat) (q : FwReq) : MemAns × State :=
  let sb := (s.core c).sb
  match sbYoungest sb pa n with
  | some i =>
    match sb[i]? with
    | some e =>
      if e.holds pa n then
        ({ val := (e.data.toNat >>> (8 * (pa - e.addr))) % 2 ^ (8 * n) }, s)
      else
        let s := s.sbPerformN c (i + 1)
        s.coreTarget c nc pa n q
    | none => s.coreTarget c nc pa n q
  | none => s.coreTarget c nc pa n q
/-- A core's own identity at the firewalls. -/
def coreReq (c : Nat) : FwReq := { src := some c, sec := false }

/-- The fold entry of a store. -/
def foldEntry (pa n v epoch : Nat) (nc : Bool := false) : FoldEntry :=
  ⟨pa / 64, byteMask (pa % 64) n, lineOf (pa % 64) n v, epoch, nc⟩

/-! ## Loads ahead of their order (R314) -/

/-- Nothing that a core has read ahead serves a load any longer. -/
def Core.noEarly (k : Core) : Core := { k with early := [], clock := 0, rtime := [], flTime := 0, rdTime := 0 }

/-- The same, in the state. -/
def State.endEarly (s : State) (c : Nat) : State :=
  if (s.core c).early.isEmpty then s else s.modCore c Core.noEarly

/-- An access of a core to bytes of a line comes between what was read ahead and every younger load of those bytes. -/
def State.earlyLess (s : State) (c pa n : Nat) : State :=
  if (s.core c).early.all (fun x => x.line != pa / 64) then s
  else s.modCore c (fun k =>
    let l := (k.early.map (fun x => if x.line = pa / 64 then { x with mask := x.mask &&& ~~~ (byteMask (pa % 64) n) } else x)).filter
      (fun x => x.mask != 0)
    if l.isEmpty then k.noEarly else { k with early := l })

/-- A retired store of a core: into its store buffer, or, for a member of a group, into its fold, which other agents see
once the instar's fold drains (R310, R317, R346); a full
buffer performs its oldest entry first (R322); the store ends the core's own reservation on the granule (R328). -/
def State.coreStore (s : State) (c : Nat) (nc : Bool) (pa n v : Nat) (half : Nat := 0) (fresh : Bool := half != 0) : State :=
  let s := (s.modCore c (fun k => { k with resv := if k.resv.any (fun r => r.granule == pa / 128) then none else k.resv })).earlyLess
    c pa n
  if s.inGroup c then
    s.modCore c (fun k => { k with mem := { k.mem with
      openF := foldPut k.mem.openF (foldEntry pa n v k.mem.epoch nc) fresh } })
  else
    let s := if (s.core c).sb.length < 56 then s else s.sbPerform c 0
    s.modCore c (fun k => { k with sb := k.sb ++ [⟨bit nc, pa, n, BitVec.ofNat 256 v, half,
      if n = 32 ∧ half = 0 then [0, 8, 16, 24] else []⟩] })

/-- Part of entry `i` is performed: all of it, or one of the words that remain of a store of 32 bytes, a free value deciding
which (R312). -/
def State.sbPerformPart (s : State) (c i : Nat) : State :=
  match (s.core c).sb[i]? with
  | some e =>
    if e.words.length ≤ 1 then s.sbPerform c i
    else
      let (v, s) := s.freeVal
      let o := e.words.getD (v.toNat % e.words.length) 0
      (s.modCore c (fun k => { k with sb := k.sb.set i { e with words := e.words.erase o } })).sbPut c e.kind (e.addr + o) 8
        (e.data.toNat / 2 ^ (8 * o))
  | none => s

/-- STORE_PERFORM: entry `i` of a core's store buffer is performed, unless an older entry overlaps it or another core
holds the line for its `sc` (R322, R332); of an aligned store of 32 bytes one word, each of them atomic alone (R312). -/
def execStorePerform (c : CoreId) (i : Nat) (s : State) : Result :=
  let k := s.core c.val
  match k.sb[i]? with
  | some e =>
    .next (if s.islOpen (coreIsland c.val) && sbReady k.sb i && !s.heldAgainst (e.addr / 64) (some c.val)
           then s.sbPerformPart c.val i else s)
  | none => .next s

end Sys2Proof.Machine
end

