-- ==== Sys2Proof/Machine/AddrMap.lean ====
section
/-!
DEFINITION. The address map of CSR space (R19, R22): from an address to the register and instance that lie there.
-/

namespace Sys2Proof.Machine

/-- The instance that an offset names under a register's strides, outer first; none between instances. -/
def instOf (dims : List (Nat × Nat)) (off inst : Nat) : Option Nat :=
  match dims with
  | [] => if off = 0 then some inst else none
  | (n, st) :: r => if off / st < n then instOf r (off % st) (inst * n + off / st) else none

/-- The register at an address of CSR space. -/
def Reg.decode (a : Nat) : Option (Reg × Nat) :=
  Reg.all.findSome? (fun r =>
    if r.base ≤ a ∧ r.base ≠ 0 then (instOf r.dims (a - r.base) 0).map (fun i => (r, i)) else none)

/-- The value of a word that a write of `v` to an XRW register by a source that may not use it leaves in the fields. -/
def withoutXrw (fs : List Fld) (old v : Word) : Word := writeFields false false fs old v

/-- The window of CSR space a register lies in: 0 PW, 1 TB, 2 RV, 3 CG, 4 IC, 5 MC, 6 GR, 7 PT and SP, 8 QE, 9 CK,
10 TR, 11 PM, 12 ER, 13 BT (R22). -/
def Reg.window (r : Reg) : Nat := (r.base - 0xFE00000000) / 0x1000000

/-- The last address at which a register has an instance. -/
def Reg.last (r : Reg) : Nat := r.dims.foldl (fun a d => a + (d.1 - 1) * d.2) r.base

/-- Whether the 64 KiB instance block of a CSR address holds any register: outside these, CSR space is unmapped (R20, R22).
No stride is above 64 KiB, so a register lies in every block from its first instance's to its last's. -/
def csrMapped (a : Nat) : Bool :=
  Reg.all.any (fun r => r.base != 0 && r.base / 65536 ≤ a / 65536 && a / 65536 ≤ r.last / 65536)

end Sys2Proof.Machine
end

