-- ==== Sys2Proof/Machine/HbmCmd.lean ====
section
/-!
DEFINITION. The commands of the HBM controllers and stacks (chapter 16): states, requests, refresh, power-down, scrub,
injection, training primitives, mirrored regions and the stack services.
-/

namespace Sys2Proof.Machine

/-! ## Register writes (R392, R393, R401) -/

/-- Who may write the XRW fields of MC_ instances 0 to 67 (R393). -/
def mcTrainer (src : Src) : Bool := src == .reeve || src == .jtag

/-- Who may write the map block (R393). -/
def State.mcMapper (s : State) (src : Src) : Bool := s.srcSys src || src == .cocoon

/-- The status of a write to a controller's or a stack's block. -/
def State.pcStatus (s : State) (p st : Nat) : State := s.setFld Fld.MC_PCSTAT_LAST_STATUS p st
def State.stkStatus (s : State) (k st : Nat) : State := s.setFld Fld.MC_STK_LAST_STATUS k st

/-- A write to a register by its access codes, with the XRW fields kept from a source that may not write them; whether
every field took its value. A unit that is not OPEN sets DENIED for any source (R13). -/
def State.mcWrite (s : State) (r : Reg) (i : Nat) (src : Src) (v : Word) : Bool × State :=
  let xrw := r.fields.any (fun f => f.acc == .xrw)
  if mcTrainer src then (!xrw || s.gateOpen r i, s.codeWrite r i v)
  else
    let t := s.csrSet r i (withoutXrw r.fields (s.csrGet r i) v)
    (!xrw, if xrw && !s.gateOpen r i then t.gateDeny r i else t)

/-- The status a write earns. -/
def okDenied (ok : Bool) : Nat := if ok then stOk else stDenied

/-- A write to a register of a controller's block that no rule treats apart. -/
def State.pcWrite (s : State) (r : Reg) (p : Nat) (src : Src) (v : Word) : State :=
  let (ok, s) := s.mcWrite r p src v
  s.pcStatus p (okDenied ok)

/-- A write to a register of a stack block that no rule treats apart. -/
def State.stkWrite (s : State) (r : Reg) (i k : Nat) (src : Src) (v : Word) : State :=
  let (ok, s) := s.mcWrite r i src v
  s.stkStatus k (okDenied ok)

/-- Whether a controller is in TRAIN. -/
def State.hbmTrain (s : State) (p : Nat) : Bool := s.fld Fld.MC_PCSTAT_STATE p == 1

/-- A controller enters a state (R392): requests that it has accepted complete first, and its rows close; one whose stack is
OFF holds nothing. A state that it is in already stays as it is. -/
def State.pcEnter (s : State) (p st : Nat) : State :=
  if s.fld Fld.MC_PCSTAT_STATE p = st then s
  else
    ((s.hbmDrain p).setFld Fld.MC_PCSTAT_STATE p st).modHctl p (fun h =>
      { h with openRow := [], lanes := if st = 0 then [] else h.lanes })

/-- A write to MC_PCCTL (R392, R393). -/
def State.pcctlWrite (s : State) (p : Nat) (src : Src) (v : Word) : State :=
  let want := Fld.MC_PCCTL_SETSTATE.of v
  let may := mcTrainer src && s.gateOpen .MC_PCCTL p
  let (ok, t) := s.mcWrite .MC_PCCTL p src v
  if !may ∨ want = 0 ∨ want = 3 then t.pcStatus p (okDenied ok)
  else if s.fld Fld.MC_PCSTAT_STATE p = 0 then s.pcStatus p stBusy
  else (t.pcEnter p want).pcStatus p stOk

/-- SETSTATE_TRAIN (R392). -/
def execSetstateTrain (src : Src) (p : PcId) (v : Word) (s : State) : Result :=
  .next (s.csrPort src .MC_PCCTL p.val (fun s => s.pcctlWrite p.val src (withBits v 1 0 1)))

/-- SETSTATE_RUN (R392). -/
def execSetstateRun (src : Src) (p : PcId) (v : Word) (s : State) : Result :=
  .next (s.csrPort src .MC_PCCTL p.val (fun s => s.pcctlWrite p.val src (withBits v 1 0 2)))

/-- A write to MC_ILV (R391, R393). -/
def State.ilvWrite (s : State) (src : Src) (v : Word) : State :=
  if !s.mcMapper src then s
  else if (List.range 64).any s.hbmRun then s.setFld Fld.MC_ILV_LAST_STATUS 0 stBusy
  else (s.codeWrite .MC_ILV 0 v).setFld Fld.MC_ILV_LAST_STATUS 0 stOk

/-- INTERLEAVE_WRITE (R391). -/
def execInterleaveWrite (src : Src) (v : Word) (s : State) : Result :=
  .next (s.csrPort src .MC_ILV 0 (fun s => s.ilvWrite src v))

/-- A write to MC_SCRUB: PERIOD outside its range is stored as the nearer limit (R416). -/
def State.scrubWrite (s : State) (p : Nat) (src : Src) (v : Word) : State :=
  let s := s.pcWrite .MC_SCRUB p src v
  s.setFld Fld.MC_SCRUB_PERIOD p (clampNat 1 168 (Fld.MC_SCRUB_PERIOD.of v))

/-- HBM_INJECTION_ARM: a write to MC_INJ (R410). -/
def execHbmInjectionArm (src : Src) (p : PcId) (v : Word) (s : State) : Result :=
  .next (s.csrPort src .MC_INJ p.val (fun s => s.pcWrite .MC_INJ p.val src v))

/-- A write to the stack's timing registers: while every controller of the stack is in TRAIN (R401). -/
def State.timWrite (s : State) (r : Reg) (k : Nat) (src : Src) (v : Word) : State :=
  if (List.range 16).all (fun q => s.hbmTrain (16 * k + q)) then s.stkWrite r k k src v else s.stkStatus k stBusy

/-- A stack's contents are lost: it reads as zeros, without errors (R400). -/
def State.stackClear (s : State) (k : Nat) : State :=
  let inStack (a : Nat) : Bool := decide (k * 0x600000000 ≤ a) && decide (a < (k + 1) * 0x600000000)
  { s with mem := BMap.dropIf s.mem inStack
           hbmBad := FMap.dropIf s.hbmBad (fun l => inStack (64 * l))
           hbmSym := FMap.dropIf s.hbmSym (fun b => inStack (32 * b)) }

/-- The ports of a stack. -/
def State.stackPort (s : State) (k : Nat) : StackPort := FMap.get s.stkPort {} k
def State.modPort1500 (s : State) (k : Nat) (f : StackPort → StackPort) : State :=
  { s with stkPort := FMap.set s.stkPort k (f (s.stackPort k)) }

/-- A write to MC_STK: PWR set takes the controllers from OFF to TRAIN, PWR cleared takes them to OFF and loses the
stack's contents (R392, R400). -/
def State.stkPower (s : State) (k : Nat) (on : Bool) : State :=
  if on = s.flag Fld.MC_STK_PWR k then s
  else
    let s := s.setFld Fld.MC_STK_PWR k (bit on)
    let s := (List.range 16).foldl (fun s q => s.pcEnter (16 * k + q) (bit on)) s
    if on then s else (s.stackClear k).modPort1500 k (fun _ => {})

def State.stkCtlWrite (s : State) (k : Nat) (src : Src) (v : Word) : State :=
  let may := mcTrainer src && s.gateOpen .MC_STK k
  let s := if may then s.stkPower k (Fld.MC_STK_PWR.of v == 1) else s
  s.stkWrite .MC_STK k k src v

/-- A write to a training register by its address (R401). DESIGN CHOICE (log 329): the state of TRAIN is judged before the
unlock, so that a write that both refuse answers BUSY and sets no DENIED; the spec orders the two nowhere. -/
def State.trainWrite (s : State) (r : Reg) (i : Nat) (src : Src) (v : Word) : State :=
  match r with
  | .MC_LDLY =>
    let k := i / 1280
    if s.hbmTrain (16 * k + i / 80 % 16) then s.stkWrite r i k src v else s.stkStatus k stBusy
  | .MC_CDLY =>
    let k := i / 8
    let p := 16 * k + 2 * (i % 8)
    if s.hbmTrain p && s.hbmTrain (p + 1) then s.stkWrite r i k src v else s.stkStatus k stBusy
  | .MC_TIM0 => s.timWrite r i src v
  | .MC_TIM1 => s.timWrite r i src v
  | .MC_1500D => s.stkWrite r i i src v
  | .MC_STK => s.stkCtlWrite i src v
  | .MC_PGADDR => s.pcWrite r i src v
  | .MC_PATD => s.pcWrite r i src v
  | .MC_LERR => s.pcWrite r i src v
  | .MC_LERRX => s.pcWrite r i src v
  | .MC_PCSTAT => s.pcWrite r i src v
  | .MC_MISR => s.pcWrite r i src v
  | .MC_MISRX => s.pcWrite r i src v
  | _ => s

/-- TRAINING_REGISTER_WRITE: a write to the delay, timing, pattern and error registers of training (R401). -/
def execTrainingRegisterWrite (src : Src) (addr : PA) (v : Word) (s : State) : Result :=
  match Reg.decode addr.toNat with
  | some (r, i) =>
    .next (if r.window = 5 then s.csrPort src r i (fun s => s.trainWrite r i src v) else s)
  | none => .next s

/-! ## Requests, rows, refresh and power-down (R395 to R399) -/

/-- HBM_REQUEST: a request of a line by a requester, ordered at its home slice and performed there or in the DRAM;
`upsets` are the bits that a read of the DRAM finds wrong in the two bursts, then in the two of a mirrored region's alternate
copy (R395, R406, R407, R412). -/
def execHbmRequest (src : Src) (line : PA) (write : Bool) (data : BitVec 512) (upsets : List Burst) (s : State) : Result :=
  let a := line.toNat / 64
  if !s.srcLive src || !isHbm line.toNat then .next s
  else if write then
    let (e, s) := s.homeWrite a (BitVec.allOnes 64) data (s.fwReq src true (64 * a)) (srcAllocates src) none
    .next (if e = 0 then s.reply 0 else s.replyErr)
  else
    let (r, s) := s.homeRead a (s.fwReq src true (64 * a)) upsets
    .next (if r.err = 0 then s.reply (r.data.truncate 256) else s.replyErr)

/-- PAGE_TIMEOUT: the open row of a bank is precharged (R397). -/
def execPageTimeout (p : PcId) (bank : Fin 48) (s : State) : Result :=
  .next (if FMap.get (s.hctl p.val).openRow 0 bank.val = 0 then s
    else s.modHctl p.val (fun h => { h with openRow := FMap.set h.openRow bank.val 0 }))

/-- Close the rows of a SID, or of one of its banks. -/
def State.closeRows (s : State) (p sid : Nat) (bank : Option Nat) : State :=
  s.modHctl p (fun h => { h with openRow := FMap.dropIf h.openRow (fun k =>
    match bank with
    | some b => k == 16 * sid + b
    | none => k / 16 == sid) })

/-- Per-bank mode, REFMODE = 1 (R398). -/
def State.perBank (s : State) (p : Nat) : Bool := s.flag Fld.MC_STK_REFMODE (p / 16)

/-- `n` refreshes of a SID: each of all its banks, or, in per-bank mode, of one bank after another in bank-number order
(R398). -/
def State.refresh (s : State) (p sid : Nat) : Nat → State
  | 0 => s
  | n + 1 =>
    let s := s.pmHbm p 0x05 1 false
    let b := FMap.get (s.hctl p).refNext 0 sid % 16
    (if s.perBank p then
      (s.closeRows p sid (some b)).modHctl p (fun h => { h with refNext := FMap.set h.refNext sid ((b + 1) % 16) })
     else s.closeRows p sid none).refresh p sid n

/-- REFRESH_DUE: a refresh of a SID falls due, one in an interval, or one of its sixteen in per-bank mode; while requests wait
the controller may postpone it, up to 8 intervals, and a ninth is forced (R398). Whether it does is its own choice:
`waiting`. Those postponed are made up once no request waits, or it postpones no more. -/
def execRefreshDue (p : PcId) (sid : Fin 3) (waiting : Bool) (s : State) : Result :=
  let n := FMap.get (s.hctl p.val).postponed 0 sid.val
  let most := if s.perBank p.val then 128 else 8
  let busy := waiting && !(s.hctl p.val).queue.isEmpty
  let put (s : State) (n : Nat) : State :=
    s.modHctl p.val (fun h => { h with postponed := FMap.set h.postponed sid.val n })
  .next (if s.fld Fld.MC_PCSTAT_STATE p.val = 0 then s
    else if busy && n < most then put s (n + 1)
    else if busy then s.refresh p.val sid.val 1
    else put (s.refresh p.val sid.val (n + 1)) 0)

/-- STACK_TEMP_POLL: the stack block reads its temperature through the 1500 port, once the port is free (R398). -/
def execStackTempPoll (st : StackId) (temp : Int) (s : State) : Result :=
  let k := st.val
  let scale := if temp < 85 then 0 else if temp < 95 then 1 else 2
  .next (if !s.flag Fld.MC_STK_PWR k || s.flag Fld.MC_1500_BUSY k then s
    else
      let old := s.fld Fld.MC_STK_REFSCALE k
      let s := (s.setFld Fld.MC_STK_TEMP k (encSigned 8 temp)).setFld Fld.MC_STK_REFSCALE k scale
      if scale = 2 ∧ old ≠ 2 then
        s.logErr { unit := 240 + k, sev := 0, type := 0x15, loc := k, data := [encSigned 64 temp] }
      else s)

/-- RANK_IDLE: a SID with no request is rank-idle; with all six SIDs of the channel idle, the channel enters power-down (R399). -/
def execRankIdle (p : PcId) (sid : Fin 3) (s : State) : Result :=
  .next (if !s.hbmRun p.val || (s.hctl p.val).queue.any (fun x => x.bank / 16 == sid.val) then s
    else
      let s := s.setFld Fld.MC_PCSTAT_SIDIDLE p.val (s.fld Fld.MC_PCSTAT_SIDIDLE p.val ||| 2 ^ sid.val)
      let s := s.closeRows p.val sid.val none
      if s.fld Fld.MC_PCSTAT_SIDIDLE p.val = 7 ∧ s.fld Fld.MC_PCSTAT_SIDIDLE (p.val ^^^ 1) = 7 then
        (s.setFld Fld.MC_PCSTAT_PD p.val 1).setFld Fld.MC_PCSTAT_PD (p.val ^^^ 1) 1
      else s)

/-! ## Patrol scrub (R409) -/

/-- The stack address of a pseudo-channel address. -/
def pcaToSa (p pca : Nat) : Nat := pca / 256 * 4096 + p % 16 * 256 + pca % 256

/-- Lines of 64 B in a pseudo-channel (R389). -/
def pcLines : Nat := 25165824

/-- Scrub reads one burst, `x` wrong beside what is wrong there: what it corrects waits to be written back, and what it cannot
is stored as poison and counted (R408, R409). -/
def State.scrubBurst (s : State) (p pa loc : Nat) (x : Burst) : State :=
  let d := s.burstAt loc
  let e := d.2 ^^^ x
  if s.burstBad loc then s
  else
    let (b, s) := s.hbmBurst p (hbmPca (loc % 0x600000000)) pa e false false false
    if b then (s.burstStore loc d.1 true).satField Fld.MC_ECC_PSN_CNT p
    else if symCount e = 1 then s.modHctl p (fun h => { h with wb := h.wb.filter (· != loc) ++ [loc] })
    else s

/-- PATROL_SCRUB_READ: the next line is read, after every request that waits; corrected data is queued for write-back, and an uncorrectable burst is
stored as poison (R408, R409). -/
def execPatrolScrubRead (p : PcId) (upsets : List Burst) (s : State) : Result :=
  .next (if !s.hbmRun p.val || !s.flag Fld.MC_SCRUB_EN p.val then s
    else
      let q := p.val
      let n := (s.hctl q).scrub
      let pca := 64 * n
      let sa := pcaToSa q pca
      let loc := q / 16 * 0x600000000 + sa
      let pa := s.hbmAddr (q / 16) sa
      let x := hbmReq loc pca false false false
      let s := (((s.hbmDrain q).pmHbm q 0x08 1 false).hbmWake q (pcaSid pca)).hbmCountRow q x
      let s := s.modHctl q (fun h => h.access x)
      let s := (s.scrubBurst q pa loc (upsets.getD 0 0)).scrubBurst q (pa + 32) (loc + 32) (upsets.getD 1 0)
      let n' := if n + 1 = pcLines then 0 else n + 1
      (s.modHctl q (fun h => { h with scrub := n' })).setFld Fld.MC_SCRUB_POS q (n' / 1024))

/-- ECC_WRITEBACK: the oldest corrected burst that waits is written back (R409). -/
def execEccWriteback (p : PcId) (s : State) : Result :=
  match (s.hctl p.val).wb with
  | [] => .next s
  | loc :: r =>
    .next (if !s.hbmRun p.val then s
      else ((s.pmHbm p.val 0x02 1 false).modHctl p.val (fun h => { h with wb := r })).burstStore loc (s.burstAt loc).1
        (s.burstBad loc))

/-! ## Pattern runs (R402, R403) -/

/-- Bit 14 of the PRBS-15 register of a lane at beat `b` (R402). -/
def prbsStep (r : Nat) : Nat := (r * 2) % 2 ^ 15 + (r / 2 ^ 14 + r / 2 ^ 13) % 2

def prbsAt (r : Nat) : Nat → Nat
  | 0 => r
  | n + 1 => prbsAt (prbsStep r) n

/-- The datum of a pattern on lane `l` in beat `b` of the run (R402). -/
def State.patBit (s : State) (p pat b l : Nat) : Bool :=
  match pat with
  | 0 => b % 2 == 1
  | 1 => prbsAt (l + 1) b / 2 ^ 14 % 2 == 1
  | 2 => l == b % 80
  | _ => (s.csrGet .MC_PATD p).getLsbD (l % 64)

/-- A beat of a pattern: bit L for lane L. -/
def State.patBeat (s : State) (p pat b : Nat) : BitVec 80 :=
  BitVec.ofNat 80 ((List.range 80).foldl (fun n l => if s.patBit p pat b l then n + 2 ^ l else n) 0)

/-- The burst a run reaches after `k` bursts: COL counts, then BANK, then ROW (R402); as its PCA. -/
def burstPca (sid row bank col k : Nat) : Nat :=
  let n := (row * 16 + bank) * 32 + col + k
  let r := n / 512 % 2 ^ 15
  let b := n / 32 % 16
  sid * 2 ^ 29 + r * 2 ^ 14 + (b ^^^ (r % 16)) * 2 ^ 10 + n % 32 * 32

/-- The place of burst `k` of the run that MC_PGADDR starts. -/
def State.runPca (s : State) (p k : Nat) : Nat :=
  burstPca (s.fld Fld.MC_PGADDR_SID p) (s.fld Fld.MC_PGADDR_ROW p) (s.fld Fld.MC_PGADDR_BANK p)
    (s.fld Fld.MC_PGADDR_COL p) k

/-- Burst `k` of the run lies in the stack: its SID is one of the three (R389). -/
def State.runIn (s : State) (p k : Nat) : Bool := s.runPca p k / 2 ^ 29 < 3

/-- Write burst `k` of the pattern: DQ lanes to the stack's contents, beat b in bytes 8b to 8b + 7 of the burst, and the
other lanes beside them. At a SID that the stack lacks nothing is written. -/
def State.patWriteBurst (s : State) (p pat k : Nat) : State :=
  let loc := p / 16 * 0x600000000 + pcaToSa p (s.runPca p k)
  let w (j : Nat) : BitVec 80 := s.patBeat p pat (4 * k + j)
  let data := (w 0).toNat % 2 ^ 64 + (w 1).toNat % 2 ^ 64 * 2 ^ 64 + (w 2).toNat % 2 ^ 64 * 2 ^ 128 +
    (w 3).toNat % 2 ^ 64 * 2 ^ 192
  let hi := (w 0).toNat / 2 ^ 64 + (w 1).toNat / 2 ^ 64 * 2 ^ 16 + (w 2).toNat / 2 ^ 64 * 2 ^ 32 +
    (w 3).toNat / 2 ^ 64 * 2 ^ 48
  if !s.runIn p k then s
  else (s.burstStore loc (BitVec.ofNat 256 data) false).modHctl p (fun h =>
    { h with lanes := FMap.set h.lanes (s.runPca p k / 32) (BitVec.ofNat 64 hi), wb := h.wb.filter (· != loc) })

/-- Beat `j` of the bits of a burst that are wrong, over its 80 lanes. -/
def wrongBeat (e : Burst) (j : Nat) : BitVec 80 :=
  BitVec.ofNat 80 ((List.range 72).foldl (fun n l => if e.getLsbD (4 * l + j) then n + 2 ^ l else n) 0)

/-- Beat `j` of burst `k` as received: what the stack holds, what an injection left wrong in it with it (R410), with the lanes
of `bad` inverted. Lanes 64 to 79 of a burst that no run has written, and all lanes at a SID that the stack lacks, hold a
value the spec does not give. -/
def State.rxBeat (s : State) (p k j : Nat) (bad : BitVec 80) : BitVec 80 × State :=
  let loc := p / 16 * 0x600000000 + pcaToSa p (s.runPca p k)
  let lo := BMap.readLE s.mem (loc + 8 * j) 8
  let key := s.runPca p k / 32
  if !s.runIn p k then (s.freeVal.1.truncate 80, s.freeVal.2)
  else match (s.hctl p).lanes.find? (fun e => e.1 == key) with
    | some (_, x) => (BitVec.ofNat 80 (lo + x.toNat / 2 ^ (16 * j) % 2 ^ 16 * 2 ^ 64) ^^^ bad, s)
    | none => (BitVec.ofNat 80 (lo + s.freeVal.1.toNat % 2 ^ 16 * 2 ^ 64) ^^^ wrongBeat (FMap.get s.hbmSym 0 (loc / 32)) j ^^^ bad,
               s.freeVal.2)

/-- The lanes whose beat differs from the pattern set their flags (R402). -/
def State.lerr (s : State) (p : Nat) (d : BitVec 80) : State :=
  (s.csrSet .MC_LERR p (s.csrGet .MC_LERR p ||| d.truncate 64)).csrSet .MC_LERRX p
    (s.csrGet .MC_LERRX p ||| BitVec.ofNat 64 (d.toNat / 2 ^ 64))

/-- The MISRs take a beat (R403). -/
def misrStep (m d : Word) : Word := (m <<< 1) ^^^ (if m.msb then 0x1B else 0) ^^^ d
def misrxStep (m d : Nat) : Nat := ((m * 2) % 2 ^ 16) ^^^ (if m / 2 ^ 15 = 1 then 0x1021 else 0) ^^^ d

def State.misr (s : State) (p : Nat) (d : BitVec 80) : State :=
  (s.csrSet .MC_MISR p (misrStep (s.csrGet .MC_MISR p) (d.truncate 64))).csrSet .MC_MISRX p
    (BitVec.ofNat 64 (misrxStep (s.csrGet .MC_MISRX p).toNat (d.toNat / 2 ^ 64)))

/-- Compare burst `k`, or take it into the MISR. -/
def State.patReadBurst (s : State) (p pat k : Nat) (bad : BitVec 80) (toMisr : Bool) : State :=
  (List.range 4).foldl (fun s j =>
    let (d, s) := s.rxBeat p k j bad
    if toMisr then s.misr p d else s.lerr p (d ^^^ s.patBeat p pat (4 * k + j))) s

/-- A run of the pattern generator (R402): its operation over COUNT bursts; in loopback only the lanes in error show. -/
def State.patRun (s : State) (p op : Nat) (loop : Bool) (bad : BitVec 80) : State :=
  let n := s.fld Fld.MC_PGEN_COUNT p
  let pat := s.fld Fld.MC_PGEN_PATTERN p
  let wr (s : State) : State := (List.range n).foldl (fun s k => s.patWriteBurst p pat k) s
  let rd (m : Bool) (s : State) : State := (List.range n).foldl (fun s k => s.patReadBurst p pat k bad m) s
  if loop then s.lerr p bad
  else match op with
    | 0 => wr s
    | 1 => rd false s
    | 2 => rd true s
    | _ => rd false (wr s)

/-- A write to MC_PGEN (R402, R403): GO in TRAIN runs the generator. -/
def State.pgenWrite (s : State) (p : Nat) (src : Src) (v : Word) (bad : BitVec 80) : State :=
  if !(mcTrainer src && s.gateOpen .MC_PGEN p) then s.pcWrite .MC_PGEN p src v
  else if !s.hbmTrain p then s.pcStatus p stBusy
  else
    let s := s.pcWrite .MC_PGEN p src v
    let s := if Fld.MC_PGEN_COUNT.of v = 0 then s.setFld Fld.MC_PGEN_COUNT p 1 else s
    if Fld.MC_PGEN_GO.of v = 0 then s
    else
      let s := (s.csrSet .MC_MISR p 0).csrSet .MC_MISRX p 0
      if 4 ≤ Fld.MC_PGEN_PATTERN.of v then s
      else (s.setFld Fld.MC_PCSTAT_DONE p 0).patRun p (Fld.MC_PGEN_OP.of v) (Fld.MC_PGEN_LOOP.of v == 1) bad

/-- The word of a pattern command: GO with the operation, through the stack. -/
def pgenWord (v : Word) (op loop : Nat) : Word := withBits (withBits (withBits v 0 0 1) 9 8 op) 11 10 loop

/-- PATTERN_WRITE (R402). -/
def execPatternWrite (src : Src) (p : PcId) (v : Word) (bad : BitVec 80) (s : State) : Result :=
  .next (s.csrPort src .MC_PGEN p.val (fun s => s.pgenWrite p.val src (pgenWord v 0 0) bad))

/-- PATTERN_COMPARE (R402). -/
def execPatternCompare (src : Src) (p : PcId) (v : Word) (bad : BitVec 80) (s : State) : Result :=
  .next (s.csrPort src .MC_PGEN p.val (fun s => s.pgenWrite p.val src (pgenWord v 1 0) bad))

/-- PATTERN_MISR (R402, R403). -/
def execPatternMisr (src : Src) (p : PcId) (v : Word) (bad : BitVec 80) (s : State) : Result :=
  .next (s.csrPort src .MC_PGEN p.val (fun s => s.pgenWrite p.val src (pgenWord v 2 0) bad))

/-- PATTERN_WRITE_COMPARE (R402). -/
def execPatternWriteCompare (src : Src) (p : PcId) (v : Word) (bad : BitVec 80) (s : State) : Result :=
  .next (s.csrPort src .MC_PGEN p.val (fun s => s.pgenWrite p.val src (pgenWord v 3 0) bad))

/-- PATTERN_LOOPBACK (R402): OP is ignored. -/
def execPatternLoopback (src : Src) (p : PcId) (v : Word) (bad : BitVec 80) (s : State) : Result :=
  .next (s.csrPort src .MC_PGEN p.val (fun s =>
    s.pgenWrite p.val src (withBits (withBits v 0 0 1) 11 10 1) bad))

/-- PATTERN_RUN_DONE (R402). -/
def execPatternRunDone (p : PcId) (s : State) : Result := .next (s.setFld Fld.MC_PCSTAT_DONE p.val 1)

/-! ## The IEEE 1500 port and raw commands (R404, R405) -/

/-- What a shift drives into the stack: with CONT = 0 the wrapper instruction, which selects a data register, and the low `n`
bits of MC_1500D into it, least significant bit first; with CONT = 1 the next `n` bits (R404). -/
def StackPort.shift (x : StackPort) (v d : Word) (n : Nat) : StackPort :=
  let bits := (List.range n).map (fun i => d.getLsbD i)
  if Fld.MC_1500_CONT.of v = 0 then
    { x with instr := some (v.extractLsb' 40 8, v.extractLsb' 36 4), dr := bits }
  else { x with dr := x.dr ++ bits }

/-- A write to MC_1500 (R404): GO shifts LEN bits of MC_1500D in, and the bits shifted out replace them. -/
def State.p1500Write (s : State) (k : Nat) (src : Src) (v out : Word) : State :=
  if !(mcTrainer src && s.gateOpen .MC_1500 k) then s.stkWrite .MC_1500 k k src v
  else if s.flag Fld.MC_1500_BUSY k || !(List.range 16).all (fun q => s.hbmTrain (16 * k + q)) then s.stkStatus k stBusy
  else
    let n := clampNat 1 64 (Fld.MC_1500_LEN.of v)
    let s := (s.stkWrite .MC_1500 k k src v).setFld Fld.MC_1500_LEN k n
    if Fld.MC_1500_GO.of v = 0 then s
    else
      let s := s.modPort1500 k (fun x => x.shift v (s.csrGet .MC_1500D k) n)
      (s.csrSet .MC_1500D k (withBits (s.csrGet .MC_1500D k) (n - 1) 0 out.toNat)).setFld Fld.MC_1500_BUSY k 1

/-- IEEE1500_LOAD: GO with CONT = 0 (R404). -/
def execIeee1500Load (src : Src) (st : StackId) (v shiftOut : Word) (s : State) : Result :=
  .next (s.csrPort src .MC_1500 st.val (fun s =>
    s.p1500Write st.val src (withBits (withBits v 0 0 1) 2 2 0) shiftOut))

/-- IEEE1500_CONTINUE: GO with CONT = 1 (R404). -/
def execIeee1500Continue (src : Src) (st : StackId) (v shiftOut : Word) (s : State) : Result :=
  .next (s.csrPort src .MC_1500 st.val (fun s =>
    s.p1500Write st.val src (withBits (withBits v 0 0 1) 2 2 1) shiftOut))

/-- IEEE1500_DONE: the shift ends (R404). -/
def execIeee1500Done (st : StackId) (s : State) : Result := .next (s.setFld Fld.MC_1500_BUSY st.val 0)

/-- The edges that BITS puts on a bus: a row command over 4 edges of 6 bits, a column command over 2 of 8, edge 0 lowest
(R405). -/
def rawEdges (col : Bool) (bits : BitVec 24) : List (BitVec 8) :=
  if col then (List.range 2).map (fun i => bits.extractLsb' (8 * i) 8)
  else (List.range 4).map (fun i => (bits.extractLsb' (6 * i) 6).zeroExtend 8)

/-- A write to MC_RAWCMD: while both controllers of the channel are in TRAIN; GO drives the command on a bus of channel CH, which
is one of eight (R401, R405). -/
def State.rawWrite (s : State) (k : Nat) (src : Src) (v : Word) : State :=
  let ch := Fld.MC_RAWCMD_CH.of v
  let p := 16 * k + 2 * (ch % 8)
  if !(s.hbmTrain p && s.hbmTrain (p + 1)) then s.stkStatus k stBusy
  else
    let go := mcTrainer src && s.gateOpen .MC_RAWCMD k && Fld.MC_RAWCMD_GO.of v == 1 && ch < 8
    let s := s.stkWrite .MC_RAWCMD k k src v
    if !go then s
    else
      let col := Fld.MC_RAWCMD_BUS.of v == 1
      s.modPort1500 k (fun x => { x with raw := FMap.set x.raw ch (some (col, rawEdges col (v.truncate 24))) })

/-- RAW_COMMAND (R405). -/
def execRawCommand (src : Src) (st : StackId) (v : Word) (s : State) : Result :=
  .next (s.csrPort src .MC_RAWCMD st.val (fun s => s.rawWrite st.val src v))

/-! ## Mirrored regions (R411 to R414) -/

/-- A write to MC_MIR_n (R393, R414): setting EN starts SILVERING, clearing it returns to OFF. -/
def State.mirWriteReg (s : State) (n : Nat) (src : Src) (v : Word) : State :=
  if !s.mcMapper src then s
  else
    let was := s.flag Fld.MC_MIR_EN n
    let s := s.codeWrite .MC_MIR n v
    let now := s.flag Fld.MC_MIR_EN n
    if now = was then s else s.setFld Fld.MC_MIR_STATE n (if now then 1 else 0)

/-- MIRROR_ENABLE (R414). -/
def execMirrorEnable (src : Src) (n : MirId) (v : Word) (s : State) : Result :=
  .next (s.csrPort src .MC_MIR n.val (fun s => s.mirWriteReg n.val src (withBits v 37 37 1)))

/-- MIRROR_DISABLE (R414). -/
def execMirrorDisable (src : Src) (n : MirId) (v : Word) (s : State) : Result :=
  .next (s.csrPort src .MC_MIR n.val (fun s => s.mirWriteReg n.val src (withBits v 37 37 0)))

/-- The bursts in which a mirrored region's copies may differ, by their place in the primary: those that either holds anything
of (R411). -/
def State.mirBursts (s : State) (n : Nat) : List Nat :=
  let lo := s.fld Fld.MC_MIR_BASE n * 2 ^ 24
  let hi := min ((s.fld Fld.MC_MIR_LIMIT n + 1) * 2 ^ 24) 0x600000000
  let lanes (st : Nat) : List Nat := (List.range 16).flatMap (fun q => (s.hctl (16 * st + q)).lanes.map (fun e =>
    st * 0x600000000 + pcaToSa q (32 * e.1)))
  let marked := s.mem.map (fun e => e.1) ++ (s.hbmBad.flatMap (fun e => [64 * e.1, 64 * e.1 + 32])) ++
    s.hbmSym.map (fun e => 32 * e.1) ++ lanes (s.mirPri n) ++ lanes (s.mirAlt n)
  ((marked.filter (fun a => a / 0x600000000 == s.mirPri n || a / 0x600000000 == s.mirAlt n)).map (fun a =>
    a % 0x600000000 / 32 * 32)).eraseDups.filter (fun a => decide (lo ≤ a) && decide (a < hi))

/-- The copy engine copies a burst of a region, through controllers that are both in RUN (R392, R407, R414): what it corrects
is copied right, and what is uncorrectable as poison. -/
def State.silverBurst (s : State) (n sa : Nat) : State :=
  let p := hbmCtlOf (s.mirPri n) sa
  let loc := s.mirPri n * 0x600000000 + sa
  if !s.hbmRun p || !s.hbmRun (hbmCtlOf (s.mirAlt n) sa) then s
  else
    let d := s.burstAt loc
    let (b, s) := s.hbmBurst p (hbmPca sa) (s.hbmAddr (s.mirPri n) sa) d.2 (s.burstBad loc) false false
    s.burstStore (s.mirAlt n * 0x600000000 + sa) d.1 b

/-- SILVERING_DONE: every line of the region has been copied from the primary to the alternate stack; STATE reads ON
(R414). -/
def execSilveringDone (n : MirId) (s : State) : Result :=
  .next (if s.fld Fld.MC_MIR_STATE n.val ≠ 1 then s
    else ((s.mirBursts n.val).foldl (fun s a => s.silverBurst n.val a) s).setFld Fld.MC_MIR_STATE n.val 2)

/-! ## Stack services (R400) -/

/-- What the training recipe leaves in the registers of a controller: its last run wrote zero data with pattern 3 (R400); where
that run began and how long it was, and the flags of the lanes, the spec does not give. -/
def State.trainedCtl (s : State) (p : Nat) : State :=
  let (w, s) := s.freeVal
  let s := s.csrSet .MC_PGEN p (withBits (withBits 0x30001 47 32 (max 1 (w.toNat % 2 ^ 16))) 11 8 0)
  let s := (s.csrSet .MC_PGADDR p ((w.extractLsb' 64 64) &&& 0x3FFFFFF0)).csrSet .MC_PATD p 0
  let s := (s.csrSet .MC_LERR p (w.extractLsb' 128 64)).csrSet .MC_LERRX p ((w.extractLsb' 192 64) &&& 0xFFFF)
  ((s.csrSet .MC_MISR p 0).csrSet .MC_MISRX p 0).setFld Fld.MC_PCSTAT_DONE p 1

/-- What the training recipe leaves in a stack's registers, whatever expert writes had put there (R8, R400, R405): the delays it
finds and the operands of its last operations, which the spec does not give, and the reset values elsewhere. -/
def State.trained (s : State) (k : Nat) : State :=
  let s := (s.csrSet .MC_TIM0 k (Reg.MC_TIM0.reset k)).csrSet .MC_TIM1 k (Reg.MC_TIM1.reset k)
  let s := s.setFld Fld.MC_STK_REFMODE k 1
  let (w, s) := s.freeVal
  let s := s.csrSet .MC_1500 k (withBits ((w.extractLsb' 0 64) &&& 0xFFF01FC00004) 0 0 1)
  let s := s.csrSet .MC_1500D k (w.extractLsb' 64 64)
  let s := s.csrSet .MC_RAWCMD k (withBits ((w.extractLsb' 128 64) &&& 0x0780000000FFFFFF) 63 63 1)
  let s := (List.range 8).foldl (fun s c =>
    let (w, s) := s.freeVal
    s.csrSet .MC_CDLY (8 * k + c) (withBits (Reg.MC_CDLY.reset (8 * k + c)) 22 0 (w.toNat % 2 ^ 23 &&& 0x7F7F7F))) s
  let s := (List.range 1280).foldl (fun s l =>
    let (w, s) := s.freeVal
    s.csrSet .MC_LDLY (1280 * k + l) (w.truncate 64 &&& 0x7F7F)) s
  (List.range 16).foldl (fun s q => s.trainedCtl (16 * k + q)) s

/-- The Reeve moves the controllers of a stack by writes of SETSTATE (R392, R400). -/
def State.stackSet (s : State) (k st : Nat) : State :=
  (List.range 16).foldl (fun s q =>
    ((s.pcEnter (16 * k + q) st).setFld Fld.MC_PCCTL_SETSTATE (16 * k + q) st).pcStatus (16 * k + q) stOk) s

/-- The Reeve clears PWR of a stack, once it has moved controllers in RUN to TRAIN (R400). -/
def State.stackDown (s : State) (k : Nat) : State :=
  let s := if s.flag Fld.MC_STK_PWR k then s.stackSet k 1 else s
  (s.stkPower k false).stkStatus k stOk

/-- The outcome of training a stack: its registers as the recipe sets them, every burst written with zero data, its controllers
in RUN (R400). -/
def State.stackUp (s : State) (k : Nat) : State :=
  let s := (((s.stkPower k false).stkPower k true).stackClear k).trained k
  (s.stkStatus k stOk).stackSet k 2

/-- Whether a stack holds a copy of an enabled mirrored region. -/
def State.stackMirrored (s : State) (k : Nat) : Bool :=
  (List.range 8).any (fun n => s.flag Fld.MC_MIR_EN n && s.fld Fld.MC_MIR_PAIR n == k / 2)

/-- STACK_DOWN (R400). -/
def execStackDown (m : SlotId) (s : State) : Result :=
  .next (if !s.serving m.val 0x08 then s
    else if !(s.slot m.val).hmode then s.serviceReply m.val stDenied
    else
      let k := s.arg0 m.val
      if 3 < k then s.serviceReply m.val stBadArg
      else if s.fld Fld.PW_HOLD_ISL_STACK 0 / 2 ^ k % 2 = 1 then s.serviceReply m.val stBlockHeld
      else if s.stackMirrored k || s.svc.long.isSome then s.serviceReply m.val stBusy
      else (s.stackDown k).serviceReply m.val stOk)

/-- STACK_UP: `pass` and `summary` are what the training recipe finds (R400). -/
def execStackUp (m : SlotId) (pass : Bool) (summary : Word) (s : State) : Result :=
  .next (if !s.serving m.val 0x09 then s
    else if !(s.slot m.val).hmode then s.serviceReply m.val stDenied
    else
      let k := s.arg0 m.val
      if 3 < k then s.serviceReply m.val stBadArg
      else s.longService m.val (fun s =>
        if pass then (s.stackUp k).serviceReply m.val stOk (summary &&& 0xFFF7F7F)
        else ((s.trained k).stkPower k false).serviceReply m.val stTrainFail))

end Sys2Proof.Machine
end

