-- ==== Sys2Proof/Machine/Slices.lean ====
section
/-!
DEFINITION. Commands of the caches and home slices (chapter 12): line requests, prefetch, offers, enabling and disabling,
the secure flush, and the operations behind `cmo`.
-/

namespace Sys2Proof.Machine

/-! ## Line requests and prefetch (R288, R294, R297) -/

/-- A core's request for a line (R282 to R285). -/
def State.coreRefill (s : State) (c line : Nat) (kind : LineKind) (victim : Option Nat) : LineAns × State :=
  match kind with
  | .fetch => s.fetchLine c line (coreReq c)
  | .load => s.loadLine c line (coreReq c) victim
  | .store => if (s.core c).l2State = 0 then ({}, s) else s.l2Refill c line (coreReq c) true victim []

/-! ## Loads ahead of their order (R310, R314, R318) -/

/-- A core reads a line ahead of the loads that may use it, where no store in its buffer touches the line; of the bytes that a
member's fold holds, its loads take the fold's (R347). -/
def State.readAhead (s : State) (c line : Nat) (a : LineAns) : State :=
  let k := s.core c
  let mask := ~~~ (foldMask k.mem.openF line ||| foldMask k.mem.closedF line)
  if a.err ≠ 0 ∨ a.poison ≠ 0 ∨ !isHbm (64 * line) ∨ k.run ≠ .running ∨ k.halted ∨ mask = 0 ∨
      (sbYoungest k.sb (64 * line) 64).isSome then s
  else s.modCore c (fun k => { k with
    clock := k.clock + 1, early := ⟨line, k.clock + 1, a.data, mask⟩ :: k.early.filter (fun x => x.line != line) })

/-- LINE_REQUEST: a request for a line reaches its home slice (R288); `victim` picks the entry that a full directory set
loses (R294). A line that another core holds for its `sc` is not given up (R332). What a core's load request reads, a later
load may return in place of what it would read itself, as R314 allows; a thread's that touches a line of a store which it has
still to perform is not read ahead (R313). -/
def execLineRequest (src : Src) (line : PA) (kind : LineKind) (victim : Nat) (s : State) : Result :=
  let n := line.toNat / 64
  match src with
  | .core c =>
    .next (if !s.srcLive src || !(isHbm line.toNat || isRom line.toNat) || s.heldAgainst n (some c.val) then s
      else
        let (a, s) := s.coreRefill c.val n kind (some victim)
        if kind = .load then s.readAhead c.val n a else s)
  | _ =>
    if !s.srcLive src || !isHbm line.toNat || s.heldAgainst n none then .next s
    else
      let (a, s) := s.homeRead n (s.fwReq src true (64 * n)) []
      let s := match src with
        | .thread t =>
          if a.err = 0 ∧ a.poison = 0 ∧ (FMap.get s.threads {} t.val).rest.all (fun e => e.1 / 64 != n) then
            { s with threads := FMap.set s.threads t.val { FMap.get s.threads {} t.val with early := some (n, a.data) } }
          else s
        | _ => s
      .next (if a.err = 0 then s.reply (a.data.truncate 256) else s.replyErr)

/-- A detector after an access of its load (R297). -/
def Stride.access (d : Stride) (line : Nat) : Stride :=
  let st : Int := (line : Int) - d.last
  if st = 0 then d
  else if st = d.step then { d with last := line, conf := d.conf + 1 }
  else if st.natAbs ≤ 32 then { d with last := line, step := st, conf := 1 }
  else { d with last := line, step := 0, conf := 0 }

/-- A list of at most `n` detectors after a load at `pc` of a line, the least recently used one replaced (R297). -/
def detTrain (l : List Stride) (n : Nat) (pc : BitVec 48) (line : Nat) : List Stride :=
  match l.find? (fun d => d.pc == pc) with
  | some d => d.access line :: l.filter (fun e => e.pc != pc)
  | none => ({ pc := pc, last := line, step := 0, conf := 0 } :: l).take n

/-- A load to normal memory in HBM trains the detectors that are enabled (R297). -/
def State.train (s : State) (c : Nat) (pc : BitVec 48) (pa : Nat) : State :=
  let a := (s.core c).arch
  s.modCore c (fun k => { k with
    det1 := if a.csf CsFld.PFCTL_L1_EN = 1 then detTrain k.det1 8 pc (pa / 64) else k.det1
    det2 := if a.csf CsFld.PFCTL_L2_EN = 1 then detTrain k.det2 16 pc (pa / 64) else k.det2 })

/-- A request for the line would meet a full queue: no cache holds it, no write of it waits to answer for it, and its
controller's read entries are all in use (R297, R394). -/
def State.readsFull (s : State) (line : Nat) : Bool :=
  let p := s.hbmCtl (64 * line)
  (s.l2Source line).isNone && (s.llcFind line).isNone && !s.hbmForwards p (s.hbmLoc (64 * line)) &&
    64 ≤ ((s.hctl p).queue.filter (fun x => !x.write)).length

/-- A prefetch of a line, into the L1 or, for `l2`, into the L2 alone. One that meets an error response, a refusal or a full
request queue is dropped, and reports nothing. -/
def State.prefetch (s : State) (c line : Nat) (l2 : Bool) : State :=
  let q : FwReq := { coreReq c with cls := 1 }
  let held := if l2 then (s.l2Find c line).isSome else (s.core c).l1d.any (fun e => e.1 == line)
  if held ∨ (l2 ∧ (s.core c).l2State = 0) ∨ s.readsFull line then s
  else
    let (a, t) := s.l2Refill c line q false none []
    if a.err ≠ 0 then s else if l2 then t else t.l1dFill c line

/-- PREFETCH_REQUEST: a detector that has confirmed its stream requests lines up to DIST strides ahead, within the page
and in HBM (R297). -/
def execPrefetchRequest (c : CoreId) (l2 : Bool) (det : Nat) (s : State) : Result :=
  let k := s.core c.val
  let en := if l2 then k.arch.csf CsFld.PFCTL_L2_EN else k.arch.csf CsFld.PFCTL_L1_EN
  let dist := if l2 then k.arch.csf CsFld.PFCTL_L2_DIST else k.arch.csf CsFld.PFCTL_L1_DIST
  match (if l2 then k.det2 else k.det1)[det]? with
  | none => .next s
  | some d =>
    if en = 0 ∨ d.conf < 2 ∨ !s.srcLive (.core c) then .next s
    else .next ((List.range dist).foldl (fun s (i : Nat) =>
      let n : Int := d.last + ((i : Int) + 1) * d.step
      let line := n.toNat
      if n < 0 ∨ line / 64 ≠ d.last / 64 ∨ !isHbm (64 * line) ∨ s.heldAgainst line (some c.val) then s
      else (s.pmCore c.val 0x16 1).prefetch c.val line l2) s)

/-- LLC_OFFER: an L2 evicts a line and offers it to its home slice (R296). -/
def execLlcOffer (c : CoreId) (line : PA) (s : State) : Result :=
  match s.l2Find c.val (line.toNat / 64) with
  | some x => .next (if s.islOpen (coreIsland c.val) && !s.heldAgainst (line.toNat / 64) none then s.l2Offer c.val x.line else s)
  | none => .next s

/-! ## Cleaning (R295, R300 to R304, R307) -/

/-- A copy in M is written to the home slice and becomes E (CLEAN_L2). -/
def State.l2Clean (s : State) (c line : Nat) : State :=
  if !(s.l2Find c line).any (fun x => x.st == .m) then s
  else
    let (r, s) := s.l2Take c line
    match r with
    | some x => (s.l2Set c { x with st := .e }).toHome line x.data x.poison false
    | none => s

/-- The same, then invalidated in the L2 and the L1 data cache (CINV_L2). -/
def State.l2CleanInv (s : State) (c line : Nat) : State := ((s.l2Clean c line).l2Drop c line)

/-- Every line of a core's L2 is cleaned and invalidated, and its L1 data cache with it. -/
def State.cleanInvL2 (s : State) (c : Nat) : State :=
  let s := (s.core c).l2.foldl (fun s x => s.l2CleanInv c x.line) s
  s.modCore c (fun k => { k with l1d := [] })

/-- A line of a slice that is dirty is written to HBM and stays, clean. -/
def State.llcCleanOwn (s : State) (line : Nat) : State :=
  let t := homeSlice line
  match s.llcFind line with
  | some x =>
    if !x.dirty then s
    else
      let s := (s.llcFlush x).2
      s.llcPutAll t ((s.llcOf t).map (fun l => if l.line = line then { l with dirty := false } else l))
  | none => s

/-- Every copy in the device: dirty data written to HBM, and the copies kept clean (CLEAN_LLC). -/
def State.llcClean (s : State) (line : Nat) : State :=
  ((s.l2Holders line).foldl (fun s h => s.l2Clean h line) s).llcCleanOwn line

/-- Every copy invalidated, dirty data discarded (INV_LLC). -/
def State.llcInv (s : State) (line : Nat) : State :=
  let s := (s.sharers line).foldl (fun s h => s.l2Drop h line) s
  let t := homeSlice line
  if (s.llcFind line).isSome then s.llcPutAll t ((s.llcOf t).filter (fun l => l.line != line)) else s

/-- Every copy written to HBM, then invalidated (CINV_LLC). -/
def State.llcCleanInv (s : State) (line : Nat) : State := (s.llcClean line).llcInv line

/-- The lines that a core's L2 held in M are poisoned at their home slices after a reset ordered for a fatal error
(R295), with a record each. -/
def State.loseM (s : State) (c : Nat) : State :=
  ((s.core c).l2.filter (fun x => x.st == .m)).foldl (fun s x =>
    let s := (s.l2Drop c x.line).toHome x.line x.data 3 false
    s.logErr { unit := 160 + homeSlice x.line, sev := 1, type := 0x17, addr := some (64 * x.line), data := [c] }) s

/-! ## cs.L2CTL (R304 to R306) -/

/-- A write to cs.L2CTL. An L2 that is enabled is empty, and includes every line of the L1 data cache (R283, R305). -/
def State.l2ctlWrite (s : State) (c : Nat) (v : Word) : State :=
  let a := (s.core c).arch
  let en := bitsOf v 0 0
  let mode := bitsOf v 1 1
  let st := a.csf CsFld.L2CTL_STATE
  let put (f : CoreArch → CoreArch) : State := s.modCore c (fun k => { k with arch := f k.arch })
  if mode ≠ a.csf CsFld.L2CTL_MODE ∧ st ≠ 0 then put (fun a => a.setCsf CsFld.L2CTL_LAST_STATUS stBusy)
  else
    let st' := if en = 1 then 1 else if st = 1 then 2 else st
    let last := if en = 1 ∧ st = 2 then 2 else a.csf CsFld.L2CTL_LAST
    let s := if en = 1 ∧ st = 0 then s.modCore c (fun k => { k with l1d := [] }) else s
    let put (f : CoreArch → CoreArch) : State := s.modCore c (fun k => { k with arch := f k.arch })
    put (fun a => ((((a.setCsf CsFld.L2CTL_LAST_STATUS stOk).setCsf CsFld.L2CTL_MODE mode).setCsf CsFld.L2CTL_EN en).setCsf
      CsFld.L2CTL_STATE st').setCsf CsFld.L2CTL_LAST last)

/-- Whether a core may make a write that requires a mode now: it runs, or is halted, in that mode or a higher one. -/
def State.csMay (s : State) (c mode : Nat) : Bool :=
  s.islOpen (coreIsland c) && (s.core c).run == .running && mode ≤ (s.core c).arch.mode.toNat

/-- The cleaning engine of an L2 that is CLEANING has swept some sets: how many lines it has cleaned since it was last looked
at is a free value (R304). -/
def State.l2Sweep (s : State) (c : Nat) : State :=
  if (s.core c).l2State ≠ 2 then s
  else
    let (v, s) := s.freeVal
    let dirty := ((s.core c).l2.filter (fun x => x.st == .m)).map (·.line)
    (dirty.take (v.toNat % (dirty.length + 1))).foldl (fun s l => s.l2Clean c l) s

/-- L2_SWEEP_END: every dirty line has been written to its home slice; every line is invalidated (R304). -/
def execL2SweepEnd (c : CoreId) (s : State) : Result :=
  .next (if (s.core c.val).l2State ≠ 2 then s
    else (s.cleanInvL2 c.val).modCore c.val (fun k => { k with
      arch := (k.arch.setCsf CsFld.L2CTL_STATE 0).setCsf CsFld.L2CTL_LAST 1 }))

/-! ## MC_LLC_CTL (R305, R306, R308, R309) -/

/-- A write to MC_LLC_CTL. -/
def State.llcCtlWrite (s : State) (t : Nat) (src : Src) (v : Word) : State :=
  let en := Fld.MC_LLC_CTL_ALLOC_EN.of v
  let mode := Fld.MC_LLC_CTL_MODE.of v
  let offer := Fld.MC_LLC_CTL_OFFER.of v
  let st := s.fld Fld.MC_LLC_STAT_STATE t
  if !s.srcSys src then s
  else if mode ≠ s.fld Fld.MC_LLC_CTL_MODE t ∧ st ≠ 0 then s.setFld Fld.MC_LLC_STAT_LAST_STATUS t stBusy
  else
    let s := (s.setFld Fld.MC_LLC_CTL_MODE t mode).setFld Fld.MC_LLC_CTL_ALLOC_EN t en
    let s := if offer = 3 then s else s.setFld Fld.MC_LLC_CTL_OFFER t offer
    let s := if en = 1 ∧ st = 2 then s.setFld Fld.MC_LLC_STAT_LAST t 2 else s
    (s.setFld Fld.MC_LLC_STAT_STATE t (if en = 1 then 1 else if st = 1 then 2 else st)).setFld
      Fld.MC_LLC_STAT_LAST_STATUS t stOk

/-- ALLOC_DISABLE (R309). -/
def execAllocDisable (src : Src) (t : LlcId) (v : Word) (s : State) : Result :=
  .next (s.csrPort src .MC_LLC_CTL t.val (fun s => s.llcCtlWrite t.val src (withBits v 0 0 0)))

/-- ALLOC_ENABLE (R309). -/
def execAllocEnable (src : Src) (t : LlcId) (v : Word) (s : State) : Result :=
  .next (s.csrPort src .MC_LLC_CTL t.val (fun s => s.llcCtlWrite t.val src (withBits v 0 0 1)))

/-- The same for a slice that is CLEANING (R309). -/
def State.llcSweep (s : State) (t : Nat) : State :=
  if s.fld Fld.MC_LLC_STAT_STATE t ≠ 2 then s
  else
    let (v, s) := s.freeVal
    let dirty := ((s.llcOf t).filter (fun x => x.dirty)).map (·.line)
    (dirty.take (v.toNat % (dirty.length + 1))).foldl (fun s l => s.llcCleanOwn l) s

/-- LLC_SWEEP_END: every dirty line is in HBM and every line is invalidated (R304, R309). -/
def execLlcSweepEnd (t : LlcId) (s : State) : Result :=
  .next (if s.fld Fld.MC_LLC_STAT_STATE t.val ≠ 2 then s
    else
      let s := (s.llcOf t.val).foldl (fun s x => s.llcCleanOwn x.line) s
      ((s.llcPutAll t.val []).setFld Fld.MC_LLC_STAT_STATE t.val 0).setFld Fld.MC_LLC_STAT_LAST t.val 1)

/-- Every secure line of a slice is written to HBM, if dirty, and invalidated (R308). -/
def State.secureFlush (s : State) (t : Nat) : State :=
  let sec := (s.llcOf t).filter (fun x => x.sec)
  let s := sec.foldl (fun s x => s.llcCleanOwn x.line) s
  if sec.isEmpty then s else s.llcPutAll t ((s.llcOf t).filter (fun x => !x.sec))

/-- A world switch: GO in all 80 slices, and every DONE awaited (R537). -/
def State.secureFlushAll (s : State) : State :=
  (List.range 80).foldl (fun s t => (s.secureFlush t).setFld Fld.MC_LLC_SECFLUSH_DONE t 1) s

/-- SECFLUSH_GO: written by the Cocoon alone (R308). -/
def execSecflushGo (src : Src) (t : LlcId) (_v : Word) (s : State) : Result :=
  .next (s.csrPort src .MC_LLC_SECFLUSH t.val (fun s =>
    if src = .cocoon then s.setFld Fld.MC_LLC_SECFLUSH_DONE t.val 0 else s))

/-- SECFLUSH_DONE: the flush ends, lines filled while it ran included (R309). -/
def execSecflushDone (t : LlcId) (s : State) : Result :=
  .next (if s.flag Fld.MC_LLC_SECFLUSH_DONE t.val then s
    else (s.secureFlush t.val).setFld Fld.MC_LLC_SECFLUSH_DONE t.val 1)

/-- Lines left dirty, as MC_LLC_STAT.DIRTY reports them (R304, R309). -/
def State.llcDirty (s : State) (t : Nat) : Nat := ((s.llcOf t).filter (fun x => x.dirty)).length

end Sys2Proof.Machine
end

