-- ==== Sys2Proof/Machine/Sweep.lean ====
section
/-!
DEFINITION. The region firewalls' registers and sweeps (R522, R530 to R534).
-/

namespace Sys2Proof.Machine

/-! ## Region firewalls (R530 to R534) -/

/-- Which firewall register an address names: a Granary firewall or not, CK_FWB or CK_FWA, and the register's index
16 × firewall + region. -/
def fwAddr (addr : Nat) : Option (Bool × Bool × Nat) :=
  match Reg.decode addr with
  | some (.CK_FWA, i) => some (false, false, i)
  | some (.CK_FWB, i) => some (false, true, i)
  | some (.CK_GFWA, i) => some (true, false, i)
  | some (.CK_GFWB, i) => some (true, true, i)
  | _ => none

/-- The register of a region. -/
def fwReg (gran limit : Bool) : Reg :=
  if gran then (if limit then .CK_GFWB else .CK_GFWA) else (if limit then .CK_FWB else .CK_FWA)

/-- WR_STATUS of a firewall. -/
def State.fwStatus (s : State) (gran : Bool) (f st : Nat) : State := s.setFld (fwRegs gran).stat f st

/-- A write of one HBM firewall's region starts its sweep, unless one runs or the firewall is locked (R530, R533). -/
def State.fwBegin (s : State) (f r : Nat) (limit all : Bool) (v : Word) : State :=
  if s.flag Fld.CK_FWCTL_BUSY f then s.fwStatus false f stBusy
  else if s.flag Fld.CK_FWCTL_LOCK f then s.fwStatus false f stOk
  else
    { (s.fwStatus false f stOk).setFld Fld.CK_FWCTL_BUSY f 1 with
      fwPend := FMap.set s.fwPend f (some ⟨16 * f + r, limit, v, all⟩) }

/-- A write of one Granary firewall's region takes effect at once (R533). -/
def State.gfwWrite (s : State) (i : Nat) (limit : Bool) (v : Word) : State :=
  if s.flag Fld.CK_GFWCTL_LOCK (i / 16) then s.fwStatus true (i / 16) stOk
  else (s.codeWrite (fwReg true limit) i v).fwStatus true (i / 16) stOk

/-- A write to a region register: from the Cocoon alone (R530); firewall 64 is all 64 (R533). -/
def State.fwRegionWrite (s : State) (gran limit : Bool) (i : Nat) (src : Src) (v : Word) : State :=
  if src ≠ .cocoon then s
  else if gran then s.gfwWrite i limit v
  else if i / 16 = 64 then (List.range 64).foldl (fun s f => s.fwBegin f (i % 16) limit true v) s
  else s.fwBegin (i / 16) (i % 16) limit false v

/-- The pages of a region as its two registers give them. -/
def State.fwRange (s : State) (i : Nat) : Nat × Nat := (s.fld Fld.CK_FWA_BASE i, s.fld Fld.CK_FWB_LIMIT i)

/-- Whether a line lies in a range of pages. -/
def inPages (r : Nat × Nat) (line : Nat) : Bool := r.1 ≤ line / 64 && line / 64 ≤ r.2

/-- The lines that some cache of a core or some LLC slice holds. -/
def State.cachedLines (s : State) : List Nat :=
  ((s.cores.map (fun e => e.2.l2.map (fun l => l.line) ++ e.2.l1d.map (·.1))).flatten ++
   (s.llc.map (fun e => e.2.map (fun l => l.line))).flatten).eraseDups

/-- Every cached copy of a line is cleaned and invalidated (R533). -/
def State.sweepLine (s : State) (line : Nat) : State :=
  let s := s.recallBut line none false
  match s.llcFind line with
  | some x =>
    let s := if x.dirty then (s.llcFlush x).2 else s
    let t := homeSlice line
    s.llcPutAll t ((s.llcOf t).filter (fun y => y.line != line))
  | none => s

/-- The region as it will be once the write takes effect. -/
def State.fwApply (s : State) (p : FwPend) : State := s.codeWrite (fwReg false p.limit) p.idx p.val

/-- The end of a sweep over the firewalls `fs` (R533): write-backs are judged under the old setting; then the new one
holds and BUSY clears. -/
def State.fwSwept (s : State) (fs : List Nat) : State :=
  let ps := fs.filterMap (fun f => FMap.get s.fwPend none f)
  let ranges := ps.flatMap (fun p => [s.fwRange p.idx, (s.fwApply p).fwRange p.idx])
  let s := (s.cachedLines.filter (fun l => ranges.any (fun r => inPages r l))).foldl (fun s l => s.sweepLine l) s
  fs.foldl (fun s f => match FMap.get s.fwPend none f with
    | some p => { (s.fwApply p).setFld Fld.CK_FWCTL_BUSY f 0 with fwPend := FMap.set s.fwPend f none }
    | none => s) s

/-! ## The region over the core firmware (R522) -/

/-- Region 0 of every HBM firewall takes the pairs of CK_FWA and CK_FWB listed, firewall by firewall, once the lines of the old ranges
and the new have left the caches (R533); a locked firewall keeps its own (R530). -/
def State.fwGuardSet (s : State) (vs : List (Word × Word)) : State :=
  let put (s : State) : State := (List.range 64).foldl (fun s f =>
    let s := s.fwStatus false f stOk
    match vs[f]? with
    | some v => if s.flag Fld.CK_FWCTL_LOCK f then s
      else (s.csrSet .CK_FWA (16 * f) v.1).csrSet .CK_FWB (16 * f) v.2
    | none => s) s
  let ranges := (List.range 64).flatMap (fun f => [s.fwRange (16 * f), (put s).fwRange (16 * f)])
  put ((s.cachedLines.filter (fun l => ranges.any (fun r => inPages r l))).foldl (fun s l => s.sweepLine l) s)

/-- Region 0 of every HBM firewall, as it stands. -/
def State.fwGuardOld (s : State) : List (Word × Word) :=
  (List.range 64).map (fun f => (s.csrGet .CK_FWA (16 * f), s.csrGet .CK_FWB (16 * f)))

/-- CK_FWA and CK_FWB of the region over the core firmware, from its first to its last page: enabled, open to secure requests and
to normal reads of every source, closed to normal writes. -/
def fwGuardPair (lo hi : Nat) : Word × Word :=
  (BitVec.ofNat 64 (lo % 2 ^ 36 * 2 ^ Fld.CK_FWA_BASE.lo + 2 ^ Fld.CK_FWA_EN.lo + 2 ^ Fld.CK_FWA_SR.lo + 2 ^ Fld.CK_FWA_SW.lo + 2 ^ Fld.CK_FWA_NR.lo),
   BitVec.ofNat 64 (hi % 2 ^ 36 * 2 ^ Fld.CK_FWB_LIMIT.lo))

/-- The Cocoon programs a region over the core firmware that permits normal-world reads and refuses normal-world writes (R522). The
spec gives it no number: it is region 0, which decides before every other (R531), and what region 0 held is kept for when core 0
has been released. A sweep that runs ends first (DESIGN CHOICE, assumption log 305). -/
def State.fwGuardOn (s : State) (lo hi : Nat) : State :=
  let s := s.fwSwept (List.range 64)
  let t := s.fwGuardSet (List.replicate 64 (fwGuardPair lo hi))
  { t with pwr := { t.pwr with fwGuard := if s.pwr.fwGuard.isEmpty then s.fwGuardOld else s.pwr.fwGuard } }

/-- Core 0 has been released: the Cocoon, while it runs, gives region 0 back what it held (R522, R539). -/
def State.fwGuardOff (s : State) : State :=
  if s.pwr.fwGuard.isEmpty || s.cocoon.run != .running then s
  else
    let t := (s.fwSwept (List.range 64)).fwGuardSet s.pwr.fwGuard
    { t with pwr := { t.pwr with fwGuard := [] } }

/-- A write to CK_FWCTL (R530): from the Cocoon alone; LOCK only sets, and holds DFLT. -/
def State.fwCtlWrite (s : State) (gran : Bool) (f : Nat) (v : Word) : State :=
  let R := fwRegs gran
  if s.flag R.busy f then s.fwStatus gran f stBusy
  else if s.flag R.lock f then s.fwStatus gran f stOk
  else ((s.setFld R.dflt f (R.dflt.of v)).setFld R.lock f (R.lock.of v)).fwStatus gran f stOk

/-- A write to the control register of firewall `f` of either kind; 64 is all the HBM controllers'. -/
def State.fwCtl (s : State) (gran : Bool) (f : Nat) (src : Src) (v : Word) : State :=
  if src ≠ .cocoon then s
  else if gran then s.fwCtlWrite true f v
  else if f = 64 then (List.range 64).foldl (fun s f => s.fwCtlWrite false f v) s
  else s.fwCtlWrite false f v

/-- A read of a firewall register (R530): the regions read 0 but for the Cocoon; firewall 64 reads as firewall 0. -/
def State.fwRead (s : State) (r : Reg) (i : Nat) (src : Src) : Word :=
  match r with
  | .CK_FWA => if src = .cocoon then s.csrGet r (if i / 16 = 64 then i % 16 else i) else 0
  | .CK_FWB => if src = .cocoon then s.csrGet r (if i / 16 = 64 then i % 16 else i) else 0
  | .CK_GFWA => if src = .cocoon then s.csrGet r i else 0
  | .CK_GFWB => if src = .cocoon then s.csrGet r i else 0
  | _ => s.csrGet r (if i = 64 then 0 else i)

/-- FIREWALL_REGION_WRITE (R530, R533). -/
def execFirewallRegionWrite (src : Src) (addr : PA) (v : Word) (s : State) : Result :=
  match fwAddr addr.toNat with
  | some (gran, limit, i) =>
    .next (s.csrPort src (fwReg gran limit) i (fun s => s.fwRegionWrite gran limit i src v))
  | none => .next s

/-- FIREWALL_SWEEP_DONE (R533): of firewall `f`'s own write, or, for 64, of a broadcast. -/
def execFirewallSweepDone (f : FwId) (s : State) : Result :=
  .next (if f.val = 64 then
      s.fwSwept ((List.range 64).filter (fun g => (FMap.get s.fwPend none g).any (fun p => p.all)))
    else if (FMap.get s.fwPend none f.val).any (fun p => !p.all) then s.fwSwept [f.val]
    else s)

/-- FIREWALL_CTL_WRITE (R530): indexes 65 up are the Granary banks'. -/
def execFirewallCtlWrite (src : Src) (f : FwId) (v : Word) (s : State) : Result :=
  .next (if f.val ≤ 64 then s.csrPort src .CK_FWCTL f.val (fun s => s.fwCtl false f.val src v)
    else s.csrPort src .CK_GFWCTL (f.val - 65) (fun s => s.fwCtl true (f.val - 65) src v))

end Sys2Proof.Machine
end

