-- ==== Sys2Proof/Machine/Xlate.lean ====
section
/-!
DEFINITION. Address translation (chapter 11): regimes, table entries, walks of both stages, the accessed and dirty flags,
and the TLBs.
-/

namespace Sys2Proof.Machine

/-! ## What a translation comes to -/

/-- Why a walk ends without a translation: a fault, or poisoned table data (R269). -/
inductive XErr where
  | fault (f : XFault)
  | poison (pa : Nat)
  deriving DecidableEq, Repr

/-- An update of the A and D flags that the access must make first: the entry's place, and its old and new value
(R267), with the entry's level and stage. -/
structure AdUpdate where
  pa     : Nat
  old    : Word
  new    : Word
  level  : Nat
  stage2 : Bool
  s1walk : Bool := false
  ipa    : Nat := 0
  deriving DecidableEq, Repr

/-- The fault of an update that meets an error response: a walk access that fails (DEDUCED, assumption log 320). -/
def AdUpdate.fault (u : AdUpdate) : XFault :=
  { kind := 9, level := u.level, stage2 := u.stage2, write := true, s1walk := u.s1walk, ipa := u.ipa }

/-- A translation: the physical address, the effective memory type (0 NORMAL, 1 NORMAL_NC, 2 DEVICE), and the flag
updates the access makes first. -/
structure XOk where
  pa   : Nat
  mt   : Nat
  upds : List AdUpdate
  deriving DecidableEq, Repr

/-- What a walk of one stage finds: the output address and its page's size in bits, the leaf entry, its level, and the
updates. -/
structure Leaf where
  out   : Nat
  bits  : Nat
  entry : Word
  level : Nat
  upds  : List AdUpdate
  deriving DecidableEq, Repr

/-! ## Entries (R261 to R264) -/

/-- The index of an address at a level (R261). -/
def xIndex (va n : Nat) : Nat := va / 2 ^ (39 - 9 * n) % 512

/-- The offset bits that a leaf at a level keeps. -/
def xBits (n : Nat) : Nat := 39 - 9 * n

/-- The output address field of an entry. -/
def xOa (e : Word) : Nat := bitsOf e 47 12 * 4096

/-- Whether an entry at a level is a leaf: a block, or any level-3 entry (R262). -/
def xIsLeaf (e : Word) (n : Nat) : Bool := n == 3 || bitsOf e 1 1 == 0

/-- The first of the kinds 2, 3 and 8 that an entry meets (R262, R263, R268): none where it is sound. -/
def xEntryFault (e : Word) (n : Nat) (stage2 : Bool) : Option Nat :=
  if bitsOf e 0 0 = 0 then some 2
  else if bitsOf e 55 48 ≠ 0 then some 3
  else if !xIsLeaf e n then (if bitsOf e 11 2 ≠ 0 then some 3 else none)
  else if n = 0 then some 3
  else if n = 3 ∧ bitsOf e 1 1 = 0 then some 3
  else if n ≠ 3 ∧ bitsOf e 11 11 = 1 then some 3
  else if bitsOf e 3 2 = 3 then some 3
  else if stage2 ∧ (bitsOf e 10 10 = 1 ∨ bitsOf e 7 7 = 1) then some 3
  else if n = 1 ∧ bitsOf e 29 12 ≠ 0 then some 8
  else if n = 2 ∧ bitsOf e 20 12 ≠ 0 then some 8
  else none

/-- Whether the 16 entries of a contiguous group agree (R264). -/
def xGroupOk (es : List Word) : Bool :=
  let key (e : Word) : Word := e &&& (bitMask 47 16 ||| bitMask 10 10 ||| bitMask 7 2)
  (List.range 16).all (fun i => match es[i]?, es[0]? with
    | some e, some e0 =>
      bitsOf e 0 0 == 1 && bitsOf e 1 1 == 1 && bitsOf e 11 11 == 1 && key e == key e0 && bitsOf e 15 12 == i
    | _, _ => false)

/-! ## Permissions (R266) -/

/-- Stage 1's final entry permits the access: in the H regime, or in mode U (0) or S (1) of the S regime. -/
def s1Permits (hReg : Bool) (mode : Nat) (sua : Bool) (acc : Access) (e : Word) : Bool :=
  let u := bitsOf e 5 5 == 1
  let w := bitsOf e 4 4 == 1
  let xs := bitsOf e 7 7 == 1
  let xu := bitsOf e 6 6 == 1
  if hReg then match acc with
    | .load => true
    | .store => w
    | .fetch => xs
  else if mode = 0 then match acc with
    | .load => u
    | .store => u && w
    | .fetch => u && xu
  else match acc with
    | .load => !u || sua
    | .store => w && (!u || sua)
    | .fetch => !u && xs

/-- Stage 2's final entry permits the access. -/
def s2Permits (acc : Access) (e : Word) : Bool :=
  match acc with
  | .load => bitsOf e 5 5 == 1
  | .store => bitsOf e 5 5 == 1 && bitsOf e 4 4 == 1
  | .fetch => bitsOf e 6 6 == 1

/-- The flags an access needs and finds clear (R267): the fault kind where hardware does not set them, and the entry
with them set. -/
def xFlags (e : Word) (store ad : Bool) : Option Nat × Word :=
  let e' := withBits (if store then withBits e 9 9 1 else e) 8 8 1
  if e' = e then (none, e)
  else if ad then (none, e')
  else if bitsOf e 8 8 = 0 then (some 5, e) else (some 6, e)

/-! ## Walks (R268, R269) -/

/-- An 8-byte walk read: of coherent memory in HBM, past the store buffer and the fold (R269). -/
def State.walkRead (s : State) (c pa : Nat) : MemAns × State :=
  if !isHbm pa then ({ err := 2 }, s)
  else
    let (a, s) := s.coreLine c (pa / 64) (coreReq c) []
    (a.bytes pa 8, s)

/-- The 16 entries of the group that holds the entry at `pa`, each read as the walk reads the entry itself (R269). -/
def State.walkGroup (s : State) (c pa n : Nat) (stage2 : Bool) : Except XErr (List Word) × State :=
  (List.range 16).foldl (fun (acc : Except XErr (List Word) × State) i =>
    match acc.1 with
    | .error _ => acc
    | .ok l =>
      let (a, s) := acc.2.walkRead c (pa / 128 * 128 + 8 * i)
      if a.err ≠ 0 then (.error (.fault { kind := 9, level := n, stage2 := stage2 }), s)
      else if a.poison then (.error (.poison (pa / 128 * 128 + 8 * i)), s)
      else (.ok (l ++ [BitVec.ofNat 64 a.val]), s)) (.ok [], s)

/-- How far the flags of a group agree: 0 where some entry has A = 0 or there is no group, 1 where some has D = 0, 2
where every entry has both (R264). -/
def xGroupFlags (es : List Word) : Nat :=
  if es.all (fun x => bitsOf x 8 8 == 1) then (if es.all (fun x => bitsOf x 9 9 == 1) then 2 else 1) else 0

/-- One entry of a walk: read and checked (kinds 9, 2, 3, 7, 8), with the flags of its group. -/
def State.walkEntry (s : State) (c pa n : Nat) (stage2 : Bool) : Except XErr (Word × Nat) × State :=
  let (a, s) := s.walkRead c pa
  if a.err ≠ 0 then (.error (.fault { kind := 9, level := n, stage2 := stage2 }), s)
  else if a.poison then (.error (.poison pa), s)
  else
    let e := BitVec.ofNat 64 a.val
    match xEntryFault e n stage2 with
    | some k => (.error (.fault { kind := k, level := n, stage2 := stage2 }), s)
    | none =>
      if n = 3 ∧ bitsOf e 11 11 = 1 then
        let (g, s) := s.walkGroup c pa n stage2
        match g with
        | .error x => (.error x, s)
        | .ok es =>
          if xGroupOk es then (.ok (e, xGroupFlags es), s)
          else (.error (.fault { kind := 7, level := n, stage2 := stage2 }), s)
      else (.ok (e, 0), s)

/-- The size a TLB may hold for a leaf, and the entry it holds: 64 KiB only where the whole group has A, and for a store
D; a group without D everywhere is held as clean (R264). -/
def xHeld (n group : Nat) (acc : Access) (e : Word) : Nat × Word :=
  if group = 2 then (16, e)
  else if group = 1 ∧ acc ≠ .store then (16, withBits e 9 9 0)
  else (xBits n, e)

/-- Mark a fault as met by a write, or while translating a stage-1 table address. -/
def XErr.mark (e : XErr) (write s1walk : Bool) (ipa : Nat) : XErr :=
  match e with
  | .fault f => .fault { f with write := f.write || write, s1walk := s1walk, ipa := ipa }
  | .poison pa => .poison pa

/-- The regime of a core's mode. -/
def CoreArch.regime (a : CoreArch) : Regime := if a.mode = 2 then .h else .s

/-- The regime, guest and ASID that tag a walk's table entries. -/
def CoreArch.walkTag (a : CoreArch) (stage2 : Bool) : Regime × Nat × Nat :=
  if stage2 then (.g2, a.csf CsFld.G2BASE_GID, 0) else (a.regime, a.guest, a.asid)

/-- A table entry that the walk cache holds. -/
def Core.walkHeld (k : Core) (stage2 : Bool) (n addr : Nat) : Option Word :=
  (k.wcache.find? (fun w => (w.regime, w.gid, w.asid) == k.arch.walkTag stage2 && w.level == n && w.addr == addr)).map
    (·.entry)

/-- The walk cache takes a table entry; of 32 the oldest leaves (R271). -/
def State.walkPut (s : State) (c : Nat) (stage2 : Bool) (n addr : Nat) (e : Word) : State :=
  s.modCore c (fun k =>
    let (r, g, a) := k.arch.walkTag stage2
    { k with wcache := (⟨r, g, a, n, addr, e⟩ :: k.wcache.filter (fun w =>
        !((w.regime, w.gid, w.asid) == (r, g, a) && w.level == n && w.addr == addr))).take 32 })

/-- A list of held translations that takes one, of at most `n`, the oldest leaving. -/
def tlbList (n : Nat) (t : TlbEntry) (l : List TlbEntry) : List TlbEntry := (t :: l.filter (fun o => o != t)).take n

/-- The set of the second-level TLB that an entry falls in; which one is not stated (DESIGN CHOICE, assumption log
170). -/
def TlbEntry.set (t : TlbEntry) : Nat := t.vpn % 256

/-- The second-level TLB takes an entry: 256 sets of 8 ways (R271). -/
def tlb2Put (t : TlbEntry) (l : List TlbEntry) : List TlbEntry :=
  tlbList 8 t (l.filter (fun o => o.set == t.set)) ++ l.filter (fun o => o.set != t.set)

/-- A stage-2 translation is held, once its entry has the flags its access needs. -/
def State.tlbPut2 (s : State) (c ipa : Nat) (l : Leaf) : State :=
  if !l.upds.isEmpty then s
  else s.modCore c (fun k =>
    let t : TlbEntry :=
      { regime := .g2, gid := k.arch.csf CsFld.G2BASE_GID, asid := 0, global := true, vpn := ipa / 2 ^ l.bits,
        bits := l.bits, base := l.out / 2 ^ l.bits * 2 ^ l.bits, mt := 0, e1 := none, e2 := some l.entry }
    { k with tlb := tlb2Put t k.tlb })

/-- The stage-2 walk of an IPA from the table at `p`, level `n`. -/
def State.walk2 (s : State) (c ipa : Nat) (acc : Access) (held : Bool) (p n : Nat) : Nat → Except XErr Leaf × State
  | 0 => (.error (.fault { kind := 3, level := n, stage2 := true }), s)
  | fuel + 1 =>
    let pa := p + 8 * xIndex ipa n
    match (if held then (s.core c).walkHeld true n pa else none) with
    | some e => s.walk2 c ipa acc held (xOa e) (n + 1) fuel
    | none =>
      let (r, s) := s.walkEntry c pa n true
      match r with
      | .error e => (.error e, s)
      | .ok (e, whole) =>
        if !xIsLeaf e n then (s.walkPut c true n pa e).walk2 c ipa acc held (xOa e) (n + 1) fuel
        else if !s2Permits acc e then (.error (.fault { kind := 4, level := n, stage2 := true }), s)
        else
          let (k, e') := xFlags e (acc == .store) ((s.core c).arch.csf CsFld.G2CTL_AD == 1)
          match k with
          | some k => (.error (.fault { kind := k, level := n, stage2 := true }), s)
          | none =>
            let (bits, h) := xHeld n whole acc e'
            (.ok ⟨xOa e / 2 ^ xBits n * 2 ^ xBits n + ipa % 2 ^ xBits n, bits, h, n,
                  if e' = e then [] else [{ pa := pa, old := e, new := e', level := n, stage2 := true, ipa := ipa }]⟩, s)

/-- Stage 2 of an IPA (R268): the identity where the stage is absent; a held entry, or a walk. -/
def State.stage2 (s : State) (c ipa : Nat) (acc : Access) (write s1walk useTlb : Bool) : Except XErr Leaf × State :=
  let a := (s.core c).arch
  if a.csf CsFld.G2CTL_EN = 0 ∨ a.mode = 2 then (.ok ⟨ipa, 48, 0, 0, []⟩, s)
  else
    let gid := a.csf CsFld.G2BASE_GID
    match (if useTlb then (s.core c).tlb.find? (fun t =>
        t.regime == .g2 && t.gid == gid && t.vpn == ipa / 2 ^ t.bits &&
        (match t.e2 with
         | some e => s2Permits acc e && (xFlags e (acc == .store) false).1.isNone
         | none => false)) else none) with
    | some t => (.ok ⟨t.base + ipa % 2 ^ t.bits, t.bits, t.e2.getD 0, 0, []⟩, s)
    | none =>
      let (r, s) := s.walk2 c ipa acc useTlb (a.csf CsFld.G2BASE_TBASE * 4096) 0 4
      match r with
      | .error e => (.error (e.mark write s1walk ipa), s)
      | .ok l => (.ok { l with upds := l.upds.map (fun u => { u with s1walk := s1walk }) }, s.tlbPut2 c ipa l)

/-- The stage-1 walk of a virtual address: `p` is the table's address before stage 2 (R268). -/
def State.walk1 (s : State) (c va : Nat) (acc : Access) (hReg useTlb : Bool) (p n : Nat) :
    Nat → Except XErr Leaf × State
  | 0 => (.error (.fault { kind := 3, level := n }), s)
  | fuel + 1 =>
    let a := (s.core c).arch
    let at_ := p + 8 * xIndex va n
    match (if useTlb then (s.core c).walkHeld false n at_ else none) with
    | some e => s.walk1 c va acc hReg useTlb (xOa e) (n + 1) fuel
    | none =>
      let (t, s) := s.stage2 c p .load false true useTlb
      match t with
      | .error e => (.error e, s)
      | .ok lt =>
        let (r, s) := s.walkEntry c (lt.out + 8 * xIndex va n) n false
        match r with
        | .error e => (.error e, s)
        | .ok (e, whole) =>
          if !xIsLeaf e n then
            let s := if lt.upds.isEmpty then s.walkPut c false n at_ e else s
            let (r, s) := s.walk1 c va acc hReg useTlb (xOa e) (n + 1) fuel
            match r with
            | .error e => (.error e, s)
            | .ok l => (.ok { l with upds := lt.upds ++ l.upds }, s)
          else if !s1Permits hReg a.mode.toNat (a.csf CsFld.STCTL_SUA == 1) acc e then
            (.error (.fault { kind := 4, level := n }), s)
          else
            let ad := if hReg then a.csf CsFld.HTCTL_AD else a.csf CsFld.STCTL_AD
            let (k, e') := xFlags e (acc == .store) (ad == 1)
            let (bits, h) := xHeld n whole acc e'
            let out := xOa e / 2 ^ xBits n * 2 ^ xBits n + va % 2 ^ xBits n
            match k with
            | some k => (.error (.fault { kind := k, level := n }), s)
            | none =>
              if e' = e then (.ok ⟨out, bits, h, n, lt.upds⟩, s)
              else
                let (w, s) := s.stage2 c at_ .store true true useTlb
                match w with
                | .error e => (.error e, s)
                | .ok lw => (.ok ⟨out, bits, h, n, lt.upds ++ lw.upds ++
                    [{ pa := lw.out, old := e, new := e', level := n, stage2 := false }]⟩, s)

/-! ## Regimes and the whole translation (R257, R258, R265, R270) -/

/-- The floor of a physical region (R265). An unmapped address has none: the access meets the address-map error instead
(R20). -/
def mtFloor (pa : Nat) : Nat := if isCsr pa then 2 else if isGranary pa || isSpinnerMem pa then 1 else 0

/-- Whether an effective address is canonical. -/
def canonical (ea : Word) : Bool := bitsOf ea 63 47 == 0 || bitsOf ea 63 47 == 2 ^ 17 - 1

/-- A final translation is held for fetch or for data, and in the second-level TLB (R271). -/
def State.tlbPut (s : State) (c : Nat) (acc : Access) (t : TlbEntry) : State :=
  s.modCore c (fun k => { k with
    itlb := if acc = .fetch then tlbList 64 t k.itlb else k.itlb
    dtlb := if acc = .fetch then k.dtlb else tlbList 64 t k.dtlb
    tlb := tlb2Put t k.tlb })

/-- A walk of both stages for an access, and the entry that it may install. -/
def State.xWalk (s : State) (c : Nat) (ea : Word) (acc : Access) (useTlb : Bool) :
    Except XErr (XOk × Option TlbEntry) × State :=
  let a := (s.core c).arch
  let hReg := a.mode == 2
  let en1 := if hReg then a.csf CsFld.HTCTL_EN == 1 else a.csf CsFld.STCTL_EN == 1
  let en2 := !hReg && a.csf CsFld.G2CTL_EN == 1
  let va := bitsOf ea 47 0
  let s := s.pmCore c 0x15 1
  if en1 && !canonical ea || !en1 && bitsOf ea 63 48 != 0 then (.error (.fault { kind := 1, level := 0 }), s)
  else
    let p := if hReg then a.csf CsFld.HTBASE_TBASE * 4096 else a.csf CsFld.STBASE_TBASE * 4096
    let (r1, s) : Except XErr Leaf × State :=
      if en1 then s.walk1 c va acc hReg useTlb p 0 4 else (.ok ⟨va, 48, 0, 0, []⟩, s)
    match r1 with
    | .error e => (.error (e.mark (acc == .store) (match e with | .fault f => f.s1walk | _ => false)
                    (match e with | .fault f => f.ipa | _ => 0)), s)
    | .ok l1 =>
      let (r2, s) := s.stage2 c l1.out acc (acc == .store) false useTlb
      match r2 with
      | .error e => (.error e, s)
      | .ok l2 =>
        let mt := max (if en1 then bitsOf l1.entry 3 2 else 0) (if en2 then bitsOf l2.entry 3 2 else 0)
        let eff := max mt (mtFloor l2.out)
        if acc = .fetch ∧ eff = 2 then (.error (.fault { kind := 4, level := if en1 then l1.level else l2.level }), s)
        else
          let bits := min l1.bits l2.bits
          let e : TlbEntry :=
            { regime := if hReg then .h else .s, gid := a.guest, asid := a.asid, global := bitsOf l1.entry 10 10 == 1,
              vpn := va / 2 ^ bits, bits := bits, base := l2.out / 2 ^ bits * 2 ^ bits, mt := mt,
              e1 := if en1 then some l1.entry else none, e2 := if en2 then some l2.entry else none }
          (.ok (⟨l2.out, eff, l1.upds ++ l2.upds⟩, if en1 || en2 then some e else none), s)

/-- A held final translation serves an access: its tags are the current ones, it was made with the stages that are enabled
now (R260), and it permits the access and has its flags (R270 to R273). -/
def TlbEntry.serves (t : TlbEntry) (a : CoreArch) (ea : Word) (acc : Access) : Bool :=
  let hReg := a.mode == 2
  let en1 := if hReg then a.csf CsFld.HTCTL_EN == 1 else a.csf CsFld.STCTL_EN == 1
  let en2 := !hReg && a.csf CsFld.G2CTL_EN == 1
  t.regime == a.regime && t.gid == a.guest && (t.global || t.asid == a.asid) && t.vpn == bitsOf ea 47 0 / 2 ^ t.bits &&
  (match t.e1 with
   | some e => en1 && s1Permits hReg a.mode.toNat (a.csf CsFld.STCTL_SUA == 1) acc e && (xFlags e (acc == .store) false).1.isNone
   | none => !en1) &&
  (match t.e2 with
   | some e => en2 && s2Permits acc e && (xFlags e (acc == .store) false).1.isNone
   | none => !en2)

/-- The entry that serves an access: the first level's, else the second level's. -/
def Core.tlbHit (k : Core) (ea : Word) (acc : Access) : Option TlbEntry :=
  ((if acc = .fetch then k.itlb else k.dtlb).find? (fun t => t.serves k.arch ea acc)).or
    (k.tlb.find? (fun t => t.serves k.arch ea acc))

/-- A translation that serves an access is held in the first level too. -/
def State.tlbKeep (s : State) (c : Nat) (acc : Access) (t : TlbEntry) : State :=
  s.modCore c (fun k =>
    if acc = .fetch then (if k.itlb.contains t then k else { k with itlb := tlbList 64 t k.itlb })
    else if k.dtlb.contains t then k else { k with dtlb := tlbList 64 t k.dtlb })

/-- The effective type of what a held translation gives. -/
def TlbEntry.eff (t : TlbEntry) (ea : Word) : Nat := max t.mt (mtFloor (t.base + bitsOf ea 47 0 % 2 ^ t.bits))

/-- A walk for an access that no held entry serves: a fault that it meets by way of held entries is not raised as it stands,
and the core walks again without them (R270). `again` is such a second walk. -/
def State.xlateWalk (s : State) (c : Nat) (ea : Word) (acc : Access) (again : Bool) : Except XErr XOk × State :=
  let (r, s') := s.xWalk c ea acc (!again)
  let (r, s) := match r with
    | .ok _ => (r, s')
    | .error _ => if again then (r, s') else s.xWalk c ea acc false
  match r with
  | .ok (x, some e) => (.ok x, if x.upds.isEmpty then s.tlbPut c acc e else s)
  | .ok (x, none) => (.ok x, s)
  | .error e => (.error e, s)

/-- The translation of an access (R257, R258, R270): by a held entry, or by a walk; a fault is raised only by a walk that
ignores every held entry. -/
def State.xlate (s : State) (c : Nat) (ea : Word) (acc : Access) : Except XErr XOk × State :=
  let k := s.core c
  let en1 := if k.arch.mode = 2 then k.arch.csf CsFld.HTCTL_EN == 1 else k.arch.csf CsFld.STCTL_EN == 1
  let en2 := k.arch.mode != 2 && k.arch.csf CsFld.G2CTL_EN == 1
  let pa := bitsOf ea 47 0
  if !en1 && !en2 then
    if bitsOf ea 63 48 ≠ 0 ∨ (acc = .fetch ∧ mtFloor pa = 2) then
      (.error (.fault { kind := if bitsOf ea 63 48 ≠ 0 then 1 else 4, level := 0, write := acc == .store }), s)
    else (.ok ⟨pa, mtFloor pa, []⟩, s)
  else if !(if en1 then canonical ea else bitsOf ea 63 48 == 0) then
    (.error (.fault { kind := 1, level := 0, write := acc == .store }), s)
  else match k.tlbHit ea acc with
    | some t =>
      if acc = .fetch ∧ t.eff ea = 2 then s.xlateWalk c ea acc true
      else (.ok ⟨t.base + pa % 2 ^ t.bits, t.eff ea, []⟩, s.tlbKeep c acc t)
    | none => s.xlateWalk c ea acc false

/-- What an update of an entry's flags comes to: made, the entry has changed, or an error response. -/
inductive AdOut where
  | made | changed | failed
  deriving DecidableEq, Repr

/-- An update of an entry's flags: an 8-byte atomic write that is made only while the entry holds what the walk read
(R267). -/
def State.adWrite (s : State) (c : Nat) (u : AdUpdate) (q : FwReq) : AdOut × State :=
  let (a, s) := s.walkRead c u.pa
  if a.err ≠ 0 ∨ a.poison ∨ BitVec.ofNat 64 a.val ≠ u.old then (.changed, s)
  else
    let (e, s) := s.coreWrite c (u.pa / 64) (byteMask (u.pa % 64) 8) (lineOf (u.pa % 64) 8 u.new.toNat) q
    (if e = 0 then .made else .failed, s)

/-- The updates of an access, in order, up to the first that is not made, with that one; those that are made are noted until
the instruction retires (R227). -/
def State.adWrites (s : State) (c : Nat) : List (Word × AdUpdate) → AdOut × Option (Word × AdUpdate) × State
  | [] => (.made, none, s)
  | (ea, u) :: us =>
    let (o, s) := s.adWrite c u (coreReq c)
    if o = .made then (s.modCore c (fun k => { k with adMade := (u.pa, u.old, u.new) :: k.adMade })).adWrites c us
    else (o, some (ea, u), s)

/-- The flag updates of an instruction that does not retire are undone, the latest first, but for the oldest `keep`; no entry
of a TLB then holds flags that the tables do not (R227, R267). -/
def State.adUndo (s : State) (c keep : Nat) : State :=
  let l := (s.core c).adMade
  let gone := l.take (l.length - keep)
  if gone.isEmpty then s
  else
    gone.foldl (fun s u =>
        (s.adWrite c { pa := u.1, old := u.2.2, new := u.2.1, level := 0, stage2 := false } (coreReq c)).2)
      (s.modCore c (fun k => { k with adMade := l.drop (l.length - keep), itlb := [], dtlb := [], tlb := [] }))

/-- DETAIL of a translation fault (R270). -/
def XFault.detail (f : XFault) : Nat :=
  bit f.write * 128 + bit f.s1walk * 64 + f.level * 16 + f.kind

/-- TRANSLATION_WALK: a walk for an access reads the tables and installs what it finds, for a speculative access only
while NOSPEC_TW is clear, and then with no flag update and no fault (R227, R268, R270). -/
def execTranslationWalk (c : CoreId) (ea : Word) (acc : Access) (speculative : Bool) (s : State) : Result :=
  let k := s.core c.val
  if !(s.islOpen (coreIsland c.val) && k.run == .running) ∨
      (speculative ∧ k.arch.csf CsFld.SPECCTL_NOSPEC_TW = 1) then .next s
  else
    let (r, s) := s.xWalk c.val ea acc false
    .next (match r with
      | .ok (x, some e) => if x.upds.isEmpty then s.tlbPut c.val acc e else s
      | _ => s)

/-! ## Invalidations (R274 to R278) -/

/-- Whether an invalidation removes an entry: CSN[7:0], the operand and the issuer's guest and ASID operand (R275). -/
def tlbiCovers (op : Nat) (ra : Word) (guest : Nat) (t : TlbEntry) : Bool :=
  let page := bitsOf ra 47 12
  let hits := t.vpn == page * 4096 / 2 ^ t.bits
  match op with
  | 0x00 => true
  | 0x01 => t.regime != .h && t.gid == bitsOf ra 11 0
  | 0x02 => (t.regime == .g2 && t.gid == guest && hits) || (t.regime == .s && t.gid == guest)
  | 0x03 => t.regime == .h
  | 0x04 => t.regime == .h && hits
  | 0x10 => t.regime == .s && t.gid == guest
  | 0x11 => t.regime == .s && t.gid == guest && t.asid == bitsOf ra 15 0 && !t.global
  | 0x12 => t.regime == .s && t.gid == guest && hits && (t.global || t.asid == bitsOf ra 63 48)
  | 0x13 => t.regime == .s && t.gid == guest && hits
  | _ => false

/-- A context tag's predictor entries that an invalidation removes (R223, R225, R275): mode, guest and ASID of the
tag. The spec does not say whether an H-mode tag, whose guest and ASID parts are zero, carries guest 0 and ASID 0: here the
forms that name a guest or an ASID leave it (DESIGN CHOICE, assumption log 336). -/
def predCovers (op : Nat) (ra : Word) (guest tag : Nat) : Bool :=
  let mode := tag / 2 ^ 28
  let gid := tag / 2 ^ 16 % 4096
  let asid := tag % 2 ^ 16
  match op with
  | 0x00 => true
  | 0x01 => mode != 2 && gid == bitsOf ra 11 0
  | 0x03 => mode == 2
  | 0x10 => mode != 2 && gid == guest
  | 0x11 => mode != 2 && gid == guest && asid == bitsOf ra 15 0
  | _ => false

/-- The table entries of a walk cache that an invalidation removes: those of the regime and guest it names (R275). -/
def walkCovers (op : Nat) (ra : Word) (guest : Nat) (w : WalkEntry) : Bool :=
  if op = 0x00 then true
  else if op = 0x01 then w.regime != .h && w.gid == bitsOf ra 11 0
  else if op = 0x02 then w.regime != .h && w.gid == guest
  else if op = 0x03 ∨ op = 0x04 then w.regime == .h
  else w.regime == .s && w.gid == guest

/-- Every entry of a core's TLBs, walk cache and predictor becomes invalid (R277). -/
def Core.dropHeld (k : Core) : Core :=
  { k with itlb := [], dtlb := [], tlb := [], wcache := [], ras := [], btb := [], ibp := [], dir := [],
           brCkpts := k.brCkpts.map (fun b => { b with ras := [] }) }

/-- An invalidation performed at a core (R225, R275, R276). -/
def State.tlbiAt (s : State) (c op : Nat) (ra : Word) (guest : Nat) : State :=
  (s.endEarly c).modCore c (fun k => { k with
    itlb := k.itlb.filter (fun t => !tlbiCovers op ra guest t)
    dtlb := k.dtlb.filter (fun t => !tlbiCovers op ra guest t)
    tlb := k.tlb.filter (fun t => !tlbiCovers op ra guest t)
    wcache := k.wcache.filter (fun w => !walkCovers op ra guest w)
    ras := k.ras.filter (fun e => !predCovers op ra guest e.2)
    brCkpts := k.brCkpts.map (fun b => { b with ras := b.ras.filter (fun e => !predCovers op ra guest e.2) })
    btb := k.btb.filter (fun e => !predCovers op ra guest e.ctx)
    ibp := k.ibp.filter (fun e => !predCovers op ra guest e.ctx)
    dir := if op = 0 then [] else k.dir })

end Sys2Proof.Machine
end

