-- ==== Sys2Proof/Machine/Trace.lean ====
section
/-!
DEFINITION. The trace encoders and the trace sink (R542 to R557): packets, blocks, capture, triggers and the ring.
-/

namespace Sys2Proof.Machine

/-! ## What is traced (R544, R552) -/

/-- The sink captures: STATE is RUN or TRIGGERED. -/
def State.sinkOn (s : State) : Bool :=
  let st := s.fld Fld.TR_SINK_STAT_STATE 0
  st == 1 || st == 2

/-- A core's context as CONTEXT reports it: mode, guest and ASID. -/
def CoreArch.context (a : CoreArch) : Nat := a.mode.toNat * 2 ^ 28 + a.guest * 2 ^ 16 + a.asid

/-- A core's encoder may emit at all: the sink captures, and of a group it is the primary's (R367, R544, R552). -/
def State.traceMay (s : State) (c : Nat) : Bool :=
  s.sinkOn && (match s.groupOf c with
    | some g => s.groupPrimary g == c
    | none => true)

/-- A core is traced in its current mode (R544, R552). -/
def State.traced (s : State) (c : Nat) : Bool :=
  let a := (s.core c).arch
  let on := if a.mode = 0 then a.csf CsFld.TRCTL_U == 1
    else if a.mode = 1 then a.csf CsFld.TRCTL_S == 1 && s.flag Fld.TR_AUTH_TRACE_S 0
    else a.csf CsFld.TRCTL_H == 1 && s.flag Fld.TR_AUTH_TRACE_H 0
  let filt := a.csf CsFld.TRCTL_FILT == 0 ||
    (a.asid == a.csf CsFld.TRCTL_ASID && a.guest == a.csf CsFld.TRCTL_GID)
  s.traceMay c && on && filt

/-! ## Packets and blocks (R545, R548 to R550) -/

/-- `n` bytes of a number, low first. -/
def bytesLE (v : Nat) : Nat → List Byte
  | 0 => []
  | n + 1 => BitVec.ofNat 8 v :: bytesLE (v / 256) n

/-- Close the block being filled, if it holds anything (R549). -/
def TraceEnc.close (t : TraceEnc) : TraceEnc :=
  if t.cur.isEmpty then t else { t with closed := t.closed ++ [t.cur], cur := [] }

/-- Put one packet: numbered, in the block if it fits, or in a new one. Where four blocks wait it is lost, unless `stall` holds
the core for it (R548 to R550). -/
def TraceEnc.put (t : TraceEnc) (stall : Bool) (type info : Nat) (body : List Byte) : TraceEnc :=
  let p : List Byte := BitVec.ofNat 8 (type * 16 + info) :: BitVec.ofNat 8 t.seq :: body
  let t := { t with seq := (t.seq + 1) % 2 ^ 32 }
  let t := if 62 < t.cur.length + p.length then t.close else t
  if 4 ≤ t.closed.length ∧ !stall then { t with lost := min 65535 (t.lost + 1) }
  else { t with cur := t.cur ++ p, since := t.since + p.length }

/-- SYNC or RESYNC (R545): pc and context, and the upper bits of its own number. -/
def TraceEnc.sync (t : TraceEnc) (stall : Bool) (type : Nat) (a : CoreArch) : TraceEnc :=
  let body := bytesLE a.pc.toNat 6 ++ [BitVec.ofNat 8 a.mode.toNat] ++ bytesLE a.asid 2 ++ bytesLE a.guest 2 ++
    bytesLE (t.seq / 256) 3
  { t.put stall type 0 body with since := 0, on := true, lastPc := a.pc, ctx := a.context }

/-- The atoms that wait go out as one packet (R546). -/
def TraceEnc.flush (t : TraceEnc) (stall : Bool) : TraceEnc :=
  if t.atoms.isEmpty then t
  else
    let bits := t.atoms.foldr (fun b n => b.toNat + 2 * n) 0
    { t with atoms := [] }.put stall 2 t.atoms.length [BitVec.ofNat 8 bits]

/-- Where packets were lost and there is space again: OVERFLOW, and SYNC (R546, R550). -/
def TraceEnc.recover (t : TraceEnc) (stall : Bool) (a : CoreArch) : TraceEnc :=
  if t.lost ≠ 0 ∧ t.closed.length < 4 then ({ t with lost := 0 }.put stall 0xB 0 (bytesLE t.lost 2)).sync stall 1 a else t

/-- Any packet but ATOMS: the atoms first, and what a loss before it asks for (R546, R550). -/
def TraceEnc.emit (t : TraceEnc) (stall : Bool) (a : CoreArch) (type info : Nat) (body : List Byte) : TraceEnc :=
  ((t.flush stall).recover stall a).put stall type info body

/-- A core that is not traced: its encoder emits nothing before the SYNC with which tracing resumes (R544, R546). -/
def TraceEnc.off (t : TraceEnc) : TraceEnc := { t with on := false }

/-- Change a core's encoder; the flag says whether a full buffer holds the core (R550). -/
def State.modTrace (s : State) (c : Nat) (f : Bool → CoreArch → TraceEnc → TraceEnc) : State :=
  let stall := s.flag Fld.TR_SINK_CTL_STALL 0
  s.modCore c (fun k => { k with trace := f stall k.arch k.trace })

/-- Before anything that a core reports: SYNC where capture or tracing has just begun, and after each SYNCP KiB of
output (R546); a core that is not traced leaves off. -/
def State.traceBegin (s : State) (c : Nat) : State :=
  let t := (s.core c).trace
  if s.traced c then
    let p := max 1 (s.fld Fld.TR_SINK_CTL_SYNCP 0)
    if !t.on || decide (p * 1024 ≤ t.since) then s.modTrace c (fun st a t => (t.flush st).sync st 1 a) else s
  else if t.on then s.modTrace c (fun _ _ t => t.off)
  else s

/-- A core is traced, and has been since its latest SYNC. -/
def State.tracing (s : State) (c : Nat) : Bool := s.traced c && (s.core c).trace.on

/-- A conditional branch adds an atom (R546). -/
def State.traceAtom (s : State) (c : Nat) (taken : Bool) : State :=
  if !s.tracing c then s
  else s.modTrace c (fun st a t =>
    let t := { t with atoms := t.atoms ++ [taken] }
    if 8 ≤ t.atoms.length then (t.flush st).recover st a else t)

/-- The fewest low bytes that turn the last pc into the target (R546). -/
def targetBytes (last target : BitVec 48) : Nat :=
  ((List.range 6).find? (fun k => last.toNat / 2 ^ (8 * (k + 1)) == target.toNat / 2 ^ (8 * (k + 1)))).getD 5 + 1

/-- An indirect branch, `eret` or an entry of a traced core reports its target (R546, R547). -/
def State.traceTarget (s : State) (c : Nat) (pc : BitVec 48) : State :=
  if !s.tracing c then s
  else s.modTrace c (fun st a t =>
    let k := targetBytes t.lastPc pc
    { t.emit st a 3 k (bytesLE pc.toNat k) with lastPc := pc })

/-- A comparator's trigger: TRIGGER, which closes the block (R549, R559). -/
def State.traceTrigger (s : State) (c i : Nat) : State :=
  if !s.tracing c then s else s.modTrace c (fun st a t => (t.emit st a 9 i []).close)

/-- A traced core enters a mode, or a context, that is not traced: EXCLUDE (R547), from an encoder that may emit. -/
def State.traceExclude (s : State) (c : Nat) : State :=
  let may := s.traceMay c
  s.modTrace c (fun st a t => (if may then t.emit st a 0xA a.mode.toNat [] else t).off)

/-- A change of mode, ASID or guest: CONTEXT, where the new context is traced; EXCLUDE, where the new mode is not
(R546, R547). -/
def State.traceContext (s : State) (c : Nat) : State :=
  let k := s.core c
  if !k.trace.on then s
  else if k.trace.ctx = k.arch.context then s
  else if s.traced c then
    s.modTrace c (fun st a t =>
      { t.emit st a 5 a.mode.toNat (bytesLE a.asid 2 ++ bytesLE a.guest 2 ++ [0, 0]) with ctx := a.context })
  else s.traceExclude c

/-- An exception, interrupt or machine-check entry of a core that was traced: EXC, then TARGET with the vector address,
or EXCLUDE where the new mode is not traced (R546, R547). A core that was not traced begins with SYNC at its next
instruction. -/
def State.traceExc (s : State) (c vec : Nat) (int : Bool) : State :=
  if !(s.core c).trace.on then s
  else
    let s := s.modTrace c (fun st a t => t.emit st a 4 0 [BitVec.ofNat 8 vec, BitVec.ofNat 8 (bit int)])
    if s.traced c then (s.traceTarget c (s.core c).arch.pc).traceContext c else s.traceExclude c

/-- A halt: HALT, which closes the block (R546, R549). -/
def State.traceHalt (s : State) (c cause : Nat) : State :=
  let s := s.traceBegin c
  if !s.tracing c then s else s.modTrace c (fun st a t => (t.emit st a 0xC cause []).close.off)

/-- Retention entry: SLEEP, which closes the block (R549, R551). -/
def State.traceSleep (s : State) (c : Nat) : State :=
  let s := s.traceBegin c
  if !s.tracing c then s else s.modTrace c (fun st a t => (t.emit st a 6 0 []).close)

/-- Retention exit: RESYNC (R551). -/
def State.traceResync (s : State) (c : Nat) : State :=
  if !s.traced c then s else s.modTrace c (fun st a t => (t.flush st).sync st 7 a)

/-- A rollback: a ROLLBACK for each of the `k` instars from `n` on that are discarded, after SYNC where the encoder is a new
primary's (R367, R552). -/
def State.traceRollback (s : State) (c n k : Nat) : State :=
  let s := s.traceBegin c
  if !s.tracing c then s
  else s.modTrace c (fun st a t => (List.range k).foldl (fun t i => t.emit st a 8 0 (bytesLE (n + i) 2)) t)

/-- With STALL = 1 a full buffer holds retirement (R550). -/
def State.traceStalls (s : State) (c : Nat) : Bool :=
  s.flag Fld.TR_SINK_CTL_STALL 0 && s.traced c && 4 ≤ (s.core c).trace.closed.length

/-- What a core does next can meet no full buffer that would hold it: STALL is 0, the core is not traced, or no block waits. -/
def State.traceRoom (s : State) (c : Nat) : Bool :=
  !s.flag Fld.TR_SINK_CTL_STALL 0 || !s.traced c || (s.core c).trace.closed.isEmpty

/-- Under STALL = 1 an instruction of a core whose buffer holds blocks leads from `s` to `t`, and a packet of it has found the
buffer full: its retirement is held until space returns (R550). -/
def State.traceHeld (s t : State) (c : Nat) : Bool :=
  !s.traceRoom c && 4 < (t.core c).trace.closed.length + bit (!(t.core c).trace.cur.isEmpty)

/-! ## The sink (R553 to R557) -/

/-- Who may write the sink's control and base. -/
def State.sinkAccepts (s : State) (src : Src) : Bool := s.srcSys src || src == .cocoon

/-- The status of a write to the sink's registers. -/
def State.sinkStatus (s : State) (st : Nat) : State := s.setFld Fld.TR_SINK_STAT_LAST_STATUS 0 st

/-- The ring's base and size in bytes. -/
def State.ringBase (s : State) : Nat := s.fld Fld.TR_SINK_BASE_BASE 0 * 4096
def ringSize (size : Nat) : Nat := 2 ^ (12 + size)

/-- Whether EN is refused for a KIND (R554). -/
def State.sinkBad (s : State) (kind size : Nat) : Bool :=
  let b := s.ringBase
  let n := ringSize size
  if kind = 1 then !(isGranary b && isGranary (b + n - 1) && granBank b == granBank (b + n - 1))
  else if kind = 2 then !(b % n == 0 && isHbm b && isHbm (b + n - 1))
  else if kind = 3 then s.fld Fld.BT_LOWN_FUNC 17 != 2
  else false

/-- Capture starts: the ring from its base, and every encoder with SYNC (R546, R554). -/
def State.sinkBegin (s : State) : State :=
  let s := ((s.setFld Fld.TR_SINK_STAT_WPTR 0 0).setFld Fld.TR_SINK_STAT_WRAP 0 0).setFld Fld.TR_SINK_STAT_STATE 0 1
  { s with cores := s.cores.map (fun e => (e.1, { e.2 with trace := e.2.trace.off })) }

/-- A trigger in RUN: POST blocks more, and with POST = 0 none (R556). -/
def State.sinkTrigger (s : State) : State :=
  let post := s.fld Fld.TR_SINK_CTL_POST 0
  { s.setFld Fld.TR_SINK_STAT_STATE 0 (if post = 0 then 3 else 2) with sinkPost := post }

/-- A write to TR_SINK_CTL (R553, R554, R556). EN = 1 starts capture where it does not run; in a write of TRIG, which changes
nothing in any state but RUN, only where EN was 0 (DEDUCED, assumption log 340). -/
def State.sinkWrite (s : State) (src : Src) (v : Word) : State :=
  let st := s.fld Fld.TR_SINK_STAT_STATE 0
  let busy := st == 1 || st == 2
  let kind := Fld.TR_SINK_CTL_KIND.of v
  let size := Fld.TR_SINK_CTL_SIZE.of v
  let en := Fld.TR_SINK_CTL_EN.of v
  let starts := en == 1 && !busy && !(Fld.TR_SINK_CTL_TRIG.of v == 1 && s.flag Fld.TR_SINK_CTL_EN 0)
  if !s.sinkAccepts src then s.sinkStatus stDenied
  else if busy && (kind != s.fld Fld.TR_SINK_CTL_KIND 0 || size != s.fld Fld.TR_SINK_CTL_SIZE 0) then s.sinkStatus stBusy
  else if starts && s.sinkBad kind size then s.sinkStatus stDenied
  else
    let s := (s.codeWrite .TR_SINK_CTL 0 v).sinkStatus stOk
    let s := if Fld.TR_SINK_CTL_SYNCP.of v = 0 then s.setFld Fld.TR_SINK_CTL_SYNCP 0 1 else s
    let s := if en = 0 then s.setFld Fld.TR_SINK_STAT_STATE 0 0 else if starts then s.sinkBegin else s
    if Fld.TR_SINK_CTL_TRIG.of v = 1 ∧ s.fld Fld.TR_SINK_STAT_STATE 0 = 1 then s.sinkTrigger else s

/-- SINK_START: EN = 1 (R554). -/
def execSinkStart (src : Src) (v : Word) (s : State) : Result :=
  .next (s.csrPort src .TR_SINK_CTL 0 (fun s => s.sinkWrite src (withBits (withBits v 0 0 1) 8 8 0)))

/-- SINK_STOP: EN = 0 (R554). -/
def execSinkStop (src : Src) (v : Word) (s : State) : Result :=
  .next (s.csrPort src .TR_SINK_CTL 0 (fun s => s.sinkWrite src (withBits (withBits v 0 0 0) 8 8 0)))

/-- SINK_TRIGGER: TRIG = 1, with EN as it stands (R556). -/
def execSinkTrigger (src : Src) (v : Word) (s : State) : Result :=
  .next (s.csrPort src .TR_SINK_CTL 0 (fun s =>
    s.sinkWrite src (withBits (withBits v 0 0 (s.fld Fld.TR_SINK_CTL_EN 0)) 8 8 1)))

/-- A write to TR_SINK_BASE (R553, R554). -/
def State.sinkBaseWrite (s : State) (src : Src) (v : Word) : State :=
  if !s.sinkAccepts src then s.sinkStatus stDenied
  else if s.sinkOn && Fld.TR_SINK_BASE_BASE.of v != s.fld Fld.TR_SINK_BASE_BASE 0 then s.sinkStatus stBusy
  else (s.codeWrite .TR_SINK_BASE 0 v).sinkStatus stOk

/-- A block of 64 bytes as the sink writes it: the core, FILL, the packets, PAD (R549). -/
def blockBytes (c : Nat) (body : List Byte) : List Byte :=
  let b := BitVec.ofNat 8 c :: BitVec.ofNat 8 body.length :: body
  b ++ List.replicate (64 - b.length) 0

/-- The length of a packet by its header byte (R545). -/
def packetLen (h : Byte) : Nat :=
  match h.toNat / 16 with
  | 0 => 1
  | 1 => 16
  | 2 => 3
  | 3 => 2 + h.toNat % 16
  | 4 => 4
  | 5 => 8
  | 7 => 16
  | 8 => 4
  | 0xB => 4
  | _ => 2

/-- Whether a block carries a TRIGGER packet, packet by packet (R545, R549); the number bounds the packets. -/
def packetsTrigger (body : List Byte) : Nat → Bool
  | 0 => false
  | n + 1 =>
    match body with
    | [] => false
    | h :: r => h.toNat / 16 == 9 || packetsTrigger (r.drop (packetLen h - 1)) n

def blockTriggers (body : List Byte) : Bool := packetsTrigger body body.length

/-- A number from bytes, low first. -/
def leBytes (bs : List Byte) : Nat := bs.foldr (fun b n => b.toNat + 256 * n) 0

/-- The sink writes a block at WPTR, in one write (R555, R557): whether it was written. KIND 3 is checked at the start of
capture only: where BT_LOWN_17 leaves 2 afterwards, the blocks go on counting as sent (DESIGN CHOICE, assumption log 332). -/
def State.sinkPut (s : State) (bs : List Byte) : Bool × State :=
  let kind := s.fld Fld.TR_SINK_CTL_KIND 0
  let w := s.fld Fld.TR_SINK_STAT_WPTR 0
  if kind = 0 then (false, s)
  else if kind = 3 then (true, s.setFld Fld.TR_SINK_STAT_WPTR 0 (w + 1))
  else
    let a := s.ringBase + 64 * w
    let v := leBytes bs
    let (e, s) : Nat × State :=
      if kind = 1 then
        let (e, s) := s.granCheck .sink false a true
        (e, if e = 0 then s.granStoreMask (srcId .sink) a (BitVec.allOnes 64) (BitVec.ofNat 512 v) false else s)
      else s.physWrite .sink false a 64 v
    if e ≠ 0 then
      (false, (s.setFld Fld.TR_SINK_STAT_STATE 0 4).logErr { unit := 253, sev := 0, type := 0x39, addr := some a })
    else
      let n := ringSize (s.fld Fld.TR_SINK_CTL_SIZE 0) / 64
      if w + 1 = n then (true, (s.setFld Fld.TR_SINK_STAT_WPTR 0 0).setFld Fld.TR_SINK_STAT_WRAP 0 1)
      else (true, s.setFld Fld.TR_SINK_STAT_WPTR 0 (w + 1))

/-- TRACE_BLOCK_WRITE: the oldest closed block of a core reaches the sink (R549, R554 to R556). -/
def execTraceBlockWrite (c : CoreId) (s : State) : Result :=
  match (s.core c.val).trace.closed with
  | [] => .next s
  | b :: r =>
    let s := s.modTrace c.val (fun _ _ t => { t with closed := r })
    let st := s.fld Fld.TR_SINK_STAT_STATE 0
    .next (if !s.sinkOn then s.satField Fld.TR_SINK_STAT_DROPPED 0
      else
        let (ok, s) := s.sinkPut (blockBytes c.val b)
        if !ok then s
        else if st = 2 then
          if s.sinkPost ≤ 1 then { s.setFld Fld.TR_SINK_STAT_STATE 0 3 with sinkPost := 0 }
          else { s with sinkPost := s.sinkPost - 1 }
        else if blockTriggers b then s.sinkTrigger
        else s)

end Sys2Proof.Machine
end

