-- ==== Sys2Proof/Machine/Entry.lean ====
section
/-!
DEFINITION. What ends an instar (R342 to R346, R354), the windows of both rings (R191 to R196), and the one operation
by which a core enters S or H (R242 to R247, R254).
-/

namespace Sys2Proof.Machine

/-! ## The digest (R345) -/

/-- Shift `n` bits of a word that has been added at the top through the CRC-64 of ECMA-182. -/
def crcShift (x : BitVec 64) : Nat → BitVec 64
  | 0 => x
  | n + 1 => crcShift (if x.msb then (x <<< 1) ^^^ 0x42F0E1EBA9EA3693 else x <<< 1) n

/-- Feed one 64-bit word, most significant bit first. -/
def crcWord (crc w : BitVec 64) : BitVec 64 := crcShift (crc ^^^ w) 64

/-- Change what a core holds as a member. -/
def State.modMem (s : State) (c : Nat) (f : Member → Member) : State := s.modCore c (fun k => { k with mem := f k.mem })

/-- A word enters the digest of a member's open instar. -/
def State.feed (s : State) (c : Nat) (w : Word) : State :=
  if s.inGroup c then s.modMem c (fun m => { m with crc := crcWord m.crc w }) else s

/-- A group's checker record. -/
def State.group (s : State) (g : Nat) : Group := FMap.get s.groups {} g

/-- Change a group's checker record. -/
def State.modGroup (s : State) (g : Nat) (f : Group → Group) : State :=
  { s with groups := FMap.set s.groups g (f (s.group g)) }

/-- A member begins its next instar, whose checkpoint it takes now (R343, R349, R354). -/
def State.beginInstar (s : State) (c : Nat) : State :=
  s.modCore c (fun k =>
    let m := k.mem
    { k with mem := { m with instar := m.instar + 1, count := 0, crc := BitVec.allOnes 64, epoch := 0, hold := false,
                             ckpts := m.ckpts ++ [⟨m.instar + 1, k.arch, m.repl⟩] } })

/-- The open half becomes the one that awaits confirmation (R343). -/
def Member.close (m : Member) : Member :=
  { m with closedF := m.openF, closedN := some m.instar, openF := [], full := false }

/-- A member ends its instar with a cause and, for an exception, its vector: the boundary's words, the digest sent to
the checker, and the half closed or held until the other half has drained (R342, R343, R345). `hold` is an end after
which nothing issues until the instar is confirmed and drained. -/
def State.endInstar (s : State) (c cause vec : Nat) (hold : Bool) : State :=
  match s.groupOf c with
  | none => s
  | some g =>
    let k := s.core c
    let m := k.mem
    let w := BitVec.ofNat 64 (cause * 2 ^ 56 + vec * 2 ^ 48 + m.count % 2 ^ 13)
    let crc := crcWord (crcWord m.crc w) (k.arch.pc.zeroExtend 64)
    let s := s.modGroup g (fun x => { x with sent := x.sent ++ [{ core := c, instar := m.instar, value := some crc }] })
    if m.closedN.isNone then
      let s := s.modMem c (fun m => { m.close with hold := hold })
      if hold then s else s.beginInstar c
    else s.modMem c (fun m => { m with full := true, hold := hold })

/-! ## Windows (R191 to R196) -/

/-- Slots of a ring: the H ring's or the S ring's (R191). -/
def ringN (h : Bool) : Nat := if h then 4 else 12

/-- The fields of cs.HWIN or cs.WIN. -/
def CoreArch.cur (a : CoreArch) (h : Bool) : Nat := if h then a.csf CsFld.HWIN_CUR else a.csf CsFld.WIN_CUR
def CoreArch.floor (a : CoreArch) (h : Bool) : Nat := if h then a.csf CsFld.HWIN_FLOOR else a.csf CsFld.WIN_FLOOR
def CoreArch.tw (a : CoreArch) (h : Bool) : Nat := if h then a.csf CsFld.HWIN_TW else a.csf CsFld.WIN_TW
def CoreArch.twp (a : CoreArch) (h : Bool) : Nat := if h then a.csf CsFld.HWIN_TWP else a.csf CsFld.WIN_TWP

/-- SPAN of given window values (R195). -/
def spanOf (h : Bool) (cur floor : Nat) : Nat := (cur + ringN h - floor) % ringN h

/-- SPAN and ROOM (R193, R195). -/
def CoreArch.span (a : CoreArch) (h : Bool) : Nat := spanOf h (a.cur h) (a.floor h)
def CoreArch.room (a : CoreArch) (h : Bool) : Nat := ringN h - 3 + a.tw h - a.span h

/-- A window state register from its fields, ROOM computed from the others (R193, R194). Where software has set FLOOR to TWP,
`eret` out of the trap window leaves a SPAN of n - 1, which R195 says never occurs: the model performs the rotation as R196
writes it, and ROOM, below zero, reads 0 (DESIGN CHOICE, assumption log 336). -/
def winWord (h : Bool) (dfc twp tw floor cur : Nat) : Word :=
  BitVec.ofNat 64 (dfc * 2 ^ 20 + twp * 2 ^ 16 + tw * 2 ^ 12 + floor * 2 ^ 8 +
    (ringN h - 3 + tw - spanOf h cur floor) * 2 ^ 4 + cur)

/-- Set the window state of a ring, DFC included. -/
def CoreArch.setWin (a : CoreArch) (h : Bool) (dfc twp tw floor cur : Nat) : CoreArch :=
  a.setCs (if h then 0x028 else 0x018) (winWord h dfc twp tw floor cur)

/-- Move the current window of a ring. -/
def CoreArch.setCur (a : CoreArch) (h : Bool) (cur : Nat) : CoreArch :=
  a.setWin h (if h then 0 else a.csf CsFld.WIN_DFC) (a.twp h) (a.tw h) (a.floor h) cur

/-- Open the trap window of a ring (R196). -/
def CoreArch.openTrap (a : CoreArch) (h : Bool) : CoreArch :=
  let cur := (a.cur h + 1) % ringN h
  a.setWin h (if h then 0 else a.csf CsFld.WIN_DFC) cur 1 (a.floor h) cur

/-! ## Taking an exception (R242 to R247) -/

/-- An exception, interrupt or machine check as its entry records it (R241, R242). -/
structure Exc where
  vec    : Nat
  detail : Nat := 0
  addr   : Word := 0
  trapno : Nat := 0
  int    : Bool := false
  ripv   : Bool := false
  eipv   : Bool := false
  deriving DecidableEq, Repr

/-- The mode a vector is taken to from a mode: 1 S, 2 H (R238, R242). -/
def excMode (mode vec : Nat) : Nat :=
  if vec = 0x0C ∨ vec = 0x0D ∨ vec = 0x21 ∨ vec = 0x30 then 2
  else if vec = 0x20 then 1
  else if vec = 0x0E ∨ vec = 0x02 then (if mode = 0 then 1 else 2)
  else if mode = 2 then 2 else 1

/-- xCAUSE of an exception (R241). -/
def Exc.cause (x : Exc) : Word :=
  BitVec.ofNat 64 (bit x.int * 2 ^ 63 + bit x.ripv * 2 ^ 62 + bit x.eipv * 2 ^ 61 + x.trapno % 256 * 2 ^ 32 +
    x.detail % 2 ^ 16 * 2 ^ 16 + x.vec)

/-- Entry to S or H as one action (R243): the saved registers, the interrupt enable, DEFER and the pending window values,
the trap window, the mode and the pc. -/
def CoreArch.enter (a : CoreArch) (h : Bool) (x : Exc) (pc : BitVec 48) : CoreArch :=
  let xepc := if h then 0x021 else 0x011
  let b := a.setCs xepc (withBits 0 47 1 (pc.toNat / 2))
  let b := b.setCs (xepc + 1) x.cause
  let b := b.setCs (xepc + 2) x.addr
  let b := if h then
      (((b.setCsf CsFld.HSTAT_PM a.mode.toNat).setCsf CsFld.HSTAT_PIE (a.csf CsFld.HSTAT_HIE)).setCsf
        CsFld.HSTAT_HIE 0).setCsf CsFld.HSTAT_FL a.fl.toNat
    else
      (((b.setCsf CsFld.SSTAT_PM a.mode.toNat).setCsf CsFld.SSTAT_PIE (a.csf CsFld.SSTAT_SIE)).setCsf
        CsFld.SSTAT_SIE 0).setCsf CsFld.SSTAT_FL a.fl.toNat
  let b := { b.setCsf CsFld.SSTAT_DEFER 0 with wsaveP := none, wctxP := none }
  let base := if h then a.csf CsFld.HVBASE_BASE else a.csf CsFld.VBASE_BASE
  { b.openTrap h with mode := if h then 2 else 1, pc := BitVec.ofNat 48 (base * 4096 + 64 * x.vec) }

/-- The core stops at an H-ring fault: a fatal error (R201, R254). -/
def State.hRingFault (s : State) (c : Nat) (pc : BitVec 48) : State :=
  s.logErr { unit := c, sev := 3, type := 0x05, src := c, data := [pc.toNat] }

/-- The entry itself, in the mode it goes to, once the store buffer is empty and the reservation gone (R247, R324,
R328); for a member of a group it ends the instar (R255, R342). The entry counts in the mode it leaves (R570; DEDUCED, assumption
log 346). -/
def State.enterMode (s : State) (c : Nat) (h : Bool) (x : Exc) (pc : BitVec 48) : State :=
  let a := (s.core c).arch
  let s := (((s.traceBegin c).adUndo c 0).endEarly c).modCore c (fun k => { k with
    arch := k.arch.enter h x pc, slot := none, brCkpts := [], brMiss := false, resv := none, woken := false,
    tlbiSent := none, llWait := none })
  let s := (s.traceExc c x.vec x.int).pmCoreBy c a none 0x07 1
  s.endInstar c 5 x.vec false

/-- The saved pc of an exception that the instruction at the pc raises: the branch's, for a slot (R167, R244). -/
def Core.savedPc (k : Core) : BitVec 48 :=
  match k.slot with
  | some (b, _) => b
  | none => k.arch.pc

end Sys2Proof.Machine
end

