-- ==== Sys2Proof/Machine/Operands.lean ====
section
/-!
DEFINITION. The operands of ZIS instructions: the registers of cores and threads with their windows, lazy save and
the spill engine (R141 to R145, R191 to R213, R462), fl, and how an instruction stops short of retiring.
-/

namespace Sys2Proof.Machine

/-! ## An instruction in execution -/

/-- Why an instruction does not retire now: it waits; a member's instar ends before it, for room in the fold (R342) or for
an update of flags that the primary performs (R349); it raises an exception; the H ring faults; it consumes poison at
an address; its spill engine met an error; or, on a thread, it faults with a cause, an address and a trap number. -/
inductive Stop where
  | wait
  | room
  | ad (acc : Access) (ea : Word) (u : AdUpdate)
  | exc (x : Exc)
  | hring
  | poison (pa : Nat)
  | engine
  | fault (cause addr trapno : Nat)
  deriving DecidableEq, Repr

/-- A step of an instruction's execution: a value and the state after it, or why it stops and the state it leaves. -/
abbrev Z := EStateM Stop State

/-- The illegal-instruction exception, or a thread's fault (R146, R468). -/
def illegal {α : Type} : Agent → Z α
  | .core _ => throw (.exc { vec := 0x01 })
  | .thread _ => throw (.fault 1 0 0)

/-- Stop with the illegal-instruction exception where a condition fails. -/
def needs (a : Agent) (ok : Bool) : Z Unit := if ok then pure () else illegal a

/-- A thread's record. -/
def State.thread (s : State) (t : Nat) : Thread := FMap.get s.threads {} t

/-- Change a thread's record. -/
def State.modThread (s : State) (t : Nat) (f : Thread → Thread) : State :=
  { s with threads := FMap.set s.threads t (f (s.thread t)) }

/-! ## A member's external operations (R349) -/

/-- A store enters a member's digest: one word for its address and size, then its data, low first (R345). -/
def State.feedStore (s : State) (c pa n v : Nat) : State :=
  if s.inGroup c then
    (List.range ((n + 7) / 8)).foldl (fun s i => s.feed c (BitVec.ofNat 64 (v / 2 ^ (64 * i))))
      (s.feed c (BitVec.ofNat 64 (pa % 2 ^ 48 + n * 2 ^ 48)))
  else s

/-- A member issues an external operation: its address and data enter the digest, and the instar ends; the member waits
for the result. -/
def State.issueExt (s : State) (c : Nat) (x : ExtOp) (hasData : Bool) : State :=
  let w : Word := BitVec.ofNat 64 (x.pa % 2 ^ 48 + x.size * 2 ^ 48 + if hasData then 0 else x.kind * 2 ^ 56)
  let s := s.feed c w
  let s := if hasData then s.feed c x.data else s
  s.modMem c (fun m => { m with ext := some x })

/-- Before a boundary that falls in the slot of a delayed branch the member stands at the branch again: the two form one
unit (R167), and the branch has made nothing (R227). -/
def State.unslot (s : State) (c : Nat) : State :=
  (s.adUndo c 0).modCore c (fun k => { k with
    arch := { k.arch with pc := k.savedPc }, slot := none, brCkpts := [], brMiss := false })

/-- A member's instar ends before an instruction whose stores would need a 33rd entry of the fold's half (R342). -/
def foldRoom (c : Nat) (xs : List FoldEntry) (fresh : Bool) : Z Unit := do
  let s ← get
  if s.inGroup c && decide (32 < foldNeeds (s.core c).mem.openF xs fresh) then throw .room else pure ()

/-- An update of A and D flags by a member is external: the instar ends before the access, which is made again once the
primary has performed the update (R279, R349). -/
def State.issueAd (s : State) (c : Nat) (acc : Access) (ea : Word) (u : AdUpdate) : State :=
  let x : ExtOp :=
    { kind := 4, op := 0x1000, pc := (s.core c).savedPc, pa := u.pa, size := 8, data := u.new, ea := u.old,
      dest := none, base := none, walk := some (acc, ea, u.fault) }
  ((s.unslot c).issueExt c x true).endInstar c 3 0 true

/-- What a core holds at the end of a stop that is no exception: a member's instar may end there (R342, R349). -/
def State.stopEnds (s : State) (c : Nat) : Stop → State
  | .room => (s.unslot c).endInstar c 2 0 false
  | .ad acc ea u => s.issueAd c acc ea u
  | _ => s

/-! ## What an instruction that does not retire leaves (R214, R227) -/

/-- An instruction of core `c` that began at `s` and has come to `t` does not retire: the registers and tags of the rings, the
reservation, the frames that its exchanges put into the store buffer or the fold, the fold's
digest and the flags in table entries stand as before it. -/
def State.unmade (s t : State) (c : Nat) : State :=
  let a := s.core c
  let t := t.adUndo c a.adMade.length
  t.modCore c (fun k =>
    let put := (k.mem.openF.map (·.line)).filter (fun l => !(a.mem.openF.map (·.line)).contains l)
    { k with
      arch := { k.arch with rf := a.arch.rf, tags := a.arch.tags }
      resv := a.resv, dbgHit := a.dbgHit
      sb := k.sb.take (k.sb.length - (k.frameSt - a.frameSt)), exchN := a.exchN, frameSt := a.frameSt
      l1d := if put.isEmpty then k.l1d else k.l1d.filter (fun l => !put.contains l.1)
      mem := { k.mem with openF := a.mem.openF, crc := a.mem.crc, repl := a.mem.repl, epoch := a.mem.epoch } })

/-- What core `c` has made since `a` stays: its exchanges count, as `a` has it (R227, R231, R570, R572). -/
def State.made (t : State) (c : Nat) (a : Core) (own : Option Nat := none) : State :=
  let n := (t.core c).exchN - a.exchN
  let t := t.modCore c (fun k => { k with adMade := a.adMade, exchN := a.exchN, frameSt := a.frameSt })
  if n = 0 then t else t.pmCoreBy c a.arch own 0x08 n

/-! ## Translation faults as exceptions (R242, R270) -/

/-- The vector of a stage-1 fault by access. -/
def xlateVec : Access → Nat
  | .fetch => 0x03
  | .load => 0x05
  | .store => 0x06

/-- A translation fault as the exception it raises. -/
def XFault.exc (f : XFault) (acc : Access) (ea : Word) : Exc :=
  if f.stage2 then { vec := 0x0D, detail := f.detail, addr := ea }
  else { vec := xlateVec acc, detail := f.detail % 64 + bit f.write * 128, addr := ea }

/-- A stage-2 fault also writes cs.HIPA. -/
def State.hipaPut (s : State) (c : Nat) (f : XFault) : State :=
  if f.stage2 then s.modCore c (fun k => { k with arch := k.arch.setCsf CsFld.HIPA_IPA f.ipa }) else s

/-- Raise what a translation came to. -/
def throwXlate {α : Type} (c : Nat) (acc : Access) (ea : Word) : XErr → Z α
  | .fault f => do
    modify (fun s => s.hipaPut c f)
    throw (.exc (f.exc acc ea))
  | .poison pa => throw (.poison pa)

/-! ## The spill engine (R206 to R208, R213) -/

/-- The updates an access makes before it is performed (R267); false where an entry has changed, and the walk starts again.
Each update comes with the effective address it is made for, which the fault of one that fails names (R234). -/
def adUpdates (c : Nat) (acc : Access) (us : List (Word × AdUpdate)) : Z Bool := do
  let s ← get
  match us with
  | [] => pure true
  | u :: _ =>
    if s.inGroup c then throw (.ad acc u.1 u.2)
    else
      match s.adWrites c us with
      | (.failed, v, s) =>
        set s
        throwXlate c acc (v.getD u).1 (.fault (v.getD u).2.fault)
      | (o, _, s) =>
        set s
        pure (o == .made)

/-- Translate and make the updates of flags, as often as an entry has changed in between; each time at least one update is
made, or another agent has written. -/
def untilMade {α : Type} (c : Nat) (acc : Access) (upds : α → List (Word × AdUpdate)) (walk : Z α) : Nat → Z α
  | 0 => throw .wait
  | n + 1 => do
    let x ← walk
    if ← adUpdates c acc (upds x) then pure x else untilMade c acc upds walk n

/-- How often a walk may start again: more often than the entries of two halves have flags. -/
def walkTries : Nat := 32

/-- The translation of one address, its updates made. -/
def translated (c : Nat) (acc : Access) (ea : Word) : Z XOk :=
  untilMade c acc (fun x => x.upds.map (fun u => (ea, u))) (do
    let (r, s) := (← get).xlate c ea acc
    set s
    match r with
    | .error e => throwXlate c acc ea e
    | .ok x => pure x) walkTries

/-- The engine's address after stage 2, which applies in a guest (R208). For a command that H itself executes there is no
stage 2 (R257), and the owner address of a guest's frame counts as physical: the spec does not say how it then reaches the
guest's save area (DESIGN CHOICE, assumption log 336). -/
def engineXlate (c pa : Nat) (acc : Access) : Z Nat := do
  let l ← untilMade c acc (fun l => l.upds.map (fun u => ((0 : Word), u))) (do
    let (r, s) := (← get).stage2 c pa acc (acc == .store) false true
    set s
    match r with
    | .ok l => pure l
    | .error _ =>
      let (r, s) := s.stage2 c pa acc (acc == .store) false false
      set s
      match r with
      | .ok l => pure l
      | .error e => throwXlate c acc 0 e) walkTries
  pure l.out

/-- A member sends INTERNAL in place of its digest, and waits for the verdict (R362). -/
def State.sendInternal (s : State) (g c : Nat) (poison : Option (Nat × Nat)) : State :=
  if (s.core c).mem.stuck then s
  else (s.modGroup g (fun x => { x with
      sent := x.sent ++ [{ core := c, instar := (s.core c).mem.instar, value := none, poison := poison }] })).modMem c
    (fun m => { m with stuck := true })

/-- The engine's access fails: the record, and the machine check at the instruction that waits for it (R208, R254); a member
of a group reports it to the checker (R362). -/
def State.engineFail (s : State) (c pa : Nat) : State :=
  let (t, r) := s.recStore { unit := c, sev := 2, type := 0x06, addr := some pa, src := c }
  let t := t.reeveEvent 7
  match s.groupOf c with
  | some g => t.sendInternal g c none
  | none => t.mcheck c ⟨mcDetail c 2 r, mcAddr r pa, true, true, some (s.core c).savedPc⟩

/-- One line of a frame in HBM answers the engine's write without an error: it can be read, and, where the L2 is OFF and
the write goes on to the stack, its firewall admits it. -/
def State.frameLine (s : State) (c line : Nat) : Bool × State :=
  let (a, s) := s.coreLine c line (coreReq c) []
  if a.err ≠ 0 then (false, s)
  else if (s.core c).l2State ≠ 0 then (true, s)
  else s.fwCheck false (s.hbmCtl (64 * line)) (64 * line) (coreReq c) true

/-- Whether a frame can be written at a physical address, poison aside. A target other than HBM answers each of the four
stores as it would when they are performed. -/
def State.frameReach (s : State) (c pa : Nat) : Bool × State :=
  if isHbm pa && isHbm (pa + 127) then
    let (a, s) := s.frameLine c (pa / 64)
    let (b, s) := if a then s.frameLine c (pa / 64 + 1) else (false, s)
    (a && b, s)
  else ([0, 32, 64, 96].all (fun j => (s.physWriteCore c (pa + j) 32 0).1 == 0), s)

/-- The index in `rf` of register `j` of S ring slot `k`. -/
def slotKey (k j : Nat) : Nat := 16 * k + j

/-- Four words from `j` up of a slot, as one store of 32 bytes. -/
def CoreArch.slotQuad (a : CoreArch) (k j : Nat) : Nat :=
  (List.range 4).foldr (fun i v => (FMap.get a.rf 0 (slotKey k (j + i))).toNat + 2 ^ 64 * v) 0

/-- A store of the engine: 32 bytes, a store of the core and, for a member, of its fold, where each frame takes two entries
of its own (R366), and its digest (R208, R213). -/
def State.engineStore (s : State) (c pa v : Nat) : State :=
  let s := s.coreStore c (!isHbm pa) pa 32 v 0 (pa % 64 == 0)
  if s.inGroup c then s.feedStore c pa 32 v else s.modCore c (fun k => { k with frameSt := k.frameSt + 1 })

/-- Write the frame of slot `k` at a physical address; false, with the slot unchanged, where it cannot be reached. -/
def State.frameWrite (s : State) (c k pa : Nat) : Bool × State :=
  let (ok, s) := s.frameReach c pa
  if !ok then (false, s.engineFail c pa)
  else
    let a := (s.core c).arch
    (true, [0, 4, 8, 12].foldl (fun s j => s.engineStore c (pa + 8 * j) (a.slotQuad k j)) s)

/-- Read a frame from a physical address, in sixteen words; poison is consumed. -/
def engineRead (c pa : Nat) : Z (List Word) := do
  if (← get).oldestHeld c (sbFirst ((← get).core c).sb pa 128) then throw .wait else pure ()
  let (r, s) := (List.range 4).foldl (fun (acc : List MemAns × State) i =>
    let (a, s) := acc.2.coreLoad c (!isHbm pa) (pa + 32 * i) 32 (coreReq c)
    (acc.1 ++ [a], s)) ([], ← get)
  set s
  if r.any (fun a => a.err != 0) then
    set (s.engineFail c pa)
    throw .engine
  else if r.any (fun a => a.poison) then throw (.poison pa)
  else pure (r.flatMap (fun a => (List.range 4).map (fun i => BitVec.ofNat 64 (a.val / 2 ^ (64 * i)))))

/-- From the power-fail warning on no core retires a further store (R324). -/
def storeMay : Z Unit := do
  if (← get).pwr.failSeq then throw .wait else pure ()

/-- Frames are to be written at these addresses: the stores may be made (R324), and a member's fold has room (R342). -/
def frameRoom (c : Nat) (pas : List Nat) : Z Unit := do
  if pas.isEmpty then pure ()
  else
    storeMay
    let ep := ((← get).core c).mem.epoch
    foldRoom c (pas.flatMap (fun p => [foldEntry p 64 0 ep (!isHbm p), foldEntry (p + 64) 64 0 ep (!isHbm p)])) true
    let s ← get
    if !s.inGroup c && s.oldestHeld c ((s.core c).sb.length + 4 * pas.length - 56) then throw .wait else pure ()

/-- Put a frame into a slot. -/
def CoreArch.putFrame (a : CoreArch) (k : Nat) (f : List Word) : CoreArch :=
  { a with rf := (List.range 16).foldl (fun r j => FMap.set r (slotKey k j) (f.getD j 0)) a.rf }

/-- The tag of a slot. -/
def CoreArch.tag (a : CoreArch) (k : Nat) : RingTag := FMap.get a.tags {} k

/-- Set the tag of a slot. -/
def CoreArch.setTag (a : CoreArch) (k : Nat) (t : RingTag) : CoreArch := { a with tags := FMap.set a.tags k t }

/-- Change a core's architectural state. -/
def State.modArch (s : State) (c : Nat) (f : CoreArch → CoreArch) : State :=
  s.modCore c (fun k => { k with arch := f k.arch })

/-- The owner address in a tag is kept as the save area's (R203). -/
def RingTag.frameAt (t : RingTag) (k : Nat) : Nat := t.addr.toNat + 128 * k

/-- The frame of slot `k` in the current save area (R204). -/
def CoreArch.saveAt (a : CoreArch) (k : Nat) : Nat := a.csf CsFld.WSAVE_ADDR * 128 + 128 * k

/-- What the exchange of a slot moves: its frame to one address, where it is DIRTY and owned, and the new frame from
another, where the save area is valid (R206). -/
structure SlotMove where
  slot : Nat
  out  : Option Nat
  inp  : Option Nat
  deriving DecidableEq, Repr

/-- The exchanges that slots need, those whose tag differs from the current context or that are EMPTY, every address past
stage 2 before any slot changes (R206, R208). -/
def slotMoves (c : Nat) : List Nat → Z (List SlotMove)
  | [] => pure []
  | k :: ks => do
    let a := ((← get).core c).arch
    let t := a.tag k
    if t.st != .empty && t.ctx.toNat == a.csf CsFld.WCTX_CTX then slotMoves c ks
    else
      let out ← if t.st == .dirty && t.valid then (do let p ← engineXlate c (t.frameAt k) .store; pure (some p)) else pure none
      let inp ← if a.csf CsFld.WSAVE_V == 1 then (do let p ← engineXlate c (a.saveAt k) .load; pure (some p)) else pure none
      let r ← slotMoves c ks
      pure (⟨k, out, inp⟩ :: r)

/-- One exchange (R206). An error response abandons it with the slot unchanged (R208). -/
def exchange (c : Nat) (m : SlotMove) : Z Unit := do
  modify (fun s => s.endEarly c)
  match m.out with
  | some p =>
    let (ok, s) := (← get).frameWrite c m.slot p
    set s
    if !ok then throw .engine
  | none => pure ()
  let f ← match m.inp with
    | some p => engineRead c p
    | none => pure []
  modify (fun s => (s.modArch c (fun a => (a.putFrame m.slot f).setTag m.slot
    { st := .clean, ctx := BitVec.ofNat 16 (a.csf CsFld.WCTX_CTX),
      addr := BitVec.ofNat 48 (a.csf CsFld.WSAVE_ADDR * 128), valid := m.inp.isSome })).modCore c
    (fun k => { k with exchN := k.exchN + 1 }))

/-- Exchanges in order. -/
def exchanges (c : Nat) : List SlotMove → Z Unit
  | [] => pure ()
  | m :: ms => do
    exchange c m
    exchanges c ms

/-- These slots come to carry the current context. -/
def ensureSlots (c : Nat) (ks : List Nat) : Z Unit := do
  let ms ← slotMoves c ks
  frameRoom c (ms.filterMap (·.out))
  exchanges c ms

/-- The slots of window `w` carry the current context (R206). -/
def ensureWindow (c w : Nat) : Z Unit := ensureSlots c [w, (w + 1) % 12]

/-! ## Machine checks (R254, R609, R613) -/

/-- Entry to H, or the fatal stop where the H ring is in its trap window (R196, R201). -/
def State.enterH (s : State) (c : Nat) (x : Exc) (pc : BitVec 48) : State :=
  let s := s.drainSb c
  if (s.core c).arch.tw true = 1 then s.hRingFault c pc else s.enterMode c true x pc

/-- Enter the oldest machine check that waits, where the H ring admits it (R254): RIPV and EIPV as it came, EIPV only
where the saved pc is still the instruction it concerns. -/
def State.enterMcheck (s : State) (c : Nat) : State :=
  let k := s.core c
  match k.mchecks with
  | [] => s
  | m :: r =>
    if k.arch.tw true = 1 ∨ k.run ≠ .running ∨ k.halted then s
    else
      let pc := k.savedPc
      (s.modCore c (fun k => { k with mchecks := r })).enterH c
        { vec := 0x30, detail := m.detail.toNat, addr := m.addr, int := true, ripv := m.ripv,
          eipv := m.eipv && m.pc == some pc } pc

/-- Poison that an instruction consumes (R613): a record in the core's unit, and the machine check; in a group the
member reports it to the checker in place of its digest (R362). -/
def State.consumePoison (s : State) (c pa : Nat) : State :=
  let pc := (s.core c).savedPc
  match s.groupOf c with
  | some g => s.sendInternal g c (some (pa, (s.core c).mem.count))
  | none =>
    let e : ErrRec := { unit := c, sev := 1, type := 0x03, addr := some pa, src := c, data := [pc.toNat] }
    let (t, r) := s.logPoison e
    (t.mcheck c ⟨mcDetail c 1 r, mcAddr r pa, true, true, some pc⟩).enterMcheck c

/-! ## Taking an exception, an interrupt or a machine check (R196, R200, R201, R206, R242, R247) -/

/-- Entry to S: the slots of its trap window carry the current context first (R206). A fault of that exchange is taken in
place of the entry, with the same saved pc (R208). -/
def State.enterS (s : State) (c : Nat) (x : Exc) (pc : BitVec 48) : State :=
  match (ensureWindow c (((s.core c).arch.cur false + 1) % 12)).run s with
  | .ok _ t => ((t.made c (s.core c)).drainSb c).enterMode c false x pc
  | .error e t =>
    let t := s.unmade t c
    match e with
    | .exc y => t.enterH c y pc
    | .poison pa => t.consumePoison c pa
    | .engine => if t.inGroup c then t else t.enterMcheck c
    | e => t.stopEnds c e

/-- A core takes an exception, an interrupt or a machine check with the given saved pc: in its mode; as a window double
fault where the S ring is in its trap window; or as the fatal stop where the H ring is. -/
def State.takeExc (s : State) (c : Nat) (x : Exc) (pc : BitVec 48) : State :=
  let a := (s.core c).arch
  if excMode a.mode.toNat x.vec = 2 then s.enterH c x pc
  else if a.tw false = 0 then s.enterS c x pc
  else if a.tw true = 1 then (s.drainSb c).hRingFault c pc
  else (s.modArch c (fun a => a.setCsf CsFld.WIN_DFC 1)).enterH c { vec := 0x0C, detail := 1 } pc

/-! ## Registers (R141 to R145, R191, R462) -/

/-- The slot and the index in it of a windowed register of window `cur` in a ring of `n` slots. -/
def winReg (n cur : Nat) (r : Reg5) : Nat × Nat :=
  if r.toNat < 24 then (cur, r.toNat - 8) else ((cur + 1) % n, r.toNat - 24)

/-- The place of a register of a core in `rf`. -/
def CoreArch.regAt (a : CoreArch) (r : Reg5) : Nat :=
  let h := a.mode == 2
  if r.toNat < 8 then (if h then 264 else 256) + r.toNat
  else
    let (k, j) := winReg (ringN h) (a.cur h) r
    (if h then 192 else 0) + slotKey k j

/-- The place of a register of a thread. -/
def Thread.regAt (t : Thread) (r : Reg5) : Nat :=
  if r.toNat < 8 then 256 + r.toNat
  else
    let (k, j) := winReg 8 t.cur r
    slotKey k j

/-- The value of a register as it is held; g0 reads as zero (R142). -/
def State.regVal (s : State) (a : Agent) (r : Reg5) : Word :=
  if r = 0 then 0
  else match a with
    | .core c => FMap.get (s.core c.val).arch.rf 0 ((s.core c.val).arch.regAt r)
    | .thread t => FMap.get (s.thread t.val).rf 0 ((s.thread t.val).regAt r)

/-- Before a register of a core's S ring is used, its window's slots are exchanged (R206). -/
def useReg (a : Agent) (r : Reg5) : Z Unit := do
  match a with
  | .core c =>
    let x := ((← get).core c.val).arch
    if r.toNat < 8 ∨ x.mode = 2 then pure () else ensureWindow c.val (x.cur false)
  | .thread _ => pure ()

/-- How late a value of a core was fixed counts for what the instruction computes from it (R314). -/
def State.noteTime (s : State) (c time : Nat) : State :=
  if (s.core c).early.isEmpty then s else s.modCore c (fun k => { k with rdTime := max k.rdTime time })

/-- How late a value is that is fixed now: after every reading ahead so far. -/
def Core.now (k : Core) : Nat := 2 * k.clock + 1

/-- A q register is read into an integer register or fl: what it holds counts as fixed now. -/
def State.noteQ (s : State) (c : Nat) : State := s.noteTime c (s.core c).now

/-- A register of a core is read. -/
def State.noteReg (s : State) (a : Agent) (r : Reg5) : State :=
  match a with
  | .core c => if r = 0 then s else s.noteTime c.val (FMap.get (s.core c.val).rtime 0 ((s.core c.val).arch.regAt r))
  | .thread _ => s

/-- Read a register. -/
def rdReg (a : Agent) (r : Reg5) : Z Word := do
  useReg a r
  modify (fun s => s.noteReg a r)
  pure ((← get).regVal a r)

/-- Read a register of an instruction that may still be stopped by `first`, whose exception precedes what the exchange of
the register's window meets (R246). -/
def rdRegAfter (first : Z Unit) (a : Agent) (r : Reg5) : Z Word := fun s =>
  match rdReg a r s with
  | .ok v t => .ok v t
  | .error e t =>
    match first s with
    | .ok _ _ => .error e t
    | .error f u => .error f u

/-- A register of a core takes a value: its S ring slot becomes DIRTY (R203), and a member's digest takes the value
(R345). -/
def State.coreSet (s : State) (c : Nat) (r : Reg5) (v : Word) : State :=
  if r = 0 then s
  else
    let a := (s.core c).arch
    let a' := { a with rf := FMap.set a.rf (a.regAt r) v }
    let k := (winReg 12 (a.cur false) r).1
    let a' := if r.toNat < 8 ∨ a.mode = 2 then a' else a'.setTag k { a'.tag k with st := .dirty }
    let t := (s.modArch c (fun _ => a')).feed c v
    if (s.core c).early.isEmpty then t
    else t.modCore c (fun k => { k with rtime := FMap.set k.rtime (a.regAt r) k.rdTime })

/-- A register takes a value; a write to g0 is discarded (R142). -/
def State.regSet (s : State) (a : Agent) (r : Reg5) (v : Word) : State :=
  match a with
  | .core c => s.coreSet c.val r v
  | .thread t => if r = 0 then s else s.modThread t.val (fun k => { k with rf := FMap.set k.rf (k.regAt r) v })

/-- Write a register. -/
def wrReg (a : Agent) (r : Reg5) (v : Word) : Z Unit := do
  useReg a r
  modify (fun s => s.regSet a r v)

/-- fl of an agent. -/
def State.flVal (s : State) : Agent → BitVec 4
  | .core c => (s.core c.val).arch.fl
  | .thread t => (s.thread t.val).fl

/-- Set fl; a member's digest takes it (R345). -/
def State.flSet (s : State) (a : Agent) (f : BitVec 4) : State :=
  match a with
  | .core c => ((s.modArch c.val (fun x => { x with fl := f })).modCore c.val (fun k => { k with flTime := k.rdTime })).feed
      c.val (f.zeroExtend 64)
  | .thread t => s.modThread t.val (fun k => { k with fl := f })

def rdFl (a : Agent) : Z (BitVec 4) := do
  match a with
  | .core c => modify (fun s => s.noteTime c.val (s.core c.val).flTime)
  | .thread _ => pure ()
  pure ((← get).flVal a)
def wrFl (a : Agent) (f : BitVec 4) : Z Unit := modify (fun s => s.flSet a f)

/-- A q register of a core. -/
def State.qVal (s : State) (c : Nat) (r : Reg5) : QWord := FMap.get (s.core c).arch.q 0 r.toNat

/-- Set a q register; a member's digest takes its four words, bits [63:0] first (R345). -/
def State.qSet (s : State) (c : Nat) (r : Reg5) (v : QWord) : State :=
  let s := s.modArch c (fun x => { x with q := FMap.set x.q r.toNat v })
  if s.inGroup c then (List.range 4).foldl (fun s i => s.feed c ((v >>> (64 * i)).truncate 64)) s else s

/-- The pc of an agent. -/
def State.pcVal (s : State) : Agent → BitVec 48
  | .core c => (s.core c.val).arch.pc
  | .thread t => (s.thread t.val).pc

/-! ## Rotation (R184, R196 to R201, R462) -/

/-- A window double fault: DFC records the cause; on the H ring the fatal stop (R200, R201). -/
def doubleFault {α : Type} (c : Nat) (h : Bool) (dfc : Nat) : Z α := do
  if h then throw .hring
  else
    modify (fun s => s.modArch c (fun a => a.setCsf CsFld.WIN_DFC dfc))
    throw (.exc { vec := 0x0C, detail := dfc })

/-- The new window's slots are exchanged before the rotation completes (R206). -/
def moveTo (c : Nat) (h : Bool) (w : Nat) : Z Unit := do
  if h then pure () else ensureWindow c w
  modify (fun s => s.modArch c (fun a => a.setCur h w))

/-- `call` may rotate: else an overflow or a double fault, which come before anything the operands meet (R196, R246). A
core then has its slots exchanged. -/
def mayForward (a : Agent) : Z Unit := do
  match a with
  | .core c =>
    let x := ((← get).core c.val).arch
    let h := x.mode == 2
    if 1 ≤ x.room h then
      if h then pure () else ensureSlots c.val [x.cur h, (x.cur h + 1) % 12, (x.cur h + 2) % 12]
    else if x.tw h = 0 then (if h then throw .hring else throw (.exc { vec := 0x0A }))
    else doubleFault c.val h 2
  | .thread t => if ((← get).thread t.val).depth < 6 then pure () else throw (.fault 8 0 0)

/-- `call`: the link into y7, then the rotation forward. -/
def rotateForward (a : Agent) (link : Word) : Z Unit := do
  wrReg a 31 link
  match a with
  | .core c =>
    let x := ((← get).core c.val).arch
    let h := x.mode == 2
    moveTo c.val h ((x.cur h + 1) % ringN h)
  | .thread t => modify (fun s => s.modThread t.val (fun k => { k with cur := (k.cur + 1) % 8, depth := k.depth + 1 }))

/-- `ret` may rotate: else an underflow or a double fault. -/
def mayBack (a : Agent) : Z Unit := do
  match a with
  | .core c =>
    let x := ((← get).core c.val).arch
    let h := x.mode == 2
    if 1 ≤ x.span h ∧ ¬ (x.tw h = 1 ∧ x.cur h = x.twp h) then
      if h then pure () else ensureSlots c.val [(x.cur h + 11) % 12, x.cur h, (x.cur h + 1) % 12]
    else if x.tw h = 0 then (if h then throw .hring else throw (.exc { vec := 0x0B }))
    else doubleFault c.val h 3
  | .thread t => if 1 ≤ ((← get).thread t.val).depth then pure () else throw (.fault 9 0 0)

/-- `ret`: the rotation back. -/
def rotateBack (a : Agent) : Z Unit := do
  match a with
  | .core c =>
    let x := ((← get).core c.val).arch
    let h := x.mode == 2
    moveTo c.val h ((x.cur h + ringN h - 1) % ringN h)
  | .thread t => modify (fun s => s.modThread t.val (fun k => { k with cur := (k.cur + 7) % 8, depth := k.depth - 1 }))

/-- `eret`: out of the trap window, or back as `ret` does. -/
def rotateEret (c : Nat) : Z Unit := do
  let x := ((← get).core c).arch
  let h := x.mode == 2
  if x.tw h = 0 then
    if 1 ≤ x.span h then moveTo c h ((x.cur h + ringN h - 1) % ringN h)
    else if h then throw .hring else throw (.exc { vec := 0x0B })
  else if x.cur h = x.twp h then
    let w := (x.cur h + ringN h - 1) % ringN h
    if h then pure () else ensureWindow c w
    modify (fun s => s.modArch c (fun a =>
      a.setWin h (if h then 0 else a.csf CsFld.WIN_DFC) (a.twp h) 0 (a.floor h) w))
  else doubleFault c h 4

end Sys2Proof.Machine
end

