-- ==== Sys2Proof/Machine/SysRegs.lean ====
section
/-!
DEFINITION. Core system registers (R193 to R213, R223, R224, R239 to R241, R259, R304, R569, R543, R558): which mode may
read and write each, what a read returns and what a write does; and the window and predictor commands.
-/

namespace Sys2Proof.Machine

/-! ## Modes (R238, R239) -/

/-- The lowest mode for `mfs`; none where the CSN is illegal. -/
def mfsMode (uread : Bool) (csn : Nat) : Option Nat :=
  if csn ≤ 0x001 then some 0
  else if (0x010 ≤ csn ∧ csn ≤ 0x014) ∨ (0x018 ≤ csn ∧ csn ≤ 0x01D) then some 1
  else if (0x020 ≤ csn ∧ csn ≤ 0x024) ∨ csn = 0x028 ∨ csn = 0x029 then some 2
  else if csn = 0x200 ∨ csn = 0x201 then some 1
  else if csn = 0x208 ∨ csn = 0x209 ∨ csn = 0x210 ∨ csn = 0x211 ∨ csn = 0x218 then some 2
  else if 0x280 ≤ csn ∧ csn ≤ 0x282 then some 1
  else if 0x300 ≤ csn ∧ csn ≤ 0x307 then some (if uread then 0 else 1)
  else if 0x308 ≤ csn ∧ csn ≤ 0x311 then some 1
  else if csn = 0x380 then some 1
  else if 0x390 ≤ csn ∧ csn ≤ 0x397 then some 2
  else none

/-- The lowest mode for `mts`; cs.COREID takes no write and asks for no mode. -/
def mtsMode (csn : Nat) : Option Nat :=
  if csn = 0x280 ∨ csn = 0x281 then some 2 else mfsMode false csn

/-- Whether `mfs` of a CSN by a member returns the primary's value (R350). -/
def csnReplicated (csn : Nat) : Bool := csn == 0 || (0x300 ≤ csn && csn ≤ 0x3BF)

/-! ## Reads -/

/-- Dirty lines of a core's L2, as cs.L2CTL.DIRTY counts them (R304). -/
def Core.l2Dirty (k : Core) : Nat := (k.l2.filter (fun x => x.st == .m)).length

/-- What `mfs` returns. -/
def State.csVal (s : State) (c csn : Nat) : Word :=
  let k := s.core c
  let a := k.arch
  let v := a.cs c csn
  if csn = 0x000 then BitVec.ofNat 64 (a.mode.toNat * 256 + c)
  else if csn = 0x281 then withBits v 47 32 k.l2Dirty
  else if csn = 0x310 then withBits v 1 1 (bit (s.flag Fld.PM_GCTL_FREEZE 0))
  else v

/-! ## Writes -/

/-- One field of a write to a core system register. -/
def csWriteField (v w : Word) (f : CsFld) : Word :=
  match f.acc with
  | .ro => w
  | .wo => w
  | .w1c => w &&& ~~~ (v &&& bitMask f.hi f.lo)
  | _ => withBits w f.hi f.lo (bitsOf v f.hi f.lo)

/-- The fields of the register with a number. -/
def csFields (csn : Nat) : List CsFld :=
  match csRegs.find? (fun r => r.csn ≤ csn && csn < r.csn + r.count * r.step && (csn - r.csn) % r.step == 0) with
  | some r => r.fields
  | none => []

/-- A write by the access codes of the register's fields. -/
def CoreArch.csPut (a : CoreArch) (csn : Nat) (v : Word) : CoreArch :=
  a.setCs csn ((csFields csn).foldl (csWriteField v) (a.cs 0 csn))

/-- Whether window values may be written (R195). -/
def winOk (h : Bool) (v : Word) : Bool :=
  let n := ringN h
  let cur := bitsOf v 3 0
  let fl := bitsOf v 11 8
  let tw := bitsOf v 12 12
  cur < n && fl < n && bitsOf v 19 16 < n && spanOf h cur fl ≤ n - 3 + tw

/-- A performed write to cs.HWIN, or to cs.WIN: DFC clears, the pending save area and context take effect, and DEFER
clears (R193, R205, R250). -/
def CoreArch.winWrite (a : CoreArch) (h : Bool) (v : Word) : CoreArch :=
  let b := a.setWin h 0 (bitsOf v 19 16) (bitsOf v 12 12) (bitsOf v 11 8) (bitsOf v 3 0)
  if h then b
  else
    let b := match a.wsaveP with
      | some w => b.csPut 0x019 w
      | none => b
    let b := match a.wctxP with
      | some w => b.csPut 0x01A w
      | none => b
    { b.setCsf CsFld.SSTAT_DEFER 0 with wsaveP := none, wctxP := none }

/-- The slots of the S ring. -/
def sSlots : List Nat := List.range 12

/-- Slots become EMPTY. -/
def CoreArch.emptySlots (a : CoreArch) (ks : List Nat) : CoreArch :=
  ks.foldl (fun a k => a.setTag k {}) a

/-- The addresses, after stage 2, of the frames that the DIRTY slots named are written to (R209). -/
def evictAddrs (c : Nat) : List Nat → Z (List (Nat × Nat))
  | [] => pure []
  | k :: ks => do
    let t := ((← get).core c).arch.tag k
    if t.st == .dirty && t.valid then
      let p ← engineXlate c (t.frameAt k) .store
      let r ← evictAddrs c ks
      pure ((k, p) :: r)
    else evictAddrs c ks

/-- Every DIRTY slot of a list is written, then made EMPTY; a slot whose frame cannot be written stays (R208, R209). -/
def evict (c : Nat) (ks : List Nat) : Z Unit := do
  let ps ← evictAddrs c ks
  frameRoom c (ps.map Prod.snd)
  let s ← get
  let (bad, n, s) := ps.foldl (fun (acc : List Nat × Nat × State) p =>
    let (ok, s) := acc.2.2.frameWrite c p.1 p.2
    if ok then (acc.1, acc.2.1 + 1, s) else (p.1 :: acc.1, acc.2.1, s)) (([] : List Nat), 0, s)
  set ((s.modArch c (fun a => (a.emptySlots (ks.filter (fun k => !bad.contains k))).setCsf CsFld.WFLUSH_COUNT n)))

/-- A write to cs.WFLUSH (R209). -/
def wflush (c : Nat) (v : Word) : Z Unit := do
  let a := ((← get).core c).arch
  let mine := sSlots.filter (fun k => (a.tag k).st != .empty && (a.tag k).ctx.toNat == bitsOf v 31 16)
  match bitsOf v 1 0 with
  | 1 => evict c mine
  | 2 => modify (fun s => s.modArch c (fun a => (a.emptySlots mine).setCsf CsFld.WFLUSH_COUNT 0))
  | 3 => evict c sSlots
  | _ => modify (fun s => s.modArch c (fun a => a.setCsf CsFld.WFLUSH_COUNT 0))

/-- A write to cs.WENG (R211): frames at physical addresses. An error leaves the slot and raises the machine check. A slot
that is read takes as its owner address the save area in effect, as an exchange gives it (DESIGN CHOICE, assumption log
318). -/
def weng (c : Nat) (v : Word) : Z Unit := do
  let k := bitsOf v 3 0
  let pa := bitsOf v 47 7 * 128
  if 12 ≤ k then pure ()
  else if bitsOf v 5 4 = 1 then
    frameRoom c [pa]
    modify (fun s => (s.frameWrite c k pa).2)
  else if bitsOf v 5 4 = 2 then
    let s ← get
    match (engineRead c pa).run s with
    | .ok f s => set (s.modArch c (fun a => (a.putFrame k f).setTag k
        { st := .dirty, ctx := BitVec.ofNat 16 (a.csf CsFld.WCTX_CTX), addr := BitVec.ofNat 48 (a.csf CsFld.WSAVE_ADDR * 128),
          valid := a.csf CsFld.WSAVE_V == 1 }))
    | .error (.poison p) s => set s; throw (.poison p)
    | .error _ s => set s
  else pure ()

/-- Every structure of the predictor is emptied (R223). -/
def State.predFlush (s : State) (c : Nat) : State :=
  s.modCore c (fun k => { k with
    ghr := 0, ras := [], btb := [], ibp := [], dir := [], brCkpts := k.brCkpts.map (fun b => { b with ghr := 0, ras := [] }) })

/-- A write to cs.L1CTL: clearing an enable invalidates that cache at once. -/
def State.l1ctlWrite (s : State) (c : Nat) (v : Word) : State :=
  s.modCore c (fun k => { k with
    arch := k.arch.csPut 0x280 v
    l1d := if bitsOf v 1 1 = 0 then [] else k.l1d
    l1i := if bitsOf v 0 0 = 0 then [] else k.l1i })

/-- What `mts` does to the register, in mode `m` (R195, R205, R209, R211, R223, R240, R304, R543, R569). -/
def csWrite (c m csn : Nat) (v : Word) : Z Unit := do
  modify (fun s => s.endEarly c)
  let put (f : CoreArch → CoreArch) : Z Unit := modify (fun s => s.modArch c f)
  if csn = 0x018 ∨ csn = 0x028 then
    let h := csn == 0x028
    if winOk h v then put (fun a => a.winWrite h v) else throw (.exc { vec := 0x01 })
  else if csn = 0x019 then put (fun a => { a with wsaveP := some v })
  else if csn = 0x01A then put (fun a => { a with wctxP := some v })
  else if csn = 0x01B then wflush c v
  else if csn = 0x01C then
    put (fun a => a.csPut csn v)
    if m = 2 ∧ bitsOf v 63 63 = 1 then modify (fun s => s.predFlush c) else pure ()
  else if csn = 0x010 then
    put (fun a =>
      let b := a.csPut csn v
      if b.csf CsFld.SSTAT_DEFER = 1 ∧ a.csf CsFld.SSTAT_DEFER = 0 then { b with deferN := 0 } else b)
  else if csn = 0x020 then
    put (fun a => a.csPut csn (if bitsOf v 1 0 = 3 then withBits v 1 0 (a.csf CsFld.HSTAT_PM) else v))
  else if csn = 0x029 then weng c v
  else if csn = 0x280 then modify (fun s => s.l1ctlWrite c v)
  else if csn = 0x281 then modify (fun s => (s.l2Sweep c).l2ctlWrite c v)
  else if csn = 0x282 then
    let v := if bitsOf v 11 8 = 0 then withBits v 11 8 1 else v
    put (fun a => a.csPut csn (if bitsOf v 6 4 = 0 then withBits v 6 4 1 else v))
  else if csn = 0x310 then
    put (fun a => a.csPut csn (if m = 2 then v else withBits v 59 48 (a.csf CsFld.PMCTL_GID)))
  else if csn = 0x380 then
    put (fun a => a.csPut csn (if m = 2 then v
                               else withBits (withBits v 59 48 (a.csf CsFld.TRCTL_GID)) 2 2 (a.csf CsFld.TRCTL_H)))
  else if csn = 0x000 then pure ()
  else put (fun a => a.csPut csn v)
  modify (fun s => s.traceContext c)

/-- The privileged-instruction exception (R238, R242). -/
def privExc {α : Type} (csn : Nat) : Z α := throw (.exc { vec := 0x02, detail := csn })

/-- The primary's value of a replicated read: recorded by the primary, awaited by a secondary (R350). -/
def replicated (c g : Nat) (v : Word) : Z Word := do
  let s ← get
  let i := (s.core c).mem.repl
  let bump (s : State) : State := s.modMem c (fun m => { m with repl := i + 1 })
  match (s.group g).repl.find? (fun e => e.1 == i) with
  | some e => set (bump s); pure e.2
  | none =>
    if s.groupPrimary g = c then
      set (bump (s.modGroup g (fun x => { x with repl := FMap.set x.repl i v })))
      pure v
    else throw .wait

/-- `mfs` on a core (R239, R350). -/
def coreMfs (c csn : Nat) : Z Word := do
  let s ← get
  let a := (s.core c).arch
  match mfsMode (a.csf CsFld.PMCTL_UREAD == 1) csn with
  | none => throw (.exc { vec := 0x01 })
  | some m =>
    if a.mode.toNat < m then privExc csn
    else
      let s := if csn = 0x281 then s.l2Sweep c else s
      set s
      match s.groupOf c with
      | some g => if csnReplicated csn then replicated c g (s.csVal c csn) else pure (s.csVal c csn)
      | none => pure (s.csVal c csn)

/-- The privilege of an `mts` (R238, R239). -/
def mtsPriv (c csn : Nat) : Z Unit := do
  if csn ≠ 0 ∧ ((← get).core c).arch.mode.toNat < (mtsMode csn).getD 0 then privExc csn else pure ()

/-- What an `mts` raises before it writes: ILLEGAL, for a number that names no register and for window values that R195
does not admit, and then PRIV (R246). -/
def mtsJudge (c csn : Nat) (v : Word) : Z Unit := do
  if (mtsMode csn).isSome && (!(csn == 0x018 || csn == 0x028) || winOk (csn == 0x028) v) then mtsPriv c csn
  else throw (.exc { vec := 0x01 })

/-- What an `mts` does to the register in the core's mode (R239, R240). -/
def mtsDo (c csn : Nat) (v : Word) : Z Unit := do
  mtsJudge c csn v
  csWrite c ((← get).core c).arch.mode.toNat csn v

/-- `mts` on a core; the value as written enters a member's digest (R345). -/
def coreMts (c csn : Nat) (v : Word) : Z Unit := do
  mtsDo c csn v
  modify (fun s => s.feed c v)

/-! ## How an instruction of a core stops -/

/-- A core's instruction stops (R200, R201, R208, R244, R613): what it leaves. An exception waits for the store buffer, which
another core's hold may delay (R247, R332). -/
def State.stopCore (s : State) (c : Nat) : Stop → State
  | .exc x => if s.drainBlocked c then s else s.takeExc c x (s.core c).savedPc
  | .hring => s.hRingFault c (s.core c).savedPc
  | .poison pa => s.consumePoison c pa
  | .engine => if s.inGroup c then s else s.enterMcheck c
  | e => s.stopEnds c e

/-- What a command of a core's own comes to, that began at `s`: what it has made stays, or nothing of it does (R227). -/
def State.outcome (s : State) (c : Nat) (r : EStateM.Result Stop State Unit) : State :=
  match r with
  | .ok _ t => t.made c (s.core c)
  | .error e t => (s.unmade t c).stopCore c e

/-- A register write as a command of its own: what the `mts` does to the register, and to nothing else; or the exception
it raises. -/
def State.mtsCmd (s : State) (c csn : Nat) (v : Word) : State :=
  if !s.csMay c 0 then s
  else s.outcome c ((mtsDo c csn v).run s)

/-- WIN_WRITE (R195). -/
def execWinWrite (c : CoreId) (h : Bool) (v : Word) (s : State) : Result :=
  .next (s.mtsCmd c.val (if h then 0x028 else 0x018) v)

/-- WSAVE_WRITE (R205). -/
def execWsaveWrite (c : CoreId) (v : Word) (s : State) : Result := .next (s.mtsCmd c.val 0x019 v)

/-- WCTX_WRITE (R205). -/
def execWctxWrite (c : CoreId) (v : Word) (s : State) : Result := .next (s.mtsCmd c.val 0x01A v)

/-- EVICT_CTX (R209). -/
def execEvictCtx (c : CoreId) (v : Word) (s : State) : Result := .next (s.mtsCmd c.val 0x01B (withBits v 1 0 1))

/-- DISCARD_CTX (R209). -/
def execDiscardCtx (c : CoreId) (v : Word) (s : State) : Result := .next (s.mtsCmd c.val 0x01B (withBits v 1 0 2))

/-- EVICT_ALL (R209). -/
def execEvictAll (c : CoreId) (v : Word) (s : State) : Result := .next (s.mtsCmd c.val 0x01B (withBits v 1 0 3))

/-- WENG_WRITE_FRAME (R211). -/
def execWengWriteFrame (c : CoreId) (v : Word) (s : State) : Result := .next (s.mtsCmd c.val 0x029 (withBits v 5 4 1))

/-- WENG_READ_FRAME (R211). -/
def execWengReadFrame (c : CoreId) (v : Word) (s : State) : Result := .next (s.mtsCmd c.val 0x029 (withBits v 5 4 2))

/-- BPKEY_WRITE (R223). -/
def execBpkeyWrite (c : CoreId) (v : Word) (s : State) : Result := .next (s.mtsCmd c.val 0x01C (withBits v 63 63 0))

/-- BPKEY_FLUSH: FLUSH = 1, ignored below H (R223, R224). -/
def execBpkeyFlush (c : CoreId) (v : Word) (s : State) : Result := .next (s.mtsCmd c.val 0x01C (withBits v 63 63 1))

/-- L2_DISABLE: EN = 0 (R304). -/
def execL2Disable (c : CoreId) (v : Word) (s : State) : Result := .next (s.mtsCmd c.val 0x281 (withBits v 0 0 0))

/-- L2_ENABLE: EN = 1 (R305, R306). -/
def execL2Enable (c : CoreId) (v : Word) (s : State) : Result := .next (s.mtsCmd c.val 0x281 (withBits v 0 0 1))

/-- WINDOW_EXCHANGE: the slots of the current window of the S ring are exchanged for the instruction that waits for
them (R206). -/
def execWindowExchange (c : CoreId) (s : State) : Result :=
  let k := s.core c.val
  if !s.csMay c.val 0 ∨ k.arch.mode = 2 then .next s
  else .next (s.outcome c.val ((ensureWindow c.val (k.arch.cur false)).run s))

end Sys2Proof.Machine
end

