-- ==== Sys2Proof/Machine/Zis.lean ====
section
/-!
DEFINITION. How a ZIS instruction is executed on a core or a thread: when it can issue, its fetch, the delayed branch
and its slot, retirement with what it counts, traces and ends, halts, and a thread's faults (R138 to R140, R165 to R167,
R175, R176, R214, R245, R250, R343, R344, R463, R468, R546, R559, R563, R566).

A command names the decoded instruction; what the pc's memory holds is not read back, but the fetch's translation, errors
and poison are met as they are.
-/

namespace Sys2Proof.Machine

/-- What the wrapper needs to know of an instruction: its length in bytes; whether a delay slot may hold it (R166); whether
a thread decodes it (R160) and whether a core does; whether it counts as a load or a store (R573); and the cause with
which it ends an instar, if it does (R342). -/
structure Zi where
  len   : Nat
  slot  : Bool := true
  thr   : Bool := true
  core  : Bool := true
  ld    : Bool := false
  st    : Bool := false
  ends  : Option Nat := none
  /-- It is a barrier, a `cmo`, a `tlbi` or a system instruction, which a constrained sequence does not have (R332). -/
  sys   : Bool := false
  /-- It is `ll`, whose own reservation begins with it. -/
  link  : Bool := false
  /-- It is a conditional branch, `jr`, `callr` or `ret`, which takes a checkpoint (R221). -/
  br    : Bool := false
  /-- The performance counter that it writes (R572). -/
  pmc   : Option Nat := none
  deriving DecidableEq, Repr

/-- Where control goes after an instruction: on; to an address, by an indirect branch or not; as a conditional branch
decides; into a delay slot, and from there to an address or on; past an annulled slot of so many bytes; into the entry of
`trap n`, by `eret` back to where it came from, or into the parked state. -/
inductive Flow where
  | seq
  | jump (pc : BitVec 48) (indirect : Bool)
  | cond (taken : Bool) (pc : BitVec 48)
  | delay (target : Option (BitVec 48))
  | annul (slotLen : Nat)
  | trap (n : Nat)
  | eret
  | park
  deriving DecidableEq, Repr

/-! ## Fetch (R139, R176, R464) -/

/-- The read of a halfword for a fetch, by its memory type (R285): error kind and poison. -/
def State.fetchRead (s : State) (c pa mt : Nat) : MemAns × State :=
  if mt = 0 ∧ (isHbm pa ∨ isRom pa) then
    let (a, s) := s.fetchLine c (pa / 64) (coreReq c)
    (a.bytes pa 2, s)
  else if isHbm pa then
    let (a, s) := s.homeRead (pa / 64) { coreReq c with cls := 3 } []
    (a.bytes pa 2, s)
  else if h : c < 160 then s.physRead (.core ⟨c, h⟩) false pa 2
  else ({ err := 1 }, s)

/-- The fetch of one halfword by a core: IFETCH_XLATE, IFETCH_ERR, or poison consumed. -/
def fetchHalf (c : Nat) (va : BitVec 48) : Z Unit := do
  let a := ((← get).core c).arch
  let en := if a.mode = 2 then a.csf CsFld.HTCTL_EN == 1 else a.csf CsFld.STCTL_EN == 1
  let ea : Word := if en then va.signExtend 64 else va.zeroExtend 64
  let x ← translated c .fetch ea
  let (m, s) := (← get).fetchRead c x.pa x.mt
  set s
  if m.err ≠ 0 then throw (.exc { vec := 0x04, addr := ea })
  else if m.poison then throw (.poison x.pa)
  else pure ()

/-- The fetch of an instruction by a core: its halfwords, the second where it lies in another line. -/
def fetchCore (c len : Nat) : Z Unit := do
  let pc := ((← get).core c).arch.pc
  fetchHalf c pc
  if len = 4 ∧ pc.toNat / 64 ≠ (pc.toNat + 2) / 64 then fetchHalf c (pc + 2) else pure ()

/-- The base of engine n's local memory; instruction memory is its first half. -/
def engineMem (n : Nat) : Nat := spinnerBase + n * 0x20000

/-- Whether a thread's own instruction memory holds all of an access. -/
def ownImem (t pa n : Nat) : Bool := engineMem (t / 8) ≤ pa && pa + n ≤ engineMem (t / 8) + 0x10000

/-- Whether its own data memory does. -/
def ownDmem (t pa n : Nat) : Bool := engineMem (t / 8) + 0x10000 ≤ pa && pa + n ≤ engineMem (t / 8) + 0x20000

/-! ## When a core can issue -/

/-- How far a member has come: its instar and the instructions retired in it. -/
def Core.position (k : Core) : Nat × Nat := (k.mem.instar, k.mem.count)

/-- Whether one position lies before another. -/
def posBefore (a b : Nat × Nat) : Bool := a.1 < b.1 || (a.1 == b.1 && a.2 < b.2)

/-- Active members that take part at present: those not quarantined (R334, R358). -/
def State.groupRunning (s : State) (g : Nat) : List Nat :=
  ([0, 1, 2].filter (fun i => s.fld Fld.CG_STAT_ACTIVE g / 2 ^ i % 2 == 1 && s.fld Fld.CG_STAT_QUAR g / 2 ^ i % 2 == 0)).map
    (s.groupMember g)

/-- A member still works up to the `park` that two others have confirmed, or has it in the checker (R340, R355). -/
def State.lagging (s : State) (g c : Nat) : Bool := (s.group g).late.any (fun l => l.1 == c)

/-- A member may go on: its group runs, or parks and the member lags; it waits for nothing, not for a state copy (R358) nor for
a halt (R369), and a cut leaves it only as far as the furthest member (R343, R344); after the power-fail warning nothing is
executed again (R365). -/
def State.memberIssues (s : State) (c : Nat) : Bool :=
  match s.groupOf c with
  | none => true
  | some g =>
    let k := s.core c
    (s.fld Fld.CG_STAT_STATE g == 3 || (s.fld Fld.CG_STAT_STATE g == 2 && s.lagging g c)) && !k.mem.full && !k.mem.hold && !k.mem.stuck && k.mem.ext.isNone &&
    (s.groupRunning g).contains c && ((s.group g).resync.all (fun n => k.mem.instar < n)) &&
    ((s.group g).halt.isNone || (s.group g).cut) && !(s.pwr.failSeq && (s.group g).ended) &&
    (!(s.group g).cut || (s.groupRunning g).any (fun d => posBefore k.position (s.core d).position))

/-- Every running member stands at one point, and none waits for an earlier boundary (R344). -/
def State.atCut (s : State) (g : Nat) : Bool :=
  match s.groupRunning g with
  | [] => false
  | c :: r =>
    (c :: r).all (fun d =>
      let m := (s.core d).mem
      !m.full && !m.hold && !m.stuck && m.ext.isNone && (s.core d).position == (s.core c).position)

/-- A core can issue an instruction now, as far as the core itself goes. -/
def State.coreReady (s : State) (c : Nat) : Bool :=
  let k := s.core c
  s.islOpen (coreIsland c) && k.run == .running && (!k.halted || k.stepping) && (k.tlbiSent.isNone || k.tlbiWait == 0) &&
  k.brCkpts.length < 32 && !s.traceStalls c &&
  (k.arch.csf CsFld.SSTAT_DEFER == 0 || k.arch.deferN < 256) && !k.mchecks.any (fun m => m.pc == some k.savedPc)

/-- A core can issue an instruction now. -/
def State.coreIssues (s : State) (c : Nat) : Bool := s.coreReady c && s.memberIssues c

/-- A member stands at the cut point with all the others: its next instruction does not retire before the cut, but where it
meets a boundary of its own, an exception or the fold's, that boundary falls at the same count and comes first (R344,
R352). -/
def State.cutMeets (s : State) (c : Nat) : Bool :=
  match s.groupOf c with
  | none => false
  | some g =>
    s.coreReady c && s.fld Fld.CG_STAT_STATE g == 3 && (s.group g).cut && (s.groupRunning g).contains c && s.atCut g &&
    (s.group g).resync.all (fun n => (s.core c).mem.instar < n)

/-! ## Halts (R561 to R564) -/

/-- A core halts, with a cause: retired stores performed, the reservation cleared, a delayed branch not yet retired with
its slot not begun, HALT traced. -/
def State.haltCore (s : State) (c cause : Nat) : State :=
  let s := (s.drainSb c).unslot c
  let s := (s.modCore c (fun k => { k with halted := true, stepping := false, resv := none, llWait := none })).endEarly c
  let s := (s.setFld Fld.TR_DBG_HALTED c 1).setFld Fld.TR_DBG_HCAUSE c cause
  s.traceHalt c cause

/-- A halt of a core for a cause of its own: at once, or, in a group, as a cut of the group (R369, R564). -/
def State.haltFor (s : State) (c cause : Nat) : State :=
  match s.groupOf c with
  | none => s.haltCore c cause
  | some g => s.modGroup g (fun x => { x with cut := true, halt := some c, cause := cause })

/-! ## Comparators (R558, R559) -/

/-- Whether comparator `i` is of a kind and any byte of an access lies in its block. -/
def CoreArch.cmpHits (a : CoreArch) (kind i : Nat) (va : BitVec 48) (n : Nat) : Bool :=
  let m := 2 ^ a.csf CsFld.DBGC_MASK (2 * i)
  let b := a.csf CsFld.DBGA_ADDR (2 * i) / m * m
  a.csf CsFld.DBGC_KIND (2 * i) == kind && overlaps b m va.toNat n

/-- The comparators of a kind that an access meets. -/
def CoreArch.cmpList (a : CoreArch) (kind : Nat) (va : BitVec 48) (n : Nat) : List Nat :=
  [0, 1, 2, 3].filter (fun i => a.cmpHits kind i va n)

/-- Whether a core's matches act: in a group the primary's alone. -/
def State.cmpActs (s : State) (c : Nat) : Bool :=
  match s.groupOf c with
  | some g => s.groupPrimary g == c && !(s.group g).cut
  | none => true

/-- The comparator that halts, of those met: ACTION 2 while HALT is authorised. -/
def State.cmpHalt (s : State) (c : Nat) (is : List Nat) : Option Nat :=
  if s.flag Fld.TR_AUTH_HALT 0 && s.cmpActs c then
    is.find? (fun i => (s.core c).arch.csf CsFld.DBGC_ACTION (2 * i) == 2) else none

/-- The trace triggers and trace events of the comparators met. -/
def State.cmpTrace (s : State) (c : Nat) (is : List Nat) : State :=
  if !s.cmpActs c then s
  else is.foldl (fun s i =>
    let act := (s.core c).arch.csf CsFld.DBGC_ACTION (2 * i)
    if act = 1 then s.traceTrigger c i
    else if act = 3 then s.modCore c (fun k => { k with trace := { k.trace with event := true } }) else s) s

/-! ## Retirement (R214, R250, R342, R573) -/

/-- The pc after an instruction and, of a delayed branch, its slot. -/
def Flow.next (f : Flow) (pc : BitVec 48) (len : Nat) : BitVec 48 :=
  match f with
  | .seq => pc + BitVec.ofNat 48 len
  | .jump t _ => t
  | .cond taken t => if taken then t else pc + BitVec.ofNat 48 len
  | .delay _ => pc + BitVec.ofNat 48 len
  | .annul n => pc + BitVec.ofNat 48 (len + n)
  | _ => pc + BitVec.ofNat 48 len

/-- The return from an exception (R248): fl, the enable and the mode as they were saved, DEFER clear, the pc. -/
def CoreArch.eret (a : CoreArch) : CoreArch :=
  if a.mode = 2 then
    let b := (a.setCsf CsFld.HSTAT_HIE (a.csf CsFld.HSTAT_PIE)).setCsf CsFld.SSTAT_DEFER 0
    { b with fl := BitVec.ofNat 4 (a.csf CsFld.HSTAT_FL), mode := BitVec.ofNat 2 (a.csf CsFld.HSTAT_PM),
             pc := BitVec.ofNat 48 (2 * a.csf CsFld.HEPC_PC) }
  else
    let b := (a.setCsf CsFld.SSTAT_SIE (a.csf CsFld.SSTAT_PIE)).setCsf CsFld.SSTAT_DEFER 0
    { b with fl := BitVec.ofNat 4 (a.csf CsFld.SSTAT_FL), mode := BitVec.ofNat 2 (a.csf CsFld.SSTAT_PM),
             pc := BitVec.ofNat 48 (2 * a.csf CsFld.SEPC_PC) }

/-- `eret` pops the return-address stack (R222) and clears the reservation (R328). -/
def State.doEret (s : State) (c : Nat) : State :=
  let s := s.modCore c (fun k => { k with arch := k.arch.eret, ras := k.ras.drop 1, resv := none })
  let s := s.feed c ((s.core c).arch.fl.zeroExtend 64)
  (s.traceTarget c (s.core c).arch.pc).traceContext c

/-- The entry into the parked state (R252, R253): a level that is high already does not wake the core until it has fallen
and risen again; where a wake was granted first, a core outside any group goes on without stopping. -/
def State.parkCore (s : State) (c : Nat) : State :=
  if (s.core c).woken then
    s.modCore c (fun k => { k with woken := false, run := if s.inGroup c then .parked else .running })
  else
    let held := [0, 1].filter (fun h => s.coreLevel c h)
    s.modCore c (fun k => { k with run := .parked, lvlHeld := held })

/-- What the flow itself changes once its instruction has retired. -/
def State.flowDone (s : State) (c : Nat) (f : Flow) : State :=
  match f with
  | .jump t true => (s.traceTarget c t).traceContext c
  | .eret => s.doEret c
  | .park => s.parkCore c
  | _ => s

/-! ## The branch predictor (R221 to R226) -/

/-- The checkpoint of a branch (R221). -/
def Core.brCkpt (k : Core) : BrCkpt := ⟨k.ghr, k.ras, k.arch.cs 0 0x018, k.arch.cs 0 0x028, []⟩

/-- A branch that has executed at `a` and not retired holds its checkpoint; one that waits keeps the one it has. -/
def State.brHeld (s : State) (c : Nat) (z : Zi) (a : Core) : State :=
  if z.br && (s.core c).brCkpts.isEmpty then s.modCore c (fun k => { k with brCkpts := [a.brCkpt] }) else s

/-- A branch retires: it counts as mispredicted where it was (R231), and its checkpoint is free (R221). -/
def State.brRetires (s : State) (c : Nat) (br : Bool) (x : CoreArch) : State :=
  let s := if br && (s.core c).brMiss then s.pmCoreBy c x none 0x04 1 else s
  if br then s.modCore c (fun k => { k with brCkpts := [], brMiss := false }) else s

/-- The history a direction table is indexed by: none for the base table, the latest 8, 24, 64 and 160 outcomes for the
tagged ones. -/
def dirHistory (g : BitVec 160) (table : Nat) : BitVec 160 :=
  g &&& BitVec.ofNat 160 (2 ^ ([0, 8, 24, 64, 160].getD table 0) - 1)

/-- A retired conditional branch trains a direction table: the counter of its place and tag (R223, R226). The spec gives
the tagged tables no size: here they have no bound, and one tag for each index (DESIGN CHOICE, assumption log 336). -/
def Core.trainTable (k : Core) (pc : BitVec 48) (taken : Bool) (table : Nat) : Core :=
  let key := BitVec.ofNat 48 (k.arch.csf CsFld.BPKEY_KEY)
  let h := dirHistory k.ghr table
  let i := Config.dirIndex table key pc h
  let place := (if table = 0 then i % 8192 else i) * 8 + table
  let tag := if table = 0 then 0 else Config.dirTag table key pc h
  let old := FMap.get k.dir (0, 0) place
  { k with dir := FMap.set k.dir place (tag, Config.dirCount (if old.1 = tag then old.2 else 0) taken) }

/-- The direction tables learn the outcome of a retired conditional branch; under STATIC_BP the tagged ones do not. -/
def Core.trainDir (k : Core) (pc : BitVec 48) (taken : Bool) : Core :=
  (if k.arch.csf CsFld.SPECCTL_STATIC_BP = 1 then [0] else [0, 1, 2, 3, 4]).foldl (fun k t => k.trainTable pc taken t) k

/-- A list of targets that takes one, of at most 4,096 (R221). That the indirect predictor holds as many as the target buffer,
and that both are fully associative and lose their oldest entry, is the model's choice (DESIGN CHOICE, assumption log
336). -/
def targetPut (x : Target) (l : List Target) : List Target :=
  (x :: l.filter (fun y => !(y.key == x.key && y.ctx == x.ctx))).take 4096

/-- The target buffer learns the target of a taken branch, and the indirect predictor that of an indirect one, under the
current context's tag; neither does under STATIC_BP. -/
def Core.trainTarget (k : Core) (pc target : BitVec 48) (indirect : Bool) : Core :=
  if k.arch.csf CsFld.SPECCTL_STATIC_BP = 1 then k
  else
    let key := BitVec.ofNat 48 (k.arch.csf CsFld.BPKEY_KEY)
    { k with
      btb := targetPut ⟨pc.toNat, target, k.arch.context⟩ k.btb
      ibp := if indirect then targetPut ⟨Config.indFold key pc k.ghr, target, k.arch.context⟩ k.ibp else k.ibp }

/-- A retired conditional branch trains the predictor, under the history that stood before it. -/
def State.branchTrain (s : State) (c : Nat) (pc : BitVec 48) (target : Option (BitVec 48)) : State :=
  s.modCore c (fun k =>
    let k := k.trainDir pc target.isSome
    match target with
    | some t => k.trainTarget pc t false
    | none => k)

/-- A conditional branch retires: an atom, and the global history (R221, R546). -/
def State.branchOutcome (s : State) (c : Nat) (taken : Bool) : State :=
  (s.modCore c (fun k => { k with ghr := (k.ghr <<< 1) ||| (BitVec.ofBool taken).zeroExtend 160 })).traceAtom c taken

/-- What retirement counts: `n` instructions, `br` branches, and the steps that they took (STEPS, LONG_BUSY, ISSUE_STALL,
OVERLAP_WAIT, free), in the mode and by the settings `x` that stood before the instruction (R570, R572). -/
def State.retireCount (s : State) (c : Nat) (z : Zi) (n br : Nat) (deferred : Bool) (x : CoreArch) : State :=
  let s := s.modCore c (fun k => { k with
    retired := k.retired + n
    arch := if deferred then { k.arch with deferN := k.arch.deferN + n } else k.arch
    mem := { k.mem with count := k.mem.count + n } })
  let s := [0x01, 0x17, 0x18, 0x19].foldl (fun s e => s.pmFreeBy c x z.pmc e) s
  let count (s : State) (code n : Nat) : State := if n = 0 then s else s.pmCoreBy c x z.pmc code n
  let s := count (count (count s 0x02 n) 0x10 n) 0x03 br
  let s := count (count s 0x05 (bit z.ld)) 0x11 (bit z.ld)
  count s 0x06 (bit z.st)

/-- The end of an instar that an instruction brings (R342): EXTERNAL where it issued an external operation, its own cause,
or LIMIT. -/
def State.retireEnd (s : State) (c : Nat) (z : Zi) : State :=
  match s.groupOf c with
  | none => s
  | some g =>
    let k := s.core c
    if k.mem.ext.isSome then s.endInstar c 3 0 true
    else match z.ends with
      | some 5 => s.endInstar c 5 0 false
      | some e => s.endInstar c e 0 true
      | none => if s.fld Fld.CG_DEF_ILIMIT g ≤ k.mem.count then s.endInstar c 1 0 false else s

/-- Control goes to an address no higher than the branch's. -/
def Flow.back (f : Flow) (pc : BitVec 48) : Bool :=
  match f with
  | .jump t _ => t.toNat ≤ pc.toNat
  | .cond b t => b && decide (t.toNat ≤ pc.toNat)
  | .delay (some t) => t.toNat ≤ pc.toNat
  | _ => false

/-- A hold ends with the form of the constrained sequence: after 16 instructions, or at one that it may not have (R332). -/
def State.resvStep (s : State) (c : Nat) (z : Zi) (f : Flow) : State :=
  match (s.core c).resv with
  | some r =>
    if !r.hold then s
    else
      let pc := (s.core c).arch.pc
      let bad := z.ld || z.st || z.sys || f.back pc || r.left == 0
      s.modCore c (fun k => { k with resv := some { r with hold := !bad, left := r.left - 1 } })
  | none => s

/-- A member has issued an `sc`, which its group's primary has not performed: the hold goes on until then (R351). -/
def Core.scIssued (k : Core) : Bool := k.mem.ext.any (fun x => x.kind == 3 && x.op == 0x13)

/-- A core that waits at another instruction no longer waits for its turn at an `ll` (R332). -/
def State.llLeft (s : State) (c : Nat) (z : Zi) : State :=
  if z.link || (s.core c).llWait.isNone then s else s.modCore c (fun k => { k with llWait := none })

/-- After an instruction retires: data comparators, and the halt after a step (R559, R563). -/
def State.retireHalt (s : State) (c : Nat) : State :=
  let k := s.core c
  let s := s.modCore c (fun k => { k with
    dbgHit := [], skipCmp := false, woken := false, tlbiSent := none, llWait := none })
  let s := s.cmpTrace c k.dbgHit
  match s.cmpHalt c k.dbgHit with
  | some i => (s.setFld Fld.TR_DBG_CMPNO c i).haltFor c 3
  | none =>
    if !k.stepping then s
    else match s.groupOf c with
      | none => s.haltCore c 2
      | some g => s.modGroup g (fun x => { x with
          cut := true, halt := x.halt.or (some c), cause := if x.halt.isSome then x.cause else 2 })

/-- An instruction of a core retires, with the flow its execution gave and the execute comparators it met, whose trace comes
with it (R227, R559). A delayed branch retires with its slot. `a` is the core before it. -/
def State.retire (s : State) (c : Nat) (z : Zi) (f : Flow) (deferred : Bool) (cmps : List Nat) (a : CoreArch) : State :=
  let k := s.core c
  match f, k.slot with
  | .delay t, _ =>
    s.modCore c (fun k => { k with
      slot := some (k.arch.pc, t), brCkpts := [{ k.brCkpt with cmps := cmps }],
      arch := { k.arch with pc := f.next k.arch.pc z.len } })
  | _, some (b, t) =>
    let s := (s.made c { arch := a } z.pmc).cmpTrace c (k.brCkpts.flatMap (·.cmps) ++ cmps)
    let s := ((s.branchTrain c b t).brRetires c true a).modCore c (fun k => { k with
      slot := none, arch := { k.arch with pc := t.getD (f.next k.arch.pc z.len) } })
    ((((s.retireCount c z 2 1 deferred a).branchOutcome c t.isSome).retireEnd c z).retireHalt c)
  | _, none =>
    let s := ((s.made c { arch := a } z.pmc).cmpTrace c cmps).brRetires c z.br a
    let s := match f with
      | .cond b t => s.branchTrain c k.arch.pc (if b then some t else none)
      | .annul _ => s.branchTrain c k.arch.pc none
      | .jump t i => s.modCore c (fun k => k.trainTarget k.arch.pc t i)
      | _ => s
    let s := s.modCore c (fun k => { k with arch := { k.arch with pc := f.next k.arch.pc z.len } })
    match f with
    | .cond b _ => (((s.retireCount c z 1 1 deferred a).branchOutcome c b).retireEnd c z).retireHalt c
    | .annul _ => (((s.retireCount c z 1 1 deferred a).branchOutcome c false).retireEnd c z).retireHalt c
    | .jump _ _ => (((s.retireCount c z 1 1 deferred a).flowDone c f).retireEnd c z).retireHalt c
    | .trap n =>
      ((s.retireCount c z 1 0 deferred a).takeExc c { vec := 0x0E, trapno := n } (s.core c).arch.pc).retireHalt c
    | _ => (((s.retireCount c z 1 0 deferred a).flowDone c f).retireEnd c z).retireHalt c

/-! ## Execution on a core -/

/-- An instruction has read nothing yet. -/
def State.startReads (s : State) (c : Nat) : State :=
  if (s.core c).early.isEmpty then s else s.modCore c (fun k => { k with rdTime := 0 })

/-- Fetch, the check of the slot and of who decodes the instruction, then its body. -/
def coreExec (c : CoreId) (z : Zi) (body : Z Flow) : Z Flow := do
  fetchCore c.val z.len
  needs (.core c) (z.core && (z.slot || ((← get).core c.val).slot.isNone))
  body

/-- An instruction of a core: nothing while the core cannot issue; else it executes and retires, halts at an execute
comparator, or stops. An exception raised in a step is entered, and the core then halts (R563). At a cut point it does not
retire. -/
def State.zisRun (s : State) (c : CoreId) (z : Zi) (body : Z Flow) : State :=
  let go := s.coreIssues c.val
  if !go && !s.cutMeets c.val then s
  else
    let s0 := s.core c.val
    let s := s.traceBegin c.val
    let k := s.core c.val
    let cmps := if k.skipCmp then [] else k.arch.cmpList 1 k.arch.pc z.len
    match (coreExec c z body).run (s.startReads c.val) with
    | .error e t =>
      let t := s.unmade t c.val
      match e with
      | .wait => ((t.modTrace c.val (fun _ _ _ => s0.trace)).llLeft c.val z).brHeld c.val z k
      | .room | .ad _ _ _ => (t.modTrace c.val (fun _ _ _ => s0.trace)).stopEnds c.val e
      | e =>
        let t := t.stopCore c.val e
        if (t.core c.val).stepping && e != .engine then (t.modCore c.val (fun k => { k with skipCmp := false })).haltFor c.val 2
        else t
    | .ok f t =>
      if !go then s.modTrace c.val (fun _ _ _ => s0.trace)
      else if (t.core c.val).run != .running then t
      else match s.cmpHalt c.val cmps with
      | some i => (s.setFld Fld.TR_DBG_CMPNO c.val i).haltFor c.val 3
      | none =>
        let t := if (s.core c.val).resv.isSome && !z.link && !(t.core c.val).scIssued then t.resvStep c.val z f else t
        t.retire c.val z f (k.arch.csf CsFld.SSTAT_DEFER == 1) cmps k.arch

/-- An instruction of a core, which a full trace buffer holds as long as it has no space for the packets (R550). -/
def State.zisCore (s : State) (c : CoreId) (z : Zi) (body : Z Flow) : State :=
  let t := s.zisRun c z body
  if s.traceHeld t c.val then s else t

/-! ## Execution on a thread (R463 to R468, R566) -/

/-- The oldest `n` of the stores that a thread still has to perform are performed, in program order (R233, R465). -/
def State.threadPerform (s : State) (t : Nat) : Nat → State
  | 0 => s
  | n + 1 =>
    match (s.thread t).rest with
    | (a, k, v) :: r =>
      let s := s.modThread t (fun x => { x with rest := r })
      (if h : t < 256 then (s.physWrite (.thread ⟨t, h⟩) true a k v).2 else s).threadPerform t n
    | [] => s

/-- Every store that a thread still has to perform is performed (R465, R468, R472). -/
def State.threadRest (s : State) (t : Nat) : State := s.threadPerform t (s.thread t).rest.length

/-- What is performed before a thread's next instruction issues: every store but those posted to HBM, and of those as many
as a free value says (R465). -/
def State.threadSome (s : State) (t : Nat) : State :=
  let l := (s.thread t).rest
  if l.isEmpty then s
  else if l.any (fun e => !isHbm e.1) then s.threadRest t
  else
    let (w, s) := s.freeVal
    s.threadPerform t (w.toNat % (l.length + 1))

/-- A store is posted, at most four of a thread at a time (R465). -/
def State.threadPost (s : State) (t a n v : Nat) : State :=
  (s.threadPerform t ((s.thread t).rest.length - 3)).modThread t (fun k => { k with rest := k.rest ++ [(a, n, v)] })

/-- A thread faults (R468): the record, the engine's error record, and FAULT. -/
def State.threadFault (s : State) (t cause addr trapno : Nat) : State :=
  let s := s.threadRest t
  let k := s.thread t
  let pc := match k.slot with
    | some (b, _) => b
    | none => k.pc
  let s := s.modThread t (fun k => { k with run := .fault, pc := pc, slot := none, stepping := false })
  let s := (s.setFld Fld.SP_FAULT_CAUSE t cause).setFld Fld.SP_FAULT_PC t (pc.toNat / 2)
  let s := s.setFld Fld.SP_FAULT_TRAPNO t trapno
  let s := if 3 ≤ cause ∧ cause ≤ 7 then s.setFld Fld.SP_FADDR_ADDR t addr else s
  let s := s.setFld Fld.SP_THR_STATE t 3
  s.logErr { unit := 245, sev := 2, type := 0x29, src := 0x100 + t, loc := t,
             addr := if 3 ≤ cause ∧ cause ≤ 7 then some addr else none,
             data := [t + cause * 256 + pc.toNat * 2 ^ 16], sec := s.engineSecure (t / 8) }

/-- A thread enters HALTED with a cause (R566). -/
def State.haltThread (s : State) (t cause : Nat) : State :=
  let s := (s.threadRest t).modThread t (fun k => { k with
    run := .halted, stepping := false, slot := none,
    pc := match k.slot with
      | some (b, _) => b
      | none => k.pc })
  (((s.setFld Fld.SP_THR_STATE t 4).setFld Fld.TR_SDBG_HALTED t 1).setFld Fld.TR_SDBG_HCAUSE t cause)

/-- A thread can issue: its island runs and it is in RUN, or halted for one step. -/
def State.threadIssues (s : State) (t : Nat) : Bool :=
  s.islOpen 21 && ((s.thread t).run == .run || ((s.thread t).run == .halted && (s.thread t).stepping))

/-- Fetch, the check of the slot and of what a thread decodes, then the body. -/
def threadExec (t : ThreadId) (z : Zi) (body : Z Flow) : Z Flow := do
  let k := (← get).thread t.val
  if !ownImem t.val k.pc.toNat z.len then throw (.fault 2 k.pc.toNat 0)
  else
    needs (.thread t) (z.thr && (z.slot || k.slot.isNone))
    body

/-- A thread's pc after an instruction. -/
def Thread.advance (k : Thread) (z : Zi) (f : Flow) : Thread :=
  match f, k.slot with
  | .delay t, _ => { k with slot := some (k.pc, t), pc := f.next k.pc z.len }
  | _, some (_, t) => { k with slot := none, pc := t.getD (f.next k.pc z.len) }
  | _, none => { k with pc := f.next k.pc z.len }

/-- The breakpoint of a thread holds it before the instruction at its pc (R566). -/
def State.brkHits (s : State) (t : Nat) : Bool :=
  let k := s.thread t
  s.flag Fld.TR_AUTH_HALT 0 && s.flag Fld.TR_SBRK_EN t && s.fld Fld.TR_SBRK_PC t == k.pc.toNat / 2 && !k.skipBrk

/-- An instruction of a thread. What its previous one still had to perform is performed first; what the thread had read
ahead serves this one alone. -/
def State.zisThread (s : State) (t : ThreadId) (z : Zi) (body : Z Flow) : State :=
  if !s.threadIssues t.val then s
  else if s.brkHits t.val then s.haltThread t.val 3
  else
    let s := s.threadSome t.val
    let k := s.thread t.val
    match (threadExec t z body).run s with
    | .error (.fault cause addr n) u => u.threadFault t.val cause addr n
    | .error _ u => u
    | .ok f u =>
      if (u.thread t.val).run = .stopped then u
      else
      let u := u.modThread t.val (fun k => { k.advance z f with skipBrk := false, early := none, slots := k.slots + 1 })
      if k.stepping && (u.thread t.val).slot.isNone && (u.thread t.val).run != .wait then u.haltThread t.val 2 else u

/-- A ZIS instruction of an agent. -/
def zis (a : Agent) (z : Zi) (body : Z Flow) (s : State) : Result :=
  match a with
  | .core c => .next (s.zisCore c z body)
  | .thread t => .next (s.zisThread t z body)

end Sys2Proof.Machine
end

