-- ==== Sys2Proof/Machine/Groups.lean ====
section
/-!
DEFINITION. Checked groups (chapter 14): the group table and its commands, digests and verdicts, the drain of the fold,
rollback, quarantine, re-admission, expulsion and failure.  The external operations themselves are in ExtOps.
-/

namespace Sys2Proof.Machine

/-! ## The table (R333 to R337) -/

/-- Indexes of the members that are active, and of those that also take part at present (R334, R336). -/
def State.memberIdx (s : State) (g : Nat) : List Nat :=
  [0, 1, 2].filter (fun i => s.fld Fld.CG_STAT_ACTIVE g / 2 ^ i % 2 == 1)
def State.runIdx (s : State) (g : Nat) : List Nat :=
  (s.memberIdx g).filter (fun i => s.fld Fld.CG_STAT_QUAR g / 2 ^ i % 2 == 0)

/-- The index of a core in a group. -/
def State.idxOf (s : State) (g c : Nat) : Nat := ((s.memberIdx g).find? (fun i => s.groupMember g i == c)).getD 0

/-- CG_CORE_c of each member shows its role (R336). -/
def State.syncRoles (s : State) (g : Nat) : State :=
  (s.memberIdx g).foldl (fun s i =>
    let c := s.groupMember g i
    let role := if s.fld Fld.CG_STAT_QUAR g / 2 ^ i % 2 = 1 then 3 else if s.fld Fld.CG_STAT_PRIM g = i then 1 else 2
    ((s.setFld Fld.CG_CORE_IN c 1).setFld Fld.CG_CORE_GROUP c g).setFld Fld.CG_CORE_ROLE c role) s

/-- A closed half that is confirmed. -/
def State.closedOk (s : State) (g c : Nat) : Bool := (s.core c).mem.closedN.any (fun n => n < (s.group g).next)

/-- A new primary goes on with what its predecessor had left of a confirmed half (R348, R357); the lines that have drained are
no longer its own in the L1. -/
def State.takeDrain (s : State) (g p q : Nat) : State :=
  let m := (s.core p).mem
  if p = q ∨ !s.closedOk g p ∨ (s.core q).mem.closedN ≠ m.closedN then s
  else s.modCore q (fun k => { k with
    l1d := k.l1d.filter (fun l => !((k.mem.closedF.map (·.line)).contains l.1 && !(m.closedF.map (·.line)).contains l.1))
    mem := { k.mem with closedF := m.closedF } })

/-- The primary: the member the entry names, or else the lowest-numbered active member that is not quarantined (R334);
a new primary's encoder starts with SYNC, and its predecessor's emits no more (R367, R552); the levels go to the new one
(R376, R383). -/
def State.setPrim (s : State) (g i : Nat) : State :=
  if s.fld Fld.CG_STAT_PRIM g = i then s.syncRoles g
  else
    let t := s.takeDrain g (s.groupPrimary g) (s.groupMember g i)
    let t := (t.setFld Fld.CG_STAT_PRIM g i).syncRoles g
    let t := [s.groupPrimary g, s.groupMember g i].foldl (fun t c => t.modTrace c (fun _ _ x => x.off)) t
    t.icSettle s

def State.syncPrim (s : State) (g : Nat) : State :=
  let named := s.fld Fld.CG_DEF_PRIMARY g
  let run := s.runIdx g
  s.setPrim g (if run.contains named then named else run.headD named)

/-- Record a write to CG_DEF_g or CG_CMD_g (R336). -/
def State.cgRecord (s : State) (g : Nat) (src : Src) (st : Nat) : State :=
  (s.setFld Fld.CG_STAT_LAST_SRC g (srcId src)).setFld Fld.CG_STAT_LAST_STATUS g st

/-- A write to CG_CFG (R336): DLIMIT 0 is stored as 1. -/
def State.cgCfgWrite (s : State) (src : Src) (v : Word) : State :=
  if !s.srcSys src then s
  else if !s.gateOpen .CG_CFG 0 then s.gateDeny .CG_CFG 0
  else s.setFld Fld.CG_CFG_DLIMIT 0 (max 1 (Fld.CG_CFG_DLIMIT.of v))

/-- A write to CG_DEF_g (R336): refused unless the entry is FREE; ILIMIT is held within 64..4,096. -/
def State.cgDefWrite (s : State) (g : Nat) (src : Src) (v : Word) : State :=
  if !s.srcSys src then s.cgRecord g src stDenied
  else if s.fld Fld.CG_STAT_STATE g ≠ 0 then s.cgRecord g src stBusy
  else
    ((s.codeWrite .CG_DEF g v).setFld Fld.CG_DEF_ILIMIT g (clampNat 64 4096 (Fld.CG_DEF_ILIMIT.of v))).cgRecord g src stOk

/-- A core is parked in an island that is ON (R337). -/
def State.parkedOn (s : State) (c : Nat) : Bool := (s.core c).run == .parked && s.islState (coreIsland c) == 1

/-- The members that a definition names. -/
def State.defMembers (s : State) (g : Nat) : List Nat := (List.range (s.fld Fld.CG_DEF_SIZE g)).map (s.groupMember g)

/-- A definition that FORM accepts (R337). -/
def State.defOk (s : State) (g : Nat) : Bool :=
  let n := s.fld Fld.CG_DEF_SIZE g
  let h := s.fld Fld.CG_DEF_HOME g
  (n == 2 || n == 3) && (s.defMembers g).all (fun c => c < 160) && (s.defMembers g).eraseDups.length == n &&
  decide (s.fld Fld.CG_DEF_PRIMARY g < n) && (h < 80 || h == 0x7F)

/-- A core is a member of a group, or committed to one that FORM or ADMIT is about to bring it into (R333, R339). -/
def State.committed (s : State) (c : Nat) : Bool :=
  s.flag Fld.CG_CORE_IN c ||
  (List.range 80).any (fun g =>
    (s.fld Fld.CG_STAT_STATE g == 1 && (s.defMembers g).contains c) || (s.group g).joining == some c)

/-- FORM (R337 to R339): its conditions, or the group starts FORMING with the members committed to it. -/
def State.cgForm (s : State) (g : Nat) (src : Src) : State :=
  if s.fld Fld.CG_STAT_STATE g ≠ 0 then s.cgRecord g src stBusy
  else if !s.defOk g then s.cgRecord g src stBadArg
  else if (s.defMembers g).any s.committed then s.cgRecord g src stInGroup
  else if !(s.defMembers g).all s.parkedOn then s.cgRecord g src stNotParked
  else
    let n := s.fld Fld.CG_DEF_SIZE g
    let p := s.fld Fld.CG_DEF_PRIMARY g
    let h := s.fld Fld.CG_DEF_HOME g
    let s := (s.setFld Fld.CG_STAT_STATE g 1).setFld Fld.CG_STAT_ACTIVE g (2 ^ n - 1)
    let s := (s.setFld Fld.CG_STAT_SIZE_EFF g n).setFld Fld.CG_STAT_PRIM g p
    let s := s.setFld Fld.CG_STAT_HOME_EFF g (if h = 0x7F then s.groupMember g p / 2 else h)
    let s := (s.setFld Fld.CG_STAT_QUAR g 0).setFld Fld.CG_STAT_FAIL_CAUSE g 0
    let s := (s.csrSet .CG_EVT g 0).csrSet .CG_INSTAR g 0
    ({ s with groups := FMap.set s.groups g {} }).cgRecord g src stOk

/-! ## Discarding and draining (R348, R356) -/

/-- Discard a member's halves of the instars from `n` on, with the L1 lines they wrote; the half of an earlier instar, which is
confirmed and drains, stays (R284, R356, R358). -/
def State.discard (s : State) (c n : Nat) : State :=
  let s := s.endEarly c
  let m := (s.core c).mem
  let keep := m.closedN.any (fun k => k < n)
  let gone := (m.openF ++ (if keep then [] else m.closedF)).map (·.line)
  s.modCore c (fun k => { k with
    l1d := k.l1d.filter (fun l => !gone.contains l.1), slot := none, brCkpts := [], brMiss := false, llWait := none, dbgHit := [],
    mem := { m with openF := [], closedF := if keep then m.closedF else [],
                    closedN := if keep then m.closedN else none, full := false, hold := false, ext := none,
                    stuck := false, count := 0, crc := BitVec.allOnes 64, epoch := 0 } })

/-- Restore a checkpoint of a member; its counters are not part of it (R354, R368). -/
def State.restore (s : State) (c : Nat) (x : Ckpt) : State :=
  s.modCore c (fun k => { k with
    arch := k.arch.given x.arch, mem := { k.mem with instar := x.instar, repl := x.repl, ckpts := k.mem.ckpts.filter (·.instar ≤ x.instar) } })

/-- The checkpoint of an instar that a group's members hold. -/
def State.ckptOf (s : State) (g c n : Nat) : Option Ckpt :=
  (((s.core c) :: (s.groupActive g).map s.core).flatMap (fun k => k.mem.ckpts)).find? (fun x => x.instar == n)

/-- A fold entry is performed at the point of coherence (R310, R348). -/
def State.foldWrite (s : State) (c : Nat) (e : FoldEntry) : State :=
  let (k, s) :=
    if isHbm (e.line * 64) then
      if e.nc then s.homeWrite e.line e.mask e.data { src := some c, sec := false, cls := 3 } false (some c)
      else s.coreWrite c e.line e.mask e.data { src := some c, sec := false }
    else if h : c < 160 then s.physWriteMask ⟨c, h⟩ e.line e.mask e.data
    else (0, s)
  s.lateStore c k (e.line * 64)

/-- Entry `i` of a half may be performed: a half drains in the order in which its stores entered it (R317, R348). -/
def foldReady (f : List FoldEntry) (i : Nat) : Bool := i == 0 && !f.isEmpty

/-- A member's closed instar is over: its half is discarded or has drained, and what waited for that goes on (R343,
R348). -/
def State.memberDone (s : State) (c : Nat) : State :=
  let m := (s.core c).mem
  let n := m.closedN.getD 0
  let s := s.modCore c (fun k => { k with
    l1d := k.l1d.filter (fun l => !(m.closedF.map (·.line)).contains l.1),
    mem := { m with closedF := [], closedN := none, ckpts := m.ckpts.filter (fun x => n < x.instar) } })
  if m.full then
    let s := s.modMem c Member.close
    if m.hold then s else s.beginInstar c
  else if m.hold && m.ext.isNone then s.beginInstar c
  else s

/-- The running members halt, the one that a halt named with its cause, one that steps as after a step, the others with the
cause of a group's cut (R563, R564). -/
def State.haltMembers (s : State) (g d cause : Nat) : State :=
  (s.groupRunning g).foldl (fun s c => s.haltCore c (if c = d then cause else if (s.core c).stepping then 2 else 4))
    (s.modGroup g (fun x => { x with halt := none }))

/-- Every member of a group halts, once its cut instar is confirmed and drained (R369, R564). -/
def State.haltGroup (s : State) (g : Nat) : State :=
  match (s.group g).halt with
  | none => s
  | some d =>
    let run := s.groupRunning g
    if (s.group g).cut || run.any (fun c => (s.core c).mem.closedN.isSome || (s.core c).mem.full) then s
    else
      s.haltMembers g d (s.group g).cause

/-- The primary's confirmed half has drained: the members' halves of that instar are discarded (R348); the next half,
where it is confirmed and empty, follows at once. -/
def State.drainDone (s : State) (g : Nat) : Nat → State
  | 0 => s
  | fuel + 1 =>
    let m := (s.core (s.groupPrimary g)).mem
    match m.closedN with
    | none => s.haltGroup g
    | some n =>
      if !(n < (s.group g).next) || !m.closedF.isEmpty then s
      else
        let s := s.modGroup g (fun x => { x with drained := n + 1 })
        let s := (s.groupActive g).foldl (fun s c =>
          if (s.core c).mem.closedN = some n ∧ !(s.group g).late.any (fun l => l.1 == c && l.2.1 == n) then s.memberDone c
          else s) s
        s.drainDone g fuel

/-- Perform what is left of confirmed halves at once: of the one that drains, and of one that waits behind it. -/
def State.drainN (s : State) (g : Nat) : Nat → State
  | 0 => s
  | fuel + 1 =>
    let p := s.groupPrimary g
    if s.closedOk g p then
      let s := (s.core p).mem.closedF.foldl (fun s e => s.foldWrite p e) s
      ((s.modMem p (fun m => { m with closedF := [] })).drainDone g 3).drainN g fuel
    else s

def State.drainAll (s : State) (g : Nat) : State := s.drainN g 3

/-! ## Records and machine checks of a group -/

/-- The error unit of a group's checker (R600): the tile of its home slice. -/
def State.cgUnit (s : State) (g : Nat) : Nat := 160 + s.fld Fld.CG_STAT_HOME_EFF g

/-- A machine check that a core takes before it executes anything more, with EIPV 0 (R359, R363). -/
def State.mcheckFirst (s : State) (c u : Nat) (r : Option Nat) : State :=
  s.mcheck c ⟨mcDetail u 2 r, 0, true, false, some (s.core c).savedPc⟩

/-- A core leaves its group, with no line in its L1 that a half of its fold wrote. -/
def State.leave (s : State) (c : Nat) : State :=
  (s.csrSet .CG_CORE c 0).modCore c (fun k =>
    let gone := (k.mem.openF ++ k.mem.closedF).map (·.line)
    { k with l1d := k.l1d.filter (fun l => !gone.contains l.1), mem := {} })

/-! ## Rollback, quarantine, expulsion, failure -/

/-- Digests that DLIMIT has counted as disagreeing are dropped when they arrive, whatever becomes of their instar (R355). -/
def Group.deaden (x : Group) : Group :=
  { x with sent := x.sent.map (fun d => if x.expired.contains (d.core, d.instar) then { d with dead := true } else d) }

/-- The group is over, in failure: what is kept are its members' last digests (R363), and the digests on their way that
DLIMIT has counted, which are dropped as they arrive (R355). -/
def Group.ends (x : Group) : Group := { last := x.last, sent := x.deaden.sent.filter (·.dead) }

/-- A core's part in the verdicts is over; what it has sent too late still arrives (R355). -/
def Group.without (x : Group) (c : Nat) : Group :=
  let x := x.deaden
  { x with
    sent := x.sent.filter (fun d => d.dead || d.core != c), arrived := x.arrived.filter (fun d => d.core != c),
    expired := x.expired.filter (fun e => e.1 != c), late := x.late.filter (fun l => l.1 != c),
    fresh := x.fresh.filter (· != c) }

/-- Every running member goes back to the start of instar `n` (R356); a debug halt that waits cuts the group anew (R369). -/
def State.rollback (s : State) (g n : Nat) : State :=
  let s := (s.satField Fld.CG_EVT_ROLLBACKS g).logErr
    { unit := s.cgUnit g, sev := 0, type := 0x20, src := 0x480 + g, data := [g + n * 2 ^ 16] }
  let m := (s.core (s.groupPrimary g)).mem
  let s := s.traceRollback (s.groupPrimary g) n
    (m.instar - n + if m.instar ≤ n || m.count != 0 || m.full then 1 else 0)
  let repl := ((s.ckptOf g (s.groupPrimary g) n).map (·.repl)).getD 0
  let s := (s.groupRunning g).foldl (fun s c =>
    let s := (s.discard c n).pmCore c 0x21 1
    let s := if (s.core c).run == .parked then s.modCore c (fun k => { k with run := .running }) else s
    match s.ckptOf g c n with
    | some x => s.restore c x
    | none => s) s
  let failing := s.pwr.failSeq
  s.modGroup g (fun x =>
    let x := x.deaden
    { x with
      sent := x.sent.filter (fun d => d.dead || d.instar < n), arrived := x.arrived.filter (fun d => d.instar < n),
      expired := x.expired.filter (fun e => e.2 < n), retry := some n, repl := x.repl.filter (fun e => e.1 < repl),
      cut := x.cut || x.halt.isSome, ended := failing })

/-- A member is quarantined (R358): it stops and discards its halves; the majority runs on to its next boundary, at which a
parked group stands. -/
def State.quarantine (s : State) (g c n : Nat) : State :=
  let i := s.idxOf g c
  let s := (s.satField Fld.CG_EVT_QUARANTINES g).logErr
    { unit := s.cgUnit g, sev := 0, type := 0x21, src := 0x480 + g, data := [g + n * 2 ^ 16, i] }
  let s := s.discard c n
  let s := (s.setFld Fld.CG_STAT_QUAR g (s.fld Fld.CG_STAT_QUAR g ||| 2 ^ i)).syncPrim g
  let top := (s.groupRunning g).foldl (fun b d => max b (s.core d).mem.instar) 0
  let at2 := s.fld Fld.CG_STAT_STATE g = 2
  s.modGroup g (fun x => { x.without c with resync := some (if at2 then top else top + 1) })

/-- A member is expelled (R359, R364): the group goes on as a pair; the core is left parked and takes MCHECK first when
it is woken. -/
def State.expel (s : State) (g c n : Nat) : State :=
  let i := s.idxOf g c
  let s := s.discard c n
  let s := s.setFld Fld.CG_STAT_ACTIVE g (s.fld Fld.CG_STAT_ACTIVE g - 2 ^ i)
  let s := s.setFld Fld.CG_STAT_QUAR g (s.fld Fld.CG_STAT_QUAR g - s.fld Fld.CG_STAT_QUAR g / 2 ^ i % 2 * 2 ^ i)
  let s := (s.setFld Fld.CG_STAT_SIZE_EFF g 2).syncPrim g
  let still := s.fld Fld.CG_STAT_QUAR g != 0
  let s := s.modGroup g (fun x => { x.without c with resync := if !still && x.joining.isNone then none else x.resync })
  let s := (s.leave c).modCore c (fun k => { k with run := .parked, romPark := false })
  let e : ErrRec := { unit := s.cgUnit g, sev := 2, type := 0x22, src := 0x480 + g, data := [g + n * 2 ^ 16, i] }
  let (t, r) := s.recStore e
  (t.reeveEvent 7).mcheckFirst c e.unit r

/-- A group fails (R363, R384): every member takes the failing instar's checkpoint and a machine check, and runs
unchecked. -/
def State.groupFail (s : State) (g cause n : Nat) : State :=
  let old := s
  let s := s.drainAll g
  let was := s.fld Fld.CG_STAT_STATE g
  let mem := s.groupActive g
  let last (i : Nat) : Nat := (FMap.get (s.group g).last 0 (s.groupMember g i)).toNat
  let e : ErrRec :=
    { unit := s.cgUnit g, sev := 2, type := 0x23, src := 0x480 + g,
      data := [g + cause * 2 ^ 8 + n * 2 ^ 16, last 0, last 1, last 2] }
  let s := mem.foldl (fun s c =>
    let x := s.ckptOf g c n
    let s := s.discard c n
    let s := match x with
      | some x => s.restore c x
      | none => s
    s.modCore c (fun k => { k with run := if was = 3 ∧ k.run = .parked then .running else k.run })) s
  let s := mem.foldl (fun s c => s.leave c) s
  let s := (s.setFld Fld.CG_STAT_STATE g 4).setFld Fld.CG_STAT_FAIL_CAUSE g cause
  let s := (s.modGroup g Group.ends).icSettle old
  let (t, r) := s.recStore e
  mem.foldl (fun s c => s.mcheckFirst c e.unit r) (t.reeveEvent 7)

/-! ## The verdict (R354 to R362) -/

/-- The digests of the next instar to decide, of running members. -/
def State.votes (s : State) (g : Nat) : List Digest :=
  (s.group g).arrived.filter (fun d => d.instar == (s.group g).next && (s.groupRunning g).contains d.core)

/-- Whether a running member's vote on the next instar is still out. -/
def State.voteOut (s : State) (g c : Nat) : Bool :=
  !(s.votes g).any (fun d => d.core == c) && !(s.group g).expired.contains (c, (s.group g).next)

/-- The value that two digests share, if any. -/
def agreed : List Digest → Option (BitVec 64)
  | [] => none
  | d :: r => if d.value.isSome && r.any (fun e => e.value == d.value) then d.value else agreed r

/-- A dissenting member is expelled in its first instar after re-admission, and otherwise quarantined (R357, R359). -/
def State.dissent (s : State) (g c n : Nat) : State :=
  if (s.group g).fresh.contains c then s.expel g c n else s.quarantine g c n

/-- What these digests are, as each member's last (R363). -/
def Group.noteLast (x : Group) (ds : List Digest) : Group :=
  { x with last := ds.foldl (fun l d => FMap.set l d.core (d.value.getD 0)) x.last }

/-- Instar `n` is confirmed with the digest `v` (R354, R357): members that agree go on, the primary's half can drain, the
others are judged. -/
def State.confirm (s : State) (g n : Nat) (v : BitVec 64) : State :=
  let votes := s.votes g
  let run := s.groupRunning g
  let yes := (votes.filter (fun d => d.value == some v)).map (·.core)
  let out := run.filter (s.voteOut g)
  let no := run.filter (fun c => !yes.contains c && !out.contains c)
  let s := s.incField Fld.CG_INSTAR_COUNT g
  let s := yes.foldl (fun s c => (s.pmCore c 0x20 1).pmFree c 0x22) s
  let s := if yes.contains (s.groupPrimary g) then s
    else s.setPrim g (((s.runIdx g).find? (fun i => yes.contains (s.groupMember g i))).getD 0)
  let s := s.modGroup g (fun x => { x.deaden.noteLast votes with
    next := n + 1, arrived := x.arrived.filter (fun d => d.instar != n), expired := x.expired.filter (fun e => e.2 != n),
    retry := if x.retry = some n then none else x.retry, fresh := x.fresh.filter (fun c => !yes.contains c),
    late := x.late ++ out.map (fun c => (c, n, v)) })
  let s := no.foldl (fun s c => s.dissent g c n) s
  let m := (s.core (s.groupPrimary g)).mem
  let ended := if m.full then some m.instar else m.closedN
  let s := if (s.core (s.groupPrimary g)).run = .parked ∧ m.hold ∧ ended = some n then s.setFld Fld.CG_STAT_STATE g 2 else s
  s.drainDone g 3

/-- No two digests agree (R356, R361, R362): a lone INTERNAL of a triple is in the minority; otherwise every member rolls
back once, and the second time the group fails. -/
def State.disagree (s : State) (g n : Nat) : State :=
  let ds := s.votes g
  let s := s.modGroup g (fun x => x.noteLast ds)
  if (s.group g).retry = some n then s.groupFail g (if s.fld Fld.CG_STAT_SIZE_EFF g = 3 then 2 else 1) n
  else
    let bad := ((s.votes g).filter (fun d => d.value.isNone)).map (·.core)
    match bad, s.groupRunning g with
    | [c], [_, _, _] => (s.dissent g c n).rollback g n
    | _, _ => s.rollback g n

/-- Every running member has consumed the same poison at the same count (R362). -/
def State.samePoison (s : State) (g : Nat) : Option Nat :=
  match s.votes g with
  | d :: r =>
    if (r.length + 1 == (s.groupRunning g).length) && d.poison.isSome && r.all (fun e => e.poison == d.poison) then
      d.poison.map (·.1) else none
  | [] => none

/-- The group takes the deferred machine check of its poison as a replicated entry, which is the primary's (R362, R613). -/
def State.groupPoison (s : State) (g pa : Nat) : State :=
  let s := s.modGroup g (fun x => { x with arrived := x.arrived.filter (fun d => d.instar != x.next) })
  let p := s.groupPrimary g
  let run := s.groupRunning g
  let (r, s) := run.foldl (fun (acc : Option Nat × State) c =>
    let (t, r) := acc.2.logPoison { unit := c, sev := 1, type := 0x03, addr := some pa, src := c, data := [(acc.2.core c).savedPc.toNat] }
    (if c = p then r else acc.1, t)) (none, s)
  run.foldl (fun s c =>
    ((s.modMem c (fun m => { m with stuck := false })).mcheck c
      ⟨mcDetail p 1 r, mcAddr r pa, true, true, some (s.core c).savedPc⟩).enterMcheck c) s

/-- The verdict on the next instar, as soon as two digests agree or none is out. -/
def State.verdict (s : State) (g : Nat) : State :=
  let n := (s.group g).next
  if s.fld Fld.CG_STAT_STATE g ≠ 3 then s
  else match s.samePoison g with
    | some pa => s.groupPoison g pa
    | none =>
      match agreed (s.votes g) with
      | some v => s.confirm g n v
      | none => if (s.groupRunning g).any (s.voteOut g) then s else s.disagree g n

/-- A digest reaches the checker (R355): dropped where DLIMIT has counted its member; compared at once where its instar
is already confirmed. -/
def State.digestArrives (s : State) (g : Nat) (d : Digest) : State :=
  let x := s.group g
  if d.dead ∨ x.expired.contains (d.core, d.instar) then s.satField Fld.CG_EVT_LATE g
  else match x.late.find? (fun l => l.1 == d.core && l.2.1 == d.instar) with
    | some l =>
      let s := s.modGroup g (fun x => { x with
        late := x.late.filter (fun l => !(l.1 == d.core && l.2.1 == d.instar)),
        last := FMap.set x.last d.core (d.value.getD 0) })
      if d.value = some l.2.2 then
        let s := (s.modGroup g (fun x => { x with fresh := x.fresh.filter (· != d.core) })).pmCore d.core 0x20 1 |>.pmFree d.core 0x22
        if d.instar < x.drained ∧ (s.core d.core).mem.closedN = some d.instar then s.memberDone d.core else s
      else s.dissent g d.core d.instar
    | none => s.modGroup g (fun x => { x with arrived := x.arrived ++ [d] })

/-- The digest lag limit passes (R355) for the oldest instar of which some digests have arrived and others have not. -/
def State.dlimit (s : State) (g : Nat) : State :=
  let x := s.group g
  match x.late with
  | l :: _ =>
    let s := s.modGroup g (fun x => { x with expired := x.expired ++ [(l.1, l.2.1)] })
    s.dissent g l.1 l.2.1
  | [] =>
    if (s.votes g).isEmpty then s
    else
      let out := (s.groupRunning g).filter (s.voteOut g)
      s.modGroup g (fun x => { x with expired := x.expired ++ out.map (fun c => (c, x.next)) })

/-! ## The state copy (R338, R358, R360) -/

/-- Copy the checkpoint state of core `p` to core `c`, which becomes a member at the same boundary and keeps its own
counters (R354, R368). -/
def State.copyState (s : State) (p c : Nat) : State :=
  let k := s.core p
  (s.endEarly c).modCore c (fun d => { d with
    arch := d.arch.given k.arch, run := k.run, romPark := k.romPark, slot := none, halted := k.halted, stepping := k.stepping,
    brCkpts := [], brMiss := false, mem := k.mem, trace := d.trace.off })

/-- FORM's copy is done (R338): empty folds, the checkpoint of instar 0, the roles, and PARKED. -/
def State.formDone (s : State) (g : Nat) : State :=
  if s.fld Fld.CG_STAT_STATE g ≠ 1 then s
  else
    let p := s.groupPrimary g
    let s := s.modCore p (fun k => { k with mem := { ckpts := [⟨0, k.arch, 0⟩] } })
    let s := ((s.groupActive g).filter (· != p)).foldl (fun s c => s.copyState p c) s
    (s.syncRoles g).setFld Fld.CG_STAT_STATE g 2

/-- The entry returns to FREE (R340): its fields but the latest write's outcome take their reset values. -/
def State.cgFree (s : State) (g : Nat) : State :=
  let s := (s.setFld Fld.CG_STAT_STATE g 0).setFld Fld.CG_STAT_ACTIVE g 0
  let s := (s.setFld Fld.CG_STAT_QUAR g 0).setFld Fld.CG_STAT_PRIM g 0
  let s := (s.setFld Fld.CG_STAT_SIZE_EFF g 0).setFld Fld.CG_STAT_HOME_EFF g 0
  (s.setFld Fld.CG_STAT_FAIL_CAUSE g 0).modGroup g (fun x => { x.ends with last := [] })

/-- The group waits at a boundary for a state copy: every running member begins the awaited instar, or stands after the `park`
of a group to which ADMIT adds a core, with nothing of the group's unconfirmed or undrained (R341, R358, R360). -/
def State.atResync (s : State) (g : Nat) : Bool :=
  let x := s.group g
  (s.groupRunning g).all (fun c =>
    let m := (s.core c).mem
    m.closedN.isNone && !m.full && m.count == 0 &&
    (x.resync.any (fun n => n ≤ m.instar) || (s.fld Fld.CG_STAT_STATE g == 2 && x.joining.isSome))) &&
  x.late.isEmpty

/-- The index that ADMIT's core takes: 2, or, where that is an active member's, the free one (R341). -/
def State.admitIdx (s : State) (g : Nat) : Nat :=
  if !(s.memberIdx g).contains 2 then 2 else ([0, 1].find? (fun i => !(s.memberIdx g).contains i)).getD 2

/-- A core joins a group at a boundary (R341, R360). -/
def State.join (s : State) (g c : Nat) : State :=
  let i := s.admitIdx g
  let f := if i = 2 then Fld.CG_DEF_M2 else if i = 1 then Fld.CG_DEF_M1 else Fld.CG_DEF_M0
  let anchor := s.groupAnchor g
  let s := (s.copyState (s.groupPrimary g) c).setFld f g c
  let s := s.modGroup g (fun x => { x with anchor := if i = 0 then some anchor else x.anchor })
  let s := s.setFld Fld.CG_STAT_ACTIVE g (s.fld Fld.CG_STAT_ACTIVE g ||| 2 ^ i)
  ((s.setFld Fld.CG_STAT_SIZE_EFF g 3).syncPrim g).modGroup g (fun x => { x with fresh := x.fresh ++ [c] })

/-- A boundary at which a group parks is also the one for which a cut was asked, but for what the cut delivers (R341, R344). -/
def Group.parkCut (x : Group) : Group := { x with cut := x.irq || x.mc || x.halt.isSome }

/-- The state copy at the boundary (R358, R360), a `park`'s too: quarantined members resume, and the core that ADMIT named
joins. -/
def State.resyncDone (s : State) (g : Nat) : State :=
  let st := s.fld Fld.CG_STAT_STATE g
  if !(st == 2 || st == 3) || !s.atResync g then s
  else
    let quar := ((s.memberIdx g).filter (fun i => !(s.runIdx g).contains i)).map (s.groupMember g)
    let p := s.groupPrimary g
    let s := quar.foldl (fun s c => s.copyState p c) s
    let s := s.setFld Fld.CG_STAT_QUAR g 0
    let s := s.modGroup g (fun x => { x with resync := none, fresh := x.fresh ++ quar })
    let s := match (s.group g).joining with
      | some c => (s.join g c).modGroup g (fun x => { x with joining := none })
      | none => s
    (if st = 2 then s.modGroup g Group.parkCut else s).syncPrim g

/-- A group is dissolved where it has parked (R340): what of it still drains, and a copy that it waits for, first; members
that lag take the state after the `park` (R341, R358, R360; DESIGN CHOICE for those that lag, assumption log 339). -/
def State.dissolveParked (s : State) (g : Nat) : State :=
  let s := s.drainAll g
  let p := s.groupPrimary g
  let s := ((s.groupRunning g).filter (s.lagging g)).foldl (fun s c => s.copyState p c) s
  let s := (s.modGroup g (fun x => { x with late := [] })).resyncDone g
  (s.groupActive g).foldl (fun s c => ((s.discard c 0).leave c).modCore c (fun k => { k with run := .parked })) s

/-- DISSOLVE (R337, R340, R384). -/
def State.cgDissolve (s : State) (g : Nat) (src : Src) : State :=
  match s.fld Fld.CG_STAT_STATE g with
  | 0 => s.cgRecord g src stBadArg
  | 1 => s.cgRecord g src stBusy
  | 3 => s.cgRecord g src stNotParked
  | 2 => (((s.dissolveParked g).cgFree g).icSettle s).cgRecord g src stOk
  | _ => (s.cgFree g).cgRecord g src stOk

/-- ADMIT (R337, R341): in a parked group at once, or as soon as its last instar has drained, else at the boundary that a cut
brings. -/
def State.cgAdmit (s : State) (g : Nat) (src : Src) (c : Nat) : State :=
  let st := s.fld Fld.CG_STAT_STATE g
  if !(st == 2 || st == 3) || s.fld Fld.CG_STAT_SIZE_EFF g != 2 || (s.group g).joining.isSome then s.cgRecord g src stBusy
  else if 160 ≤ c then s.cgRecord g src stBadArg
  else if s.committed c then s.cgRecord g src stInGroup
  else if !s.parkedOn c then s.cgRecord g src stNotParked
  else if st = 2 then ((s.modGroup g (fun x => { x with joining := some c })).resyncDone g).cgRecord g src stOk
  else (s.modGroup g (fun x => { x with cut := true, joining := some c })).cgRecord g src stOk

/-- A write to CG_CMD_g (R336, R337). -/
def State.cgCmd (s : State) (g : Nat) (src : Src) (v : Word) : State :=
  if !s.srcSys src then s.cgRecord g src stDenied
  else match Fld.CG_CMD_OP.of v with
    | 1 => s.cgForm g src
    | 2 => s.cgDissolve g src
    | 3 => s.cgAdmit g src (Fld.CG_CMD_CORE.of v)
    | _ => s.cgRecord g src stBadArg

/-! ## Wakes (R252, R338) -/

/-- A core leaves `park`; out of the boot ROM it jumps to BT_ENTRY (R252, R598). -/
def State.unpark (s : State) (c : Nat) : State :=
  let entry := BitVec.ofNat 48 (s.fld Fld.BT_ENTRY_ENTRY 0)
  s.modCore c (fun k =>
    let k := { k with lvlHeld := [] }
    if k.romPark then
      { k with run := .running, romPark := false, arch := { k.arch with pc := entry },
               mem := { k.mem with ckpts := k.mem.ckpts.map (fun x => { x with arch := { x.arch with pc := entry } }) } }
    else { k with run := .running })

/-- A parked group, its last instar confirmed and drained in every member, starts as a whole (R338, R343, R355). -/
def State.unparkGroup (s : State) (g : Nat) : State :=
  let run := s.groupRunning g
  if s.fld Fld.CG_STAT_STATE g ≠ 2 || !(s.group g).late.isEmpty ||
      run.any (fun c => (s.core c).mem.hold || (s.core c).mem.full) then s
  else (run.foldl (fun s c => s.unpark c) s).setFld Fld.CG_STAT_STATE g 3

/-- A debug halt of member `c` of a parked group wakes it, and every member halts after its `park`, once the last instar has
drained in all of them; until then the halt waits (R561, R564). -/
def State.haltParked (s : State) (g c cause : Nat) : State :=
  let t := (s.drainAll g).unparkGroup g
  if t.fld Fld.CG_STAT_STATE g = 3 then
    ((t.modCore c (fun k => { k with haltDue := false })).modGroup g
      (fun x => { x with cut := x.irq || x.mc || x.joining.isSome })).haltMembers g c cause
  else s.modCore c (fun k => { k with haltDue := true })

/-! ## Cuts (R344, R352, R365, R369) -/

/-- The power-fail warning cuts every running group (R365). -/
def State.cutGroups (s : State) : State :=
  (List.range 80).foldl (fun s g =>
    if s.fld Fld.CG_STAT_STATE g = 3 then s.modGroup g (fun x => { x with cut := true }) else s) s

/-- The interrupt that a core accepts now, if any: its vector (R249, R250). In U mode the table of R249 accepts the S target
always, and R198 does not accept it while cs.WIN.TW = 1: the model follows R198 (DESIGN CHOICE, assumption log 336). -/
def State.irqVec (s : State) (c : Nat) : Option Nat :=
  let a := (s.core c).arch
  let hOk := if a.mode = 0 then true else if a.mode = 1 then a.csf CsFld.SSTAT_DEFER == 0
    else a.csf CsFld.HSTAT_HIE == 1 && a.tw true == 0
  let sOk := a.tw false == 0 && (a.mode == 0 || (a.mode == 1 && a.csf CsFld.SSTAT_SIE == 1))
  if hOk && s.coreLevel c 1 then some 0x21 else if sOk && s.coreLevel c 0 then some 0x20 else none

/-- A member's instar ends at the cut, unless the cut falls on a boundary. -/
def State.cutEnd (s : State) (c : Nat) (hold : Bool) : State :=
  let s := s.unslot c
  if (s.core c).mem.count = 0 then s else s.endInstar c 6 0 hold

/-- What a cut brings, at its point, to the running members: a machine check first, then an interrupt (R352, R609); otherwise
the instar ends with cause CUT (R344). -/
def State.cutTake (s : State) (x : Group) (p : Nat) (run : List Nat) : State :=
  let mc := if x.mc && (s.core p).arch.tw true == 0 then (run.flatMap (fun c => (s.core c).mchecks)).head? else none
  match mc with
  | some m =>
    run.foldl (fun s c =>
      let s := s.modCore c (fun k => { k with
        mchecks := m :: (if k.mchecks.head? = some m then k.mchecks.tail else k.mchecks) })
      s.enterMcheck c) s
  | none =>
    match (if x.irq then s.irqVec p else none) with
    | some v => run.foldl (fun s c => s.takeExc c { vec := v, int := true } (s.core c).savedPc) s
    | none => run.foldl (fun s c => s.cutEnd c false) s

/-- The cut point (R344): what the cut delivers is judged there; a core that ADMIT named joins at the boundary it makes
(R341, R360). Where the group has parked meanwhile, a debug halt wakes it and halts it there (R561); a full trace buffer holds
the entry (R550). -/
def State.cutPoint (s : State) (g : Nat) : State :=
  if s.fld Fld.CG_STAT_STATE g = 2 then
    match (s.group g).halt with
    | some d => if (s.group g).cut then s.haltParked g d (s.group g).cause else s
    | none => s
  else if s.fld Fld.CG_STAT_STATE g ≠ 3 || !(s.group g).cut || !s.atCut g || s.traceStalls (s.groupPrimary g) then s
  else
    let x := s.group g
    let p := s.groupPrimary g
    let run := s.groupRunning g
    let s := s.modGroup g (fun x => { x with cut := false, irq := false, mc := false })
    let s := s.cutTake x p run
    let top := run.foldl (fun b c => max b (s.core c).mem.instar) 0
    (if x.joining.isSome then s.modGroup g (fun x => { x with resync := some (x.resync.getD top) }) else s).haltGroup g

/-! ## Resets of a member (R364) -/

/-- A reset of a member, before its state is cleared: entries of a confirmed half that drains are performed, or, after a
fatal error, lost; their number. -/
def State.groupDrainReset (s : State) (c : Nat) (fatal : Bool) : Nat × State :=
  match s.groupOf c with
  | none => (0, s)
  | some g =>
    if s.groupPrimary g = c ∧ s.closedOk g c then
      if fatal then
        let m := (s.core c).mem
        let second := m.full && decide (m.instar < (s.group g).next)
        (m.closedF.length + if second then m.openF.length else 0,
         (s.modMem c (fun m => { m with closedF := [], openF := if second then [] else m.openF })).drainDone g 3)
      else (0, s.drainAll g)
    else (0, s)

/-- The group after a member's reset: a triple expels it, a pair fails (R364). -/
def State.groupMemberReset (s : State) (g c : Nat) : State :=
  let n := (s.group g).next
  if s.fld Fld.CG_STAT_SIZE_EFF g = 3 then s.expel g c n
  else
    let s := (s.setFld Fld.CG_STAT_ACTIVE g (s.fld Fld.CG_STAT_ACTIVE g - 2 ^ s.idxOf g c)).leave c
    (s.syncPrim g).groupFail g 3 n

/-! ## Commands -/

/-- GROUP_DEF_WRITE (R336). -/
def execGroupDefWrite (src : Src) (g : GroupId) (v : Word) (s : State) : Result :=
  .next (s.csrPort src .CG_DEF g.val (fun s => s.cgDefWrite g.val src v))

/-- FORM (R338): a write to CG_CMD_g with OP = 1. -/
def execForm (src : Src) (g : GroupId) (v : Word) (s : State) : Result :=
  .next (s.csrPort src .CG_CMD g.val (fun s => s.cgCmd g.val src (withBits v 3 0 1)))

/-- FORM_COPY_DONE (R338). -/
def execFormCopyDone (g : GroupId) (s : State) : Result := .next (s.formDone g.val)

/-- DISSOLVE (R340): a write with OP = 2. -/
def execDissolve (src : Src) (g : GroupId) (v : Word) (s : State) : Result :=
  .next (s.csrPort src .CG_CMD g.val (fun s => s.cgCmd g.val src (withBits v 3 0 2)))

/-- ADMIT (R341): a write with OP = 3. -/
def execGroupAdmit (src : Src) (g : GroupId) (v : Word) (s : State) : Result :=
  .next (s.csrPort src .CG_CMD g.val (fun s => s.cgCmd g.val src (withBits v 3 0 3)))

/-- DIGEST_ARRIVAL (R355): the oldest digest that a core has sent, to its group or to the one it has been expelled from. -/
def execDigestArrival (c : CoreId) (s : State) : Result :=
  .next (match (List.range 80).find? (fun g => (s.group g).sent.any (fun d => d.core == c.val)) with
    | none => s
    | some g =>
      match (s.group g).sent.find? (fun d => d.core == c.val) with
      | none => s
      | some d =>
        (s.modGroup g (fun x => { x with sent := x.sent.erase d })).digestArrives g d)

/-- DLIMIT_EXPIRY (R355). -/
def execDlimitExpiry (g : GroupId) (s : State) : Result :=
  .next (if s.fld Fld.CG_STAT_STATE g.val = 3 ∨ s.fld Fld.CG_STAT_STATE g.val = 2 then s.dlimit g.val else s)

/-- INSTAR_CONFIRM (R354): the checker's verdict on the next instar. -/
def execInstarConfirm (g : GroupId) (s : State) : Result := .next (s.verdict g.val)

/-- FOLD_DRAIN (R348): entry `i` of the primary's confirmed half is performed. -/
def execFoldDrain (g : GroupId) (i : Nat) (s : State) : Result :=
  .next (
    let p := s.groupPrimary g.val
    let f := (s.core p).mem.closedF
    if s.groupOf p = some g.val && s.closedOk g.val p && foldReady f i && s.islOpen (coreIsland p) then
      match f[i]? with
      | some e =>
        if s.heldAgainst e.line (some p) then s
        else ((s.foldWrite p e).modMem p (fun m => { m with closedF := m.closedF.eraseIdx i })).drainDone g.val 3
      | none => s
    else s)

/-- QUARANTINE_RESYNC (R358, R360): the state copy at the boundary. -/
def execQuarantineResync (g : GroupId) (s : State) : Result := .next (s.resyncDone g.val)

/-- CUT_POINT (R344). -/
def execCutPoint (g : GroupId) (s : State) : Result := .next (s.cutPoint g.val)

end Sys2Proof.Machine
end

