-- ==== Sys2Proof/Machine/Ports.lean ====
section
/-!
DEFINITION. Field ports and backbone lanes (chapter 18): running and links, line faults and reflectometry, frames through
the FIFOs, gate lists, frame replication and elimination, GPIO and MDIO.
-/

namespace Sys2Proof.Machine

/-! ## Ports and their events -/

def State.port (s : State) (p : Nat) : Port := FMap.get s.ports {} p
def State.modPort (s : State) (p : Nat) (f : Port → Port) : State := { s with ports := FMap.set s.ports p (f (s.port p)) }

/-- A field port, and its modes (R433, R435). -/
def isField (p : Nat) : Bool := p < 224
def State.ptMode (s : State) (p : Nat) : Nat := s.fld Fld.PT_CTL_MODE p
def State.isT1l (s : State) (p : Nat) : Bool := isField p && s.ptMode p == 1
def State.isRs485 (s : State) (p : Nat) : Bool := isField p && s.ptMode p == 2
/-- RAW coding of an RS-485 port (R441). -/
def State.isRaw (s : State) (p : Nat) : Bool := s.isRs485 p && s.fld Fld.PT_SER_CODING p == 2

/-- The land group of a port (R435). -/
def portLand (p : Nat) : Nat := if isField p then 18 else 10 + (p - 224) / 4

/-- Whether the port's land group holds FUNC = 1. -/
def State.portLands (s : State) (p : Nat) : Bool := s.fld Fld.BT_LOWN_FUNC (portLand p) == 1

/-- Whether a port runs (R435). -/
def State.portRuns (s : State) (p : Nat) : Bool :=
  s.ptMode p != 0 && s.portLands p && !(s.pwr.failSeq && s.pwr.past380)

/-- The isolation switches are closed, or the lane's transmitter is on: the port runs without a line fault (R435, R443). -/
def State.portClosed (s : State) (p : Nat) : Bool := s.portRuns p && !(isField p && s.flag Fld.PT_STAT_FAULT p)

/-- The thread's PORTEVT latch (R474). -/
def State.portEvent (s : State) (p : Nat) : State := s.modThread p (fun k => { k with portEvt := true })

/-- Drop the rest of a frame from a transmit FIFO, up to and including its END; whether the END is still to come (R480). -/
def txCut : List (BitVec 17) → List (BitVec 17) × Bool
  | [] => ([], true)
  | e :: r => if e.getLsbD 16 then (r, false) else txCut r

/-- How many entries a FIFO holds of the frame at its front, its END with them, and whether END is there. -/
def txHeld : List (BitVec 17) → Nat × Bool
  | [] => (0, false)
  | e :: r => if e.getLsbD 16 then (1, true) else ((txHeld r).1 + 1, (txHeld r).2)

/-- The distance that a test reports: none without a fault, and a mark for a fault beyond 1,200 m (PT_DIAG_p, R446). -/
def diagDist (result dist : Nat) : Nat :=
  if result < 2 ∨ 4 < result then 0xFFFF else if 1200 < dist then 0xFFFE else dist

/-- The result of a reflectometry test (R443, R446). -/
def State.diagDone (s : State) (p result dist : Nat) : State :=
  let s := ((s.setFld Fld.PT_DIAG_RESULT p result).setFld Fld.PT_DIAG_DIST p dist).setFld Fld.PT_STAT_DIAG_DONE p 1
  match result with
  | 2 => s.setFld Fld.PT_STAT_OPEN p 1
  | 3 => s.setFld Fld.PT_STAT_SHORT p 1
  | 4 => s.setFld Fld.PT_STAT_GND_FAULT p 1
  | _ => s

/-- A frame is over for its thread: BUSY ends and TXDONE latches (R474, R481); a test that waited for its end starts, or
ends at once where the switches are open (R446). -/
def State.txOver (s : State) (p : Nat) : State :=
  let due := (s.port p).testDue
  let s := s.modPort p (fun k => { k with frame := none, testDue := false })
  let s := s.modThread p (fun t => { t with txDone := true })
  if !due then s
  else if s.portClosed p then s.modPort p (fun k => { k with testing := true })
  else s.diagDone p 5 0xFFFF

/-- The copies of a replicated frame, by its stream and number, of which bytes are still to come: what `f` makes of each (R453). -/
def State.modCopies (s : State) (p : Nat) (tag : Option (Nat × Nat)) (f : FrameCopy → Option FrameCopy) : State :=
  match tag with
  | none => s
  | some t =>
    (List.range 8).foldl (fun s k =>
      let q := 224 + 8 * ((p - 224) / 8) + k
      if (s.port q).copies = [] then s
      else s.modPort q (fun y => { y with
        copies := y.copies.filterMap (fun c => if (c.stream, c.seq) = t ∧ c.whole = false then f c else some c) })) s

/-- A frame in transmission, or waiting to start, is cut off; the rest of it, up to its END, is discarded, and copies that lack
it are dropped (R435, R444, R453, R480). -/
def State.txAbort (s : State) (p : Nat) : State :=
  if (s.port p).frame.isNone then s
  else
    let s := s.modCopies p ((s.port p).frame.bind (·.tag)) (fun _ => none)
    let s := s.modPort p (fun k => { k with tx := (txCut k.tx).1, discard := (txCut k.tx).2 })
    (s.setFld Fld.PT_STAT_TX_ABORT p 1).txOver p

/-- LINK takes a value: LINK_CHG sets on a change, and what only a link that is UP reports reads 0 otherwise
(R447). -/
def State.setLink (s : State) (p link : Nat) : State :=
  let s := if s.fld Fld.PT_STAT_LINK p = link then s
    else ((s.setFld Fld.PT_STAT_LINK p link).setFld Fld.PT_STAT_LINK_CHG p 1).portEvent p
  if link = 2 then s
  else
    let s := ((s.setFld Fld.PT_STAT_POL p 0).setFld Fld.PT_STAT_RATE p 0).setFld Fld.PT_STAT_SQI p 0
    if isField p then s else s.setFld Fld.PT_LANE_FEC_EFF (p - 224) 0

/-- A condition bit of PT_STAT that the thread is told of (R474). -/
def State.setCond (s : State) (p : Nat) (f : Fld) (b : Bool) : State :=
  if s.flag f p = b then s else (s.setFld f p (bit b)).portEvent p

/-- What follows for a port from its mode, its lands, its faults and the power-fail warning (R43, R435, R443 to R445). -/
def State.portSync (s : State) (p : Nat) : State :=
  let closed := s.portClosed p
  let link := s.fld Fld.PT_STAT_LINK p
  let s := s.setCond p Fld.PT_STAT_UNAVAIL (!s.portLands p)
  let s := s.setCond p Fld.PT_STAT_PFW (s.flag Fld.PW_INSTAT_PFW 0)
  let s := s.setCond p Fld.PT_STAT_LOCK_LOST (s.island 21).lockGone
  let s := if s.flag Fld.PT_STAT_SW p = closed then s else s.setFld Fld.PT_STAT_SW p (bit closed)
  let s := if closed then s else s.txAbort p
  let s := if (s.port p).copies = [] ∨ s.portRuns p = true then s else s.modPort p (fun k => { k with copies := [] })
  s.setLink p (if !closed then 0 else if s.isRs485 p then 2 else if link = 0 then 1 else link)

/-- The same for every port. -/
def State.portsSync (s : State) : State := (List.range 256).foldl (fun s p => s.portSync p) s

/-- A GPIO pin's level on its land: the pin's own where it drives, or, under EXTEST, its output cell's where its enable cell
drives, else the outside's (R456, R458). From the 380 µs point of a power-fail sequence on no land is driven (R49). -/
def State.gpioPin (s : State) (i : Nat) : Bool :=
  let b := s.tap.boundary
  let drives := if s.tap.extest then b.getLsbD (Config.scanEnable i) else s.fld Fld.PT_GPIO_OE 0 / 2 ^ i % 2 == 1
  if drives && !s.pwr.past380 then
    (if s.tap.extest then b.getLsbD (Config.scanOut i) else s.fld Fld.PT_GPIO_OUT 0 / 2 ^ i % 2 == 1)
  else s.ext.gpio.getLsbD i

/-- PT_GPIO.IN follows the pins (R456). -/
def State.gpioSync (s : State) : State :=
  s.setFld Fld.PT_GPIO_IN 0 ((List.range 8).foldl (fun n i =>
    if s.fld Fld.BT_LOWN_FUNC (2 + i) = 1 ∧ (s.gpioPin i != (s.fld Fld.PT_GPIO_INV 0 / 2 ^ i % 2 == 1)) then n + 2 ^ i
    else n) 0)

/-- The function of land group `n` has changed (R38, R43, R456): through link down for its ports. -/
def State.landsChanged (s : State) (n : Nat) : State :=
  let s := if 2 ≤ n ∧ n ≤ 9 then s.gpioSync else s
  (List.range 256).foldl (fun s p => if portLand p = n then s.portSync p else s) s

/-- Every field-port switch opens and every transmitter stops (R49, R88): the ports do not run. -/
def State.openSwitches (s : State) : State :=
  (List.range 256).foldl (fun s p =>
    let s := s.txAbort p
    (if s.flag Fld.PT_STAT_SW p then s.setFld Fld.PT_STAT_SW p 0 else s).setLink p 0) s

/-! ## Register writes (R434) -/

/-- Who may write a port's set. -/
def State.portMay (s : State) (p : Nat) (src : Src) : Bool :=
  let own := match src with
    | .thread t => t.val == p
    | _ => false
  own || src == .cocoon || (!s.flag Fld.PT_CTL_SEC p && s.srcSys src)

/-- A write to a port's set: LAST_STATUS, and the effect where it is performed. -/
def State.portSet (s : State) (p : Nat) (src : Src) (k : State → State) : State :=
  if s.portMay p src then (k s).setFld Fld.PT_CTL_LAST_STATUS p stOk else s.setFld Fld.PT_CTL_LAST_STATUS p stDenied

/-- The gates of a port in force, a bit for each traffic class (R450). -/
def State.gateOf (s : State) (p : Nat) : Nat :=
  let l := p - 224
  if isField p || !s.flag Fld.PT_GCTL_EN l || !(s.port p).gclOn then 0xFF
  else bitsOf (FMap.get (s.port p).gates (Reg.reset .PT_GCL 0) (s.fld Fld.PT_GCTL_ENTRY l)) 39 32

/-- TIME of the gate entry in force at a port, 0 where no entry bounds a frame: without gate control, before the first
cycle start, under TIME 0, and after the list has run out (R450, R451; the last is DEDUCED, assumption log 257). -/
def State.gateTime (s : State) (p : Nat) : Nat :=
  let l := p - 224
  if isField p || !s.flag Fld.PT_GCTL_EN l || !(s.port p).gclOn || (s.port p).gclOver then 0
  else bitsOf (FMap.get (s.port p).gates (Reg.reset .PT_GCL 0) (s.fld Fld.PT_GCTL_ENTRY l)) 31 0

/-- A lane's bit rate: that of RATE, or of MODE while RATE reads 0 (R447). -/
def State.laneRate (s : State) (p : Nat) : Nat :=
  let m := if s.fld Fld.PT_STAT_RATE p = 0 then s.ptMode p else s.fld Fld.PT_STAT_RATE p
  if m = 1 then 25000000000 else if m = 2 then 10000000000 else 1000000000

/-- Whether a frame of `n` bytes that starts now, with its preamble, SFD, FCS and inter-frame gap (24 bytes in all), ends
before TIME of the entry in force runs out (R451). -/
def State.gateFits (s : State) (p n : Nat) : Bool :=
  let t := s.gateTime p
  let gone := (s.bell80.toNat + 2 ^ 80 - (s.port p).gclAt) % 2 ^ 80
  t == 0 || decide ((n + 24) * 8 * 2 ^ 32 + gone * s.laneRate p < t * s.laneRate p)

/-- The bytes that an R-TAG adds to a frame (R453; PRESUMED from IEEE 802.1CB, assumption log 341). -/
def rTagBytes (tag : Option (Nat × Nat)) : Nat := if tag.isSome then 6 else 0

/-- Whether the gates let a frame of a traffic class start (R451). `n` bytes of it are known; where they are not all, and an
entry's TIME bounds it, whether the rest fits is free. -/
def State.gateLets (s : State) (p tc n : Nat) (whole : Bool) : Bool × State :=
  if s.gateOf p / 2 ^ tc % 2 = 0 || !s.gateFits p n then (false, s)
  else if whole || s.gateTime p == 0 then (true, s)
  else
    let (w, s) := s.freeVal
    (w.getLsbD 0, s)

/-- A frame that waits starts when no test runs and the gates let it (R446, R451): stamped now. -/
def State.txTry (s : State) (p : Nat) : State :=
  match (s.port p).frame with
  | some f =>
    if f.start.isNone && !(s.port p).testing then
      let (go, s) := s.gateLets p f.tc ((txHeld (s.port p).tx).1 + rTagBytes f.tag) (txHeld (s.port p).tx).2
      if go then s.modPort p (fun k => { k with frame := some { f with start := some s.ts48 } }) else s
    else s
  | none => s

/-- The oldest copy of a replicated frame leaves on its lane, when the gates let it (R453). -/
def State.copyGo (s : State) (p : Nat) : State :=
  match (s.port p).copies with
  | [] => s
  | c :: r =>
    let (go, s) := s.gateLets p c.tc (c.len + rTagBytes (some (c.stream, c.seq))) c.whole
    if go then s.modPort p (fun k => { k with copies := r }) else s

/-- A write of MODE changes what the port is: it stops and starts again (R435, R447). -/
def State.modeWrite (s : State) (p mode : Nat) : State :=
  let s := if (s.port p).qualified then
      (s.modPort p (fun k => { k with qualified := false })).setFld Fld.PT_STAT_FAULT p 0 else s
  let s := if isField p then s
    else (s.csrSet .PT_FEC (p - 224) 0).setFld Fld.PT_LANE_TXEQ_OVR (p - 224) 0
  if mode = s.ptMode p then s.portSync p
  else
    (((s.txAbort p).setLink p 0).setFld Fld.PT_CTL_MODE p mode).portSync p

/-- The key of a clause 45 register of a port's PHY. -/
def mmdKey (mmd reg : Nat) : Nat := mmd * 65536 + reg

/-- The clause 45 registers through which an MMD write changes what PT_CTL_p also controls: the enable of autonegotiation, in
bit 12; on a field port the amplitude, in bit 12, and the role, in bit 14 (R436; PRESUMED from IEEE 802.3, assumption log
342). -/
def mmdAn (p : Nat) : Nat := mmdKey 7 (if isField p then 512 else 0)
def mmdAmp : Nat := mmdKey 1 2294
def mmdRole : Nat := mmdKey 1 2100

/-- A function of a port: as an MMD write has set it since the latest write to PT_CTL_p, else as PT_CTL_p holds it (R436). -/
def State.ptFn (s : State) (p : Nat) (f : Fld) (key bitNo : Nat) : Bool :=
  ((s.port p).mmd.find? (fun e => e.1 == key)).elim (s.flag f p) (fun e => e.2.getLsbD bitNo)
def State.ptAn (s : State) (p : Nat) : Bool := s.ptFn p Fld.PT_CTL_AN (mmdAn p) 12
def State.ptAmp (s : State) (p : Nat) : Bool := s.ptFn p Fld.PT_CTL_AMP mmdAmp 12
def State.ptRole (s : State) (p : Nat) : Bool := s.ptFn p Fld.PT_CTL_ROLE mmdRole 14

/-- A write of a clause 45 register: the PHY holds it. Bit 15 of an MMD's control registers resets the MMD, and bit 9 of those of
autonegotiation restarts it; both clear themselves (R436, R437; PRESUMED from IEEE 802.3, assumption log 342). -/
def State.mmdPut (s : State) (p mmd reg : Nat) (v : BitVec 16) : State :=
  let resets := [mmdKey 1 0, mmdKey 1 2294, mmdKey 3 0, mmdKey 3 2278, mmdKey 7 0, mmdKey 7 512].contains (mmdKey mmd reg)
  s.modPort p (fun k => { k with
    mmd := if resets && v.getLsbD 15 then FMap.dropIf k.mmd (fun x => x / 65536 == mmd)
      else FMap.set k.mmd (mmdKey mmd reg) (if mmd = 7 ∧ (reg = 0 ∨ reg = 512) then v &&& 0xFDFF else v) })

/-- A write to PT_CTL_p (R434, R435): what an MMD write had changed of its functions follows it again (R8, R436). -/
def State.ptCtlWrite (s : State) (p : Nat) (src : Src) (v : Word) : State :=
  let s := if (s.port p).mmd = [] then s
    else s.modPort p (fun k => { k with mmd := FMap.dropIf k.mmd (fun x => x == mmdAn p || x == mmdAmp || x == mmdRole) })
  let mode := s.ptMode p
  let sec := s.fld Fld.PT_CTL_SEC p
  let v := if isField p then v else withBits (withBits v 12 12 0) 6 6 0
  let m := Fld.PT_CTL_MODE.of v
  let s := (s.codeWrite .PT_CTL p v).setFld Fld.PT_CTL_MODE p mode
  let s := if src = .cocoon then s else s.setFld Fld.PT_CTL_SEC p sec
  s.modeWrite p (if isField p ∧ m = 3 then mode else m)

/-- A write to PT_SER_p (R440). -/
def State.ptSerWrite (s : State) (p : Nat) (v : Word) : State :=
  let coding := if Fld.PT_SER_CODING.of v = 3 then s.fld Fld.PT_SER_CODING p else Fld.PT_SER_CODING.of v
  let s := (s.codeWrite .PT_SER p v).setFld Fld.PT_SER_CODING p coding
  let s := if Fld.PT_SER_PARITY.of v = 3 then s.setFld Fld.PT_SER_PARITY p 0 else s
  let s := if Fld.PT_SER_DBITS.of v = 3 then s.setFld Fld.PT_SER_DBITS p 1 else s
  s.setFld Fld.PT_SER_RATE p (clampNat 1200 (if coding = 1 then 10000000 else 20000000) (Fld.PT_SER_RATE.of v))

/-- GO of a reflectometry test (R446): refused with the switches open; waiting for the end of a frame; else running. -/
def State.diagGo (s : State) (p : Nat) : State :=
  let k := s.port p
  if k.testing || k.testDue then s
  else if !s.portClosed p then s.diagDone p 5 0xFFFF
  else if k.frame.any (fun f => f.start.isSome) then s.modPort p (fun k => { k with testDue := true })
  else s.modPort p (fun k => { k with testing := true })

/-- A write to PT_DIAG_p (R445, R446). -/
def State.ptDiagWrite (s : State) (p : Nat) (v : Word) : State :=
  let s := s.setFld Fld.PT_DIAG_VF p (clampNat 40 99 (Fld.PT_DIAG_VF.of v))
  if Fld.PT_DIAG_GO.of v = 1 then s.diagGo p else s

/-- A write to PT_MMD_p (R5, R436): GO starts an access; while one is in progress no other starts. -/
def State.ptMmdWrite (s : State) (p : Nat) (v : Word) : State :=
  let s := s.codeWrite .PT_MMD p v
  if Fld.PT_MMD_GO.of v = 1 then s.setFld Fld.PT_MMD_BUSY p 1 else s

/-- A write to PT_GCTL of lane `l` (R450): setting EN opens every gate until the first cycle start. -/
def State.ptGctlWrite (s : State) (l : Nat) (v : Word) : State :=
  let was := s.flag Fld.PT_GCTL_EN l
  let s := s.codeWrite .PT_GCTL l v
  let s := if was then s else s.modPort (224 + l) (fun k => { k with gclOn := false, gclOver := false })
  s.txTry (224 + l)

/-- A write to a register of a port's set, from a source that may make it. -/
def State.ptRegWrite (s : State) (r : Reg) (i : Nat) (src : Src) (v : Word) : State :=
  match r with
  | .PT_CTL => s.ptCtlWrite i src v
  | .PT_SER => s.ptSerWrite i v
  | .PT_DIAG => s.ptDiagWrite i v
  | .PT_MMD => s.ptMmdWrite i v
  | .PT_GCTL => s.ptGctlWrite i v
  | r => s.codeWrite r i v

/-- The port whose set an instance of a register lies in. -/
def ptPortOf (r : Reg) (i : Nat) : Nat :=
  if r = .PT_LANE ∨ r = .PT_FEC ∨ r = .PT_GCTL then 224 + i else if r = .PT_GCL then 224 + i / 16 else i

/-- A register of a port's set. -/
def Reg.isPortSet (r : Reg) : Bool :=
  r == .PT_CTL || r == .PT_STAT || r == .PT_SER || r == .PT_DIAG || r == .PT_MMD || r == .PT_LANE || r == .PT_FEC ||
  r == .PT_GCL || r == .PT_GCTL

/-- A write to a port's set, by any source (R434). -/
def State.ptWrite (s : State) (r : Reg) (i : Nat) (src : Src) (v : Word) : State :=
  s.portSet (ptPortOf r i) src (fun s => s.ptRegWrite r i src v)

/-- What a source reads in a port's set (R434, R435). -/
def State.ptRead (s : State) (r : Reg) (i : Nat) (src : Src) : Word :=
  let p := ptPortOf r i
  let w := s.csrGet r i
  let w := if r = .PT_CTL ∧ !isField p then withBits w 12 12 0 else w
  if s.flag Fld.PT_CTL_SEC p && !s.portMay p src then (if r = .PT_CTL then withBits 0 31 31 1 else 0) else w

/-! ## Streams (R453, R454) -/

/-- Who may write the replication tables of lane macro `m`: as a port's set, with any thread of Spinner 28 + m (R452). -/
def State.cbMay (s : State) (m : Nat) (src : Src) : Bool :=
  let own := match src with
    | .thread t => t.val / 8 == 28 + m
    | _ => false
  own || src == .cocoon || (!s.engineSecure (28 + m) && s.srcSys src)

/-- A write to PT_CBS (R453). -/
def State.cbsWrite (s : State) (x : Nat) (src : Src) (v : Word) : State :=
  if !s.cbMay (x / 32) src then s
  else
    let was := s.flag Fld.PT_CBS_EN x
    let s := (s.codeWrite .PT_CBS x v).setFld Fld.PT_CBS_HLEN x (clampNat 2 32 (Fld.PT_CBS_HLEN.of v))
    let s := s.setFld Fld.PT_CBS_RESET_TMO x (max 1 (Fld.PT_CBS_RESET_TMO.of v))
    if !was && s.flag Fld.PT_CBS_EN x then { s.csrSet .PT_CBC x 0 with frer := FMap.set s.frer x {} } else s

/-- The vector recovery algorithm (R454): the stream's state, the history length and a sequence number give pass, out of
order, and the new state. -/
def Frer.judge (f : Frer) (hlen seq : Nat) : Bool × Bool × Frer :=
  if f.takeAny then (true, false, { takeAny := false, seq := seq, seen := 1 })
  else
    let d := signedOf 16 (seq + 2 ^ 16 - f.seq % 2 ^ 16)
    if (hlen : Int) ≤ d.natAbs then (false, false, f)
    else if d ≤ 0 then
      let k := d.natAbs
      if f.seen.getLsbD k then (false, false, f) else (true, true, { f with seen := f.seen ||| (1 <<< k) })
    else (true, decide (d ≠ 1), { takeAny := false, seq := seq, seen := (f.seen <<< d.natAbs) ||| 1 })

/-- A presentation to a stream's recovery function: whether the frame passes (R454). -/
def State.frerPresent (s : State) (x seq : Nat) : Bool × State :=
  if !s.flag Fld.PT_CBS_EN x then (true, s)
  else
    let (pass, ooo, f) := (FMap.get s.frer {} x).judge (s.fld Fld.PT_CBS_HLEN x) seq
    let s := { s with frer := FMap.set s.frer x f }
    if !pass then (false, s.satField Fld.PT_CBC_DISCARDED x)
    else (true, (if ooo then s.satField Fld.PT_CBC_OOO x else s).incField Fld.PT_CBC_PASSED x)

/-- A frame that lane `p` sends with replication on stream `i` takes the stream's next sequence number in its R-TAG, and each
other lane of LANES that runs gets its copy (R453): the tag, if the stream is enabled. -/
def State.replicate (s : State) (p i tc n : Nat) (whole : Bool) : Option (Nat × Nat) × State :=
  let m := (p - 224) / 8
  let x := 32 * m + i
  if !s.flag Fld.PT_CBS_EN x then (none, s)
  else
    let c : FrameCopy := { tc := tc, stream := i, seq := s.fld Fld.PT_CBS_GEN_SEQ x, len := n, whole := whole }
    let lanes := s.fld Fld.PT_CBS_LANES x
    (some (i, c.seq), (List.range 8).foldl (fun s k =>
      let q := 224 + 8 * m + k
      if lanes / 2 ^ k % 2 = 1 ∧ q ≠ p ∧ s.portRuns q = true then s.modPort q (fun y => { y with copies := y.copies ++ [c] })
      else s) (s.incField Fld.PT_CBS_GEN_SEQ x))

/-! ## Frames (R439, R477, R480, R481) -/

/-- The flags of an entry of the receive FIFO (R478). -/
def rxEnd (fcsBad trunc : Bool) : BitVec 22 := BitVec.ofNat 22 (2 ^ 17 + bit fcsBad * 2 ^ 18 + bit trunc * 2 ^ 19)
def rxChar (data : Nat) (parErr frameErr : Bool) : BitVec 22 :=
  BitVec.ofNat 22 (data % 2 ^ 16 + 2 ^ 16 + bit parErr * 2 ^ 20 + bit frameErr * 2 ^ 21)

/-- The framing of ASYNC that PT_SER_p sets: data bits, parity bits and stop bits (R440, R441). -/
def State.serBits (s : State) (p : Nat) : Nat × Nat × Nat :=
  (7 + s.fld Fld.PT_SER_DBITS p, bit (s.fld Fld.PT_SER_PARITY p != 0), 1 + s.fld Fld.PT_SER_STOP p)

/-- A character as the receiver of the port meets it: with SWAP an RS-485 port exchanges FP_P and FP_N. -/
def State.heard (s : State) (p : Nat) (c : LineChar) : LineChar := if s.isRs485 p && s.flag Fld.PT_CTL_SWAP p then ~~~ c else c

/-- Levels that frame in ASYNC: the start bit low, and every stop bit high. -/
def asyncFrames (f : Nat × Nat × Nat) (c : LineChar) : Bool :=
  !c.getLsbD 0 && (List.range f.2.2).all (fun i => c.getLsbD (1 + f.1 + f.2.1 + i))

/-- The ones among the data bits and the parity bit. -/
def asyncOnes (f : Nat × Nat × Nat) (c : LineChar) : Nat := ((List.range (f.1 + f.2.1)).filter (fun i => c.getLsbD (1 + i))).length

/-- The entry that a character leaves in the receive FIFO (R441, R477, R478): its data; in ASYNC PARITY_ERR, and FRAMING_ERR
where it does not frame. -/
def State.rxEntry (s : State) (p : Nat) (c : LineChar) : BitVec 22 :=
  let c := s.heard p c
  if s.isRs485 p && s.fld Fld.PT_SER_CODING p == 0 then
    let f := s.serBits p
    rxChar (c.toNat / 2 % 2 ^ f.1)
      (f.2.1 == 1 && asyncOnes f c % 2 != (if s.fld Fld.PT_SER_PARITY p = 2 then 1 else 0)) (!asyncFrames f c)
  else rxChar (c.toNat % 256) false false

/-- A character that frames only when inverted (R443). -/
def State.onlyInverted (s : State) (p : Nat) (c : LineChar) : Bool :=
  let c := s.heard p c
  if s.fld Fld.PT_SER_CODING p = 0 then !asyncFrames (s.serBits p) c && asyncFrames (s.serBits p) (~~~ c) else c.getLsbD 12

/-- Characters that frame only when inverted: how many in an unbroken run up to the last, after `n` before these, and
whether four in a row came (R443). -/
def inverted (n : Nat) : List Bool → Nat × Bool
  | [] => (n, false)
  | c :: r =>
    let k := if c then n + 1 else 0
    ((inverted k r).1, decide (4 ≤ k) || (inverted k r).2)

/-- REVERSED of an RS-485 port (R443): four consecutive characters of ASYNC or MANCH that frame only when inverted. -/
def State.hearInverted (s : State) (p : Nat) (cs : List LineChar) : State :=
  if s.isRs485 p then
    let (n, four) := inverted (s.port p).inverted (cs.map (s.onlyInverted p))
    let s := s.modPort p (fun k => { k with inverted := n })
    if four then s.setFld Fld.PT_STAT_REVERSED p 1 else s
  else s

/-- A counter of PT_FEC counts `n` more and saturates. -/
def State.fecCount (s : State) (f : Fld) (l n : Nat) : State := s.setFld f l (min (2 ^ 32 - 1) (s.fld f l + n))

/-- The FEC outcomes of what a lane receives: PT_FEC counts them, and an uncorrectable one sets DIAG_DONE (R447). -/
def State.fecSeen (s : State) (p corr unc : Nat) : State :=
  if isField p || s.fld Fld.PT_LANE_FEC_EFF (p - 224) == 0 then s
  else
    let s := (s.fecCount Fld.PT_FEC_CORR (p - 224) corr).fecCount Fld.PT_FEC_UNCORR (p - 224) unc
    if unc = 0 then s else s.setFld Fld.PT_STAT_DIAG_DONE p 1

/-- The largest frame a port carries (R439, R447). -/
def frameMax (p : Nat) : Nat := if isField p then 2048 else 9216

/-- Whether an Ethernet port marks the frame's FCS bad (R439). -/
def State.fcsBad (s : State) (p len : Nat) (bad cut : Bool) : Bool := !s.isRs485 p && (bad || len < 64 || cut)

/-- A port receives now: its link is UP, no test runs, and an RS-485 driver is not enabled (R440, R446). -/
def State.portHears (s : State) (p : Nat) : Bool :=
  s.portClosed p && s.fld Fld.PT_STAT_LINK p == 2 && !(s.port p).testing &&
  !(s.isRs485 p && (s.port p).frame.any (fun f => f.drive && f.start.isSome))

/-- The transmitter sends what its FIFO holds of the frame (R439, R474, R480): with END, the frame has left and its stamp
is reported; a frame that with its FCS outgrows the limit of an Ethernet port is cut off there, and TX_ABORT marks it. -/
def State.txGo (s : State) (p : Nat) : State :=
  let k := s.port p
  match k.frame with
  | none => s
  | some f =>
    let (n, done) := txHeld k.tx
    if f.start.isNone || k.testing then s
    else if s.isRaw p then (s.modPort p (fun k => { k with txTs := if f.tsreq then f.start else k.txTs })).txOver p
    else if !s.isRs485 p && decide (frameMax p < f.sent + n + rTagBytes f.tag + 4) then s.txAbort p
    else if done then
      (s.modPort p (fun k => { k with tx := k.tx.drop n, txTs := if f.tsreq then f.start else k.txTs })).txOver p
    else s.modPort p (fun k => { k with tx := [], frame := some { f with sent := f.sent + n } })

/-! ## GPIO and the service block (R455, R456) -/

/-- The pins of GPIO writes that a source may act on: those of the groups it owns; all, for the Reeve and JTAG debug. -/
def State.gpioMask (s : State) (src : Src) : Nat :=
  (List.range 8).foldl (fun n i =>
    if src = .reeve ∨ src = .jtag ∨ (s.fld Fld.BT_LOWN_FUNC (2 + i) ≠ 0 ∧ s.fld Fld.BT_LOWN_OWN_SRC (2 + i) = srcId src) then
      n + 2 ^ i else n) 0

/-- The owned bits of an 8-bit field take the bits written; group 5 with PPS_OUT ignores bit 3 of OUT and OE. -/
def State.gpioField (s : State) (f : Fld) (mask v : Nat) : State :=
  let old := s.fld f 0
  s.setFld f 0 ((List.range 8).foldl (fun n i =>
    n + (if mask / 2 ^ i % 2 = 1 then v / 2 ^ i % 2 else old / 2 ^ i % 2) * 2 ^ i) 0)

/-- LAST_STATUS of the service block. -/
def State.svcStatus (s : State) (st : Nat) : State := s.setFld Fld.PT_SVC_CTL_LAST_STATUS 0 st

/-- A write to PT_GPIO, PT_GPIO_OSET or PT_GPIO_OCLR (R456). -/
def State.gpioWrite (s : State) (r : Reg) (src : Src) (v : Word) : State :=
  let mask := s.gpioMask src
  let pins := if s.fld Fld.BT_LOWN_FUNC 5 = 2 then mask - mask / 8 % 2 * 8 else mask
  if mask = 0 then s.svcStatus stDenied
  else
    let s := match r with
      | .PT_GPIO =>
        ((s.gpioField Fld.PT_GPIO_INV mask (Fld.PT_GPIO_INV.of v)).gpioField Fld.PT_GPIO_OE pins
          (Fld.PT_GPIO_OE.of v)).gpioField Fld.PT_GPIO_OUT pins (Fld.PT_GPIO_OUT.of v)
      | .PT_GPIO_OSET => s.gpioField Fld.PT_GPIO_OUT (pins &&& v.toNat) 0xFF
      | .PT_GPIO_OCLR => s.gpioField Fld.PT_GPIO_OUT (pins &&& v.toNat) 0
      | _ => s
    s.gpioSync.svcStatus stOk

/-- A write to PT_MDIO (R455): GO starts a frame. -/
def State.mdioWrite (s : State) (v : Word) : State :=
  let s := s.codeWrite .PT_MDIO 0 v
  if Fld.PT_MDIO_GO.of v = 1 then s.setFld Fld.PT_MDIO_BUSY 0 1 else s

/-- The management frame in progress ends: a read's data come from the PHY. -/
def State.mdioEnd (s : State) (d : Nat) : State :=
  let op := s.fld Fld.PT_MDIO_OP 0
  let reads := if s.flag Fld.PT_MDIO_C45 0 then op == 2 || op == 3 else op == 2
  let s := s.setFld Fld.PT_MDIO_BUSY 0 0
  if reads then s.setFld Fld.PT_MDIO_DATA 0 (d % 2 ^ 16) else s

/-- A read of PT_MDIO: whether the frame in progress has ended since, and what the PHY has answered, are free (assumption log
263). -/
def State.mdioRead (s : State) : Word × State :=
  if !s.flag Fld.PT_MDIO_BUSY 0 then (s.csrGet .PT_MDIO 0, s)
  else
    let (w, s) := s.freeVal
    let s := if w.getLsbD 16 then s.mdioEnd (w.toNat % 2 ^ 16) else s
    (s.csrGet .PT_MDIO 0, s)

/-- A write to the service block (R455). -/
def State.svcWrite (s : State) (r : Reg) (src : Src) (v : Word) : State :=
  if !(s.srcSys src || src == .cocoon) then s.svcStatus stDenied
  else
    (match r with
      | .PT_SVC_RXB => (s.codeWrite r 0 v).setFld Fld.PT_SVC_RXB_SIZE 0 (min 8 (Fld.PT_SVC_RXB_SIZE.of v))
      | .PT_SVC_TXB => (s.codeWrite r 0 v).setFld Fld.PT_SVC_TXB_SIZE 0 (min 8 (Fld.PT_SVC_TXB_SIZE.of v))
      | .PT_MDIO => s.mdioWrite v
      | r => s.codeWrite r 0 v).svcStatus stOk

/-! ## Commands -/

/-- PORT_CTL_WRITE (R435). -/
def execPortCtlWrite (src : Src) (p : PortId) (v : Word) (s : State) : Result :=
  .next (s.csrPort src .PT_CTL p.val (fun s => s.ptWrite .PT_CTL p.val src v))

/-- PORT_EVENT_CLEAR (R436): a W1C write to PT_STAT_p. -/
def execPortEventClear (src : Src) (p : PortId) (v : Word) (s : State) : Result :=
  .next (s.csrPort src .PT_STAT p.val (fun s => s.ptWrite .PT_STAT p.val src v))

/-- MMD_ACCESS (R437): a write to PT_MMD_p with GO = 1. -/
def execMmdAccess (src : Src) (p : PortId) (v : Word) (s : State) : Result :=
  .next (s.csrPort src .PT_MMD p.val (fun s => s.ptWrite .PT_MMD p.val src (withBits v 63 63 1)))

/-- MMD_ACCESS_DONE (R436, R437): BUSY clears; a write is the PHY's; a read returns what has been written there, or else the PHY's
data; MMDs other than 1, 3 and 7 give 0xFFFF and take nothing. -/
def execMmdAccessDone (p : PortId) (data : BitVec 16) (s : State) : Result :=
  .next (if !s.flag Fld.PT_MMD_BUSY p.val then s
    else
      let d := s.fld Fld.PT_MMD_DEVAD p.val
      let s := s.setFld Fld.PT_MMD_BUSY p.val 0
      if !(d == 1 || d == 3 || d == 7) then s.setFld Fld.PT_MMD_DATA p.val 0xFFFF
      else
        let reg := s.fld Fld.PT_MMD_REGADDR p.val
        if s.flag Fld.PT_MMD_WRITE p.val then s.mmdPut p.val d reg (BitVec.ofNat 16 (s.fld Fld.PT_MMD_DATA p.val))
        else s.setFld Fld.PT_MMD_DATA p.val (FMap.get (s.port p.val).mmd data (mmdKey d reg)).toNat)

/-- FEC that a lane can use in a mode (R447). -/
def fecFor (mode fec : Nat) : Nat := if (mode = 1 ∧ fec = 2) ∨ (mode = 2 ∧ fec = 1) then fec else 0

/-- LINK_UP (R438, R447): the outcome of negotiation within what the port offers. Without autonegotiation a field port forces the
role too, and the link rises only to a partner in the other role, which is bit 0 of the operand that names a lane's FEC:
1 MASTER. -/
def execLinkUp (p : PortId) (rate : BitVec 2) (reversed : Bool) (fecEff : BitVec 2) (s : State) : Result :=
  let p := p.val
  let an := s.ptAn p
  .next (if !s.portClosed p || s.isRs485 p || s.fld Fld.PT_STAT_LINK p != 1 ||
      (isField p && !an && s.ptRole p == fecEff.getLsbD 0) then s
    else
      let s := s.setLink p 2
      if isField p then
        let s := s.setFld Fld.PT_STAT_RATE p
          (if an then min (rate.toNat % 2) (bit (s.ptAmp p)) else bit (s.ptAmp p))
        if reversed then (s.setFld Fld.PT_STAT_POL p 1).setFld Fld.PT_STAT_REVERSED p 1 else s
      else
        let mode := s.ptMode p
        let r := if an then clampNat mode 3 rate.toNat else mode
        (s.setFld Fld.PT_STAT_RATE p r).setFld Fld.PT_LANE_FEC_EFF (p - 224)
          (fecFor r (if an then fecEff.toNat else s.fld Fld.PT_LANE_FEC (p - 224))))

/-- LINK_LOSS (R443): a T1L link lost with the switches closed starts a reflectometry test. -/
def execLinkLoss (p : PortId) (s : State) : Result :=
  let p := p.val
  .next (if s.fld Fld.PT_STAT_LINK p != 2 || s.isRs485 p || !s.portClosed p then s
    else
      let s := (s.txAbort p).setLink p 1
      if s.isT1l p then s.modPort p (fun k => { k with testing := true, testDue := false }) else s)

/-- SQI by SNR, in hundredths of a dB: how many of the thresholds 18, 21, …, 36 dB lie at or below it, with thresholds `d`
hundredths higher (R438). -/
def sqiOf (snr d : Int) : Nat := ((List.range 7).filter (fun (n : Nat) => decide (1800 + 300 * (n : Int) + d ≤ snr))).length

/-- SQI_REFRESH (R438): from the mean-square error, as SNR in hundredths of a dB. Each threshold lies within 1 dB of its value,
where a free value decides. -/
def execSqiRefresh (p : PortId) (snr : Int) (s : State) : Result :=
  .next (if !(s.isT1l p.val && s.fld Fld.PT_STAT_LINK p.val == 2) then s
    else if sqiOf snr 101 = sqiOf snr (-100) then s.setFld Fld.PT_STAT_SQI p.val (sqiOf snr 0)
    else
      let (w, s) := s.freeVal
      s.setFld Fld.PT_STAT_SQI p.val (if w.getLsbD 0 then sqiOf snr (-100) else sqiOf snr 101))

/-- A line fault opens the switches (R443). -/
def State.lineFault (s : State) (p : Nat) (f : Fld) : State :=
  (((s.modPort p (fun k => { k with calm := false, qualified := false })).setFld Fld.PT_STAT_FAULT p 1).setFld f p 1).portSync p

/-- LINE_OVERVOLTAGE_TRIP (R443). -/
def execLineOvervoltageTrip (p : PortId) (s : State) : Result :=
  .next (if isField p.val && s.pwr.standby then s.lineFault p.val Fld.PT_STAT_OV_TRIP else s)

/-- DC_SENSE_SAMPLE (R443, R445): the means of both wires over 1 ms, in units of 0.5 V. From 14 V up to the comparator's
threshold the sense opens the switches; beyond the threshold, which lies between 30 V and 34 V and is free in that band
(R622), the comparator does (LINE_OVERVOLTAGE_TRIP). -/
def execDcSenseSample (p : PortId) (vp vn : Int) (s : State) : Result :=
  let p := p.val
  .next (if !(isField p && s.pwr.standby) then s
    else
      let sat (v : Int) : Nat := encSigned 8 (max (-128) (min 127 v))
      let s := (s.setFld Fld.PT_DIAG_VP p (sat vp)).setFld Fld.PT_DIAG_VN p (sat vn)
      let worst := max (max vp.natAbs vn.natAbs) (vp - vn).natAbs
      let s := s.modPort p (fun k => { k with calm := decide (worst ≤ 10), qualified := k.qualified && decide (worst ≤ 10) })
      if worst < 28 ∨ 68 < worst then s
      else if worst < 60 then s.lineFault p Fld.PT_STAT_GND_FAULT
      else
        let (w, s) := s.freeVal
        if w.getLsbD 0 then s.lineFault p Fld.PT_STAT_GND_FAULT else s)

/-- FAULT_QUALIFIED (R445): 1 s within ±5 V: FAULT clears with AUTORETRY, or at the next write of MODE. A trip, or a sample
outside, since restarts the qualification. -/
def execFaultQualified (p : PortId) (s : State) : Result :=
  let p := p.val
  .next (if isField p && s.flag Fld.PT_STAT_FAULT p && (s.port p).calm then
    (if s.flag Fld.PT_CTL_AUTORETRY p then (s.setFld Fld.PT_STAT_FAULT p 0).portSync p
     else s.modPort p (fun k => { k with qualified := true }))
  else s)

/-- REFLECTOMETRY_START (R446): a write to PT_DIAG_p with GO = 1. -/
def execReflectometryStart (src : Src) (p : PortId) (v : Word) (s : State) : Result :=
  .next (if isField p.val then
    s.csrPort src .PT_DIAG p.val (fun s => s.ptWrite .PT_DIAG p.val src (withBits v 63 63 1)) else s)

/-- REFLECTOMETRY_DONE (R446): one of the outcomes of RESULT; a number that names none is inconclusive. -/
def execReflectometryDone (p : PortId) (result : BitVec 3) (dist : BitVec 16) (s : State) : Result :=
  let r := if result.toNat = 0 ∨ 5 < result.toNat then 5 else result.toNat
  .next (if (s.port p.val).testing then
    ((s.modPort p.val (fun k => { k with testing := false })).diagDone p.val r (diagDist r dist.toNat)).txTry p.val else s)

/-- A port's channel receives, or sends, in place of its thread (R481); with its enable cleared, a frame in progress still
(R495). -/
def State.rxTaken (s : State) (p : Nat) : Bool := s.flag Fld.QE_DMA_CTL_RXEN p || (s.port p).dmaRx
def State.txTaken (s : State) (p : Nat) : Bool := s.flag Fld.QE_DMA_CTL_TXEN p || (s.port p).dmaTx

/-- A frame enters the receive FIFO: characters while it has room, then the END entry, which carries TRUNC where some were
dropped, and waits where the FIFO is full (R477, R480). -/
def Port.rxFrame (k : Port) (es : List (BitVec 22)) (fcsBad trunc : Bool) : Port :=
  let room := if k.rxLate.isEmpty then 512 - k.rx.length else 0
  let e := rxEnd fcsBad (trunc || room < es.length)
  let rx := k.rx ++ es.take room
  if k.rxLate.isEmpty && rx.length < 512 then { k with rx := rx ++ [e] } else { k with rx := rx, rxLate := k.rxLate ++ [e] }

/-- What an RS-485 port in RAW hears: the last level is held, and the first level change is stamped (R441, R448). -/
def State.rawHear (s : State) (p : Nat) (levels : List Bool) : State :=
  match levels.getLast? with
  | none => s
  | some b => s.modPort p (fun k => { k with
      rawRx := some b, rawLine := b, rxTs := if levels.any (fun l => l != k.rawLine) then s.ts48 else k.rxTs })

/-- FRAME_RECEIVE (R439, R448, R477, R480): a frame enters the receive FIFO with its stamp; in RAW the last level is held. While
the channel receives, frames go to the channel instead. -/
def execFrameReceive (p : PortId) (chars : List LineChar) (x : RxVerdict) (cutOff : Bool) (s : State) : Result :=
  let p := p.val
  .next (if !s.portHears p || s.rxTaken p then s
    else if s.isRaw p then s.rawHear p (chars.map (fun c => (s.heard p c).getLsbD 0))
    else
      let carried := if s.isRs485 p then chars else chars.take (frameMax p)
      let cut := cutOff || carried.length < chars.length
      ((s.fecSeen p x.corr.toNat x.unc.toNat).hearInverted p chars).modPort p (fun k =>
        { k with rxTs := s.ts48 }.rxFrame (carried.map (s.rxEntry p)) (s.fcsBad p chars.length x.bad cutOff) cut))

/-- TX_DONE (R474, R480): the transmitter has sent what its FIFO holds; with the END entry the frame has left, though TXEN has
been set since its TXSTART. While no frame of its own is in transmission, a lane sends the oldest copy that waits (R453). -/
def execTxDone (p : PortId) (s : State) : Result :=
  .next (if !s.portClosed p.val then s
    else if (s.port p.val).frame.any (fun f => f.start.isSome) then s.txGo p.val
    else s.copyGo p.val)

/-- GCL_CYCLE_START (R450): the route-2 event that waits at the lane starts a cycle. -/
def execGclCycleStart (p : PortId) (s : State) : Result :=
  let l := p.val - 224
  .next (if isField p.val || !FMap.get s.gclDue false l then s
    else
      let s := { s with gclDue := FMap.set s.gclDue l false }
      if !s.flag Fld.PT_GCTL_EN l then s
      else
        let k := s.port p.val
        let s := if k.gclOn && !k.gclOver then s.satField Fld.PT_GCTL_CYC_OVR l else s
        let s := if s.flag Fld.PT_GCTL_PEND l then
            let g := (List.range 16).foldl (fun g e => FMap.set g e (s.csrGet .PT_GCL (16 * l + e))) []
            ((s.modPort p.val (fun k => { k with gates := g })).setFld Fld.PT_GCTL_OPER_LEN l
              (s.fld Fld.PT_GCTL_ADMIN_LEN l)).setFld Fld.PT_GCTL_PEND l 0
          else s
        let s := s.setFld Fld.PT_GCTL_ENTRY l 0
        let first := FMap.get (s.port p.val).gates (Reg.reset .PT_GCL 0) 0
        let now := s.bell80.toNat
        (s.modPort p.val (fun k => { k with gclOn := true, gclOver := bitsOf first 31 0 == 0, gclAt := now })).txTry p.val)

/-- The bell has reached the end of the entry in force: where it has not yet, its time passes (R450). -/
def State.toEntryEnd (s : State) (p : Nat) : State :=
  let due := (s.port p).gclAt + s.gateTime p
  let now := s.bell80.toNat
  if s.clockRuns && decide (now < due) then
    s.advance (s.cyclesTo ((due - now) * 2 ^ 32 - s.bell.acc.toNat % 2 ^ 32)) else s

/-- GCL_ENTRY_EXPIRY (R450): the next entry follows; after the last, or at an entry with TIME 0, the gates stay. -/
def execGclEntryExpiry (p : PortId) (s : State) : Result :=
  let l := p.val - 224
  let k := s.port p.val
  .next (if isField p.val || !s.flag Fld.PT_GCTL_EN l || !k.gclOn || k.gclOver then s
    else
      let s := s.toEntryEnd p.val
      let now := s.bell80.toNat
      let e := s.fld Fld.PT_GCTL_ENTRY l
      if s.fld Fld.PT_GCTL_OPER_LEN l ≤ e then s.modPort p.val (fun k => { k with gclOver := true })
      else
        let w := FMap.get k.gates (Reg.reset .PT_GCL 0) (e + 1)
        ((s.setFld Fld.PT_GCTL_ENTRY l (e + 1)).modPort p.val (fun k => { k with
          gclOver := bitsOf w 31 0 == 0, gclAt := now })).txTry p.val)

/-- STREAM_CONFIG_WRITE (R453): a write to PT_CBS_m_i. -/
def execStreamConfigWrite (src : Src) (m : LaneMacro) (i : StreamId) (v : Word) (s : State) : Result :=
  .next (s.csrPort src .PT_CBS (32 * m.val + i.val) (fun s => s.cbsWrite (32 * m.val + i.val) src v))

/-- FRER_RESET_TIMEOUT (R454). -/
def execFrerResetTimeout (m : LaneMacro) (i : StreamId) (s : State) : Result :=
  let x := 32 * m.val + i.val
  .next (if s.flag Fld.PT_CBS_EN x && !(FMap.get s.frer {} x).takeAny then
    { s.satField Fld.PT_CBC_RESETS x with frer := FMap.set s.frer x {} } else s)

/-- MDIO_FRAME (R455): a write to PT_MDIO with GO = 1, and the frame to its end, with what the PHY answers to a read. -/
def execMdioFrame (src : Src) (v : Word) (dataIn : BitVec 16) (s : State) : Result :=
  .next (s.csrPort src .PT_MDIO 0 (fun s =>
    if s.srcSys src || src == .cocoon then ((s.mdioWrite (withBits v 63 63 1)).mdioEnd dataIn.toNat).svcStatus stOk
    else s.svcStatus stDenied))

/-- GPIO_WRITE (R456). -/
def execGpioWrite (src : Src) (v : Word) (s : State) : Result :=
  .next (s.csrPort src .PT_GPIO 0 (fun s => s.gpioWrite .PT_GPIO src v))

/-- GPIO_OSET (R456). -/
def execGpioOset (src : Src) (v : Word) (s : State) : Result :=
  .next (s.csrPort src .PT_GPIO_OSET 0 (fun s => s.gpioWrite .PT_GPIO_OSET src v))

/-- GPIO_OCLR (R456). -/
def execGpioOclr (src : Src) (v : Word) (s : State) : Result :=
  .next (s.csrPort src .PT_GPIO_OCLR 0 (fun s => s.gpioWrite .PT_GPIO_OCLR src v))

/-- GPIO_INPUT_CHANGE (R456): the outside drives a pin's land; the level reaches IN. -/
def execGpioInputChange (pin : BitVec 3) (level : Bool) (s : State) : Result :=
  let b : BitVec 8 := 1 <<< pin.toNat
  .next ({ s with ext := { s.ext with gpio := if level then s.ext.gpio ||| b else s.ext.gpio &&& ~~~ b } }.gpioSync)

/-- DRIVER_CURRENT_LIMIT (R443): an RS-485 driver meets a short between the wires: SHORT, and the driver is released for
the rest of the frame. -/
def execDriverCurrentLimit (p : PortId) (s : State) : Result :=
  .next (if s.isRs485 p.val && s.portClosed p.val && (s.port p.val).frame.any (fun f => f.drive && f.start.isSome) then
    (s.setFld Fld.PT_STAT_SHORT p.val 1).txAbort p.val else s)

/-- TRANSMIT_FIFO_RUNS_EMPTY (R480): before the END of a frame of an Ethernet mode it aborts the frame; in RS-485 the line
idles. -/
def execTransmitFifoRunsEmpty (p : PortId) (s : State) : Result :=
  .next (if s.portClosed p.val && !s.isRs485 p.val && (s.port p.val).tx.isEmpty && !(s.port p.val).testing &&
      (s.port p.val).frame.any (fun f => f.start.isSome) then s.txAbort p.val else s)

end Sys2Proof.Machine
end

