-- ==== Sys2Proof/Machine/Queues.lean ====
section
/-!
DEFINITION. The queue engine (chapter 19): descriptor rings and their levels, the flow-match table, the DMA channels, and
the service port's rings (R455).
-/

namespace Sys2Proof.Machine

/-! ## Status codes of chapter 19 (R479) -/

def stQFull : Nat := 0x28
def stBadPtr : Nat := 0x29
def stNoEntry : Nat := 0x2A
def stTxFull : Nat := 0x2B
def stNotRunning : Nat := 0x2C
def stBadQueue : Nat := 0x2D
def stAborted : Nat := 0x2E

/-! ## Rings (R482) -/

def State.qEn (s : State) (q : Nat) : Bool := s.flag Fld.QE_CFG_EN q
/-- DIR: whether the host side produces. -/
def State.qOut (s : State) (q : Nat) : Bool := s.flag Fld.QE_CFG_DIR q
def State.qSlots (s : State) (q : Nat) : Nat := 2 ^ (4 + s.fld Fld.QE_CFG_SIZE q)
def State.qHead (s : State) (q : Nat) : Nat := s.fld Fld.QE_PTR_HEAD q
def State.qTail (s : State) (q : Nat) : Nat := s.fld Fld.QE_PTR_TAIL q
def State.qEntries (s : State) (q : Nat) : Nat := (s.qTail q + 2 ^ 16 - s.qHead q) % 2 ^ 16
def State.qFree (s : State) (q : Nat) : Nat := s.qSlots q - s.qEntries q

/-- The address of the slot of pointer `v`. -/
def State.qSlot (s : State) (q v : Nat) : Nat := s.fld Fld.QE_CFG_BASE q * 32 + 32 * (v % s.qSlots q)

/-- The side a writer is on: true the port side, false the host side. -/
def State.qSide (s : State) (q : Nat) (src : Src) : Option Bool :=
  let port := match src with
    | .thread t => t.val == q / 32
    | .dma d => d.val == q / 32
    | _ => false
  if port then some true
  else if s.ownerMember (s.fld Fld.QE_HOST_OWNER q) src then some false else none

/-- LEVEL (R485, R487). -/
def State.qLevel (s : State) (q : Nat) : Bool :=
  s.qEn q && (if s.qOut q then decide (s.fld Fld.QE_HOST_THRESH q ≤ s.qFree q)
              else s.flag Fld.QE_STAT_ARMED q && decide (1 ≤ s.qEntries q))

/-- QE_STAT_q reports the ring. -/
def State.qSync (s : State) (q : Nat) : State :=
  let s := s.setFld Fld.QE_STAT_ENTRIES q (s.qEntries q)
  s.setFld Fld.QE_STAT_LEVEL q (bit (s.qLevel q))

/-- The coalescing timer of a queue. -/
def State.qTimer (s : State) (q : Nat) (b : Bool) : State := { s with coal := FMap.set s.coal q b }

/-- An IN queue is armed, with its cause; a running timer is cancelled (R485). -/
def State.qArm (s : State) (q cause : Nat) : State :=
  ((s.setFld Fld.QE_STAT_ARMED q 1).setFld Fld.QE_STAT_LAST_CAUSE q cause).qTimer q false

/-- TAIL advances (R485, R486): the queue may arm, or its timer start. -/
def State.qTailTo (s : State) (q v : Nat) : State :=
  let was := s.qEntries q
  let s := s.setFld Fld.QE_PTR_TAIL q v
  let n := s.qEntries q
  let s :=
    if s.qOut q || s.flag Fld.QE_STAT_ARMED q || n == 0 then s
    else if s.fld Fld.QE_HOST_THRESH q ≤ n then s.qArm q 1
    else if was = 0 then (if s.fld Fld.QE_HOST_COAL q = 0 then s.qArm q 2 else s.qTimer q true)
    else s
  s.qSync q

/-- HEAD advances (R485): an empty queue disarms and its timer is cancelled. -/
def State.qHeadTo (s : State) (q v : Nat) : State :=
  let s := s.setFld Fld.QE_PTR_HEAD q v
  let s := if s.qEntries q = 0 then (s.setFld Fld.QE_STAT_ARMED q 0).qTimer q false else s
  s.qSync q

/-- Record the outcome of a write to a queue's registers (R483). -/
def State.qStatus (s : State) (q : Nat) (src : Src) (st : Nat) : State :=
  (s.setFld Fld.QE_PTR_LAST_STATUS q st).setFld Fld.QE_PTR_LAST_SRC q (srcId src)

/-- Queues that the registers of an enabled channel name, with the direction each must have (R484, R495). -/
def dmaNames (w : Word) (p : Nat) : List (Nat × Bool) :=
  let rx := Fld.QE_DMA_CTL_RXEN.of w = 1
  (if rx then [(32 * p + Fld.QE_DMA_CTL_FREEQ.of w, true)] else []) ++
  (if rx ∧ Fld.QE_DMA_CTL_CLASSIFY.of w = 0 then [(32 * p + Fld.QE_DMA_CTL_RXQ.of w, false)] else []) ++
  (if Fld.QE_DMA_CTL_TXEN.of w = 1 then [(32 * p + Fld.QE_DMA_CTL_TXQ.of w, true)] else [])

/-- Whether the port's channel is enabled on a queue. -/
def State.qDma (s : State) (q : Nat) : Bool := (dmaNames (s.csrGet .QE_DMA_CTL (q / 32)) (q / 32)).any (fun e => e.1 == q)

/-- A move of the writer's pointer to a value (R484): the status, and the state where it is performed. -/
def State.qMove (s : State) (q : Nat) (src : Src) (tail head : Nat) : Nat × State :=
  match s.qSide q src with
  | none =>
    if !s.qEn q && s.srcSys src then
      (stOk, ((s.setFld Fld.QE_PTR_TAIL q tail).setFld Fld.QE_PTR_HEAD q head).qSync q)
    else (stBadQueue, s)
  | some port =>
    if !s.qEn q then
      (if s.srcSys src then (stOk, ((s.setFld Fld.QE_PTR_TAIL q tail).setFld Fld.QE_PTR_HEAD q head).qSync q)
       else (stBadQueue, s))
    else
      let thread := match src with
        | .thread _ => true
        | _ => false
      if thread && port && s.qDma q then (stBusy, s)
      else if port != s.qOut q then
        if (tail + 2 ^ 16 - s.qTail q) % 2 ^ 16 ≤ s.qFree q then (stOk, s.qTailTo q tail) else (stQFull, s)
      else if (head + 2 ^ 16 - s.qHead q) % 2 ^ 16 ≤ s.qEntries q then (stOk, s.qHeadTo q head)
      else (stBadPtr, s)

/-- A write to QE_PTR_q (R484). -/
def State.qPtrWrite (s : State) (q : Nat) (src : Src) (v : Word) : State :=
  let (st, s) := s.qMove q src (Fld.QE_PTR_TAIL.of v) (Fld.QE_PTR_HEAD.of v)
  s.qStatus q src st

/-- QADV (R478, R484): the thread's pointer advances by a count; status and the entries after it. -/
def State.qAdvance (s : State) (q : Nat) (src : Src) (n : Nat) : Nat × State :=
  let d := if n = 0 then 1 else n
  let (st, s) := s.qMove q src ((s.qTail q + d) % 2 ^ 16) ((s.qHead q + d) % 2 ^ 16)
  (st + s.qEntries q * 2 ^ 16, s.qStatus q src st)

/-! ## QE_CFG and QE_HOST (R483) -/

/-- Who may write a queue's configuration. -/
def State.qMay (s : State) (q : Nat) (src : Src) : Bool :=
  src == .cocoon || (!s.flag Fld.QE_CFG_SEC q && s.srcSys src)

/-- A ring that lies wholly within one Granary bank, the port's Spinner's data memory, or HBM. -/
def ringPlaced (q base size : Nat) : Bool :=
  let last := base + 32 * 2 ^ (4 + size) - 1
  let dm := engineMem (q / 256) + 0x10000
  (isHbm base && isHbm last) || (isGranary base && isGranary last && granBank base == granBank last) ||
  (dm ≤ base && last < dm + 0x10000)

/-- A channel that is enabled and names the queue in a way R495 forbids. -/
def State.qDmaBad (s : State) (q : Nat) (sec out : Bool) : Bool :=
  let w := s.csrGet .QE_DMA_CTL (q / 32)
  (dmaNames w (q / 32)).any (fun e => e.1 == q && (e.2 != out || (Fld.QE_DMA_CTL_SEC.of w == 1) != sec))

/-- A channel stops in ERROR (R499): the cause and address, and the record. -/
def State.dmaError (s : State) (d cause addr : Nat) : State :=
  let s := (s.setFld Fld.QE_DMA_CTL_STATE d 2).csrSet .QE_DMA_ERR d (withBits (BitVec.ofNat 64 (addr % 2 ^ 48)) 63 56 cause)
  s.logErr { unit := 246, sev := 2, type := 0x2A, addr := some addr, src := 0x300 + d, loc := d,
             data := [d + cause * 2 ^ 8], sec := s.flag Fld.QE_DMA_CTL_SEC d }

/-- A write to QE_CFG_q (R483). -/
def State.qCfgWrite (s : State) (q : Nat) (src : Src) (v : Word) : State :=
  let size := min 8 (Fld.QE_CFG_SIZE.of v)
  let sec := if src = .cocoon then Fld.QE_CFG_SEC.of v else s.fld Fld.QE_CFG_SEC q
  let en := s.qEn q
  let on := Fld.QE_CFG_EN.of v = 1
  if !s.qMay q src then s.qStatus q src stDenied
  else if en && (Fld.QE_CFG_BASE.of v != s.fld Fld.QE_CFG_BASE q || size != s.fld Fld.QE_CFG_SIZE q ||
      Fld.QE_CFG_DIR.of v != s.fld Fld.QE_CFG_DIR q) then s.qStatus q src stBusy
  else if on ∧ (!ringPlaced q (Fld.QE_CFG_BASE.of v * 32) size || s.qDmaBad q (sec == 1) (Fld.QE_CFG_DIR.of v == 1)) then
    s.qStatus q src stBadQueue
  else
    let s := ((s.codeWrite .QE_CFG q v).setFld Fld.QE_CFG_SIZE q size).setFld Fld.QE_CFG_SEC q sec
    let s := if !en && s.qEn q then
        (((s.setFld Fld.QE_PTR_HEAD q 0).setFld Fld.QE_PTR_TAIL q 0).setFld Fld.QE_STAT_ARMED q 0).qTimer q false
      else s
    let s := (s.qSync q).qStatus q src stOk
    if en && !s.qEn q && s.qDma q && s.fld Fld.QE_DMA_CTL_STATE (q / 32) == 1 then
      s.dmaError (q / 32) 5 (s.fld Fld.QE_CFG_BASE q * 32)
    else s

/-- A write to QE_HOST_q (R483). -/
def State.qHostWrite (s : State) (q : Nat) (src : Src) (v : Word) : State :=
  if !s.qMay q src then s.qStatus q src stDenied
  else if s.qEn q && Fld.QE_HOST_OWNER.of v != s.fld Fld.QE_HOST_OWNER q then s.qStatus q src stBusy
  else
    let s := (s.codeWrite .QE_HOST q v).setFld Fld.QE_HOST_THRESH q (max 1 (Fld.QE_HOST_THRESH.of v))
    (s.qSync q).qStatus q src stOk

/-- What a source reads in a queue's registers (R488). -/
def State.qRead (s : State) (r : Reg) (q : Nat) (src : Src) : Word :=
  if s.flag Fld.QE_CFG_SEC q && src != .cocoon && s.qSide q src != some true then 0 else s.csrGet r q

/-! ## The flow-match table (R490 to R493) -/

/-- The key of an entry. -/
def fmKey (p key : Nat) : Nat := p * 2 ^ 32 + key % 2 ^ 32

/-- ADD (R490, R491): the status. -/
def State.fmAdd (s : State) (p key qidx tag : Nat) (src : Src) : Nat × State :=
  let k := fmKey p key
  let have_ := s.flow.any (fun e => e.1 == k)
  if !have_ && 8192 ≤ s.flow.length then
    (stTableFull, (s.satField Fld.QE_FM_STAT_FULL_CNT 0).logErr
      { unit := 246, sev := 0, type := 0x2B, src := srcId src, loc := p, data := [p + key % 2 ^ 32 * 2 ^ 32] })
  else
    let s := { s with flow := FMap.set s.flow k (qidx * 2 ^ 16 + tag) }
    (stOk, s.setFld Fld.QE_FM_STAT_USED 0 s.flow.length)

/-- DEL (R490). -/
def State.fmDel (s : State) (p key : Nat) : Nat × State :=
  let k := fmKey p key
  if s.flow.any (fun e => e.1 == k) then
    let s := { s with flow := FMap.dropIf s.flow (· == k) }
    (stOk, s.setFld Fld.QE_FM_STAT_USED 0 s.flow.length)
  else (stNoEntry, s)

/-- A lookup (R490): queue index and tag. -/
def State.fmFind (s : State) (p key : Nat) : Option (Nat × Nat) :=
  (s.flow.find? (fun e => e.1 == fmKey p key)).map (fun e => (e.2 / 2 ^ 16, e.2 % 2 ^ 16))

/-- A lookup by a thread or a channel: a miss counts in QE_MISS_p (R491). -/
def State.fmLookup (s : State) (p key : Nat) : Option (Nat × Nat) × State :=
  match s.fmFind p key with
  | some x => (some x, s)
  | none => (none, s.satField Fld.QE_MISS_MISS p)

/-- Whether a source may command the table for a port (R493). -/
def State.fmMay (s : State) (p : Nat) (src : Src) : Bool :=
  src == .cocoon || (!s.flag Fld.PT_CTL_SEC p && s.srcSys src)

/-- QE_FM_RES takes the outcome of a command (R493). -/
def State.fmRes (s : State) (src : Src) (st : Nat) (hit : Option (Nat × Nat)) : State :=
  let s := (s.setFld Fld.QE_FM_RES_LAST_SRC 0 (srcId src)).setFld Fld.QE_FM_RES_LAST_STATUS 0 st
  let s := (s.setFld Fld.QE_FM_RES_HIT 0 (bit hit.isSome)).setFld Fld.QE_FM_RES_QIDX 0 ((hit.map (·.1)).getD 0)
  s.setFld Fld.QE_FM_RES_TAG 0 ((hit.map (·.2)).getD 0)

/-- A write to QE_FM_CMD (R490, R493): the outcome in QE_FM_RES. -/
def State.fmCmd (s : State) (src : Src) (v : Word) : State :=
  let p := Fld.QE_FM_CMD_PORT.of v
  let key := Fld.QE_FM_CMD_KEY.of v
  let (st, hit, s) : Nat × Option (Nat × Nat) × State :=
    if !s.fmMay p src then (stDenied, none, s)
    else match Fld.QE_FM_CMD_OP.of v with
      | 1 =>
        let (st, s) := s.fmAdd p key (Fld.QE_FM_CMD_QIDX.of v) (Fld.QE_FM_CMD_TAG.of v) src
        (st, none, s)
      | 2 =>
        let (st, s) := s.fmDel p key
        (st, none, s)
      | 3 => (stOk, s.fmFind p key, s)
      | _ => (stDenied, none, s)
  s.fmRes src st hit

/-- A write to QE_MISS_p (R493): CLR clears it. -/
def State.missWrite (s : State) (p : Nat) (src : Src) (v : Word) : State :=
  let own := match src with
    | .thread t => t.val == p
    | _ => false
  if (own || s.fmMay p src) && Fld.QE_MISS_CLR.of v == 1 then s.setFld Fld.QE_MISS_MISS p 0 else s

/-! ## Memory accesses of channels and of the service port (R489, R498) -/

/-- Read `n` bytes in pieces that do not cross a line: an error kind (4 for poison) with its address, or the bytes as a
number. -/
def State.bulkRead (s : State) (src : Src) (a n : Nat) (hint : Option Nat) : Nat → Except (Nat × Nat) Nat × State
  | 0 => (.ok 0, s)
  | fuel + 1 =>
    if n = 0 then (.ok 0, s)
    else
      let k := min n (64 - a % 64)
      let (m, s) := s.physRead src true a k hint
      if m.err ≠ 0 then (.error (m.err, a), s)
      else if m.poison then (.error (4, a), s)
      else match s.bulkRead src (a + k) (n - k) hint fuel with
        | (.ok v, s) => (.ok (m.val + v * 2 ^ (8 * k)), s)
        | (.error e, s) => (.error e, s)

/-- Write `n` bytes of a number in pieces that do not cross a line: the error kind and address of the first piece that
fails. -/
def State.bulkWrite (s : State) (src : Src) (a n v : Nat) (hint : Option Nat) : Nat → Option (Nat × Nat) × State
  | 0 => (none, s)
  | fuel + 1 =>
    if n = 0 then (none, s)
    else
      let k := min n (64 - a % 64)
      let (e, s) := s.physWrite src true a k (v % 2 ^ (8 * k)) hint
      if e ≠ 0 then (some (e, a), s) else s.bulkWrite src (a + k) (n - k) (v / 2 ^ (8 * k)) hint fuel

/-- A list of bytes as a little-endian number. -/
def bytesNat (bs : List Byte) : Nat := leBytes bs

/-- A descriptor's four words (R489). -/
structure Desc where
  w0 : Word
  w1 : Word
  w2 : Word
  w3 : Word
  deriving DecidableEq, Repr

def descOf (v : Nat) : Desc :=
  ⟨BitVec.ofNat 64 v, BitVec.ofNat 64 (v / 2 ^ 64), BitVec.ofNat 64 (v / 2 ^ 128), BitVec.ofNat 64 (v / 2 ^ 192)⟩

def Desc.addr (d : Desc) : Nat := bitsOf d.w0 47 0
def Desc.len (d : Desc) : Nat := bitsOf d.w0 63 48

/-- The page hint a descriptor gives: its own, where HV is set (R397, R489). -/
def Desc.hint (d : Desc) : Option Nat := if bitsOf d.w2 25 25 = 1 then some (7 - bitsOf d.w2 26 26) else none

/-- A transmit descriptor asks for replication, which lanes alone have, and the bytes that the R-TAG of an enabled stream adds to
its frame (R453, R478). -/
def Desc.repl (d : Desc) (p : Nat) : Bool := bitsOf d.w2 53 53 == 1 && !isField p
def Desc.tagBytes (d : Desc) (s : State) (p : Nat) : Nat :=
  let x := 32 * ((p - 224) / 8) + bitsOf d.w2 52 48
  rTagBytes (if d.repl p && s.flag Fld.PT_CBS_EN x then some (bitsOf d.w2 52 48, s.fld Fld.PT_CBS_GEN_SEQ x) else none)

/-- A descriptor that names a buffer within one region (R499). -/
def Desc.ok (d : Desc) : Bool :=
  let a := d.addr
  let z := a + d.len - 1
  d.len != 0 && ((isHbm a && isHbm z) || (isGranary a && isGranary z) || (isSpinnerMem a && isSpinnerMem z) ||
    (!(isHbm a || isGranary a || isSpinnerMem a) && !(isHbm z || isGranary z || isSpinnerMem z)))

/-- A completion (R496): address, bytes written, stamp, tag, flags and USER. -/
def completion (d : Desc) (n ts tag : Nat) (fcsBad trunc miss : Bool) : Nat :=
  (d.addr + n * 2 ^ 48) + (ts % 2 ^ 48) * 2 ^ 64 +
    (tag % 2 ^ 16 + bit fcsBad * 2 ^ 27 + bit trunc * 2 ^ 28 + bit miss * 2 ^ 29) * 2 ^ 128 + d.w3.toNat * 2 ^ 192

/-! ## DMA channels (R494 to R499) -/

/-- Who may write a channel's registers (R494). -/
def State.dmaMay (s : State) (d : Nat) (src : Src) : Bool :=
  let own := match src with
    | .thread t => t.val == d
    | _ => false
  own || src == .cocoon || (!s.flag Fld.QE_DMA_CTL_SEC d && s.srcSys src)

/-- What of a channel a write of its control leaves in progress: a cleared enable takes effect at the next frame boundary, and whether
a frame is in progress on that side is free (R495; DESIGN CHOICE, assumption log 278). -/
def State.dmaLinger (s : State) (d : Nat) (v : Word) : State :=
  let rx := s.rxTaken d && Fld.QE_DMA_CTL_RXEN.of v == 0
  let tx := s.txTaken d && Fld.QE_DMA_CTL_TXEN.of v == 0
  if s.fld Fld.QE_DMA_CTL_STATE d = 1 ∧ (rx ∨ tx) then
    let (w, s) := s.freeVal
    s.modPort d (fun k => { k with dmaRx := rx && (k.dmaRx || w.getLsbD 0), dmaTx := tx && (k.dmaTx || w.getLsbD 1) })
  else if (s.port d).dmaRx ∨ (s.port d).dmaTx then s.modPort d (fun k => { k with dmaRx := false, dmaTx := false })
  else s

/-- A channel is at a frame boundary: a side whose enable has been cleared has ended, and with both STATE is IDLE (R495). -/
def State.dmaBoundary (s : State) (d : Nat) (tx : Bool) : State :=
  if !(if tx then (s.port d).dmaTx else (s.port d).dmaRx) then s
  else
    let s := s.modPort d (fun k => if tx then { k with dmaTx := false } else { k with dmaRx := false })
    if s.fld Fld.QE_DMA_CTL_STATE d = 1 ∧ !s.rxTaken d ∧ !s.txTaken d then s.setFld Fld.QE_DMA_CTL_STATE d 0 else s

/-- A write to QE_DMA_CTL_d (R494, R495). -/
def State.dmaCtlWrite (s : State) (d : Nat) (src : Src) (v : Word) : State :=
  let sec := if src = .cocoon then Fld.QE_DMA_CTL_SEC.of v else s.fld Fld.QE_DMA_CTL_SEC d
  if !s.dmaMay d src then s.setFld Fld.QE_DMA_CTL_LAST_STATUS d stDenied
  else if (dmaNames v d).any (fun e => !s.qEn e.1 || s.qOut e.1 != e.2 || s.fld Fld.QE_CFG_SEC e.1 != sec) then
    s.setFld Fld.QE_DMA_CTL_LAST_STATUS d stBadQueue
  else
    let on := Fld.QE_DMA_CTL_RXEN.of v = 1 ∨ Fld.QE_DMA_CTL_TXEN.of v = 1
    let st := s.fld Fld.QE_DMA_CTL_STATE d
    let s := ((s.dmaLinger d v).codeWrite .QE_DMA_CTL d v).setFld Fld.QE_DMA_CTL_SEC d sec
    let busy := (s.port d).dmaRx || (s.port d).dmaTx
    let s := s.setFld Fld.QE_DMA_CTL_STATE d (if st = 2 ∧ on then 2 else if on ∨ busy then 1 else 0)
    s.setFld Fld.QE_DMA_CTL_LAST_STATUS d stOk

/-- The cause of an access error of a channel (R499). -/
def dmaCause (e : Nat) : Nat := if e = 3 then 2 else if e = 4 then 3 else 1

/-- The queue a received frame's completion goes to (R496): the queue, the tag, and MISS. -/
def State.dmaTarget (s : State) (d : Nat) (bytes : List Byte) : Nat × Nat × Bool × State :=
  if !s.flag Fld.QE_DMA_CTL_CLASSIFY d then (32 * d + s.fld Fld.QE_DMA_CTL_RXQ d, 0, false, s)
  else
    let off := s.fld Fld.QE_DMA_CTL_KEYOFF d
    if bytes.length < off + 4 then (32 * d, 0, true, s)
    else
      match s.fmLookup d (bytesNat ((bytes.drop off).take 4)) with
      | (some (j, tag), s) => if s.qEn (32 * d + j) then (32 * d + j, tag, false, s) else (32 * d, tag, true, s)
      | (none, s) => (32 * d, 0, true, s)

/-- A received frame, steps 2 to 6 of R496. -/
def State.dmaStore (s : State) (d : DmaId) (bytes : List Byte) (fcsBad cut : Bool) : State :=
  let fq := 32 * d.val + s.fld Fld.QE_DMA_CTL_FREEQ d.val
  let da := s.qSlot fq (s.qHead fq)
  match s.bulkRead (.dma d) da 32 none 2 with
  | (.error e, s) => s.dmaError d.val (dmaCause e.1) e.2
  | (.ok v, s) =>
    let x := descOf v
    if !x.ok then s.dmaError d.val 4 da
    else
      let n := min bytes.length x.len
      match s.bulkWrite (.dma d) x.addr n (bytesNat (bytes.take n)) x.hint (n / 64 + 2) with
      | (some e, s) => s.dmaError d.val (dmaCause e.1) e.2
      | (none, s) =>
        let (q, tag, miss, s) := s.dmaTarget d.val bytes
        if !s.qEn q then s.dmaError d.val 5 (s.qSlot q (s.qTail q))
        else if s.qFree q = 0 then (s.satField Fld.QE_DMA_STAT_QFULL d.val).satField Fld.QE_STAT_DROP q
        else
          let ca := s.qSlot q (s.qTail q)
          let c := completion x n s.ts48 tag fcsBad (cut || x.len < bytes.length) miss
          match s.bulkWrite (.dma d) ca 32 c none 2 with
          | (some e, s) => s.dmaError d.val (dmaCause e.1) e.2
          | (none, s) =>
            let s := s.qTailTo q ((s.qTail q + 1) % 2 ^ 16)
            (s.qHeadTo fq ((s.qHead fq + 1) % 2 ^ 16)).incField Fld.QE_DMA_STAT_RXFR d.val

/-- DMA_RX_FRAME (R496): a frame that the port receives while the channel receives. RAW recovers no frame; of a character of
RS-485 the channel stores the low 8 bits of its data (DESIGN CHOICE, assumption log 265). -/
def execDmaRxFrame (d : DmaId) (chars : List LineChar) (x : RxVerdict) (cutOff : Bool) (s : State) : Result :=
  .next (if !(s.portHears d.val && s.rxTaken d.val && s.fld Fld.QE_DMA_CTL_STATE d.val == 1) || s.isRaw d.val then s
    else
      let bytes := chars.map (fun c => (s.rxEntry d.val c).truncate 8)
      let s := (s.fecSeen d.val x.corr.toNat x.unc.toNat).hearInverted d.val chars
      let s := s.modPort d.val (fun k => { k with rxTs := s.ts48 })
      let fq := 32 * d.val + s.fld Fld.QE_DMA_CTL_FREEQ d.val
      let carried := if s.isRs485 d.val then bytes else bytes.take (frameMax d.val)
      let cut := cutOff || decide (carried.length < bytes.length)
      (if s.qEntries fq = 0 then s.satField Fld.QE_DMA_STAT_NOBUF d.val
       else s.dmaStore d carried (s.fcsBad d.val bytes.length x.bad cutOff) cut).dmaBoundary d.val false)

/-- The write-back of a transmit descriptor (R497): STATUS, and the stamp if requested. -/
def txWriteBack (x : Desc) (st ts : Nat) : Word :=
  BitVec.ofNat 64 ((if bitsOf x.w2 24 24 = 1 then ts % 2 ^ 48 else bitsOf x.w1 47 0) + st * 2 ^ 48)

/-- DMA_TX_FRAME (R497): the frame of the next transmit descriptor; `aborted` where it is cut off in transmission, as one that
with its FCS outgrows the limit of an Ethernet port is (R439). A frame whose gate is closed, or that does not fit in the entry in
force, waits (R451), and so does one behind a frame of the thread's own.  A frame sent with TSREQ gives TXTS (R478). -/
def execDmaTxFrame (d : DmaId) (aborted : Bool) (s : State) : Result :=
  let p := d.val
  let q := 32 * p + s.fld Fld.QE_DMA_CTL_TXQ p
  .next (if !(s.txTaken p && s.fld Fld.QE_DMA_CTL_STATE p == 1) || s.qEntries q == 0 ||
      (s.port p).testing || (s.port p).frame.isSome then s
    else
      let da := s.qSlot q (s.qHead q)
      match s.bulkRead (.dma d) da 32 none 2 with
      | (.error e, s) => s.dmaError p (dmaCause e.1) e.2
      | (.ok v, t) =>
        let x := descOf v
        if !x.ok then t.dmaError p 4 da
        else if t.gateOf p / 2 ^ bitsOf x.w2 23 21 % 2 = 0 || !t.gateFits p (x.len + x.tagBytes s p) then s
        else
          match t.bulkRead (.dma d) x.addr x.len x.hint (x.len / 64 + 2) with
          | (.error e, t) => t.dmaError p (dmaCause e.1) e.2
          | (.ok _, t) =>
            let starts := t.portClosed p && t.fld Fld.PT_STAT_LINK p == 2
            let cut := aborted || (!s.isRs485 p && decide (frameMax p < x.len + x.tagBytes s p + 4))
            let st := if !starts then stNotRunning else if cut then stAborted else stOk
            let t := if starts && x.repl p then (t.replicate p (bitsOf x.w2 52 48) (bitsOf x.w2 23 21) x.len true).2 else t
            let t := if starts && cut then t.setFld Fld.PT_STAT_TX_ABORT p 1 else t
            let t := if st = stOk ∧ bitsOf x.w2 24 24 = 1 then t.modPort p (fun k => { k with txTs := some t.ts48 }) else t
            match t.bulkWrite (.dma d) (da + 8) 8 (txWriteBack x st t.ts48).toNat none 2 with
            | (some e, t) => t.dmaError p (dmaCause e.1) e.2
            | (none, t) =>
              ((t.qHeadTo q ((t.qHead q + 1) % 2 ^ 16)).incField Fld.QE_DMA_STAT_TXFR p).dmaBoundary p true)

/-! ## The service port's rings (R455) -/

/-- A slot of a ring of the service port. -/
def State.svcSlot (s : State) (tx : Bool) (v : Nat) : Nat :=
  let base := if tx then s.fld Fld.PT_SVC_TXB_BASE 0 else s.fld Fld.PT_SVC_RXB_BASE 0
  let size := if tx then s.fld Fld.PT_SVC_TXB_SIZE 0 else s.fld Fld.PT_SVC_RXB_SIZE 0
  base * 4096 + 32 * (v % 2 ^ (4 + size))

/-- A read of PT_SVC_CTL: while the port runs, SPEED and LINK are what the PHY signals, which is free at each read (R455; DESIGN
CHOICE, assumption log 262). -/
def State.svcCtlRead (s : State) (runs : Bool) : Word × State :=
  if !runs then (s.csrGet .PT_SVC_CTL 0, s)
  else
    let (w, s) := s.freeVal
    (withBits (withBits (s.csrGet .PT_SVC_CTL 0) 15 15 (bitsOf (w.truncate 64) 15 15)) 17 16 (w.toNat % 3), s)

/-- The service port runs while its lands are assigned. -/
def State.svcRuns (s : State) : Bool := s.fld Fld.BT_LOWN_FUNC 1 == 1 && s.islOpen 20 && !s.pwr.past380

/-- SVC_RX_FRAME (R455): the frame goes into the next free buffer, the completion into its descriptor, and the head
advances; with no free buffer, or an access that fails, the frame is dropped. -/
def execSvcRxFrame (bytes : List Byte) (fcsBad : Bool) (s : State) : Result :=
  let h := s.fld Fld.PT_SVC_IDX_RXH 0
  .next (if !(s.svcRuns && s.flag Fld.PT_SVC_CTL_RXEN 0) || s.fld Fld.PT_SVC_IDX_RXT 0 == h then s
    else
      let da := s.svcSlot false h
      match s.bulkRead .svc da 32 none 2 with
      | (.error _, s) => s
      | (.ok v, s) =>
        let x := descOf v
        let n := min bytes.length x.len
        match s.bulkWrite .svc x.addr n (bytesNat (bytes.take n)) x.hint (n / 64 + 2) with
        | (some _, s) => s
        | (none, s) =>
          match s.bulkWrite .svc da 32 (completion x n s.ts48 0 fcsBad (x.len < bytes.length) false) none 2 with
          | (some _, s) => s
          | (none, s) => s.setFld Fld.PT_SVC_IDX_RXH 0 (h + 1))

/-- SVC_TX_FRAME (R455): the frame of the next transmit descriptor leaves, its status is written back, and the head
advances. -/
def execSvcTxFrame (s : State) : Result :=
  let h := s.fld Fld.PT_SVC_IDX_TXH 0
  .next (if !(s.svcRuns && s.flag Fld.PT_SVC_CTL_TXEN 0) || s.fld Fld.PT_SVC_IDX_TXT 0 == h then s
    else
      let da := s.svcSlot true h
      match s.bulkRead .svc da 32 none 2 with
      | (.error _, s) => s
      | (.ok v, s) =>
        let x := descOf v
        match s.bulkRead .svc x.addr x.len x.hint (x.len / 64 + 2) with
        | (.error _, s) => s
        | (.ok _, s) =>
          match s.bulkWrite .svc (da + 8) 8 (txWriteBack x stOk s.ts48).toNat none 2 with
          | (some _, s) => s
          | (none, s) => s.setFld Fld.PT_SVC_IDX_TXH 0 (h + 1))

/-! ## Commands -/

/-- QUEUE_CFG_WRITE (R483). -/
def execQueueCfgWrite (src : Src) (q : QueueId) (v : Word) (s : State) : Result :=
  .next (s.csrPort src .QE_CFG q.val (fun s => s.qCfgWrite q.val src v))

/-- QUEUE_HOST_WRITE (R483). -/
def execQueueHostWrite (src : Src) (q : QueueId) (v : Word) (s : State) : Result :=
  .next (s.csrPort src .QE_HOST q.val (fun s => s.qHostWrite q.val src v))

/-- QUEUE_PTR_WRITE (R484). -/
def execQueuePtrWrite (src : Src) (q : QueueId) (v : Word) (s : State) : Result :=
  .next (s.csrPort src .QE_PTR q.val (fun s => s.qPtrWrite q.val src v))

/-- COALESCE_TIMER_EXPIRY (R485). -/
def execCoalesceTimerExpiry (q : QueueId) (s : State) : Result :=
  .next (if FMap.get s.coal false q.val then ((s.qTimer q.val false).qArm q.val 2).qSync q.val else s)

/-- FM_ADD (R490): a write to QE_FM_CMD with OP = 1. -/
def execFmAdd (src : Src) (v : Word) (s : State) : Result :=
  .next (s.csrPort src .QE_FM_CMD 0 (fun s => s.fmCmd src (withBits v 2 0 1)))

/-- FM_DEL (R490): OP = 2. -/
def execFmDel (src : Src) (v : Word) (s : State) : Result :=
  .next (s.csrPort src .QE_FM_CMD 0 (fun s => s.fmCmd src (withBits v 2 0 2)))

/-- FM_LOOKUP (R490): OP = 3. -/
def execFmLookup (src : Src) (v : Word) (s : State) : Result :=
  .next (s.csrPort src .QE_FM_CMD 0 (fun s => s.fmCmd src (withBits v 2 0 3)))

/-- DMA_CTL_WRITE (R495). -/
def execDmaCtlWrite (src : Src) (d : DmaId) (v : Word) (s : State) : Result :=
  .next (s.csrPort src .QE_DMA_CTL d.val (fun s => s.dmaCtlWrite d.val src v))

end Sys2Proof.Machine
end

