-- ==== Sys2Proof/Machine/CoreLife.lean ====
section
/-!
DEFINITION. What resets and losses of supply do to cores, Spinner threads and the islands' logic (R75, R212, R256, R274,
R295, R325, R388, R473, R582, R588).
-/

namespace Sys2Proof.Machine

/-! ## Cores -/

/-- A core's invalidations end with it: those that wait at it count as performed, for its TLBs are empty (R274, R277),
and those it sent are nobody's. -/
def State.tlbisEnd (s : State) (c : Nat) : State :=
  let s := (s.core c).tlbis.foldl (fun s op => s.modCore op.issuer (fun k => { k with tlbiWait := k.tlbiWait - 1 })) s
  { s with cores := s.cores.map (fun e =>
      if e.2.tlbis.any (fun op => op.issuer == c) then
        (e.1, { e.2 with tlbis := e.2.tlbis.map (fun op => if op.issuer = c then { op with issuer := 160 } else op) })
      else e) }

/-- The commit of a core's retention comes before the invalidations that wait at it: the core counts as done, and comes
back with every entry of its TLBs and predictor invalid (R277). -/
def State.missTlbis (s : State) (c : Nat) : State :=
  if (s.core c).tlbis.isEmpty then s
  else
    let s := (s.core c).tlbis.foldl (fun s op => s.modCore op.issuer (fun k => { k with tlbiWait := k.tlbiWait - 1 })) s
    s.modCore c (fun k => { k.dropHeld with tlbis := [] })

/-- Both interrupt stacks of a core are emptied, and their sources sampled again (R376, R388). -/
def State.icStacksReset (s : State) (c : Nat) : State :=
  if s.icStk (2 * c) = [] ∧ s.icStk (2 * c + 1) = [] then s
  else
    ([2 * c, 2 * c + 1].foldl (fun s t => (s.icStk t).foldl (fun s e => s.icPop t e.1) s) s).icSettle s

/-- A core's state takes its reset values, and the core parks in the boot ROM (R78, R212, R256, R274, R582, R588, R598). -/
def State.coreFresh (s : State) (c : Nat) : State :=
  let s := s.tlbisEnd c
  let s := (s.setFld Fld.TR_DBG_HALTED c 0).setFld Fld.TR_DBG_HCAUSE c 0
  s.setCore c { run := .parked, romPark := true, arch := { pc := 0x00FFFFF01000 } }

/-- A core reset, which empties the core's interrupt stacks too (R388, R588). -/
def State.coreResetState (s : State) (c : Nat) : State := (s.icStacksReset c).coreFresh c

/-- A reset ordered after a fatal error (R295, R325, R364): entries of the store buffer, and `more` entries of a fold,
are lost, and lines in M are poisoned at their home slices; both are counted. -/
def State.loseCaches (s : State) (c more : Nat) : State :=
  let k := s.core c
  let lost := k.sb.length + more
  let lines := (k.l2.filter (fun x => x.st == .m)).length
  let s := s.loseM c
  let s := k.l2.foldl (fun s x => s.l2Drop c x.line) s
  let s := s.modCore c (fun k => { k with sb := [] })
  s.logErr { unit := c, sev := 3, type := 0x04, data := [lost, lines] }

/-! ## Islands -/

/-- Every thread stops, and the registers of island S take their reset values (R473). -/
def State.threadsStop (s : State) : State :=
  ({ s with threads := [] } : State).resetRegs (fun r _ => r.island == 21)

/-- A reset of island S's logic (R473, R588): port registers live in domain L, local memories keep their contents. -/
def State.spinnersReset (s : State) : State := s.threadsStop

/-- An island loses its supply, and with it its state (R72, R75); land ownership survives gating (R42). -/
def State.loseIsland (s : State) (j : Nat) : State :=
  if j < 20 then
    (islandCores j).foldl (fun s c =>
      if FMap.get s.cores {} c = {} then s
      else (s.tlbisEnd c).setCore c {}) s
  else
    let s := s.resetRegs (fun r _ => r.island == j && r != .BT_LOWN)
    if j = 20 then
      { s with icStack := [], groups := [], llc := [], hbmc := [], stkPort := [], sinkPost := 0, ports := [], frer := [], gclDue := [],
               flow := [], coal := [] }
    else if j = 21 then
      let t := s.threadsStop
      { t with mem := BMap.dropIf t.mem isSpinnerMem }
    else if j = 22 then { s with mem := BMap.dropIf s.mem isGranary, granBad := [], granWait := [] }
    else s

end Sys2Proof.Machine
end

