-- ==== Sys2Proof/Machine/Reset.lean ====
section
/-!
DEFINITION. What the resets of the whole module clear and keep (R584): power-on, RESET_N, module warm reset, and the
module held off.
-/

namespace Sys2Proof.Machine

/-- What no reset touches: the commands that wait, the answer of the latest request, the use of free values, the fuses,
the levels that the outside drives, and the TAP. -/
def State.bare (s : State) : State :=
  { pending := s.pending, resp := s.resp, free := s.free, draws := s.draws, blown := s.blown, ext := s.ext,
    tap := s.tap }

/-- A register of the error records, which only power-on and RESET_N clear (R602). -/
def Reg.isRecord (r : Reg) : Bool :=
  r == .ER_STATUS || r == .ER_ADDR || r == .ER_TFIRST || r == .ER_TLAST || r == .ER_DATA

/-- Registers that a module warm reset leaves as they are: the time base and the error records (R91, R602). -/
def Reg.warmKeeps (r : Reg) : Bool := r.window == 1 || r.isRecord || r == .PW_PFLOG

/-- The warm reset's exceptions inside kept registers (R91, R602): compare units are released, and the watchdog and the
units' controls keep their counts alone. -/
def State.warmTrim (s old : State) : State :=
  let s := (List.range 512).foldl (fun s n =>
    if FMap.get old.csr 0 (regKey .TB_CMP_OWN n) == 0 then s
    else (s.csrSet .TB_CMP_OWN n 0).setFld Fld.TB_CMP_CTL_EN n 0) s
  let s := (List.range 256).foldl (fun s u =>
    let l := old.fld Fld.ER_UCTL_LOST u
    let v := old.fld Fld.ER_UCTL_VALID u
    if l = 0 ∧ v = 0 then s else (s.setFld Fld.ER_UCTL_LOST u l).setFld Fld.ER_UCTL_VALID u v) s
  (s.setFld Fld.ER_WDOG_EXP_CNT 0 (old.fld Fld.ER_WDOG_EXP_CNT 0)).setFld Fld.ER_WDOG_LATE_CNT 0
    (old.fld Fld.ER_WDOG_LATE_CNT 0)

/-- CK_CSTAT.RESETS counts from power-on: no other reset clears it (R538). -/
def State.keepResets (t s : State) : State := t.setFld Fld.CK_CSTAT_RESETS 0 (s.fld Fld.CK_CSTAT_RESETS 0)

/-- What a module warm reset with the cause that BT_STAT records does (R584, R599): the logic of every island and domain L is
cleared, HBM is cleared, domain T, the supplies, Granary and Spinner memories, PW_PFLOG and the records stay. -/
def State.warmClear (s : State) (cause : Nat) : State :=
  let warm := satInc 8 (s.fld Fld.BT_STAT_WARM_CNT 0)
  let p := s.pwr
  let t : State := { s.bare with
    csr := FMap.dropIf s.csr (fun k => match Reg.all[k / 65536]? with
                                       | some r => !r.warmKeeps
                                       | none => true)
    mem := BMap.dropIf s.mem (fun a => isHbm a)
    granBad := s.granBad
    bell := { s.bell with ppsOut := false, lateNow := [] }
    pwr := { p with mode := .start, phase := 1, failed := false, pwrOkHigh := false, armed := false, notice := none,
                    capEpisode := false, capLifting := false, wdog := false, fwGuard := [] } }
  let t := t.warmTrim s
  let t := (t.setFld Fld.PW_INSTAT_PFW 0 (s.fld Fld.PW_INSTAT_PFW 0)).keepResets s
  (t.setFld Fld.BT_STAT_WARM_CNT 0 warm).setFld Fld.BT_STAT_CAUSE 0 cause

/-- Module warm reset. After an emergency or a trip RESET_N is the one restart (R86), so no order for a warm reset acts then
(DEDUCED, assumption log 334). -/
def State.warmReset (s : State) (cause : Nat) : State :=
  if s.pwr.tripLatch || s.pwr.emergency then s else s.warmClear cause

/-- The power-fail log alone survives (R89). -/
def State.keepPflog (t s : State) : State := t.csrSet .PW_PFLOG 0 (s.csrGet .PW_PFLOG 0)

/-- RESET_N with the module in RUN or starting (R584): every island, domain T and every register; start-up resumes at
phase 1. -/
def State.fullReset (s : State) : State :=
  let t : State := { s.bare with
    pwr := { mode := .start, phase := 1, standby := s.pwr.standby, inputBack := s.pwr.inputBack,
             belowStop := s.pwr.belowStop, switchClosed := s.pwr.switchClosed, ovTimer := s.pwr.ovTimer,
             deglitch := s.pwr.deglitch, storeFull := s.pwr.storeFull, bootSel := s.pwr.bootSel, resetLow := true } }
  ((t.keepPflog s).keepResets s).setFld Fld.BT_STAT_CAUSE 0 1

/-- RESET_N with the module in STANDBY (R584): every island but A and K, and domain T; start-up resumes at phase 4. The
firewalls' LOCK bits clear (R530). -/
def State.standbyReset (s : State) : State :=
  let t : State := { s.bare with
    csr := s.csr.filter (fun e => match Reg.all[e.1 / 65536]? with
                                  | some r => r.window == 0 || r.window == 2 || r.window == 9
                                  | none => false)
    reeve := s.reeve, cocoon := s.cocoon, slots := s.slots, ckSlots := s.ckSlots, svc := s.svc, keys := s.keys
    cocoonVer := s.cocoonVer, capNs := s.capNs, fwPend := s.fwPend
    isl := s.isl
    pwr := { s.pwr with mode := .start, phase := 4, failed := false, emergency := false, thermtripLow := false,
                        pwrOkHigh := false, armed := false, resetLow := true, notice := none } }
  let t := (List.range 23).foldl (fun t j => t.setFld Fld.PW_ISTATE_STATE j 0) t
  let t := (List.range 65).foldl (fun t f => if t.flag Fld.CK_FWCTL_LOCK f then t.setFld Fld.CK_FWCTL_LOCK f 0 else t) t
  let t := (List.range 64).foldl (fun t f => if t.flag Fld.CK_GFWCTL_LOCK f then t.setFld Fld.CK_GFWCTL_LOCK f 0 else t) t
  t.setFld Fld.BT_STAT_CAUSE 0 1

/-- Power-on (R50, R584): everything is cleared but PW_PFLOG, and that too after a loss of more than 60 s (R89). -/
def State.powerOn (s : State) (longLoss : Bool) : State :=
  let t : State := { s.bare with
    pwr := { mode := .start, phase := 1, inputBack := true, belowStop := false, switchClosed := true,
             standby := s.pwr.standby, bootSel := s.pwr.bootSel } }
  if longLoss then t else t.keepPflog s

/-- The module is held off (R50): no island runs; the input monitor and its log remain. -/
def State.holdOff (s : State) : State :=
  let t : State := { s.bare with
    pwr := { mode := .off, standby := s.pwr.standby, heldOff := true, failSeq := s.pwr.failSeq, past380 := true,
             pfwLow := s.pwr.pfwLow, inputBack := s.pwr.inputBack, belowStop := s.pwr.belowStop,
             backWait := s.pwr.inputBack, switchClosed := s.pwr.switchClosed, ovTimer := s.pwr.ovTimer,
             bootSel := s.pwr.bootSel } }
  (t.keepPflog s).setFld Fld.PW_INSTAT_PFW 0 (s.fld Fld.PW_INSTAT_PFW 0)

end Sys2Proof.Machine
end

