-- ==== Sys2Proof/Machine/Errors.lean ====
section
/-!
DEFINITION. Error reporting (chapter 25): clearing records, injection, synthetic records and the Reeve watchdog.
-/

namespace Sys2Proof.Machine

/-- Whether a requester may write an error unit's records and control (R604). -/
def State.erAccepts (s : State) (u : Nat) (src : Src) : Bool :=
  if u = 252 then src == .cocoon else s.srcSys src

/-- A record's words return to their reset values (R603). -/
def State.recDrop (s : State) (u r : Nat) : State :=
  let i := recInst u r
  let s := (s.csrSet .ER_STATUS i 0).csrSet .ER_ADDR i 0
  let s := (s.csrSet .ER_TFIRST i 0).csrSet .ER_TLAST i 0
  ((List.range 12).foldl (fun s k => s.csrSet .ER_DATA (12 * i + k) 0) s).recSync u

/-- A write to a record's STATUS (R604, R606): a 1 in VALID clears the record when COUNT matches. -/
def State.erStatusWrite (s : State) (u r : Nat) (src : Src) (v : Word) : State :=
  if s.erAccepts u src && s.recValid u r && Fld.ER_STATUS_VALID.of v == 1 &&
      Fld.ER_STATUS_COUNT.of v == s.fld Fld.ER_STATUS_COUNT (recInst u r) then s.recDrop u r
  else s

/-- A write to ER_UCTL_u (R602, R604). -/
def State.erUctlWrite (s : State) (u : Nat) (src : Src) (v : Word) : State :=
  if s.srcSys src then s.codeWrite .ER_UCTL u v else s

/-- The units that accept an injection of CLASS 0 to 2 (R614). -/
def injUnit (u : Nat) : Bool := u < 240 || u == 244 || u == 251 || u == 252

/-- A write to ER_INJ_u (R604, R613 to R616): it arms an injection, or writes a synthetic record at once. -/
def State.erInjWrite (s : State) (u : Nat) (src : Src) (v : Word) : State :=
  let cls := Fld.ER_INJ_CLASS.of v
  let arm := Fld.ER_INJ_ARM.of v = 1
  let ok := if u = 252 then src == .cocoon else s.srcSys src
  if !ok then s
  else if !s.gateOpen .ER_INJ u then s.gateDeny .ER_INJ u
  else if arm ∧ cls ≠ 3 ∧ !injUnit u then s
  else
    let sev := min (Fld.ER_INJ_SEV.of v) 2
    let s := (s.codeWrite .ER_INJ u v).setFld Fld.ER_INJ_SEV u sev
    if arm ∧ cls = 3 then
      (s.setFld Fld.ER_INJ_ARM u 0).logErr
        { unit := u, sev := sev, type := Fld.ER_INJ_TYPE.of v, inj := true }
    else s

/-! ## The watchdog (R602, R617, R618) -/

/-- A write to ER_WDOG, from the Reeve alone (R617, R618). -/
def State.wdogWrite (s : State) (src : Src) (v : Word) : State :=
  if src ≠ .reeve then s
  else
    let s := s.setFld Fld.ER_WDOG_PERIOD 0 (clampNat 1 1000 (Fld.ER_WDOG_PERIOD.of v))
    if Fld.ER_WDOG_KICK.of v ≠ 0xA5 then s
    else match s.fld Fld.ER_WDOG_STAGE 0 with
      | 0 => s
      | 1 => (s.setFld Fld.ER_WDOG_STAGE 0 0).satField Fld.ER_WDOG_LATE_CNT 0
      | _ => s

/-! ## Commands -/

/-- RECORD_CLEAR (R606): a write to STATUS with VALID = 1. -/
def execRecordClear (src : Src) (u : UnitId) (r : RecId) (v : Word) (s : State) : Result :=
  .next (s.csrPort src .ER_STATUS (recInst u.val r.val) (fun s =>
    s.erStatusWrite u.val r.val src (withBits v 63 63 1)))

/-- INJECTION_ARM (R615): a write to ER_INJ_u with ARM = 1. -/
def execInjectionArm (src : Src) (u : UnitId) (v : Word) (s : State) : Result :=
  .next (s.csrPort src .ER_INJ u.val (fun s => s.erInjWrite u.val src (withBits v 0 0 1)))

/-- SYNTHETIC_RECORD (R616): a write to ER_INJ_u with ARM = 1 and CLASS = 3. -/
def execSyntheticRecord (src : Src) (u : UnitId) (v : Word) (s : State) : Result :=
  .next (s.csrPort src .ER_INJ u.val (fun s => s.erInjWrite u.val src (withBits (withBits v 0 0 1) 9 8 3)))

/-- WATCHDOG_KICK (R617): a write to ER_WDOG with KICK = 0xA5. -/
def execWatchdogKick (src : Src) (v : Word) (s : State) : Result :=
  .next (s.csrPort src .ER_WDOG 0 (fun s => s.wdogWrite src (withBits v 7 0 0xA5)))

/-- WATCHDOG_EXPIRY (R617): the watchdog warns, then resets the module. -/
def execWatchdogExpiry (s : State) : Result :=
  .next (if !s.pwr.wdog then s
    else match s.fld Fld.ER_WDOG_STAGE 0 with
      | 0 =>
        ((s.setFld Fld.ER_WDOG_STAGE 0 1).satField Fld.ER_WDOG_EXP_CNT 0).logErr
          { unit := 250, sev := 2, type := 0x34, data := [1] }
      | 1 =>
        ((s.setFld Fld.ER_WDOG_STAGE 0 2).logErr { unit := 250, sev := 3, type := 0x34, data := [2] }).warmReset 4
      | _ => s)

end Sys2Proof.Machine
end

