-- ==== Sys2Proof/Machine/Islands.lean ====
section
/-!
DEFINITION. Self-timed islands (chapter 03): voltage codes and regulation, operating points, caps, retention and
gating, the Cocoon's holds, and the power-fail warning and STANDBY that act on every island.
-/

namespace Sys2Proof.Machine

/-! ## Voltage codes and modes (R60 to R66) -/

/-- A running island, ON or ENTERING before its commit, that a power-fail warning holds at 0.75 V or above: not in LOCK with
LOCKED set (R49). -/
def State.pfwFloor (s : State) (j : Nat) : Bool :=
  s.pwr.failSeq && s.islOpen j && !(s.fld Fld.PW_RCTL_MODE j == 2 && s.flag Fld.PW_ISTATE_LOCKED j)

/-- Set an island's voltage code, in sixteenths (R60): within the envelope, with no fraction at its top, and after a
power-fail warning at no less than 0.75 V (R49). -/
def State.setCode16 (s : State) (j : Nat) (v : Nat) : State :=
  let v := clampNat (if s.pfwFloor j then 150 * 16 else 0x6E * 16) (0xBE * 16) v
  (s.setFld Fld.PW_VSET_VCODE j (v / 16)).setFld Fld.PW_VSET_VFRAC j (v % 16)

/-- An island's voltage code in sixteenths. -/
def State.code16 (s : State) (j : Nat) : Nat := s.fld Fld.PW_VSET_VCODE j * 16 + s.fld Fld.PW_VSET_VFRAC j

/-- An expert write by a source other than the Reeve marks the island (R66). -/
def State.islXovr (s : State) (j : Nat) (src : Src) : State :=
  if src = .reeve then s else (s.setFld Fld.PW_ISTATE_XOVR j 1).setFld Fld.PW_ISTATE_POINT j 0xFF

/-- An island's regulator is brought to the voltage of its reset point (R67, R589). -/
def State.vcodeReset (s : State) (j : Nat) : State := s.csrSet .PW_VSET j (Reg.reset .PW_VSET j)

/-- Whether a write to PW_VSET_x or PW_RCTL_x is performed, is ignored, or is denied by XGATE (R65, R66). -/
def State.islPerforms (s : State) (j : Nat) (src : Src) : Bool := src == .reeve || s.gateOpen .PW_VSET j

/-- An island stands at a code that a power-fail warning allows: it is raised to 0.75 V where the warning holds it there
(R49). -/
def State.pfwRaise (s : State) (j : Nat) : State := if s.pfwFloor j then s.setCode16 j (s.code16 j) else s

/-- Set an island's regulation mode (R70, R71): leaving LOCK, or entering it, ends lock without losing it. -/
def State.setMode (s : State) (j mode : Nat) : State :=
  let s := if mode = s.fld Fld.PW_RCTL_MODE j then s
    else ((s.setFld Fld.PW_ISTATE_LOCKED j 0).setFld Fld.PW_RATE_PHASE_ERR j 0).modIsland j
      (fun k => { k with badWindows := 0 })
  (s.setFld Fld.PW_RCTL_MODE j mode).pfwRaise j

/-- A write to PW_RCTL_x (R65, R66): MODE 3 is ignored, and so is any MODE write for S. -/
def State.rctlWrite (s : State) (j : Nat) (src : Src) (v : Word) : State :=
  if (j = 23 ∨ j = 24) ∧ src ≠ .reeve then s
  else if s.islPerforms j src then
    let m := Fld.PW_RCTL_MODE.of v
    let s := s.setFld Fld.PW_RCTL_RTARGET j (Fld.PW_RCTL_RTARGET.of v)
    (if m = 3 ∨ j = 21 then s else s.setMode j m).islXovr j src
  else s.gateDeny .PW_RCTL j

/-! ## Operating points (R67 to R69) -/

/-- An operating point: mode, rate target, and the range of its voltage code (R67). -/
structure OpPoint where
  mode   : Nat
  target : Nat
  lo     : Nat
  hi     : Nat
  deriving DecidableEq, Repr

def opPoint : Nat → Option OpPoint
  | 1 => some ⟨0, 0, 150, 150⟩
  | 2 => some ⟨0, 0, 170, 170⟩
  | 3 => some ⟨0, 0, 190, 190⟩
  | 4 => some ⟨1, 180000, 150, 190⟩
  | 5 => some ⟨2, 160000, 140, 190⟩
  | _ => none

/-- Whether an island offers a point (R67): C, F, G and S by the table. -/
def offersPoint (j code : Nat) : Bool :=
  if j < 20 then 1 ≤ code && code ≤ 5
  else if j = 20 then code == 1 || code == 2 || code == 4 || code == 5
  else if j = 21 then code == 5
  else if j = 22 then code == 1 || code == 2 || code == 5
  else false

/-- The range of voltage codes, in sixteenths, that regulation may use (R67, R69). -/
def State.regRange (s : State) (j : Nat) : Nat × Nat :=
  if s.flag Fld.PW_ISTATE_XOVR j then (0x6E * 16, 0xBE * 16)
  else match opPoint (s.fld Fld.PW_ISTATE_POINT j) with
    | some p => (p.lo * 16, p.hi * 16)
    | none => (0x6E * 16, 0xBE * 16)

/-- Whether BOOST is over budget now (R68, R84, R85). -/
def State.overBudget (s : State) (j : Nat) : Bool :=
  decide (3400 < s.pwr.p10ms) || s.flag Fld.PW_ISTATE_CAPPED j || s.pwr.capEpisode ||
  decide (4 * (s.fld Fld.PW_THERM_T_WARN 0 : Int) ≤ s.pwr.hottest)

/-! ## Rate lock (R70, R71, R627) -/

/-- PHASE_ERR as a signed number. -/
def State.phaseErr (s : State) (j : Nat) : Int := signedOf 16 (s.fld Fld.PW_RATE_PHASE_ERR j)

/-- A completed window that meets both conditions of R70. -/
def State.windowGood (s : State) (j : Nat) (err : Int) : Bool :=
  (((s.fld Fld.PW_RATE_RATE j : Int) - s.fld Fld.PW_RCTL_RTARGET j).natAbs * 500 ≤ s.fld Fld.PW_RCTL_RTARGET j) &&
  err.natAbs ≤ 2000

/-- Lock is lost (R71). -/
def State.loseLock (s : State) (j : Nat) : State :=
  if s.flag Fld.PW_ISTATE_LOCKED j then
    let s := ((s.setFld Fld.PW_ISTATE_LOCKED j 0).setFld Fld.PW_ISTATE_LOCK_LOST j 1).logErr
      { unit := 250, sev := 2, type := 0x30, loc := j, data := [j] }
    let s := (s.modIsland j (fun k => { k with lockGone := true })).pfwRaise j
    if j = 21 then s.portsSync else s
  else s

/-- LOCKED sets (R70): the loss of lock is over (R435). -/
def State.gainLock (s : State) (j : Nat) : State :=
  let s := (s.setFld Fld.PW_ISTATE_LOCKED j 1).modIsland j (fun k => { k with lockGone := false })
  if j = 21 then s.portsSync else s

/-- A status bit of the management port sets (R459). -/
def State.pmbusSet (s : State) (b : Nat) : State := { s with pmbus := s.pmbus ||| (1 <<< b) }

/-- PHASE_ERR, saturating at ±32,767 (R66). -/
def satPhase (e : Int) : Int := max (-32767) (min 32767 e)

/-- A window of an island ends: its count and number (R61). -/
def State.windowCount (s : State) (j count : Nat) : State :=
  (s.setFld Fld.PW_RATE_RATE j count).incField Fld.PW_RATE_WINDOWS j

/-- The lock's bookkeeping at the end of a LOCK window (R70, R71). -/
def State.lockWindow (s : State) (j : Nat) : State :=
  let locked := s.flag Fld.PW_ISTATE_LOCKED j
  let err := if locked then
      satPhase (s.phaseErr j + ((s.fld Fld.PW_RATE_RATE j : Int) - s.fld Fld.PW_RCTL_RTARGET j)) else 0
  let s := s.setFld Fld.PW_RATE_PHASE_ERR j (encSigned 16 err)
  let good := s.windowGood j err
  if locked then
    let bad := if good then 0 else (s.island j).badWindows + 1
    let s := s.modIsland j (fun k => { k with badWindows := bad })
    if 3 ≤ bad then s.loseLock j else s
  else if good then (s.gainLock j).modIsland j (fun k => { k with badWindows := 0 })
  else s

/-! ## Caps (R84, R85) -/

/-- Whether any cap holds an island. -/
def Island.capped (k : Island) : Bool := k.boostFell || k.critCap || k.powerCap

/-- One move of regulation (R67, R69, R71): by at most two whole codes, within the island's range; in LOCK, reaching an
end of the range loses lock.  A cap that holds the island keeps regulation from raising it (R84, R85; DEDUCED). -/
def State.regulate (s : State) (j : Nat) (move : Int) : State :=
  let (lo, top) := s.regRange j
  let hi := if (s.island j).capped then min top (s.code16 j) else top
  let m := max (-32) (min 32 move)
  let c := min hi (max lo ((s.code16 j : Int) + m).toNat)
  let s := if m = 0 then s else s.setCode16 j c
  if s.fld Fld.PW_RCTL_MODE j = 2 ∧ m ≠ 0 ∧ (c = lo ∨ c = hi) then s.loseLock j else s

/-- CAPPED follows the caps (R66); in LOCK a cap loses lock (R71). -/
def State.syncCapped (s : State) (j : Nat) : State :=
  let c := (s.island j).capped
  let s := s.setFld Fld.PW_ISTATE_CAPPED j (bit c)
  if c && s.fld Fld.PW_RCTL_MODE j == 2 then s.loseLock j else s

/-- The code, in sixteenths, that an island returns to under the caps of R84 that still hold it. -/
def Island.capTop (k : Island) : Nat :=
  if k.critCap then min k.capFrom (150 * 16) else if k.boostFell then min k.capFrom (170 * 16) else k.capFrom

/-- A code that software asks for: under a cap it is what the island returns to, and the caps still limit what stands
(R84, R85). -/
def State.askCode16 (s : State) (j v : Nat) : State :=
  if (s.island j).capped then
    let s := s.modIsland j (fun k => { k with capFrom := clampNat (0x6E * 16) (0xBE * 16) v })
    let top := (s.island j).capTop
    s.setCode16 j (if (s.island j).powerCap then min top (s.code16 j) else top)
  else s.setCode16 j v

/-- A write to PW_VSET_x (R60, R65, R66); a cap on the island limits what stands (R84, R85). -/
def State.vsetWrite (s : State) (j : Nat) (src : Src) (v : Word) : State :=
  if (j = 23 ∨ j = 24) ∧ src ≠ .reeve then s
  else if s.islPerforms j src then
    let c := clampNat 0x6E 0xBE (Fld.PW_VSET_VCODE.of v)
    (s.askCode16 j (c * 16 + Fld.PW_VSET_VFRAC.of v)).islXovr j src
  else s.gateDeny .PW_VSET j

/-- SET_POINT takes effect (R67, R68): mode, target and voltage of the point, POINT shows it and XOVR clears. An island
that leaves BOOST is under its fall no more, and one that enters LOCK under no cap (R84, R85). -/
def State.setPoint (s : State) (j code : Nat) : State :=
  match opPoint code with
  | none => s
  | some p =>
    let was := if (s.island j).capped then (s.island j).capFrom else s.code16 j
    let s := s.modIsland j (fun k => { k with
      boostFell := k.boostFell && code == 3, critCap := k.critCap && p.mode != 2, powerCap := k.powerCap && p.mode != 2 })
    let s := (s.setMode j p.mode).setFld Fld.PW_RCTL_RTARGET j p.target
    let s := (s.askCode16 j (clampNat (p.lo * 16) (p.hi * 16) was)).syncCapped j
    (s.setFld Fld.PW_ISTATE_POINT j code).setFld Fld.PW_ISTATE_XOVR j 0

/-- Put a cap on an island: remember its code at the first cap, lower it to at most `v` (sixteenths). -/
def State.capIsland (s : State) (j v : Nat) (f : Island → Island) : State :=
  let k := s.island j
  let s := if k.capped then s else s.modIsland j (fun k => { k with capFrom := s.code16 j })
  ((s.modIsland j f).setCode16 j (min v (s.code16 j))).syncCapped j

/-- Take a cap off an island (R84, R85): it returns to its code before the caps, or as far as the caps that remain let
it. -/
def State.uncapIsland (s : State) (j : Nat) (f : Island → Island) : State :=
  let was := (s.island j).capped
  let s := s.modIsland j f
  (if was && !(s.island j).powerCap then s.setCode16 j (s.island j).capTop else s).syncCapped j

/-- An island at BOOST by its point, with no cap on its fall yet (R84). -/
def State.atBoost (s : State) (j : Nat) : Bool :=
  s.fld Fld.PW_ISTATE_POINT j == 3 && !(s.island j).boostFell

/-- C, F and G islands that are not in LOCK (R84). -/
def State.critCaps (s : State) (j : Nat) : Bool :=
  (j ≤ 20 || j == 22) && s.fld Fld.PW_RCTL_MODE j != 2

/-! ## Holds (R80 to R83) -/

/-- Whether the Cocoon holds an island. -/
def State.islHeld (s : State) (j : Nat) : Bool := (s.fld Fld.PW_HOLD_ISL_ISL 0) / 2 ^ j % 2 == 1

/-- Whether the Cocoon holds an HBM stack. -/
def State.stackHeld (s : State) (k : Nat) : Bool := (s.fld Fld.PW_HOLD_ISL_STACK 0) / 2 ^ k % 2 == 1

/-- Whether the Cocoon holds a Granary bank, or any bank. -/
def State.bankHeld (s : State) (b : Nat) : Bool := (s.fld Fld.PW_HOLD_GR_BANK 0) / 2 ^ b % 2 == 1
def State.anyBankHeld (s : State) : Bool := s.fld Fld.PW_HOLD_GR_BANK 0 != 0

/-- Whether the Cocoon holds anything that a thermal emergency or a power failure switches (R83). -/
def State.anyHeld (s : State) : Bool :=
  s.fld Fld.PW_HOLD_ISL_ISL 0 != 0 || s.fld Fld.PW_HOLD_ISL_STACK 0 != 0 || s.anyBankHeld

/-- HELD copies the hold bits (R66). -/
def State.syncHeld (s : State) : State :=
  (List.range 23).foldl (fun s j => s.setFld Fld.PW_ISTATE_HELD j (bit (s.islHeld j))) s

/-- Whether a hold stands against an entry of the island (R81). -/
def State.entryHeld (s : State) (j : Nat) : Bool := s.islHeld j || (j == 22 && s.anyBankHeld)

/-- A core's retired stores are performed and its reservation cleared (R324). -/
def State.quiesce (s : State) (c : Nat) : State :=
  let s := s.drainSb c
  if (s.core c).resv.isNone then s else s.modCore c (fun k => { k with resv := none })

/-! ## STANDBY and the power-fail warning (R49, R88) -/

/-- An island that is gated or off at once keeps no entry or exit in progress (R75 to R78, R88): a call that waits for one is
answered by its timeout. -/
def State.dropEntry (s : State) (j : Nat) : State :=
  s.modIsland j (fun k => { k with entry := none, gating := false, coldExit := false, wakeQueued := false, wakers := [] })

/-- Entry to STANDBY (R88): store buffers drain, switches open, and every island but A and K is gated. PWR_OK leaves high,
as no longer every rail and island is up (R32); R35 names only a power-fail and a reset (DESIGN CHOICE, assumption log
309). -/
def State.enterStandby (s : State) : State :=
  let s := (List.range 160).foldl (fun s c => s.quiesce c) s
  let s := s.openSwitches
  let s := (List.range 23).foldl (fun s j =>
    (((s.loseIsland j).dropEntry j).setFld Fld.PW_ISTATE_STATE j 5).setFld Fld.PW_ISTATE_LOCKED j 0) s
  { s with pwr := { s.pwr with mode := .standby, phase := 4, failed := false, pwrOkHigh := false, armed := s.pwr.armed } }

/-- The Reeve carries out what a hold notice announced, held blocks or not (R83). A module that has been tripped or held off
meanwhile enters no STANDBY (R88). -/
def State.holdActs (s : State) (a : HoldAct) : State :=
  let s := { s with pwr := { s.pwr with notice := none } }
  match a with
  | .emergency => if s.pwr.mode == .tripped || s.pwr.mode == .off then s else s.enterStandby
  | .powerFail => s

/-- A write of CK_NOTE: the cause, the count of notices, and the Cocoon's NOTE event (R519, R538). -/
def State.ringNote (s : State) (cause : Nat) : State :=
  ((s.setFld Fld.CK_NOTE_CAUSE 0 cause).incField Fld.CK_NOTE_SEQ 0).cocoonEvent 2

/-- A hold notice starts where the Cocoon holds a block, and the Reeve rings the Cocoon's doorbell by CK_NOTE; otherwise the
action follows at once (R83, R538). -/
def State.holdNotice (s : State) (a : HoldAct) : State :=
  if s.anyHeld then
    ({ s with pwr := { s.pwr with notice := some a } }).ringNote (match a with | .emergency => 1 | .powerFail => 2)
  else s.holdActs a

/-- The power-fail warning is raised (R48, R49): recorded, told to the Reeve and the Cocoon, islands held up, store buffers drained. -/
def State.warn (s : State) (cause : Nat) : State :=
  let s := (s.setFld Fld.PW_INSTAT_PFW 0 1).setFld Fld.PW_PFLOG_LAST_CAUSE 0 cause
  let s := ((s.satField Fld.PW_PFLOG_PF_CNT 0).reeveEvent 4).cocoonEvent 4
  let s := { s with pwr := { s.pwr with pfwLow := s.pwr.armed, failSeq := true, past380 := false, deglitch := false } }
  let s := (List.range 25).foldl (fun s j => s.pfwRaise j) s
  let s := (List.range 160).foldl (fun s c => s.quiesce c) s
  (((s.cutGroups).portsSync).pmbusSet 12).holdNotice .powerFail

/-! ## Window passes (R627, R84, R85) -/

/-- The thermal comparisons of a pass (R84). The record of T_WARN is written in every pass that finds a TJ at or above it,
not once per crossing: the comparison of each pass has it among its actions (DESIGN CHOICE, assumption log 307). -/
def State.thermalPass (s : State) : State :=
  let hot := s.pwr.hottest
  let warn := 4 * (s.fld Fld.PW_THERM_T_WARN 0 : Int)
  let crit := 4 * (s.fld Fld.PW_THERM_T_CRIT 0 : Int)
  let s := if warn ≤ hot then
      (((List.range 20).foldl (fun s j =>
        if s.atBoost j then s.capIsland j (170 * 16) (fun k => { k with boostFell := true }) else s) s).pmbusSet 2).logErr
        { unit := 250, sev := 0, type := 0x31, data := [encSigned 10 hot] }
    else s
  let s := if crit ≤ hot then
      (List.range 23).foldl (fun s j =>
        if s.critCaps j then s.capIsland j (150 * 16) (fun k => { k with critCap := true }) else s) s
    else s
  if 440 ≤ hot ∧ !s.pwr.emergency then
    let s := { s with pwr := { s.pwr with emergency := true, thermtripLow := s.pwr.armed } }
    (s.logErr { unit := 250, sev := 3, type := 0x31, data := [encSigned 10 hot] }).holdNotice .emergency
  else s

/-- One island's part of the power comparison of a pass (R85). -/
def State.powerCapStep (s : State) (j : Nat) : State :=
  if s.fld Fld.PW_RCTL_MODE j ≠ 2 ∧ 150 * 16 < s.code16 j then
    s.capIsland j (max (150 * 16) (s.code16 j - 16)) (fun k => { k with powerCap := true })
  else s

/-- One island's return after the power cap has lifted: one code a pass (R85), within the caps of R84. -/
def State.powerReturn (s : State) (j : Nat) : State :=
  let k := s.island j
  if !k.powerCap then s
  else if k.capTop ≤ s.code16 j + 16 then s.uncapIsland j (fun k => { k with powerCap := false })
  else s.setCode16 j (s.code16 j + 16)

/-- The power comparison of a pass (R85). -/
def State.powerPass (s : State) : State :=
  if 3700 < s.pwr.p1ms then
    let s := if s.pwr.capEpisode then s
      else s.logErr { unit := 250, sev := 0, type := 0x3B, data := [s.pwr.p1ms] }
    let s := { s with pwr := { s.pwr with capEpisode := true, capLifting := false } }
    (List.range 20).foldl (fun s j => s.powerCapStep j) s
  else if s.pwr.capLifting then (List.range 20).foldl (fun s j => s.powerReturn j) s
  else s

/-- An island whose windows count: it steps, and is not past the commit point of an entry (R61, R71). -/
def State.steps (s : State) (j : Nat) : Bool := s.islOpen j

/-! ## Retention and gating (R73 to R79) -/

/-- The conditions of R74 for an island that is ON: the status of the first that fails, or OK. -/
def State.entryStatus (s : State) (j : Nat) : Nat :=
  if s.entryHeld j then stBlockHeld
  else if j < 20 then
    if (islandCores j).any (fun c => (s.core c).run != .parked) then stNotParked
    else if (islandCores j).any (fun c => (s.groupOf c).isSome) then stInGroup
    else stOk
  else if j = 22 then
    if (List.range 64).any (fun b => s.fld Fld.GR_BANK_STATE b != 0) then stBusy else stOk
  else if j = 21 then
    if (List.range 256).all (fun p => s.fld Fld.PT_CTL_MODE p == 0 && !s.flag Fld.QE_DMA_CTL_RXEN p &&
        !s.flag Fld.QE_DMA_CTL_TXEN p && s.fld Fld.QE_DMA_CTL_STATE p == 0) then stOk else stBusy
  else stOk

/-- What a RETAIN or GATE request returns at once, or `none` where the entry is accepted (R73, R74). -/
def State.entryAnswer (s : State) (j : Nat) (gate : Bool) : Option Nat :=
  if 24 < j then some stBadArg
  else if j = 20 ∨ j = 23 ∨ j = 24 then some stDenied
  else if s.islState j = (if gate then 5 else 3) then some stOk
  else if s.islState j ≠ 1 then some stBusy
  else if s.entryStatus j ≠ stOk then some (s.entryStatus j)
  else none

/-- RETAIN or GATE of slot `m` (R74, R75). -/
def State.requestEntry (s : State) (m : Nat) (gate : Bool) : State :=
  let j := s.arg0 m
  if !(s.slot m).hmode then s.serviceReply m stDenied
  else match s.entryAnswer j gate with
    | some st => s.serviceReply m st
    | none =>
      ((s.begun m).setFld Fld.PW_ISTATE_STATE j 2).modIsland j (fun k =>
        { k with entry := some ⟨gate, some m⟩, gating := false, coldExit := false, wakeQueued := false })

/-- Every XGATE inside an island relocks (R10, R75). -/
def State.relock (s : State) (j : Nat) : State :=
  s.resetRegs (fun r _ => (r == .PW_XGATE || r == .TB_XGATE || r == .CG_XGATE || r == .IC_XGATE || r == .MC_XGATE ||
    r == .PT_XGATE || r == .ER_XGATE) && r.island == j)

/-- The commit point of an entry (R75, R76). -/
def State.entryCommit (s : State) (j : Nat) : State :=
  match (s.island j).entry with
  | none => s
  | some e =>
    let cores := if j < 20 then islandCores j else []
    let s := cores.foldl (fun s c => (s.quiesce c).cleanInvL2 c) s
    let s := if e.gate then s else cores.foldl (fun s c => (s.traceSleep c).missTlbis c) s
    let s := (s.relock j).setFld Fld.PW_ISTATE_LOCKED j 0
    let s := (s.setFld Fld.PW_ISTATE_LAST_ENTRY j 1).modIsland j (fun k => { k with entry := none, gating := e.gate })
    match e.slot with
    | some m => s.serviceReply m stOk
    | none => s

/-- Calls that wait for an island to be ON are answered (R133). -/
def State.answerWakers (s : State) (j : Nat) : State :=
  let ms := (s.island j).wakers
  ms.foldl (fun s m => s.serviceReply m stOk) (s.modIsland j (fun k => { k with wakers := [] }))

/-- An exit starts (R77, R78). -/
def State.startExit (s : State) (j : Nat) (cold : Bool) : State :=
  (s.setFld Fld.PW_ISTATE_STATE j 4).modIsland j (fun k => { k with coldExit := cold, wakeQueued := false })

/-- WAKE of slot `m` (R76 to R78, R133). -/
def State.requestWake (s : State) (m : Nat) : State :=
  let j := s.arg0 m
  let queue (s : State) := (s.begun m).modIsland j (fun k => { k with wakers := k.wakers ++ [m] })
  if 24 < j then s.serviceReply m stBadArg
  else if j = 20 ∨ j = 23 ∨ j = 24 ∨ s.islState j = 0 then s.serviceReply m stDenied
  else if s.islState j = 1 then s.serviceReply m stOk
  else if s.islState j = 2 then
    if (s.island j).entry.isSome then (s.entryAbandon j 2 stWoken).serviceReply m stOk
    else if (s.island j).gating then queue (s.modIsland j (fun k => { k with wakeQueued := true }))
    else queue (s.startExit j false)
  else if s.islState j = 3 then queue (s.startExit j false)
  else if s.islState j = 5 then queue (s.startExit j true)
  else queue s

/-! ## Commands -/

/-- The counter runs on to the end of the T-domain window of 40,000 cycles (R61). -/
def State.toRateEnd (s : State) : State := s.advance (40000 - s.bell.cyc)

/-- RATE_WINDOW_END (R61, R84, R85, R627): the T-domain window's counts, the readings of the pass, and the firmware's
moves of the RATE islands. The counter runs on to the end of the window of 40,000 cycles. A tripped module only reads its sensors: RESET_N is its one exit (R86, R88). -/
def execRateWindowEnd (counts : List Nat) (tj : List Int) (vin p1ms p10ms : Nat) (moves : List Int) (s : State) :
    Result :=
  .next (if s.clockRuns && s.islState 23 == 1 then
    let s := s.toRateEnd
    let s := (List.range 25).foldl (fun s j =>
      if s.steps j && s.fld Fld.PW_RCTL_MODE j != 2 then s.windowCount j (counts.getD j 0) else s) s
    let s := (List.range 25).foldl (fun s j => s.setFld Fld.PW_TEMP_TJ j (encSigned 10 (tj.getD j 0))) s
    let s := s.setFld Fld.PW_INSTAT_VIN 0 vin
    let s := { s with pwr := { s.pwr with p1ms := p1ms, p10ms := p10ms, hottest := tj.foldl max (-160) } }
    let s := (s.reeveEvent 1).reeveEvent 5
    match s.pwr.mode with
    | .tripped => s
    | .off | .start | .run | .standby =>
      (List.range 25).foldl (fun s j =>
        if s.steps j && s.fld Fld.PW_RCTL_MODE j == 1 then s.regulate j (moves.getD j 0) else s) s.thermalPass.powerPass
  else s)

/-- The next boundary of a LOCK window after the bell fraction `f` (R61). -/
def lockBoundary (f : Nat) : Nat := bellBoundary 10000 f

/-- LOCK_WINDOW_END (R61, R70, R71, R627): the counter runs on to the window's boundary in the bell second; the window's
counts and the firmware's moves of the LOCK islands. -/
def execLockWindowEnd (counts : List Nat) (moves : List Int) (s : State) : Result :=
  .next (if s.clockRuns && s.islState 23 == 1 then
    let s := s.advance (s.cyclesTo (s.toFrac (lockBoundary (s.bell80.toNat % 2 ^ 32))))
    (List.range 25).foldl (fun s j =>
      if s.steps j && s.fld Fld.PW_RCTL_MODE j == 2 then
        ((s.windowCount j (counts.getD j 0)).lockWindow j).regulate j (moves.getD j 0)
      else s) (s.reeveEvent 2)
  else s)

/-- THERMAL_CAP_LIFT (R84): the critical cap, or the fall from BOOST, once every TJ of the latest pass stands 5 °C below
the threshold. -/
def execThermalCapLift (crit : Bool) (s : State) : Result :=
  let t := s.fld (if crit then Fld.PW_THERM_T_CRIT else Fld.PW_THERM_T_WARN) 0
  .next (if s.pwr.hottest ≤ 4 * (t : Int) - 20 then
    (List.range 23).foldl (fun s j =>
      if crit then (if (s.island j).critCap then s.uncapIsland j (fun k => { k with critCap := false }) else s)
      else (if (s.island j).boostFell then s.uncapIsland j (fun k => { k with boostFell := false }) else s)) s
  else s)

/-- POWER_CAP_LIFT (R85): the 10 ms average stands below 340 W, the episode ends and the islands return at one code a
pass. -/
def execPowerCapLift (s : State) : Result :=
  .next (if s.pwr.capEpisode && decide (s.pwr.p10ms < 3400) then { s with pwr := { s.pwr with capEpisode := false, capLifting := true } } else s)

/-- HARDWARE_TRIP (R35, R84, R88): the trip latch sets, the input switch opens, THERMTRIP_N goes low if it is armed, and the
warning is raised. -/
def execHardwareTrip (s : State) : Result :=
  .next (if s.pwr.standby && (s.pwr.mode == .run || s.pwr.mode == .standby || s.pwr.mode == .start) then
    let s := { s with pwr := { s.pwr with tripLatch := true, thermtripLow := s.pwr.armed, switchClosed := false } }
    s.warn 3
  else s)

/-- VSET_WRITE (R66). -/
def execVsetWrite (src : Src) (j : IslandId) (v : Word) (s : State) : Result :=
  .next (s.csrPortReeve src .PW_VSET j.val (fun s => s.vsetWrite j.val src v))

/-- RCTL_WRITE (R66). -/
def execRctlWrite (src : Src) (j : IslandId) (v : Word) (s : State) : Result :=
  .next (s.csrPortReeve src .PW_RCTL j.val (fun s => s.rctlWrite j.val src v))

/-- A write to PW_THERM (R628): the candidate pair is taken as a whole or not at all. -/
def State.thermWrite (s : State) (v : Word) : State :=
  let w := Fld.PW_THERM_T_WARN.of v
  let c := Fld.PW_THERM_T_CRIT.of v
  let opened := s.gateOpen .PW_THERM 0
  let cw := if 85 ≤ w ∧ w ≤ 105 then w else s.fld Fld.PW_THERM_T_WARN 0
  let cc := if 100 ≤ c ∧ c ≤ 108 ∧ opened then c else s.fld Fld.PW_THERM_T_CRIT 0
  let s := if cw ≤ cc then (s.setFld Fld.PW_THERM_T_WARN 0 cw).setFld Fld.PW_THERM_T_CRIT 0 cc else s
  if opened then s else s.gateDeny .PW_THERM 0

/-- THERM_WRITE (R628). -/
def execThermWrite (src : Src) (v : Word) (s : State) : Result :=
  .next (s.csrPort src .PW_THERM 0 (fun s => s.thermWrite v))

/-- The Cocoon's hold registers change: HELD follows, entries of newly held islands are abandoned, and a notice whose
blocks are all cleared ends (R80, R82, R83). -/
def State.holdChanged (s : State) : State :=
  let s := s.syncHeld
  let s := (List.range 23).foldl (fun s j =>
    if s.entryHeld j && (s.island j).entry.isSome then s.entryAbandon j 3 stBlockHeld else s) s
  match s.pwr.notice with
  | some a => if s.anyHeld then s else s.holdActs a
  | none => s

/-- HOLD_WRITE (R80): PW_HOLD_ISL or PW_HOLD_GR, from the Cocoon alone. -/
def execHoldWrite (src : Src) (granary : Bool) (v : Word) (s : State) : Result :=
  let r : Reg := if granary then .PW_HOLD_GR else .PW_HOLD_ISL
  .next (s.csrPort src r 0 (fun s => if src = .cocoon then (s.codeWrite r 0 v).holdChanged else s))

/-- HOLD_NOTICE_EXPIRY (R83): the Reeve acts with the hold still set and records the override. The record names the blocks
by the words of PW_HOLD_ISL, the stacks from bit 25 up, and PW_HOLD_GR (DESIGN CHOICE, assumption log 310). -/
def execHoldNoticeExpiry (s : State) : Result :=
  .next (match s.pwr.notice with
    | some a =>
      (s.logErr { unit := 250, sev := 2, type := 0x32,
                  data := [s.fld Fld.PW_HOLD_ISL_ISL 0 + s.fld Fld.PW_HOLD_ISL_STACK 0 * 2 ^ 25,
                           s.fld Fld.PW_HOLD_GR_BANK 0] }).holdActs a
    | none => s)

/-- ENTRY_COMMIT (R76). -/
def execEntryCommit (j : IslandId) (s : State) : Result := .next (s.entryCommit j.val)

/-- RETENTION_REACHED (R72): the regulator has reached 0.50 V, or is off and the island has lost its state. -/
def execRetentionReached (j : IslandId) (s : State) : Result :=
  let k := s.island j.val
  .next (if s.islState j.val = 2 ∧ k.entry.isNone then
    if k.gating then
      let s := (s.loseIsland j.val).setFld Fld.PW_ISTATE_STATE j.val 5
      if k.wakeQueued then s.startExit j.val true else s
    else s.setFld Fld.PW_ISTATE_STATE j.val 3
  else s)

/-- EXIT_RESTORE_DONE (R49, R77): a retained island is restored. -/
def execExitRestoreDone (j : IslandId) (s : State) : Result :=
  .next (if s.islState j.val = 4 ∧ !(s.island j.val).coldExit then
    let s := (s.setFld Fld.PW_ISTATE_STATE j.val 1).pfwRaise j.val
    let s := (if j.val < 20 then islandCores j.val else []).foldl (fun s c => s.traceResync c) s
    s.answerWakers j.val
  else s)

/-- GATED_EXIT_DONE (R49, R78): a gated island is up and its cores start as after a core reset. -/
def execGatedExitDone (j : IslandId) (s : State) : Result :=
  .next (if s.islState j.val = 4 ∧ (s.island j.val).coldExit then
    let s := (s.setFld Fld.PW_ISTATE_STATE j.val 1).pfwRaise j.val
    let s := (if j.val < 20 then islandCores j.val else []).foldl (fun s c => s.coreFresh c) s
    s.answerWakers j.val
  else s)

/-! ## The services of islands (R133) -/

/-- SET_POINT (R67, R68). -/
def execSetPoint (m : SlotId) (s : State) : Result :=
  let j := s.arg0 m.val
  let code := s.arg1 m.val
  .next (if !s.serving m.val 0x02 then s
    else if !(s.slot m.val).hmode then s.serviceReply m.val stDenied
    else if 24 < j ∨ (opPoint code).isNone then s.serviceReply m.val stBadArg
    else if !offersPoint j code then s.serviceReply m.val stDenied
    else if code = 3 ∧ s.overBudget j then s.serviceReply m.val stOverBudget
    else (s.setPoint j code).serviceReply m.val stOk)

/-- RETAIN (R74). -/
def execRetain (m : SlotId) (s : State) : Result :=
  .next (if s.serving m.val 0x03 then s.requestEntry m.val false else s)

/-- GATE (R74). -/
def execGate (m : SlotId) (s : State) : Result :=
  .next (if s.serving m.val 0x04 then s.requestEntry m.val true else s)

/-- WAKE (R133). -/
def execWake (m : SlotId) (s : State) : Result :=
  .next (if s.serving m.val 0x05 then s.requestWake m.val else s)

/-- STANDBY (R81, R88, R133): the reply goes out, then the module enters STANDBY, unless the Cocoon holds an island, a stack
or a bank that standby would power down. RUN alone has this exit: during start-up the answer is BUSY, and a tripped module answers DENIED
(DESIGN CHOICE, assumption log 308). -/
def execStandby (m : SlotId) (s : State) : Result :=
  .next (if !s.serving m.val 0x06 then s
    else if !(s.slot m.val).hmode || s.pwr.mode == .tripped then s.serviceReply m.val stDenied
    else if s.pwr.mode = .start then s.serviceReply m.val stBusy
    else if s.anyHeld then s.serviceReply m.val stBlockHeld
    else (s.serviceReply m.val stOk).enterStandby)

/-- PFLOG_CLEAR (R89). -/
def execPflogClear (m : SlotId) (s : State) : Result :=
  .next (if !s.serving m.val 0x07 then s
    else if !(s.slot m.val).hmode then s.serviceReply m.val stDenied
    else
      let s := (s.setFld Fld.PW_PFLOG_PF_CNT 0 0).setFld Fld.PW_PFLOG_OV_TRIP_CNT 0 0
      let s := (s.setFld Fld.PW_PFLOG_OV_CNT 0 0).setFld Fld.PW_PFLOG_DIP_CNT 0 0
      s.serviceReply m.val stOk)

end Sys2Proof.Machine
end

