-- ==== Sys2Proof/Machine/TallyCore.lean ====
section
/-!
DEFINITION. The Tally cores' state (R112 to R126, R516 to R519): registers, prefixes, entry, memories, local registers and
mailbox mirrors.
-/

namespace Sys2Proof.Machine

/-! ## The two cores -/

/-- A Tally core's record. -/
def State.tally (s : State) : TallyCpu → Tally
  | .reeve => s.reeve
  | .cocoon => s.cocoon

/-- Change a Tally core's record. -/
def State.modTally (s : State) (cpu : TallyCpu) (f : Tally → Tally) : State :=
  match cpu with
  | .reeve => { s with reeve := f s.reeve }
  | .cocoon => { s with cocoon := f s.cocoon }

/-- Whether a Tally core can issue: its island runs, it is not stopped and does not sleep in `wait`. -/
def State.tallyIssues (s : State) (cpu : TallyCpu) : Bool :=
  (s.tally cpu).run == .running && (s.tally cpu).waiting.isNone &&
  s.islState (match cpu with | .reeve => 23 | .cocoon => 24) == 1

/-- Register t of a Tally core. -/
def Tally.t (k : Tally) (r : TReg) : BitVec 32 := FMap.get k.regs 0 r.toNat

/-- Set register t. -/
def Tally.setT (k : Tally) (r : TReg) (v : BitVec 32) : Tally := { k with regs := FMap.set k.regs r.toNat v }

/-- A special register (R122); APBASE resets to 0x1FC. -/
def Tally.x (k : Tally) (n : Nat) : BitVec 32 := FMap.get k.xregs (if n = 4 then 0x1FC else 0) n

/-- Set a special register. -/
def Tally.setX (k : Tally) (n : Nat) (v : BitVec 32) : Tally := { k with xregs := FMap.set k.xregs n v }

/-- The flags NZCV of XSTAT (R122). -/
def Tally.flags (k : Tally) : BitVec 4 := (k.x 0).truncate 4

/-- Set the flags of XSTAT. -/
def Tally.setFlags (k : Tally) (f : BitVec 4) : Tally :=
  k.setX 0 (((k.x 0) &&& ~~~ (0xF : BitVec 32)) ||| f.zeroExtend 32)

/-- The pending events, with DOOR while MBQ is not empty (R124, R519). -/
def Tally.events (k : Tally) : BitVec 32 :=
  ((k.x 5) &&& ~~~ (1 : BitVec 32)) ||| (if k.mbq.isEmpty then 0 else 1)

/-- The pending events of a Tally core; the Cocoon's IRQ is the level of target 321 (R519). -/
def State.tallyEvents (s : State) : TallyCpu → BitVec 32
  | .reeve => s.reeve.events
  | .cocoon => (s.cocoon.events &&& ~~~ (2 : BitVec 32)) ||| (if s.icLevel 321 then 2 else 0)

/-- Forget the prefixes read. -/
def Tally.noPrefix (k : Tally) : Tally := { k with prefixN := 0, prefixE := 0 }

/-- The address of the first word of the instruction in progress (R122). -/
def Tally.firstPc (k : Tally) : BitVec 16 := if k.prefixN = 0 then k.pc else k.prefixPc

/-! ## Exceptions (R113, R122, R123, R516) -/

/-- Enter an exception (R123): EPC, ECAUSE, PIE, IE and pc. -/
def Tally.enter (k : Tally) (cause : Nat) : Tally :=
  let x := k.x 0
  let pie : BitVec 32 := if x.getLsbD 4 then 0x20 else 0
  let k' := (k.setX 1 (k.firstPc.zeroExtend 32)).setX 2 (BitVec.ofNat 32 cause)
  let k' := k'.setX 0 ((x &&& ~~~ (0x30 : BitVec 32)) ||| pie)
  { k'.noPrefix with pc := BitVec.ofNat 16 ((if x.getLsbD 6 then 0x8000 else 0) + 4 * cause) }

/-- Every regulator stands at the VCODE that `old` holds (R113). -/
def State.holdVcodes (s old : State) : State :=
  (List.range 25).foldl (fun s j => s.csrSet .PW_VSET j (old.csrGet .PW_VSET j)) s

/-- The Reeve's lockstep stop (R113): both cores stop, a fatal record, and a module warm reset, in which every regulator
holds its present VCODE until start-up brings its island to the reset point (R589). -/
def State.lockstepStop (s : State) : State :=
  let a := s.reeve.firstPc.toNat
  (((s.modTally .reeve (fun k => { k with run := .stopped })).logErr
    { unit := 251, sev := 3, type := 0x35, data := [a] }).warmReset 3).holdVcodes s

/-- The Cocoon stops (R516): a fatal record, and it counts as hung. -/
def State.cocoonStop (s : State) : State :=
  ((s.modTally .cocoon (fun k => { k with run := .stopped })).setFld Fld.CK_CSTAT_STATE 0 4).logErr
    { unit := 252, sev := 3, type := 0x37 }

/-- The extension whose handler faulted or overran is unloaded, and its call ends EXT_FAULT (R136). -/
def State.extUnload (s : State) : State :=
  match s.svc.extSlot with
  | some m => ({ s with svc := { s.svc with ext := none, extSlot := none } }).serviceReply m stExtFault
  | none => s

/-- Take an exception of cause 1 or 2 (R113, R123, R136, R516): with IE clear it is a double fault. -/
def State.tallyTrap (s : State) (cpu : TallyCpu) (cause : Nat) (eaddr : Option (BitVec 32) := none) : State :=
  let ie := ((s.tally cpu).x 0).getLsbD 4
  if !ie then
    match cpu with
    | .reeve => s.lockstepStop
    | .cocoon => s.cocoonStop
  else
    let s := s.modTally cpu (fun k =>
      let k := match eaddr with
        | some a => k.setX 3 a
        | none => k
      k.enter cause)
    match cpu with
    | .reeve => s.extUnload
    | .cocoon => s

/-- Whether a program address is populated (R114, R516). -/
def tallyPopulated (cpu : TallyCpu) (pc : BitVec 16) : Bool :=
  match cpu with
  | .reeve => pc.toNat < 0x2000 || 0x8000 ≤ pc.toNat
  | .cocoon => true

/-- X7, STEPS, counts `n` steps more, modulo 2^32 (R122). -/
def Tally.addSteps (k : Tally) (n : BitVec 32) : Tally := k.setX 7 (k.x 7 + n)

/-- A Tally core's island takes `n` steps (R121, R122). -/
def State.tallySteps (s : State) (cpu : TallyCpu) (n : BitVec 32) : State := s.modTally cpu (·.addSteps n)

/-- Time passes that the spec does not state in steps: STEPS moves on by a free value (DESIGN CHOICE, assumption
log 50). -/
def State.tallyTime (s : State) (cpu : TallyCpu) : State :=
  let (v, s) := s.freeVal
  s.tallySteps cpu (v.truncate 32)

/-- Issue one instruction (R119, R121, R123): from an unpopulated address, or after a prefix that it does not take, it is
illegal; otherwise it takes its step (R121) and acts as `k` says, whose result has its pc and prefixes set. -/
def State.tallyDo (s : State) (cpu : TallyCpu) (takesPrefix : Bool) (k : State → State) : State :=
  if !s.tallyIssues cpu then s
  else if !tallyPopulated cpu (s.tally cpu).pc then s.tallyTrap cpu 1
  else if !takesPrefix && (s.tally cpu).prefixN != 0 then s.tallyTrap cpu 1
  else k (s.tallySteps cpu 1)

/-- The instruction is done: the pc moves on and the prefixes are forgotten. -/
def State.tallyNext (s : State) (cpu : TallyCpu) (f : Tally → Tally) : State :=
  s.modTally cpu (fun k => let k' := f k; { k'.noPrefix with pc := k.pc + 1 })

/-! ## Prefixed operands (R119) -/

/-- E with `n` more bits below it, as a signed number of `12 p + n` bits; zero-extended where unsigned. -/
def Tally.extend (k : Tally) (n imm : Nat) (signed : Bool) : BitVec 32 :=
  let w := 12 * k.prefixN + n
  let v := k.prefixE.toNat * 2 ^ n + imm
  if signed then BitVec.ofInt 32 (signedOf w v) else BitVec.ofNat 32 v

/-- The offset of a memory access: E sign-extended times the scale, 0 without a prefix. -/
def Tally.offset (k : Tally) (scale : Nat) : BitVec 32 :=
  if k.prefixN = 0 then 0
  else BitVec.ofInt 32 (signedOf (12 * k.prefixN) k.prefixE.toNat * scale)

/-! ## The data spaces (R114, R118, R126, R518) -/

/-- The error unit of a Tally core (R600). -/
def tallyUnit : TallyCpu → Nat
  | .reeve => 251
  | .cocoon => 252

/-- Record a corrected SRAM error (R114). -/
def State.tallySramErr (s : State) (cpu : TallyCpu) (inj : Bool) : State :=
  s.logErr { unit := tallyUnit cpu, sev := 0, type := 0x36, inj := inj }

/-- Read a 32-bit word of the data SRAM (R114): an injected error of one bit is corrected, of two is a data fault. -/
def State.sramRead (s : State) (cpu : TallyCpu) (w : Nat) : Option (BitVec 32) × State :=
  let u := tallyUnit cpu
  let (inj, s) := s.takeInj u 0 true
  let bad := match inj with
    | some c => c + 1
    | none => FMap.get (s.tally cpu).sramBad 0 w
  if bad = 0 then (some (FMap.get (s.tally cpu).sram 0 w), s)
  else if bad = 1 then
    (some (FMap.get (s.tally cpu).sram 0 w),
     (s.modTally cpu (fun k => { k with sramBad := FMap.set k.sramBad w 0 })).tallySramErr cpu true)
  else (none, s.modTally cpu (fun k => { k with sramBad := FMap.set k.sramBad w 2 }))

/-- Write a 32-bit word of the data SRAM; an armed injection strikes it (R615). -/
def State.sramWrite (s : State) (cpu : TallyCpu) (w : Nat) (v : BitVec 32) : State :=
  let u := tallyUnit cpu
  let (inj, s) := s.takeInj u 0 false
  let bad := match inj with
    | some c => c + 1
    | none => 0
  s.modTally cpu (fun k => { k with sram := FMap.set k.sram w v, sramBad := FMap.set k.sramBad w bad })

/-- The size of a core's SRAM. -/
def tallySramSize : TallyCpu → Nat
  | .reeve => 0x20000
  | .cocoon => 0x80000

/-- A read of MBQ removes the oldest doorbell (R126). The Cocoon's shows in bit 14 whether the doorbell's writer was secure: R525 lets
it read that with each doorbell and gives the bit no place (DESIGN CHOICE, assumption log 343). -/
def State.mbqPop (s : State) (cpu : TallyCpu) : BitVec 32 × State :=
  match (s.tally cpu).mbq with
  | [] => (0, s)
  | (m, code, h, sec) :: r =>
    (BitVec.ofNat 32 (2 ^ 31 + code * 2 ^ 16 + bit h * 2 ^ 15 + bit (sec && cpu == .cocoon) * 2 ^ 14 + m),
     s.modTally cpu (fun k => { k with mbq := r, readQ := k.readQ.filter (· != m) ++ [m] }))

/-- Complete a call of either mailbox block (R130, R525); see `State.callDone` and `State.ckDone`. -/
def State.mailboxDone (s : State) (cpu : TallyCpu) (v : BitVec 32) : State :=
  match cpu with
  | .reeve =>
    let m := v.toNat % 32
    let s := if s.svc.extSlot = some m then { s with svc := { s.svc with extSlot := none } } else s
    s.callDone m (v.toNat / 256 % 256)
  | .cocoon => s.ckDone (v.toNat % 16) (v.toNat / 256 % 256)

/-- Take a call of either mailbox block (R129). -/
def State.mailboxTake (s : State) (cpu : TallyCpu) (v : BitVec 32) : State :=
  match cpu with
  | .reeve => s.callTake (v.toNat % 32)
  | .cocoon => s.ckTake (v.toNat % 16)

/-- A write to EVACK clears event bits other than DOOR (R124). -/
def State.evAck (s : State) (cpu : TallyCpu) (v : BitVec 32) : State :=
  s.modTally cpu (fun k => k.setX 5 ((k.x 5) &&& ~~~ v))

/-- A write to PLOAD_DATA (R115): the program RAM word, unless locked or outside the RAM, and the address moves on. -/
def Tally.pload (k : Tally) (v : BitVec 32) : Tally :=
  let a := k.ploadAddr
  let ok := 0x8000 ≤ a.toNat && (!k.plock || 0xE000 ≤ a.toNat)
  { k with prog := if ok then FMap.set k.prog a.toNat (v.truncate 14) else k.prog, ploadAddr := a + 1 }

def State.pload (s : State) (v : BitVec 32) : State := s.modTally .reeve (·.pload v)

/-- A write to PLOCK (R126): a 1 locks, a 0 is ignored. -/
def State.plockSet (s : State) (v : BitVec 32) : State :=
  s.modTally .reeve (fun k => { k with plock := k.plock || v.getLsbD 0 })

/-- Read a local register (R126); `none` where no register lies there. -/
def State.localRead (s : State) (cpu : TallyCpu) (off : Nat) : Option (BitVec 32 × State) :=
  match off with
  | 0x000 => some (s.mbqPop cpu)
  | 0x004 => some (0, s)
  | 0x008 => some (0, s)
  | 0x00C => some (BitVec.ofNat 32 (bit (s.tally cpu).mbres), s)
  | 0x010 => some (0, s)
  | 0x014 => if cpu = .reeve then some (s.reeve.ploadAddr.zeroExtend 32, s) else none
  | 0x018 => if cpu = .reeve then some (0, s) else none
  | 0x01C => if cpu = .reeve then some (BitVec.ofNat 32 (bit s.reeve.plock), s) else none
  | 0x020 => if cpu = .cocoon then some (BitVec.ofNat 32 (bit s.capNs), s) else none
  | _ => none

/-- Write a local register (R126, R518). CAPCTL is read at offset 0x020. -/
def State.localWrite (s : State) (cpu : TallyCpu) (off : Nat) (v : BitVec 32) : Option State :=
  match off with
  | 0x000 => some s
  | 0x004 => some (s.mailboxTake cpu v)
  | 0x008 => some (s.mailboxDone cpu v)
  | 0x00C => some s
  | 0x010 => some (s.evAck cpu v)
  | 0x014 =>
    if cpu = .reeve then some (s.modTally cpu (fun k => { k with ploadAddr := v.truncate 16 })) else none
  | 0x018 => if cpu = .reeve then some (s.pload v) else none
  | 0x01C => if cpu = .reeve then some (s.plockSet v) else none
  | 0x020 => if cpu = .cocoon then some { s with capNs := v.getLsbD 0 } else none
  | _ => none

/-- A 32-bit half of a 64-bit word. -/
def half (w : Word) (hi : Bool) : BitVec 32 := if hi then (w >>> 32).truncate 32 else w.truncate 32

/-- The word with one half replaced. -/
def setHalf (w : Word) (hi : Bool) (v : BitVec 32) : Word :=
  if hi then withBits w 63 32 v.toNat else withBits w 31 0 v.toNat

/-- Read a slot mirror (R126, R518). -/
def State.mirrorRead (s : State) (cpu : TallyCpu) (off : Nat) : Option (BitVec 32) :=
  let hi := off % 8 == 4
  match cpu with
  | .reeve =>
    let m := off / 0x40
    let o := off % 0x40 / 8 * 8
    if o = 0x10 then some (half (s.csrGet .RV_ARG0 m) hi)
    else if o = 0x18 then some (half (s.csrGet .RV_ARG1 m) hi)
    else if o = 0x20 then some (half (s.slot m).res0 hi)
    else if o = 0x28 then some (half (s.slot m).res1 hi)
    else none
  | .cocoon =>
    let m := off / 0x80
    let o := off % 0x80
    if 0x40 ≤ o then
      let i := (o - 0x40) / 8
      some (half (FMap.get (FMap.get s.ckSlots {} m).reply (s.csrGet .CK_MSG (8 * m + i)) i) hi)
    else if o = 0 ∨ o = 4 then some (half (s.csrGet .CK_OWN m) hi)
    else none

/-- Write a slot mirror (R126, R525). -/
def State.mirrorWrite (s : State) (cpu : TallyCpu) (off : Nat) (v : BitVec 32) : Option State :=
  let hi := off % 8 == 4
  match cpu with
  | .reeve =>
    let m := off / 0x40
    let o := off % 0x40 / 8 * 8
    if o = 0x20 then some (s.modSlot m (fun k => { k with res0 := setHalf k.res0 hi v }))
    else if o = 0x28 then some (s.modSlot m (fun k => { k with res1 := setHalf k.res1 hi v }))
    else none
  | .cocoon =>
    let m := off / 0x80
    let o := off % 0x80
    if 0x40 ≤ o then
      let i := (o - 0x40) / 8
      let k := FMap.get s.ckSlots {} m
      let w := setHalf (FMap.get k.reply (s.csrGet .CK_MSG (8 * m + i)) i) hi v
      some { s with ckSlots := FMap.set s.ckSlots m { k with reply := FMap.set k.reply i w } }
    else none

/-- Where a data address lies. -/
inductive TallySpace where
  | sram | locals (off : Nat) | mirror (off : Nat) | crypto | fuses (off : Nat) | aperture | none
  deriving DecidableEq, Repr

/-- The map of a Tally core's data space (R126, R518). -/
def tallySpace (cpu : TallyCpu) (a : Nat) : TallySpace :=
  if a < tallySramSize cpu then .sram
  else if 0x80000000 ≤ a then .aperture
  else match cpu with
    | .reeve =>
      if 0x40000 ≤ a ∧ a < 0x41000 then .locals (a - 0x40000)
      else if 0x41000 ≤ a ∧ a < 0x41800 then .mirror (a - 0x41000)
      else .none
    | .cocoon =>
      if 0x80000 ≤ a ∧ a < 0x81000 then .locals (a - 0x80000)
      else if 0x81000 ≤ a ∧ a < 0x81800 then .mirror (a - 0x81000)
      else if 0x90000 ≤ a ∧ a < 0xA0000 then .crypto
      else if 0xA0000 ≤ a ∧ a < 0xA0400 then .fuses (a - 0xA0000)
      else .none

/-- The physical address of an aperture access (R126). -/
def Tally.physical (k : Tally) (a : Nat) : Nat := ((k.x 4).toNat % 2 ^ 17) * 2 ^ 31 + (a - 0x80000000)

/-- The requester of a Tally core's aperture, and its secure attribute (R126, R518). -/
def tallySrc : TallyCpu → Src
  | .reeve => .reeve
  | .cocoon => .cocoon

def State.tallySec (s : State) : TallyCpu → Bool
  | .reeve => false
  | .cocoon => !s.capNs

/-- The fuses as they stand: the factory's with those blown since (R595). -/
def State.fuses (s : State) : BitVec 8192 := Config.factoryFuses ||| s.blown

end Sys2Proof.Machine
end

