-- ==== Sys2Proof/Machine/Boot.lean ====
section
/-!
DEFINITION. Reset and boot (chapters 02 and 24): the 48 V input's events, the phases of start-up, boot images, fuses,
the resets and the services that load firmware.
-/

namespace Sys2Proof.Machine

/-! ## The 48 V input (R44 to R50) -/

/-- A warning can arise: the module is powered and no sequence runs (R48). -/
def State.canWarn (s : State) : Bool := s.pwr.standby && !s.pwr.failSeq

/-- INPUT_REVERSAL (R45): a reversed input powers nothing, and no land is driven. -/
def execInputReversal (s : State) : Result :=
  .next ({ s.bare with pwr := { reversed := true, bootSel := s.pwr.bootSel } }.keepPflog s)

/-- INPUT_STOP_FALL (R48): the deglitch starts. -/
def execInputStopFall (s : State) : Result :=
  .next (if s.pwr.belowStop then s
    else
      let s := if s.pwr.standby then (s.pmbusSet 13).pmbusSet 3 else s
      { s with pwr := { s.pwr with belowStop := true, inputBack := false, backWait := false,
                                   deglitch := s.canWarn && s.pwr.mode != .off } })

/-- INPUT_RECOVERY (R48): granted before the deglitch expiry, it counts a dip. -/
def execInputRecovery (s : State) : Result :=
  .next (if !s.pwr.belowStop then s
    else
      let d := s.pwr.deglitch
      let s := { s with pwr := { s.pwr with belowStop := false, deglitch := false } }
      if d then s.satField Fld.PW_PFLOG_DIP_CNT 0 else s)

/-- DEGLITCH_EXPIRY (R48, R49): the warning becomes final. -/
def execDeglitchExpiry (s : State) : Result :=
  .next (if s.pwr.deglitch && s.canWarn then s.warn 1 else s)

/-- OVERVOLTAGE_ONSET (R44): above 78.0 V the timer starts, and the input no longer counts as back. -/
def execOvervoltageOnset (s : State) : Result :=
  let s := if s.pwr.standby then s.pmbusSet 13 else s
  .next { s with pwr := { s.pwr with ovTimer := s.pwr.standby, inputBack := false, backWait := false } }

/-- OVERVOLTAGE_FALL (R46, R50): granted before the timer, operation continues and the event is counted. The input is back:
past the 380 µs point the module is held off, and the 10 ms wait starts. -/
def execOvervoltageFall (s : State) : Result :=
  .next (let t := s.pwr.ovTimer
    let s := { s with pwr := { s.pwr with ovTimer := false, inputBack := !s.pwr.belowStop,
                                          backWait := s.pwr.mode == .off && !s.pwr.belowStop } }
    let s := if t then s.satField Fld.PW_PFLOG_OV_CNT 0 else s
    if s.pwr.inputBack && s.pwr.past380 && !s.pwr.tripLatch then s.holdOff else s)

/-- OVERVOLTAGE_TIMER_EXPIRY (R46): the input switch opens and the power-fail sequence runs. -/
def execOvervoltageTimerExpiry (s : State) : Result :=
  .next (if s.pwr.ovTimer then
    let s := ({ s with pwr := { s.pwr with ovTimer := false, switchClosed := false } }).satField
      Fld.PW_PFLOG_OV_TRIP_CNT 0
    if s.canWarn then s.warn 2 else s
  else s)

/-- OTHER_INPUT_SWITCH_OPENING (R48): the switch opens for another reason. -/
def execOtherInputSwitchOpening (s : State) : Result :=
  .next (if s.pwr.switchClosed then
    let s := { s with pwr := { s.pwr with switchClosed := false } }
    if s.canWarn then s.warn 4 else s
  else s)

/-- PFW_380US_POINT (R49, R50, R88): switches open, transmitters stop, lands are released; with the input back the module
is held off at once, and after a trip it is TRIPPED. -/
def execPfw380usPoint (s : State) : Result :=
  .next (if s.pwr.failSeq && !s.pwr.past380 then
    let s := s.openSwitches
    let s := { s with pwr := { s.pwr with past380 := true, pwrOkHigh := false }, bell := { s.bell with ppsOut := false } }
    let s := s.gpioSync
    if s.pwr.tripLatch then
      let s := (List.range 25).foldl (fun s j =>
        if j = 23 then s else ((s.loseIsland j).dropEntry j).setFld Fld.PW_ISTATE_STATE j 0) s
      { s with pwr := { s.pwr with mode := .tripped, phase := 0, notice := none } }
    else if s.pwr.inputBack then s.holdOff else s
  else s)

/-- STORE_BELOW_40V (R49, R50): stage 1 stops and every island is held off. -/
def execStoreBelow40v (s : State) : Result :=
  .next (if s.pwr.past380 && !s.pwr.tripLatch then s.holdOff else s)

/-- STANDBY_SUPPLY_LOSS (R50): the module is unpowered; PFW_N is released. A trip latch is kept: the input's return does
not restart a tripped module, and R86 alone governs its restart (DEDUCED, assumption log 306). -/
def execStandbySupplyLoss (s : State) : Result :=
  .next (if s.pwr.mode == .off || s.pwr.mode == .tripped then
    ({ s.bare with pwr := { mode := s.pwr.mode, tripLatch := s.pwr.tripLatch, past380 := s.pwr.tripLatch,
                            armed := s.pwr.armed, inputBack := s.pwr.inputBack, belowStop := s.pwr.belowStop,
                            backWait := s.pwr.backWait, heldOff := s.pwr.heldOff, bootSel := s.pwr.bootSel } }).keepPflog s
  else s)

/-- HOLDUP_STORE_FULL (R47). -/
def execHoldupStoreFull (s : State) : Result :=
  .next (if s.pwr.standby then { s with pwr := { s.pwr with storeFull := true } } else s)

/-- START_THRESHOLD_RISE (R50): the input counts as back; with the module off, or past the 380 µs point, it is held off
and the 10 ms wait starts. A trip latch keeps the switch open whatever the input does: standby returns with the input, and THERMTRIP_N is low
again, if it was armed (R35, R86). -/
def execStartThresholdRise (s : State) : Result :=
  .next (let s := { s with pwr := { s.pwr with inputBack := true, belowStop := false, reversed := false,
                                               backWait := s.pwr.mode == .off } }
    let s := if s.pwr.mode = .tripped ∧ !s.pwr.standby then
        ({ s with pwr := { s.pwr with standby := true, thermtripLow := s.pwr.armed } }).setFld Fld.PW_ISTATE_STATE 23 1
      else s
    if s.pwr.past380 && !s.pwr.tripLatch then s.holdOff else s)

/-- POWER_ON (R50, R89): the input has been back for 10 ms, and phase 1 begins. -/
def execPowerOn (longLoss : Bool) (s : State) : Result :=
  .next (if s.pwr.backWait && s.pwr.inputBack then s.powerOn longLoss else s)

/-! ## Images (R592 to R595) -/

/-- `n` bytes of a list from `off` up, little-endian. -/
def bytesAt (l : List Byte) (off : Nat) : Nat → Nat
  | 0 => 0
  | n + 1 => (l.getD off 0).toNat + 256 * bytesAt l (off + 1) n

/-- A slice of a list. -/
def slice (l : List Byte) (off len : Nat) : List Byte := (l.drop off).take len

/-- Where a device's directory lies (R592). -/
def dirBase (flash : List Byte) : Nat := if bytesAt flash 0 4 = 0x5244485A then 0 else 0x1000

/-- The images of a device of one kind, in directory order (R592). -/
def flashImages (flash : List Byte) (kind : Nat) : List (List Byte) :=
  let b := dirBase flash
  if bytesAt flash b 4 ≠ 0x5244485A then []
  else
    ((List.range (bytesAt flash (b + 4) 2)).filter (fun i => bytesAt flash (b + 16 + 16 * i) 1 == kind)).map (fun i =>
      slice flash (bytesAt flash (b + 16 + 16 * i + 4) 4) (bytesAt flash (b + 16 + 16 * i + 8) 4))

/-- Fields of an image's header (R593). -/
def imgKind (b : List Byte) : Nat := bytesAt b 4 1
def imgKeysel (b : List Byte) : Nat := bytesAt b 5 1
def imgCommit (b : List Byte) : Bool := bytesAt b 6 2 % 2 == 1
def imgVersion (b : List Byte) : Nat := bytesAt b 8 4
def imgEpoch (b : List Byte) : Nat := bytesAt b 11 1
def imgPlen (b : List Byte) : Nat := bytesAt b 12 4
def imgDlen (b : List Byte) : Nat := bytesAt b 16 4
def imgLoad (b : List Byte) : Nat := bytesAt b 0x18 8
def imgEntry (b : List Byte) : Nat := bytesAt b 0x20 8

/-- A field of the fuses (R595). -/
def State.fuseField (s : State) (lo n : Nat) : Nat := (s.fuses >>> lo).toNat % 2 ^ n

/-- A fuse option (R595): 0 ENROL_DONE, 1 CUST_REEVE_ONLY, 2 CUST_CORE_ONLY, 3 EXT_EN, 4 BOOTSEL_LOCK, 5 DEBUG_DIS. -/
def State.fuseOpt (s : State) (b : Nat) : Bool := s.fuses.getLsbD (2880 + b)

/-- Set bits in a byte-free count: an anti-rollback counter is the number of its blown bits (R595). -/
def State.antiRollback (s : State) (kind : Nat) : Nat :=
  popCount (BitVec.ofNat 64 (s.fuseField (2624 + 64 * (kind - 1)) 64))

/-- The fuse bit at which the hash of an image's key begins (R594, R595); none for a key the kind does not admit. -/
def State.imgKeyHash (s : State) (kind keysel : Nat) : Option Nat :=
  match kind, keysel with
  | 1, 0 => some 0
  | 2, 0 => if s.fuseOpt 1 then none else some 384
  | 2, 1 => some 768
  | 3, 0 => if s.fuseOpt 2 then none else some 384
  | 3, 1 => some 1152
  | 4, _ => if s.fuseOpt 3 then some 1536 else none
  | _, _ => none

/-- The limits of a kind (R594). -/
def imgFits (kind : Nat) (b : List Byte) : Bool :=
  let p := imgPlen b
  let d := imgDlen b
  let at_ := imgLoad b % 2 ^ 16
  match kind with
  | 1 => p ≤ 49152 && at_ == 0x4000
  | 2 => p ≤ 32768 && at_ == 0x8000 && d ≤ 96 * 1024
  | 3 => d ≤ 16 * 1024 * 1024 && imgLoad b % 4096 == 0
  | 4 => p ≤ 8192 && at_ == 0xE000 && d ≤ 32 * 1024 && imgLoad b / 2 ^ 32 == 0x18000
  | _ => true

/-- Whether an image is accepted for its kind (R520, R593, R594). -/
def State.imgAccepted (s : State) (kind : Nat) (b : List Byte) : Bool :=
  let body := b.take (b.length - 96)
  let sig := b.drop (b.length - 96)
  bytesAt b 0 4 == 0x4D49485A && imgKind b == kind && b.length == 64 + 2 * imgPlen b + imgDlen b + 96 &&
  imgFits kind b && s.antiRollback kind ≤ imgEpoch b &&
  (match s.imgKeyHash kind (imgKeysel b) with
   | some lo => s.fuseField lo 384 != 0 && Config.imageSigned (BitVec.ofNat 384 (s.fuseField lo 384)) body sig
   | none => false)

/-- The devices that a kind is looked for in, by BOOT_SEL as sampled (R591). -/
def bootDevices (sel : Nat) (flash0 flash1 : List Byte) : List (List Byte) :=
  match sel with
  | 0 => [flash0]
  | 1 => [flash1]
  | 2 => [flash0, flash1]
  | _ => []

/-- The first acceptable image of a kind (R594). -/
def State.findImage (s : State) (kind : Nat) (flash0 flash1 : List Byte) : Option (List Byte) :=
  ((bootDevices (s.fld Fld.BT_STAT_BOOTSEL 0) flash0 flash1).flatMap (fun f => flashImages f kind)).find?
    (s.imgAccepted kind)

/-- An accepted image with COMMIT raises its kind's anti-rollback counter (R594). -/
def State.commitImage (s : State) (kind : Nat) (b : List Byte) : State :=
  let e := min (imgEpoch b) 64
  if imgCommit b && decide (s.antiRollback kind < e) then
    { s with blown := s.blown ||| (BitVec.ofNat 8192 (2 ^ e - 1) <<< (2624 + 64 * (kind - 1))) }
  else s

/-- Load a Tally image (R593): program words, data bytes and the entry. -/
def Tally.loadImage (k : Tally) (b : List Byte) : Tally :=
  let p := imgPlen b
  let at_ := imgLoad b % 2 ^ 16
  let da := imgLoad b / 2 ^ 32
  let k := (List.range p).foldl (fun (k : Tally) i =>
    { k with prog := FMap.set k.prog (at_ + i) (BitVec.ofNat 14 (bytesAt b (64 + 2 * i) 2)) }) k
  (List.range ((imgDlen b + 3) / 4)).foldl (fun (k : Tally) i =>
    let w := BitVec.ofNat 32 (bytesAt (slice b (64 + 2 * p) (imgDlen b)) (4 * i) 4)
    { k with sram := FMap.set k.sram (da / 4 + i) w }) k

/-- The Cocoon copies an image into its private SRAM (R521, R523). -/
def State.stage (s : State) (b : List Byte) : State := s.modTally .cocoon (fun k => { k with staged := b })

/-- The Reeve takes an image: each program word goes through PLOAD_ADDR and PLOAD_DATA (R115, R126), data to its SRAM (R593). -/
def Tally.takeImage (k : Tally) (b : List Byte) : Tally :=
  let p := imgPlen b
  let da := imgLoad b / 2 ^ 32
  let k := (List.range p).foldl (fun (k : Tally) i => k.pload (BitVec.ofNat 32 (bytesAt b (64 + 2 * i) 2)))
    { k with ploadAddr := BitVec.ofNat 16 (imgLoad b) }
  (List.range ((imgDlen b + 3) / 4)).foldl (fun (k : Tally) i =>
    let w := BitVec.ofNat 32 (bytesAt (slice b (64 + 2 * p) (imgDlen b)) (4 * i) 4)
    { k with sram := FMap.set k.sram (da / 4 + i) w }) k

/-- The image in private SRAM, verified there, passes through the handoff port of island A to the Reeve (R521). -/
def State.handOver (s : State) : State := s.modTally .reeve (fun k => k.takeImage s.cocoon.staged)

/-- A full replacement image that has been handed over runs from its entry in place of the Reeve's image (R137, R523), unless PLOCK
kept its words out (R115). -/
def State.replaceReeve (s : State) : State :=
  let b := s.cocoon.staged
  if s.reeve.plock then s
  else
    let s := s.modTally .reeve (fun k => { k.noPrefix with pc := BitVec.ofNat 16 (imgEntry b), waiting := none })
    { s.setFld Fld.BT_VER_REEVE 0 (imgVersion b) with svc := { s.svc with reeveVer := BitVec.ofNat 32 (imgVersion b) } }

/-! ## Start-up (R34, R589 to R598) -/

/-- BOOT_SEL as the ROM reads it: 0b00 when BOOTSEL_LOCK is blown (R591). -/
def State.sampleBootSel (s : State) : Nat := if s.fuseOpt 4 then 0 else s.pwr.bootSel.toNat

/-- STANDBY_RISE (R34, R617): phase 1. Islands A and T run, the ROM samples BOOT_SEL, starts the watchdog and assigns the
boot-flash lands to the Cocoon. -/
def execStandbyRise (bootSel : BitVec 2) (s : State) : Result :=
  .next (if s.pwr.mode == .start && s.pwr.phase == 1 && !s.pwr.resetLow then
    let s := { s with pwr := { s.pwr with standby := true, bootSel := bootSel, phase := 2, wdog := true, romLands := true } }
    let s := (s.setFld Fld.PW_ISTATE_STATE 23 1).vcodeReset 23
    let s := s.modTally .reeve (fun k => { k with run := .running })
    let s := s.setFld Fld.BT_STAT_BOOTSEL 0 s.sampleBootSel
    (s.setFld Fld.BT_LOWN_FUNC 0 1).setFld Fld.BT_LOWN_OWN_SRC 0 0x201
  else s)

/-- Start-up stops at a failure (R591). -/
def State.bootFails (s : State) : State := { s with pwr := { s.pwr with failed := true } }

/-- Island K starts from cleared memories: STATE is RESET (R520, R528, R540). -/
def State.cocoonClear (s : State) : State :=
  { s.setFld Fld.CK_CSTAT_STATE 0 0 with cocoon := { run := .stopped }, capNs := false, keys := [] }

/-- The Cocoon image is loaded and runs; its firmware derives the keys that come from fuses (R520, R528). -/
def State.cocoonLoad (s : State) (b : List Byte) : State :=
  let s := s.commitImage 1 b
  let s := s.modTally .cocoon (fun k => { k.loadImage b with run := .running, pc := BitVec.ofNat 16 (imgEntry b) })
  { s.setFld Fld.CK_CSTAT_STATE 0 2 with cocoonVer := BitVec.ofNat 32 (imgVersion b), keys := Config.fusedKeys }

/-- The ROM's search for a Cocoon image, after its clearing: READY with the image, or FAILED (R520, R591). -/
def State.cocoonRom (s : State) (flash0 flash1 : List Byte) (trngOk : Bool) : State :=
  match if trngOk then s.findImage 1 flash0 flash1 else none with
  | some b => s.cocoonLoad b
  | none => s.setFld Fld.CK_CSTAT_STATE 0 3

/-- Enrolment (R596): the first kind-5 record of CS0 is accepted when its signature verifies against the key it carries
and that key's hash is the record's hash field. -/
def State.enrolRecord (s : State) (flash0 : List Byte) : Option (List Byte) :=
  if s.fuseOpt 0 then none
  else match (flashImages flash0 5).head? with
    | none => none
    | some b =>
      let body := b.take (b.length - 96)
      let key := slice b 64 97
      let hash := bytesAt b (64 + 97) 48
      if bytesAt b 0 4 == 0x4D49485A && imgKind b == 5 && b.length == 64 + 290 + 96 &&
          Config.ecdsaVerifies 1 key (Config.sha384 body) (b.drop (b.length - 96)) &&
          (Config.sha384 key).toNat == hash then some b
      else none

/-- The bits that an enrolment record blows, ENROL_DONE with them (R596). -/
def enrolBits (b : List Byte) : BitVec 8192 :=
  (BitVec.ofNat 8192 (bytesAt b (64 + 97) 192) <<< 768) |||
  (BitVec.ofNat 8192 (bytesAt b (64 + 97 + 192) 1 / 2 % 32 * 2 + 1) <<< 2880)

/-- COCOON_BOOT (R520, R538, R591, R596): phase 2. The first command raises island K, whose ROM clears its memories and shows STATE
ROM; the next brings the ROM's result (DESIGN CHOICE, assumption log 54). -/
def execCocoonBoot (flash0 flash1 : List Byte) (trngOk : Bool) (s : State) : Result :=
  .next (if s.pwr.mode == .start && s.pwr.phase == 2 && !s.pwr.failed && !s.pwr.resetLow then
    if s.islState 24 ≠ 1 then
      ((s.setFld Fld.PW_ISTATE_STATE 24 1).vcodeReset 24).cocoonClear.setFld Fld.CK_CSTAT_STATE 0 1
    else if s.fld Fld.BT_STAT_BOOTSEL 0 = 3 then
      match s.enrolRecord flash0 with
      | some b => ({ s with blown := s.blown ||| enrolBits b }.setFld Fld.CK_CSTAT_STATE 0 2).bootFails
      | none => (s.setFld Fld.CK_CSTAT_STATE 0 3).bootFails
    else
      let s := s.cocoonRom flash0 flash1 trngOk
      if s.fld Fld.CK_CSTAT_STATE 0 = 2 then { s with pwr := { s.pwr with phase := 3 } } else s.bootFails
  else s)

/-- REEVE_IMAGE_VERIFY (R521, R591): phase 3. The image is read into private SRAM, verified and handed over. The steps that the boot ROM has taken are not stated. -/
def execReeveImageVerify (flash0 flash1 : List Byte) (s : State) : Result :=
  .next (if s.pwr.mode == .start && s.pwr.phase == 3 && !s.pwr.failed && !s.pwr.resetLow then
    match s.findImage 2 flash0 flash1 with
    | none => s.bootFails
    | some b =>
      let s := ((s.commitImage 2 b).stage b).handOver
      let s := (s.modTally .reeve (fun k => { k with pc := BitVec.ofNat 16 (imgEntry b) })).tallyTime .reeve
      { s with svc := { s.svc with reeveVer := BitVec.ofNat 32 (imgVersion b) }, pwr := { s.pwr with phase := 4 } }
  else s)

/-- A failure of phases 4 to 6: BT_STAT.FAIL names it and a fatal record is written (R591, R607). -/
def State.phaseFails (s : State) (fail : Nat) : State :=
  ((s.setFld Fld.BT_STAT_FAIL 0 fail).logErr { unit := 254, sev := 3, type := 0x3A, data := [fail] }).bootFails

/-- The land groups to which phase 4 gives their primary function where no one owns them (R34, R38): the boot flash, the
service port and the status outputs. The boot-flash lands that the ROM of phase 1 assigned to the Cocoon pass to the boot
interface, owned by the Reeve; a group that has an owner keeps it. -/
def State.phase4Lands (s : State) : State :=
  let s := if s.pwr.romLands then (s.setFld Fld.BT_LOWN_FUNC 0 1).setFld Fld.BT_LOWN_OWN_SRC 0 0x200 else s
  let s := { s with pwr := { s.pwr with romLands := false } }
  [0, 1, 19].foldl (fun s n =>
    if s.fld Fld.BT_LOWN_FUNC n = 0 then (s.setFld Fld.BT_LOWN_FUNC n 1).setFld Fld.BT_LOWN_OWN_SRC n 0x200 else s) s

/-- RAIL_BRING_UP (R34, R35, R49, R589, R591): phase 4, once the hold-up store is full; `fail` 0, or the code of what is not
in regulation. PWR_OK stays at high impedance past the 380 µs point, and THERMTRIP_N, as it is armed, shows an emergency or a
trip that stands. -/
def execRailBringUp (fail : Nat) (s : State) : Result :=
  .next (if s.pwr.mode == .start && s.pwr.phase == 4 && !s.pwr.failed && s.pwr.storeFull && !s.pwr.resetLow then
    if fail ≠ 0 then s.phaseFails fail
    else
      let s := (List.range 23).foldl (fun s j => (s.setFld Fld.PW_ISTATE_STATE j 1).vcodeReset j) s
      let s := s.setFld Fld.PW_ISTATE_LOCKED 21 1
      let s := (s.setFld Fld.BT_FUSEOPT_OPT 0 (s.fuseField 2880 6)).csrSet .BT_UID 0
        (BitVec.ofNat 64 (s.fuseField 2560 64))
      let s := (s.setFld Fld.BT_VER_REEVE 0 s.svc.reeveVer.toNat).setFld Fld.BT_STAT_PHASE 0 5
      let s := s.phase4Lands
      { s with pwr := { s.pwr with phase := 5, pwrOkHigh := !s.pwr.past380, armed := true,
                                   thermtripLow := s.pwr.emergency || s.pwr.tripLatch } }
  else s)

/-- HBM_TRAINING (R589, R591): phase 5; the stacks that find no passing window. -/
def execHbmTraining (failStacks : BitVec 4) (s : State) : Result :=
  .next (if s.pwr.mode == .start && s.pwr.phase == 5 && !s.pwr.failed && !s.pwr.resetLow then
    match (List.range 4).find? (fun k => failStacks.getLsbD k) with
    | some k => s.phaseFails (0x50 + k)
    | none =>
      let s := (List.range 4).foldl (fun s k => s.stackUp k) s
      { s.setFld Fld.BT_STAT_PHASE 0 6 with pwr := { s.pwr with phase := 6 } }
  else s)

/-- Bytes placed at physical addresses of HBM, by the interleave of MC_ILV (R21, R390). -/
def State.placeBytes (s : State) (a : Nat) : List Byte → State
  | [] => s
  | b :: r => ({ s with mem := BMap.set s.mem (s.hbmLoc a) b }).placeBytes (a + 1) r

/-- CORE_FIRMWARE_LOAD (R522, R537, R591, R597): phase 6. -/
def execCoreFirmwareLoad (flash0 flash1 : List Byte) (s : State) : Result :=
  .next (if s.pwr.mode == .start && s.pwr.phase == 6 && !s.pwr.failed && !s.pwr.resetLow then
    match s.findImage 3 flash0 flash1 with
    | none => s.phaseFails 0x60
    | some b =>
      let s := s.placeBytes (imgLoad b) (slice b 64 (imgDlen b))
      let s := if imgDlen b = 0 then s else s.fwGuardOn (imgLoad b / 4096) ((imgLoad b + imgDlen b - 1) / 4096)
      let s := s.commitImage 3 b
      let s := (s.setFld Fld.BT_ENTRY_ENTRY 0 (imgEntry b)).setFld Fld.BT_VER_CORE 0 (imgVersion b)
      let s := s.secureFlushAll
      { s.setFld Fld.BT_STAT_PHASE 0 7 with pwr := { s.pwr with phase := 7 } }
  else s)

/-- Whether a core is released (R599). -/
def State.coreReleased (s : State) (c : Nat) : Bool := (s.csrGet .BT_CREL (c / 64)).getLsbD (c % 64)

/-- A released core begins in the boot ROM (R598): core 0 in phase 7 jumps to BT_ENTRY, every other core parks. -/
def State.startCore (s : State) (c : Nat) : State :=
  let s := s.coreResetState c
  if c = 0 then
    s.modCore c (fun k => { k with run := .running, romPark := false,
                                   arch := { k.arch with pc := BitVec.ofNat 48 (s.fld Fld.BT_ENTRY_ENTRY 0) } })
  else s

/-- A write to BT_CREL_k from the Reeve (R597, R599): a 1 releases, a 0 is ignored. In phase 7 the module enters RUN once
every core of an island that is ON has been released (R88). Bits [63:32] of BT_CREL_2 name no core and are not called
reserved: they are stored and returned, and release nothing (DESIGN CHOICE, assumption log 304). Once core 0 is released,
the region over the core firmware is no longer in force (R522). -/
def State.crelWrite (s : State) (k : Nat) (src : Src) (v : Word) : State :=
  if src ≠ .reeve then s
  else
    let new := (List.range 64).filter (fun i =>
      64 * k + i < 160 && v.getLsbD i && !s.coreReleased (64 * k + i) && s.islState (coreIsland (64 * k + i)) == 1 &&
      7 ≤ s.pwr.phase)
    let s := s.csrSet .BT_CREL k (s.csrGet .BT_CREL k ||| v)
    let s := new.foldl (fun s i => s.startCore (64 * k + i)) s
    let s := if s.coreReleased 0 then s.fwGuardOff else s
    if s.pwr.phase = 7 ∧
        (List.range 160).all (fun c => s.coreReleased c || s.islState (coreIsland c) != 1) then
      { s.setFld Fld.BT_STAT_PHASE 0 8 with pwr := { s.pwr with phase := 8, mode := .run } }
    else s

/-- CORE_RELEASE (R597). -/
def execCoreRelease (src : Src) (k : Fin 3) (v : Word) (s : State) : Result :=
  .next (s.csrPort src .BT_CREL k.val (fun s => s.crelWrite k.val src v))

/-! ## Resets (R584 to R588) -/

/-- RESET_N_ASSERT (R86, R584, R585): the filter has counted 10 µs of low level; `hottest` is the highest TJ, in quarter
degrees. -/
def execResetNAssert (hottest : Int) (s : State) : Result :=
  .next (if !s.pwr.standby || s.pwr.mode == .off then s
    else if s.pwr.tripLatch || s.pwr.emergency then
      if 360 ≤ hottest then s
      else if s.pwr.tripLatch then
        let t := (s.powerOn false).keepResets s
        { t with pwr := { t.pwr with inputBack := s.pwr.inputBack, resetLow := true } }
      else s.standbyReset
    else if s.pwr.failSeq then s
    else if s.pwr.mode == .standby then s.standbyReset
    else s.fullReset)

/-- RESET_N_RELEASE (R585): start-up resumes. -/
def execResetNRelease (s : State) : Result :=
  .next { s with pwr := { s.pwr with resetLow := false } }

/-- The conditions of R587 on a BT_RST command: the status of the first that fails, or OK. -/
def State.rstStatus (s : State) (src : Src) (op target : Nat) : Nat :=
  if !s.srcSys src ∨ op = 0 then stDenied
  else if op = 1 then (if target < 160 then stOk else stBadArg)
  else if op = 2 then
    if !(target < 20 ∨ target = 21 ∨ target = 22) then stDenied
    else if s.islHeld target then stBlockHeld
    else if s.islState target ≠ 1 then stBusy
    else stOk
  else stOk

/-- Record a BT_RST command (R599). -/
def State.rstRecord (s : State) (src : Src) (st : Nat) : State :=
  (s.setFld Fld.BT_RST_LAST_SRC 0 (srcId src)).setFld Fld.BT_RST_LAST_STATUS 0 st

/-- A core reset (R588): retired stores and the L2 first, unless it follows a fatal error; then the core's state, and
what its group makes of it (R364). -/
def State.coreReset (s : State) (c : Nat) (fatal : Bool) : State :=
  let g := s.groupOf c
  let (lost, s) := s.groupDrainReset c fatal
  let s := if fatal then s.loseCaches c lost else (s.drainSb c).cleanInvL2 c
  let s := s.coreResetState c
  match g with
  | some g => s.groupMemberReset g c
  | none => s

/-- An island reset (R588): every core of the island, or the other logic of S or G. -/
def State.islandReset (s : State) (j : Nat) (fatal : Bool) : State :=
  if j < 20 then (islandCores j).foldl (fun s c => s.coreReset c fatal) s
  else if j = 21 then s.spinnersReset
  else if j = 22 then s.granaryReset
  else s

/-- A BT_RST command (R587, R588). -/
def State.rstWrite (s : State) (src : Src) (op target : Nat) : State :=
  let st := s.rstStatus src op target
  let s := s.rstRecord src st
  if st ≠ stOk then s
  else if op = 1 then s.coreReset target false
  else if op = 2 then s.islandReset target false
  else s.warmReset 2

/-- CORE_RESET (R588): BT_RST CORE, or the Reeve after a fatal error in the core. -/
def execCoreReset (src : Src) (c : CoreId) (fatal : Bool) (s : State) : Result :=
  .next (if fatal then
    (if src = .reeve ∧ s.srcLive src then s.coreReset c.val true else s)
  else s.csrPort src .BT_RST 0 (fun s => s.rstWrite src 1 c.val))

/-- ISLAND_RESET (R588): BT_RST ISLAND, or the Reeve after a fatal error in the island. -/
def execIslandReset (src : Src) (j : IslandId) (fatal : Bool) (s : State) : Result :=
  .next (if fatal then
    (if src = .reeve ∧ s.srcLive src then s.islandReset j.val true else s)
  else s.csrPort src .BT_RST 0 (fun s => s.rstWrite src 2 j.val))

/-- MODULE_WARM_RESET (R584): BT_RST MODULE_WARM, or the Reeve on a fatal record (R610). -/
def execModuleWarmReset (src : Src) (fatal : Bool) (s : State) : Result :=
  .next (if fatal then
    (if src = .reeve ∧ s.srcLive src then s.warmReset 6 else s)
  else s.csrPort src .BT_RST 0 (fun s => s.rstWrite src 3 0))

/-! ## Land ownership (R38 to R43) -/

/-- The function values a land group lists (R38). -/
def lownListed (n f : Nat) : Bool := f ≤ 1 || (f == 2 && (n == 5 || n == 17))

/-- Whether a land group contains a port with its secure attribute set (R41). -/
def State.lownSecure (s : State) (n : Nat) : Bool :=
  if 10 ≤ n ∧ n ≤ 17 then (List.range 4).any (fun i => s.flag Fld.PT_CTL_SEC (224 + 4 * (n - 10) + i))
  else if n = 18 then (List.range 224).any (fun p => s.flag Fld.PT_CTL_SEC p)
  else false

/-- A write to BT_LOWN_n (R39, R41, R43). -/
def State.lownWrite (s : State) (n : Nat) (src : Src) (v : Word) : State :=
  let f := Fld.BT_LOWN_FUNC.of v
  let old := s.fld Fld.BT_LOWN_FUNC n
  let (f', o, st) :=
    if s.lownSecure n && src != .cocoon then (old, s.fld Fld.BT_LOWN_OWN_SRC n, stDenied)
    else ownStep old (s.fld Fld.BT_LOWN_OWN_SRC n) f (Fld.BT_LOWN_FORCE.of v == 1) (!lownListed n f) (srcId src)
  let s := (s.setFld Fld.BT_LOWN_FUNC n f').setFld Fld.BT_LOWN_OWN_SRC n o
  let s := (s.setFld Fld.BT_LOWN_LAST_STATUS n st).setFld Fld.BT_LOWN_LAST_SRC n (srcId src)
  let s := if n = 5 ∧ f' ≠ 2 then { s with bell := { s.bell with ppsOut := false } } else s
  if f' = old then s else s.landsChanged n

/-- LAND_OWNERSHIP_WRITE (R39). -/
def execLandOwnershipWrite (src : Src) (n : LandId) (v : Word) (s : State) : Result :=
  .next (s.csrPort src .BT_LOWN n.val (fun s => s.lownWrite n.val src v))

/-! ## Services that load or reset firmware (R133 to R136, R540) -/

/-- VERSION (R133). -/
def execVersion (m : SlotId) (s : State) : Result :=
  .next (if s.serving m.val 0x01 then
    s.serviceReply m.val stOk (BitVec.ofNat 64 (s.svc.reeveVer.toNat + (s.svc.ext.getD 0).toNat * 2 ^ 32))
  else s)

/-- LOAD_EXT calls IMAGE_CHECK in the Cocoon's slot 15, once no earlier call stands there, with a timeout of 45,200 µs, the least
that R526 allows (R523; DESIGN CHOICE, assumption log 343). -/
def State.extBegins (s : State) (m : Nat) : State :=
  if s.ckState 15 = 1 ∨ s.ckState 15 = 2 then s
  else
    let s := s.ckOwnWrite 15 .reeve 1
    let s := [1, s.csrGet .RV_ARG0 m, s.csrGet .RV_ARG1 m].zipIdx.foldl (fun s w => s.ckMsgWrite 15 w.2 .reeve w.1) s
    let s := s.ckDoorbell 15 .reeve (BitVec.ofNat 64 (4520 * 2 ^ Fld.CK_CMD_TMO.lo + 0x0C))
    { s with svc := { s.svc with extCall := true } }

/-- The call has ended (R135, R523): the Reeve installs the image that the Cocoon has accepted and handed over. After TIMEOUT, for
which R523 gives no status, it is NO_SERVICE or BAD_IMAGE, as a free value has it (assumption log 343). -/
def State.extEnds (s : State) (m : Nat) : State :=
  if s.ckState 15 = 1 ∨ s.ckState 15 = 2 then s
  else
    let st := s.fld Fld.CK_STAT_STATUS 15
    let ver := s.csrGet .CK_MSG 120
    let s := { s.ckOwnWrite 15 .reeve 0 with svc := { s.svc with extCall := false } }
    if st = stOk then
      ({ s with svc := { s.svc with ext := some (ver.truncate 32) } }).serviceReply m stOk ver
    else if st = stNoService then s.serviceReply m stNoService
    else if st = stTimeout then
      let (w, s) := s.freeVal
      s.serviceReply m (if w.getLsbD 0 then stNoService else stBadImage)
    else s.serviceReply m stBadImage

/-- LOAD_EXT (R135, R523): the first command calls the Cocoon, and the next one after that call has ended answers. -/
def execLoadExt (m : SlotId) (s : State) : Result :=
  .next (if !s.serving m.val 0x0D then s
    else if !(s.slot m.val).hmode then s.serviceReply m.val stDenied
    else s.longService m.val (fun s => if s.svc.extCall then s.extEnds m.val else s.extBegins m.val))

/-- UNLOAD_EXT (R133). -/
def execUnloadExt (m : SlotId) (s : State) : Result :=
  .next (if !s.serving m.val 0x0E then s
    else if !(s.slot m.val).hmode then s.serviceReply m.val stDenied
    else ({ s with svc := { s.svc with ext := none } }).serviceReply m.val stOk)

/-- The handler of an extension code: the 16-bit entry of the table at SRAM 0x0001_8000 (R594). -/
def State.extHandler (s : State) (code : Nat) : Nat :=
  let w := FMap.get s.reeve.sram 0 ((0x18000 + 2 * (code - 0x80)) / 4)
  if (code - 0x80) % 2 = 0 then w.toNat % 2 ^ 16 else w.toNat / 2 ^ 16

/-- EXTENSION_SERVICE (R133, R136): the handler is entered with the slot in t0 and IE = 1. -/
def execExtensionService (m : SlotId) (s : State) : Result :=
  let k := s.slot m.val
  .next (if !(k.taken && decide (0x80 ≤ k.code) && decide (k.code ≤ 0xFF)) then s
    else if s.svc.ext.isNone || s.extHandler k.code == 0 then s.serviceReply m.val stBadService
    else
      let h := s.extHandler k.code
      let s := (s.begun m.val).modTally .reeve (fun r =>
        { (r.setT 0 (BitVec.ofNat 32 m.val)).setX 0 ((r.x 0) ||| 0x10) with pc := BitVec.ofNat 16 h })
      { s with svc := { s.svc with extSlot := some m.val } })

/-- BAD_SERVICE (R133): a code that names no service. -/
def execBadService (m : SlotId) (s : State) : Result :=
  let k := s.slot m.val
  .next (if k.taken && (k.code == 0 || (decide (0x0F ≤ k.code) && decide (k.code ≤ 0x7F)) ||
      (decide (0x80 ≤ k.code) && decide (k.code ≤ 0xFF) && s.svc.ext.isNone))
    then s.serviceReply m.val stBadService else s)

/-- EXT_HANDLER_OVERRUN (R136). -/
def execExtHandlerOverrun (s : State) : Result := .next s.extUnload

/-- Calls pending or taken at the Cocoon end when island K is reset (R540). -/
def State.ckEndCalls (s : State) : State :=
  (List.range 16).foldl (fun s m =>
    let late := (s.ckSlot m).taken && s.ckState m == 2
    let s := s.ckExpire m
    let s := if late then s.satField Fld.CK_STAT_LATE_CNT m else s
    s.modCkSlot m (fun k => { k with taken := false })) s

/-- Steps 1 to 3 of COCOON_RESET (R540): calls end, island K is reset, and secure lines are flushed. -/
def State.cocoonResetBegins (s : State) : State :=
  let s := ((s.ckEndCalls.satField Fld.CK_CSTAT_RESETS 0).cocoonClear).secureFlushAll
  { s with svc := { s.svc with ckReset := 1 } }

/-- COCOON_RESET (R537, R540, R541), a command a stage: island K is reset; its ROM runs; the firmware is READY or the Cocoon has
FAILED, and the service answers. Doorbells rung between are kept, and run their timeouts (assumption log 54). -/
def execCocoonReset (m : SlotId) (flash0 flash1 : List Byte) (trngOk : Bool) (s : State) : Result :=
  .next (if !s.serving m.val 0x0C then s
    else if !(s.slot m.val).hmode then s.serviceReply m.val stDenied
    else s.longService m.val (fun s =>
      match s.svc.ckReset with
      | 0 => s.cocoonResetBegins
      | 1 => { s.setFld Fld.CK_CSTAT_STATE 0 1 with svc := { s.svc with ckReset := 2 } }
      | _ => ({ s.cocoonRom flash0 flash1 trngOk with svc := { s.svc with ckReset := 0 } }).serviceReply m.val stOk))

end Sys2Proof.Machine
end

