-- ==== Sys2Proof/Machine/Spinners.lean ====
section
/-!
DEFINITION. Spinner threads (chapter 19): thread control, `wait` and its ends, and the `port` operations (R460 to R481).
-/

namespace Sys2Proof.Machine

/-! ## Thread control (R467 to R472) -/

/-- Who may write a thread's registers: any source of R470, and of those, for a secure engine, the Cocoon and the
engine's own threads. -/
def State.spMay (s : State) (t : Nat) (src : Src) : Bool :=
  let own := match src with
    | .thread u => u.val / 8 == t / 8
    | _ => false
  own || src == .cocoon || (!s.engineSecure (t / 8) && s.srcSys src)

/-- START (R471). -/
def State.threadStart (s : State) (t : Nat) : State :=
  let rf : FMap Word := FMap.set (FMap.set [] 257 (BitVec.ofNat 64 t)) 258 (s.csrGet .SP_ARG t)
  let s := s.modThread t (fun _ => { run := .run, pc := BitVec.ofNat 48 (2 * s.fld Fld.SP_START_PC t), rf := rf })
  s.setFld Fld.SP_THR_STATE t 1

/-- STOP (R472): posted stores have been performed already. A halted thread stops too. -/
def State.threadStop (s : State) (t : Nat) : State :=
  let s := (s.threadRest t).modThread t (fun k => { k with run := .stopped, stepping := false, slot := none })
  ((s.setFld Fld.SP_THR_STATE t 0).setFld Fld.TR_SDBG_HALTED t 0).setFld Fld.TR_SDBG_HCAUSE t 0

/-- A write to a thread's registers (R469 to R472); LAST_SRC and LAST_STATUS record it. -/
def State.spWrite (s : State) (r : Reg) (t : Nat) (src : Src) (v : Word) : State :=
  let (st, s) : Nat × State :=
    if !s.spMay t src then (stDenied, s)
    else if r ≠ .SP_THR then (stOk, s.codeWrite r t v)
    else
      let now := (s.thread t).run
      match Fld.SP_THR_CMD.of v with
      | 1 => if now = .stopped ∨ now = .fault then (stOk, s.threadStart t) else (stBusy, s)
      | 2 => (stOk, s.threadStop t)
      | _ => (stOk, s)
  (s.setFld Fld.SP_THR_LAST_SRC t (srcId src)).setFld Fld.SP_THR_LAST_STATUS t st

/-- What a source reads in a thread's registers: 0 of a secure engine, for any but its threads and the Cocoon (R467). -/
def State.spRead (s : State) (r : Reg) (t : Nat) (src : Src) : Word :=
  if s.engineSecure (t / 8) && !s.spMay t src then 0 else s.csrGet r t

/-- START: a write to SP_THR with CMD = 1. -/
def execStart (src : Src) (t : ThreadId) (v : Word) (s : State) : Result :=
  .next (s.csrPort src .SP_THR t.val (fun s => s.spWrite .SP_THR t.val src (withBits v 1 0 1)))

/-- STOP: a write to SP_THR with CMD = 2. -/
def execStop (src : Src) (t : ThreadId) (v : Word) (s : State) : Result :=
  .next (s.csrPort src .SP_THR t.val (fun s => s.spWrite .SP_THR t.val src (withBits v 1 0 2)))

/-! ## Waiting (R474 to R476) -/

/-- A queue named in WQMASK is ready: not empty when the thread consumes it, not full when it produces it. -/
def State.queueReady (s : State) (q : Nat) : Bool :=
  s.qEn q && (if s.qOut q then s.qEntries q != 0 else s.qFree q != 0)

/-- The event conditions of a thread, bit by bit (R474). -/
def State.conditions (s : State) (t : Nat) : BitVec 7 :=
  let k := s.thread t
  let p := s.port t
  let rx := decide (k.rxThr ≤ p.rx.length) || p.rx.any (fun e => e.getLsbD 17)
  let room := decide (k.txThr ≤ 512 - p.tx.length)
  let qin := (List.range 32).any (fun j => k.wqMask.getLsbD j && s.queueReady (32 * t + j))
  let port := k.portEvt || bitsOf (s.csrGet .PT_STAT t) 23 16 != 0
  BitVec.ofNat 7 (bit rx + bit room * 2 + bit k.timer * 4 + bit qin * 8 + bit port * 16 + bit k.txDone * 32 +
    bit k.soft * 64)

/-- The latches that an outcome reports are cleared (R475). -/
def Thread.report (k : Thread) (c : BitVec 7) : Thread :=
  { k with timer := k.timer && !c.getLsbD 2, portEvt := k.portEvt && !c.getLsbD 4, txDone := k.txDone && !c.getLsbD 5,
           soft := k.soft && !c.getLsbD 6 }

/-- WAIT: once every posted store is performed (R465), it completes at once where a masked condition holds, and else the
thread sleeps. -/
def execWait (a : Agent) (rd ra : Reg5) (csn : BitVec 12) (s : State) : Result :=
  zis a { len := 4, slot := false, core := false } (do
    match a with
    | .core _ => illegal a
    | .thread t =>
      needs a (csn.toNat < 128)
      let slots ← rdReg a ra
      modify (fun s => s.threadRest t.val)
      let s ← get
      let c := s.conditions t.val &&& csn.truncate 7
      if c ≠ 0 then
        set (s.modThread t.val (fun k => k.report c))
        wrReg a rd (c.zeroExtend 64)
        pure .seq
      else
        set ((s.modThread t.val (fun k => { k with
          run := .wait, waitMask := csn.truncate 7, waitRd := rd, waitTmo := slots != 0, waitSlots := slots, waitNext := k.pc + 4,
          skipBrk := false })).setFld Fld.SP_THR_STATE t.val 2)
        throw .wait) s

/-- A `wait` ends with an outcome: the thread goes on, or halts after a step. -/
def State.waitEnds (s : State) (t : ThreadId) (v : Word) : State :=
  let k := s.thread t.val
  let s := s.regSet (.thread t) k.waitRd v
  let s := (s.modThread t.val (fun k => { k with run := .run, pc := k.waitNext })).setFld Fld.SP_THR_STATE t.val 1
  if k.stepping then s.haltThread t.val 2 else s

/-- WAIT_EVENT: a masked condition ends the sleep (R476). -/
def execWaitEvent (t : ThreadId) (s : State) : Result :=
  let k := s.thread t.val
  let c := s.conditions t.val &&& k.waitMask
  .next (if s.islOpen 21 && k.run == .wait && c != 0 then
    (s.modThread t.val (fun k => k.report c)).waitEnds t (c.zeroExtend 64) else s)

/-- WAIT_TIMEOUT: the expiry is granted first (R476), ra slots after the `wait` (R463, R475). -/
def execWaitTimeout (t : ThreadId) (s : State) : Result :=
  let k := s.thread t.val
  .next (if s.islOpen 21 && k.run == .wait && k.waitTmo then
    (s.modThread t.val (fun k => { k with slots := k.slots + k.waitSlots })).waitEnds t 0x8000 else s)

/-! ## The port operations (R478, R481, R484, R490) -/

/-- A register field that an operation does not use must be 0 (R159). -/
def fieldOk (used : Bool) (r : Reg5) : Bool := used || r == 0

/-- A `port` operation of a thread: it takes ra, where it uses it (`ua`), and gives what rd takes, where it gives anything
(`ud`); a field it does not use must be 0 (R159, R478). -/
def portOp (a : Agent) (rd ra : Reg5) (ud ua : Bool) (ok : Nat → Bool) (f : ThreadId → Nat → State → Option Nat × State) : State → Result :=
  zis a { len := 4, core := false } (do
    match a with
    | .core _ => illegal a
    | .thread t =>
      needs a (ok t.val && fieldOk ud rd && fieldOk ua ra)
      let v ← rdReg a ra
      let (r, s) := f t v.toNat (← get)
      set s
      match r with
      | some w => wrReg a rd (BitVec.ofNat 64 w)
      | none => pure ()
      pure .seq)

/-- RXB: the oldest entry of the receive FIFO; an END entry that has waited for room takes its place (R480). -/
def State.rxTake (s : State) (p : Nat) : Nat × State :=
  match (if s.rxTaken p then [] else (s.port p).rx) with
  | [] => (0, s)
  | e :: r =>
    ((e ||| 0x10000).toNat, s.modPort p (fun k => { k with rx := r ++ k.rxLate.take 1, rxLate := k.rxLate.drop 1 }))

/-- TXSTART (R478, R481). -/
def State.txStart (s : State) (p v : Nat) : Nat × State :=
  let x := v / 2 ^ 6 % 32
  let repl := v / 2 ^ 5 % 2 == 1
  if repl && isField p then (stDenied, s)
  else if !s.portRuns p then (stNotRunning, s)
  else if s.txTaken p || (s.port p).frame.isSome then (stBusy, s)
  else
    let f : TxFrame := { tsreq := v % 2 == 1, drive := s.isRs485 p && v / 2 % 2 == 1,
                         tc := if isField p then 0 else v / 4 % 8 }
    let (tag, s) := if repl then s.replicate p x f.tc (txHeld (s.port p).tx).1 (txHeld (s.port p).tx).2 else (none, s)
    let s := (s.modPort p (fun k => { k with frame := some { f with tag := tag } })).txTry p
    (stOk, if s.portClosed p then s else s.txAbort p)

/-- TXB (R478, R480, R481). What a replicated frame takes, its copies take (R453). With its END a frame that waits may be found to
fit (R451). -/
def State.txPut (s : State) (p v : Nat) : Nat × State :=
  let k := s.port p
  let e := BitVec.ofNat 17 v
  if s.txTaken p then (stBusy, s)
  else if k.discard then (stOk, s.modPort p (fun k => { k with discard := !e.getLsbD 16 }))
  else if 512 ≤ k.tx.length then (stTxFull, s)
  else
    let own := if (txHeld k.tx).2 then none else k.frame.bind (·.tag)
    let s := s.modCopies p own (fun c => some { c with len := c.len + 1, whole := e.getLsbD 16 })
    let s := s.modPort p (fun k => { k with tx := k.tx ++ [e] })
    (stOk, if e.getLsbD 16 && k.frame.any (fun f => f.start.isNone) then s.txTry p else s)

/-- RAWTX: the level for the next bit time. -/
def State.rawSend (s : State) (p v : Nat) : Nat × State :=
  if !s.portRuns p then (stNotRunning, s)
  else if s.txTaken p then (stBusy, s)
  else (stOk, s.modPort p (fun k => { k with rawTx := v % 2 == 1 }))

/-- RAWRX: the level received. -/
def State.rawTake (s : State) (p : Nat) : Nat × State :=
  match (if s.rxTaken p then none else (s.port p).rawRx) with
  | none => (0, s)
  | some b => (2 + bit b, s.modPort p (fun k => { k with rawRx := none }))

/-- The address of register `i` of a port's set (R434). -/
def ptSetAddr (p i : Nat) : Nat := 0xFE07001000 + p / 8 * 0x10000 + p % 8 * 0x200 + 8 * i

/-- PRD: the thread reads a register of its own port's set. -/
def State.prdRead (s : State) (t : ThreadId) (i : Nat) : Nat :=
  match Reg.decode (ptSetAddr t.val i) with
  | some (r, n) => if r.isPortSet then (s.ptRead r n (.thread t)).toNat else 0
  | none => 0

/-- PWR: the thread writes one, a write that the instance's XGATE sees like any other (R10, R11); the status is the set's
LAST_STATUS. -/
def State.pwrWrite (s : State) (t : ThreadId) (i v : Nat) : Nat × State :=
  let s := match Reg.decode (ptSetAddr t.val i) with
    | some (r, n) => if r.isPortSet then (s.gateSees r n).ptWrite r n (.thread t) (BitVec.ofNat 64 v) else s.portSet t.val (.thread t) id
    | none => s.portSet t.val (.thread t) id
  (s.fld Fld.PT_CTL_LAST_STATUS t.val, s)

/-- RXB. -/
def execRxb (a : Agent) (rd ra : Reg5) (s : State) : Result :=
  portOp a rd ra true false (fun _ => true) (fun t _ s => let (v, s) := s.rxTake t.val; (some v, s)) s

/-- RXTS. -/
def execRxts (a : Agent) (rd ra : Reg5) (s : State) : Result :=
  portOp a rd ra true false (fun _ => true) (fun t _ s => (some (s.port t.val).rxTs, s)) s

/-- RXCNT. -/
def execRxcnt (a : Agent) (rd ra : Reg5) (s : State) : Result :=
  portOp a rd ra true false (fun _ => true) (fun t _ s => (some (s.port t.val).rx.length, s)) s

/-- TXSTART. -/
def execTxstart (a : Agent) (rd ra : Reg5) (s : State) : Result :=
  portOp a rd ra true true (fun _ => true) (fun t v s => let (r, s) := s.txStart t.val v; (some r, s)) s

/-- TXB. -/
def execTxb (a : Agent) (rd ra : Reg5) (s : State) : Result :=
  portOp a rd ra true true (fun _ => true) (fun t v s => let (r, s) := s.txPut t.val v; (some r, s)) s

/-- TXTS. -/
def execTxts (a : Agent) (rd ra : Reg5) (s : State) : Result :=
  portOp a rd ra true false (fun _ => true) (fun t _ s =>
    (some (match (s.port t.val).txTs with
      | some n => 2 ^ 63 + n
      | none => 0), s)) s

/-- RAWTX. -/
def execRawtx (a : Agent) (rd ra : Reg5) (s : State) : Result :=
  portOp a rd ra true true (fun _ => true) (fun t v s => let (r, s) := s.rawSend t.val v; (some r, s)) s

/-- RAWRX. -/
def execRawrx (a : Agent) (rd ra : Reg5) (s : State) : Result :=
  portOp a rd ra true false (fun _ => true) (fun t _ s => let (r, s) := s.rawTake t.val; (some r, s)) s

/-- PRD. -/
def execPrd (a : Agent) (i : BitVec 6) (rd ra : Reg5) (s : State) : Result :=
  portOp a rd ra true false (fun _ => true) (fun t _ s => (some (s.prdRead t i.toNat), s)) s

/-- PWR. -/
def execPwr (a : Agent) (i : BitVec 6) (rd ra : Reg5) (s : State) : Result :=
  portOp a rd ra true true (fun _ => true) (fun t v s => let (r, s) := s.pwrWrite t i.toNat v; (some r, s)) s

/-- QADV. The operations of the queue and flow-match groups wait for the thread's posted stores (R465). -/
def execQadv (a : Agent) (j : BitVec 5) (rd ra : Reg5) (s : State) : Result :=
  portOp a rd ra true true (fun _ => true) (fun t v s =>
    let s := s.threadRest t.val
    let (r, s) := s.qAdvance (32 * t.val + j.toNat) (.thread t) (v % 2 ^ 13)
    (some r, s)) s

/-- QPTR. -/
def execQptr (a : Agent) (j : BitVec 5) (rd ra : Reg5) (s : State) : Result :=
  portOp a rd ra true false (fun _ => true) (fun t _ s =>
    let s := s.threadRest t.val
    (some (s.qTail (32 * t.val + j.toNat) * 2 ^ 48 + s.qHead (32 * t.val + j.toNat) * 2 ^ 32), s)) s

/-- FMATCH: a miss counts (R491). QE_FM_RES holds the outcome of this and the two next operations, which are commands of the table
as a write to QE_FM_CMD is (R490, R493). -/
def execFmatch (a : Agent) (rd ra : Reg5) (s : State) : Result :=
  portOp a rd ra true true (fun _ => true) (fun t v s =>
    match (s.threadRest t.val).fmLookup t.val v with
    | (some (q, tag), s) => (some (2 ^ 63 + q * 2 ^ 16 + tag), s.fmRes (.thread t) stOk (some (q, tag)))
    | (none, s) => (some 0, s.fmRes (.thread t) stOk none)) s

/-- FMADD: a command word of QE_FM_CMD, its PORT and OP ignored. -/
def execFmadd (a : Agent) (rd ra : Reg5) (s : State) : Result :=
  portOp a rd ra true true (fun _ => true) (fun t v s =>
    let w := BitVec.ofNat 64 v
    let (r, s) := (s.threadRest t.val).fmAdd t.val (Fld.QE_FM_CMD_KEY.of w) (Fld.QE_FM_CMD_QIDX.of w) (Fld.QE_FM_CMD_TAG.of w) (.thread t)
    (some r, s.fmRes (.thread t) r none)) s

/-- FMDEL. -/
def execFmdel (a : Agent) (rd ra : Reg5) (s : State) : Result :=
  portOp a rd ra true true (fun _ => true) (fun t v s =>
    let (r, s) := (s.threadRest t.val).fmDel t.val (Fld.QE_FM_CMD_KEY.of (BitVec.ofNat 64 v))
    (some r, s.fmRes (.thread t) r none)) s

/-- SIGNAL: the thread's interrupt source (R370). -/
def execSignal (a : Agent) (rd ra : Reg5) (s : State) : Result :=
  portOp a rd ra false false (fun _ => true) (fun t _ s => (none, s.icEvent (9280 + t.val))) s

/-- POKE: a sibling's SOFT latch. -/
def execPoke (a : Agent) (rd ra : Reg5) (s : State) : Result :=
  portOp a rd ra false true (fun _ => true) (fun t v s =>
    (none, s.modThread (t.val / 8 * 8 + v % 8) (fun k => { k with soft := true }))) s

/-- SETTHR: 0 is stored as 1. -/
def execSetthr (a : Agent) (rd ra : Reg5) (s : State) : Result :=
  portOp a rd ra false true (fun _ => true) (fun t v s =>
    (none, s.modThread t.val (fun k => { k with rxThr := max 1 (v % 2 ^ 16), txThr := max 1 (v / 2 ^ 16 % 2 ^ 16) }))) s

/-- WQMASK. -/
def execWqmask (a : Agent) (rd ra : Reg5) (s : State) : Result :=
  portOp a rd ra false true (fun _ => true) (fun t v s => (none, s.modThread t.val (fun k => { k with wqMask := BitVec.ofNat 32 v }))) s

/-- FRER: Spinners 28 to 31 alone. -/
def execFrer (a : Agent) (rd ra : Reg5) (s : State) : Result :=
  portOp a rd ra true true (fun t => decide (224 ≤ t)) (fun t v s =>
    let (pass, s) := s.frerPresent (32 * (t.val / 8 - 28) + v / 2 ^ 16 % 32) (v % 2 ^ 16)
    (some (bit (!pass)), s)) s

end Sys2Proof.Machine
end

