-- ==== Sys2Proof/Machine/Cores.lean ====
section
/-!
DEFINITION. What reaches a core between instructions (chapters 09, 10 and 13): interrupts, machine checks, the end of
`park`, the end of DEFER, a misprediction, and the end of a reservation's hold.
-/

namespace Sys2Proof.Machine

/-- Whether a core executes instructions at present: its island runs, and it is neither parked nor halted. -/
def State.coreRuns (s : State) (c : Nat) : Bool :=
  s.islOpen (coreIsland c) && (s.core c).run == .running && (!(s.core c).halted || (s.core c).stepping)

/-- A machine check that waits can be entered, and comes first (R254, R609). -/
def State.mcheckDue (s : State) (c : Nat) : Bool :=
  !(s.core c).mchecks.isEmpty && (s.core c).arch.tw true == 0 && !(s.core c).halted

/-- INTERRUPT_ACCEPT (R219, R249, R352): the interrupt is granted before the oldest unretired instruction; in a group the
primary's acceptance raises a cut. The store buffer that the entry drains may have to wait for another core's hold (R332). In a single step interrupts are accepted with STEPINT alone (R563); a full trace buffer holds the entry (R550). -/
def execInterruptAccept (c : CoreId) (s : State) : Result :=
  let k := s.core c.val
  .next (if !s.coreRuns c.val || s.mcheckDue c.val || (k.stepping && !k.stepInt) || s.drainBlocked c.val then s
    else match s.irqVec c.val with
      | none => s
      | some v =>
        match s.groupOf c.val with
        | none => if s.traceStalls c.val then s else s.takeExc c.val { vec := v, int := true } k.savedPc
        | some g =>
          if s.fld Fld.CG_STAT_STATE g = 3 ∧ s.groupPrimary g = c.val then
            s.modGroup g (fun x => { x with cut := true, irq := true })
          else s)

/-- MACHINE_CHECK_ENTRY (R254, R352): in a group it raises a cut; a full trace buffer holds the entry (R550). -/
def execMachineCheckEntry (c : CoreId) (s : State) : Result :=
  .next (if !s.coreRuns c.val || !s.mcheckDue c.val || s.drainBlocked c.val then s
    else match s.groupOf c.val with
      | none => if s.traceStalls c.val then s else s.enterMcheck c.val
      | some g =>
        if s.fld Fld.CG_STAT_STATE g = 3 then s.modGroup g (fun x => { x with cut := true, mc := true }) else s)

/-- What wakes a parked core: the rise of either target's level, a machine check, or a debug halt (R252). -/
def State.wakeDue (s : State) (c : Nat) : Bool :=
  [0, 1].any (fun h => s.coreLevel c h && !(s.core c).lvlHeld.contains h) || !(s.core c).mchecks.isEmpty ||
  (s.core c).haltDue

/-- A core leaves `park` for a wake, and halts there where a debug halt woke it (R252, R561). -/
def State.wakeCore (s : State) (c : Nat) : State :=
  let t := s.unpark c
  if (s.core c).haltDue then (t.modCore c (fun k => { k with haltDue := false })).haltCore c 1 else t

/-- Whether a core is committed to a group that FORM still copies, or that ADMIT has yet to bring it into (R339, R341). -/
def State.forming (s : State) (c : Nat) : Bool :=
  (List.range 80).any (fun g =>
    (s.fld Fld.CG_STAT_STATE g == 1 && (s.groupActive g).contains c) || (s.group g).joining == some c)

/-- A debug halt reached a core before it became a member: the group halts as for a HALT of that member (R339, R564). -/
def State.haltJoined (s : State) (g c : Nat) : State :=
  if s.fld Fld.CG_STAT_STATE g = 2 then s.haltParked g c 1
  else (s.modCore c (fun k => { k with haltDue := false })).haltFor c 1

/-- PARK_WAKE (R252, R253, R338): a wake reaches a core. One that is not parked yet remembers it for a `park` that comes
next; in an island in retention a machine check first starts the exit of R77. A wake of a core that FORM or ADMIT has
committed waits until it is a member (R339). -/
def execParkWake (c : CoreId) (s : State) : Result :=
  .next (if !s.wakeDue c.val ∨ s.forming c.val then s
    else if s.islState (coreIsland c.val) ≠ 1 then
      (if (s.core c.val).mchecks.isEmpty then s else s.icWakeIsland (coreIsland c.val))
    else match s.groupOf c.val with
      | none =>
        if (s.core c.val).run = .running ∧ !(s.core c.val).halted then
          s.modCore c.val (fun k => { k with woken := true })
        else if (s.core c.val).run ≠ .parked then s
        else s.wakeCore c.val
      | some g =>
        if (s.core c.val).haltDue then s.haltJoined g c.val
        else if (s.core c.val).run = .running ∧ !(s.core c.val).halted then
          s.modCore c.val (fun k => { k with woken := true })
        else if (s.core c.val).run ≠ .parked then s
        else if s.groupPrimary g = c.val ∨ !(s.core c.val).mchecks.isEmpty then s.unparkGroup g
        else s)

/-- DEFER_EXPIRY (R250): 256 instructions have retired since DEFER was set. -/
def execDeferExpiry (c : CoreId) (s : State) : Result :=
  let k := s.core c.val
  .next (if k.arch.csf CsFld.SSTAT_DEFER = 1 ∧ 256 ≤ k.arch.deferN then
    s.modArch c.val (fun a => { a.setCsf CsFld.SSTAT_DEFER 0 with deferN := 0 }) else s)

/-- BRANCH_MISPREDICT (R214, R220, R221, R226, R230, R231): the wrong path is discarded, and nothing of it is kept. The global
history and the return-address stack of the checkpoint of a branch that has executed and not retired are restored; its
actual outcome is applied as it retires, and the misprediction counts then. The window state that the checkpoint holds is
the renamed one: the committed one is not touched, and no wrong path has moved it. Any other branch takes its checkpoint
and retires in one command, which restores it to the state that stands. -/
def execBranchMispredict (c : CoreId) (s : State) : Result :=
  .next (if !s.coreRuns c.val then s
    else s.modCore c.val (fun k =>
      match k.brCkpts with
      | b :: _ => { k with ghr := b.ghr, ras := b.ras, brMiss := true }
      | [] => { k with brMiss := true }))

/-- RESERVATION_HOLD_EXPIRY (R332): the lines of the granule answer snoops again; the reservation stays. -/
def execReservationHoldExpiry (c : CoreId) (s : State) : Result :=
  .next (match (s.core c.val).resv with
    | some r => s.modCore c.val (fun k => { k with resv := some { r with hold := false } })
    | none => s)

end Sys2Proof.Machine
end

