-- ==== Sys2Proof/Machine/ZisInt.lean ====
section
/-!
DEFINITION. The integer instructions of ZIS: moves, arithmetic, logic, shifts, multiply and divide, bit counts,
selection, fl, and the immediate forms (R148 to R155, R161 to R163, R178 to R182).
-/

namespace Sys2Proof.Machine

/-! ## Shared operations -/

/-- The wrapper's view of an integer instruction in its 16-bit or its 32-bit form. -/
def intZi (short : Bool) : Zi := { len := if short then 2 else 4 }

/-- The address of an instruction's first halfword as a 64-bit value: canonical while stage 1 is on (R175, R258). -/
def State.pcWord (s : State) (a : Agent) : Word :=
  match a with
  | .core c =>
    let x := (s.core c.val).arch
    if (if x.mode = 2 then x.csf CsFld.HTCTL_EN else x.csf CsFld.STCTL_EN) = 1 then x.pc.signExtend 64
    else x.pc.zeroExtend 64
  | .thread t => (s.thread t.val).pc.zeroExtend 64

/-- rd := a value. -/
def putInt (a : Agent) (rd : Reg5) (v : Word) : Z Flow := do
  wrReg a rd v
  pure .seq

/-- rd := f ra rb, flags unchanged. -/
def aluPlain (a : Agent) (rd ra rb : Reg5) (f : Word → Word → Word) : Z Flow := do
  let x ← rdReg a ra
  let y ← rdReg a rb
  putInt a rd (f x y)

/-- rd and fl := f ra rb fl. -/
def aluFlags (a : Agent) (rd ra rb : Reg5) (f : Word → Word → BitVec 4 → Word × BitVec 4) : Z Flow := do
  let x ← rdReg a ra
  let y ← rdReg a rb
  let (r, g) := f x y (← rdFl a)
  wrReg a rd r
  wrFl a g
  pure .seq

/-- fl := the flags of f ra rb; no register is written. -/
def aluTest (a : Agent) (ra rb : Reg5) (f : Word → Word → BitVec 4 → Word × BitVec 4) : Z Flow := do
  let x ← rdReg a ra
  let y ← rdReg a rb
  wrFl a (f x y (← rdFl a)).2
  pure .seq

/-- rd := f ra. -/
def aluOne (a : Agent) (rd ra : Reg5) (f : Word → Word) : Z Flow := do
  putInt a rd (f (← rdReg a ra))

/-- The same with an immediate in place of rb. -/
def immPlain (a : Agent) (rd ra : Reg5) (f : Word → Word) : Z Flow := aluOne a rd ra f

def immFlags (a : Agent) (rd ra : Reg5) (f : Word → BitVec 4 → Word × BitVec 4) : Z Flow := do
  let x ← rdReg a ra
  let (r, g) := f x (← rdFl a)
  wrReg a rd r
  wrFl a g
  pure .seq

def immTest (a : Agent) (ra : Reg5) (f : Word → BitVec 4 → Word × BitVec 4) : Z Flow := do
  let x ← rdReg a ra
  wrFl a (f x (← rdFl a)).2
  pure .seq

/-! ## Arithmetic at 64 bits, and at 32 under W (R162, R179, R180) -/

/-- A 32-bit result, sign-extended, with its flags. -/
def wideRes (p : BitVec 32 × BitVec 4) : Word × BitVec 4 := (p.1.signExtend 64, p.2)

/-- ra + rb + cin. -/
def intAdd (w : Bool) (x y : Word) (cin : Bool) : Word × BitVec 4 :=
  if w then wideRes (addFlags (x.truncate 32) (y.truncate 32) cin) else addFlags x y cin

/-- ra − rb − (1 − cin). -/
def intSub (w : Bool) (x y : Word) (cin : Bool) : Word × BitVec 4 :=
  if w then wideRes (subFlags (x.truncate 32) (y.truncate 32) cin) else subFlags x y cin

/-- A logical result with N and Z. -/
def intLogic (r : Word) (fl : BitVec 4) : Word × BitVec 4 := (r, flagsNZ r fl)

/-- A shift by the low bits of a count. -/
def intShift (k : ShiftKind) (w : Bool) (x y : Word) (fl : BitVec 4) : Word × BitVec 4 :=
  if w then wideRes (shiftFlags k (x.truncate 32) (y.toNat % 32) fl) else shiftFlags k x (y.toNat % 64) fl

/-- An operation on 32-bit operands under W, its result sign-extended. -/
def intW (w : Bool) (f32 : BitVec 32 → BitVec 32 → BitVec 32) (f64 : Word → Word → Word) (x y : Word) : Word :=
  if w then (f32 (x.truncate 32) (y.truncate 32)).signExtend 64 else f64 x y

/-- The quotients and remainders of R181. -/
def divS {n : Nat} (x y : BitVec n) : BitVec n := if y = 0 then BitVec.allOnes n else x.sdiv y
def divU {n : Nat} (x y : BitVec n) : BitVec n := if y = 0 then BitVec.allOnes n else x.udiv y
def remS {n : Nat} (x y : BitVec n) : BitVec n := if y = 0 then x else x.srem y
def remU {n : Nat} (x y : BitVec n) : BitVec n := if y = 0 then x else x.umod y

/-- The high halves of 64 × 64. -/
def mulHighS (x y : Word) : Word := BitVec.ofInt 64 (x.toInt * y.toInt / 2 ^ 64)
def mulHighU (x y : Word) : Word := BitVec.ofNat 64 (x.toNat * y.toNat / 2 ^ 64)

/-- A count of the low 32 bits under W, else of all 64. -/
def intCount (w : Bool) (f32 : BitVec 32 → Nat) (f64 : Word → Nat) (x : Word) : Word :=
  BitVec.ofNat 64 (if w then f32 (x.truncate 32) else f64 x)

/-- The byte order reversed: of the four low bytes under W. -/
def intRev (w : Bool) (x : Word) : Word :=
  if w then (BitVec.ofNat 32 (revBytes (x.truncate 32).toNat 4)).signExtend 64 else BitVec.ofNat 64 (revBytes x.toNat 8)

/-- The immediate of a G1 form is the low 7 bits, of an I12 or I16 form all of them (R149, R154, R155). -/
def immOf {n : Nat} (short : Bool) (imm : BitVec n) : Word :=
  if short then (imm.truncate 7).signExtend 64 else imm.signExtend 64

/-! ## Moves (R148) -/

/-- MOV: the 16-bit form. -/
def execMov (a : Agent) (rd rs : Reg5) (s : State) : Result := zis a (intZi true) (aluOne a rd rs id) s
/-- MOV_OUT. -/
def execMovOut (a : Agent) (rd rs : Reg5) (s : State) : Result := zis a (intZi true) (aluOne a rd rs id) s
/-- MOV_IN. -/
def execMovIn (a : Agent) (rd rs : Reg5) (s : State) : Result := zis a (intZi true) (aluOne a rd rs id) s

/-! ## Three-register operations (R179) -/

/-- ADD. -/
def execAdd (a : Agent) (short w : Bool) (rd ra rb : Reg5) (s : State) : Result :=
  zis a (intZi short) (aluFlags a rd ra rb (fun x y _ => intAdd w x y false)) s
/-- SUB. -/
def execSub (a : Agent) (short w : Bool) (rd ra rb : Reg5) (s : State) : Result :=
  zis a (intZi short) (aluFlags a rd ra rb (fun x y _ => intSub w x y true)) s
/-- ADC. -/
def execAdc (a : Agent) (short w : Bool) (rd ra rb : Reg5) (s : State) : Result :=
  zis a (intZi short) (aluFlags a rd ra rb (fun x y f => intAdd w x y (Flg.c f))) s
/-- SBC. -/
def execSbc (a : Agent) (short w : Bool) (rd ra rb : Reg5) (s : State) : Result :=
  zis a (intZi short) (aluFlags a rd ra rb (fun x y f => intSub w x y (Flg.c f))) s
/-- CMP. -/
def execCmp (a : Agent) (short w : Bool) (ra rb : Reg5) (s : State) : Result :=
  zis a (intZi short) (aluTest a ra rb (fun x y _ => intSub w x y true)) s
/-- NEG. -/
def execNeg (a : Agent) (short w : Bool) (rd rb : Reg5) (s : State) : Result :=
  zis a (intZi short) (immFlags a rd rb (fun y _ => intSub w 0 y true)) s
/-- AND. -/
def execAnd (a : Agent) (short : Bool) (rd ra rb : Reg5) (s : State) : Result :=
  zis a (intZi short) (aluFlags a rd ra rb (fun x y f => intLogic (x &&& y) f)) s
/-- OR. -/
def execOr (a : Agent) (short : Bool) (rd ra rb : Reg5) (s : State) : Result :=
  zis a (intZi short) (aluFlags a rd ra rb (fun x y f => intLogic (x ||| y) f)) s
/-- XOR. -/
def execXor (a : Agent) (short : Bool) (rd ra rb : Reg5) (s : State) : Result :=
  zis a (intZi short) (aluFlags a rd ra rb (fun x y f => intLogic (x ^^^ y) f)) s
/-- ANDN. -/
def execAndn (a : Agent) (short : Bool) (rd ra rb : Reg5) (s : State) : Result :=
  zis a (intZi short) (aluFlags a rd ra rb (fun x y f => intLogic (x &&& ~~~ y) f)) s
/-- TST. -/
def execTst (a : Agent) (short : Bool) (ra rb : Reg5) (s : State) : Result :=
  zis a (intZi short) (aluTest a ra rb (fun x y f => intLogic (x &&& y) f)) s
/-- NOT. -/
def execNot (a : Agent) (short : Bool) (rd rb : Reg5) (s : State) : Result :=
  zis a (intZi short) (immFlags a rd rb (fun y f => intLogic (~~~ y) f)) s
/-- SHL. -/
def execShl (a : Agent) (short w : Bool) (rd ra rb : Reg5) (s : State) : Result :=
  zis a (intZi short) (aluFlags a rd ra rb (fun x y f => intShift .left w x y f)) s
/-- SHR. -/
def execShr (a : Agent) (short w : Bool) (rd ra rb : Reg5) (s : State) : Result :=
  zis a (intZi short) (aluFlags a rd ra rb (fun x y f => intShift .right w x y f)) s
/-- SAR. -/
def execSar (a : Agent) (short w : Bool) (rd ra rb : Reg5) (s : State) : Result :=
  zis a (intZi short) (aluFlags a rd ra rb (fun x y f => intShift .arith w x y f)) s
/-- MUL. -/
def execMul (a : Agent) (short w : Bool) (rd ra rb : Reg5) (s : State) : Result :=
  zis a (intZi short) (aluPlain a rd ra rb (intW w (· * ·) (· * ·))) s
/-- MULHS. -/
def execMulhs (a : Agent) (rd ra rb : Reg5) (s : State) : Result := zis a (intZi false) (aluPlain a rd ra rb mulHighS) s
/-- MULHU. -/
def execMulhu (a : Agent) (rd ra rb : Reg5) (s : State) : Result := zis a (intZi false) (aluPlain a rd ra rb mulHighU) s
/-- DIV (R181). -/
def execDiv (a : Agent) (w : Bool) (rd ra rb : Reg5) (s : State) : Result :=
  zis a (intZi false) (aluPlain a rd ra rb (intW w divS divS)) s
/-- DIVU (R181). -/
def execDivu (a : Agent) (w : Bool) (rd ra rb : Reg5) (s : State) : Result :=
  zis a (intZi false) (aluPlain a rd ra rb (intW w divU divU)) s
/-- REM (R181). -/
def execRem (a : Agent) (w : Bool) (rd ra rb : Reg5) (s : State) : Result :=
  zis a (intZi false) (aluPlain a rd ra rb (intW w remS remS)) s
/-- REMU (R181). -/
def execRemu (a : Agent) (w : Bool) (rd ra rb : Reg5) (s : State) : Result :=
  zis a (intZi false) (aluPlain a rd ra rb (intW w remU remU)) s
/-- CLZ. -/
def execClz (a : Agent) (w : Bool) (rd ra : Reg5) (s : State) : Result :=
  zis a (intZi false) (aluOne a rd ra (intCount w leadingZeros leadingZeros)) s
/-- CTZ. -/
def execCtz (a : Agent) (w : Bool) (rd ra : Reg5) (s : State) : Result :=
  zis a (intZi false) (aluOne a rd ra (intCount w trailingZeros trailingZeros)) s
/-- POPC. -/
def execPopc (a : Agent) (w : Bool) (rd ra : Reg5) (s : State) : Result :=
  zis a (intZi false) (aluOne a rd ra (intCount w popCount popCount)) s
/-- REV. -/
def execRev (a : Agent) (w : Bool) (rd ra : Reg5) (s : State) : Result := zis a (intZi false) (aluOne a rd ra (intRev w)) s

/-- CSEL (R182). -/
def execCsel (a : Agent) (cond : Cond) (rd ra rb : Reg5) (s : State) : Result :=
  zis a (intZi false) (do
    let f ← rdFl a
    aluPlain a rd ra rb (fun x y => if condHolds cond f then x else y)) s

/-- MFFL (R145, R182). -/
def execMffl (a : Agent) (rd : Reg5) (s : State) : Result :=
  zis a (intZi false) (do putInt a rd ((← rdFl a).zeroExtend 64)) s

/-- MTFL (R145, R182). -/
def execMtfl (a : Agent) (ra : Reg5) (s : State) : Result :=
  zis a (intZi false) (do wrFl a ((← rdReg a ra).truncate 4); pure .seq) s

/-! ## Immediate operations (R149, R152, R154, R155) -/

/-- MOVI. -/
def execMovi (a : Agent) (short : Bool) (rd : Reg5) (imm : BitVec 16) (s : State) : Result :=
  zis a (intZi short) (putInt a rd (immOf short imm)) s

/-- Bits [16k + 15:16k] of rd take the immediate. -/
def movp (a : Agent) (k : Nat) (rd : Reg5) (imm : BitVec 16) : Z Flow :=
  aluOne a rd rd (fun x => withBits x (16 * k + 15) (16 * k) imm.toNat)

/-- MOVP1. -/
def execMovp1 (a : Agent) (rd : Reg5) (imm : BitVec 16) (s : State) : Result := zis a (intZi false) (movp a 1 rd imm) s
/-- MOVP2. -/
def execMovp2 (a : Agent) (rd : Reg5) (imm : BitVec 16) (s : State) : Result := zis a (intZi false) (movp a 2 rd imm) s
/-- MOVP3. -/
def execMovp3 (a : Agent) (rd : Reg5) (imm : BitVec 16) (s : State) : Result := zis a (intZi false) (movp a 3 rd imm) s
/-- ADDI. -/
def execAddi (a : Agent) (short : Bool) (rd ra : Reg5) (imm : BitVec 12) (s : State) : Result :=
  zis a (intZi short) (immFlags a rd ra (fun x _ => intAdd false x (immOf short imm) false)) s
/-- ADDI16. -/
def execAddi16 (a : Agent) (rd : Reg5) (imm : BitVec 16) (s : State) : Result :=
  zis a (intZi false) (immFlags a rd rd (fun x _ => intAdd false x (immOf false imm) false)) s
/-- CMPI. -/
def execCmpi (a : Agent) (short : Bool) (ra : Reg5) (imm : BitVec 12) (s : State) : Result :=
  zis a (intZi short) (immTest a ra (fun x _ => intSub false x (immOf short imm) true)) s
/-- ANDI. -/
def execAndi (a : Agent) (short : Bool) (rd ra : Reg5) (imm : BitVec 12) (s : State) : Result :=
  zis a (intZi short) (immFlags a rd ra (fun x f => intLogic (x &&& immOf short imm) f)) s
/-- ORI. -/
def execOri (a : Agent) (rd ra : Reg5) (imm : BitVec 12) (s : State) : Result :=
  zis a (intZi false) (immFlags a rd ra (fun x f => intLogic (x ||| immOf false imm) f)) s
/-- XORI. -/
def execXori (a : Agent) (rd ra : Reg5) (imm : BitVec 12) (s : State) : Result :=
  zis a (intZi false) (immFlags a rd ra (fun x f => intLogic (x ^^^ immOf false imm) f)) s
/-- SHLI. -/
def execShli (a : Agent) (rd ra : Reg5) (sh : BitVec 6) (s : State) : Result :=
  zis a (intZi false) (immFlags a rd ra (fun x f => intShift .left false x (sh.zeroExtend 64) f)) s
/-- SHRI. -/
def execShri (a : Agent) (rd ra : Reg5) (sh : BitVec 6) (s : State) : Result :=
  zis a (intZi false) (immFlags a rd ra (fun x f => intShift .right false x (sh.zeroExtend 64) f)) s
/-- SARI. -/
def execSari (a : Agent) (rd ra : Reg5) (sh : BitVec 6) (s : State) : Result :=
  zis a (intZi false) (immFlags a rd ra (fun x f => intShift .arith false x (sh.zeroExtend 64) f)) s
/-- LEA. -/
def execLea (a : Agent) (rd ra : Reg5) (imm : BitVec 12) (s : State) : Result :=
  zis a (intZi false) (immPlain a rd ra (fun x => x + immOf false imm)) s
/-- MULI. -/
def execMuli (a : Agent) (rd ra : Reg5) (imm : BitVec 12) (s : State) : Result :=
  zis a (intZi false) (immPlain a rd ra (fun x => x * immOf false imm)) s
/-- ADR (R155, R175). -/
def execAdr (a : Agent) (rd : Reg5) (imm : BitVec 16) (s : State) : Result :=
  zis a (intZi false) (do putInt a rd ((← get).pcWord a + immOf false imm * 2)) s
/-- ADDSP (R152). -/
def execAddsp (a : Agent) (imm : BitVec 9) (s : State) : Result :=
  zis a (intZi true) (immPlain a 30 30 (fun x => x + imm.signExtend 64 * 8)) s
/-- NOP (R152). -/
def execNop (a : Agent) (s : State) : Result := zis a (intZi true) (pure .seq) s

end Sys2Proof.Machine
end

