-- ==== Sys2Proof/Machine/ZisCtl.lean ====
section
/-!
DEFINITION. Branches, calls, barriers, traps and the system instructions of ZIS (R151, R152, R158, R159, R165 to R167,
R184, R185, R196, R222, R238 to R248, R252, R316, R463).
-/

namespace Sys2Proof.Machine

/-! ## Branches (R151, R158, R165) -/

/-- The wrapper's view of a branch: no slot holds it (R166). -/
def brZi (short : Bool) : Zi := { len := if short then 2 else 4, slot := false }

/-- The same of a branch that takes a checkpoint (R221). -/
def ckptZi (short : Bool) : Zi := { brZi short with br := true }

/-- pc + sext(disp) × 2. -/
def relTarget {n : Nat} (pc : BitVec 48) (disp : BitVec n) : BitVec 48 := pc + disp.signExtend 48 * 2

/-- The address in a register, bit 0 ignored (R139). The spec does not say what bits [63:48] of the register do: the pc has
48 bits, and the model drops them, so that no such target meets the fault of an address that is not canonical (DESIGN
CHOICE, assumption log 156). -/
def regTarget (v : Word) : BitVec 48 := (v &&& ~~~ (1 : Word)).truncate 48

/-- BCC: a conditional branch that is not delayed; the 16-bit form has 9 bits of displacement. -/
def execBcc (a : Agent) (short : Bool) (cond : Cond) (disp : BitVec 18) (s : State) : Result :=
  zis a (ckptZi short) (do
    let pc := (← get).pcVal a
    let t := if short then relTarget pc (disp.truncate 9) else relTarget pc disp
    pure (.cond (condHolds cond (← rdFl a)) t)) s

/-- BCC_DELAYED: D = 1; `slotShort` is the length of the slot that an annulment skips. -/
def execBccDelayed (a : Agent) (cond : Cond) (annul : Bool) (disp : BitVec 18) (slotShort : Bool) (s : State) : Result :=
  zis a (ckptZi false) (do
    let t := relTarget ((← get).pcVal a) disp
    if condHolds cond (← rdFl a) then pure (.delay (some t))
    else if annul then pure (.annul (if slotShort then 2 else 4))
    else pure (.delay none)) s

/-- JMP. -/
def execJmp (a : Agent) (disp : BitVec 24) (s : State) : Result :=
  zis a (brZi false) (do pure (.jump (relTarget ((← get).pcVal a) disp) false)) s

/-! ## Calls (R184, R196, R222) -/

/-- A call pushes the return address with the context's tag; a full stack loses its oldest. -/
def rasPush (a : Agent) (link : Word) : Z Unit :=
  match a with
  | .core c => modify (fun s => s.modCore c.val (fun k => { k with ras := ((link.truncate 48, k.arch.context) :: k.ras).take 16 }))
  | .thread _ => pure ()

/-- A return pops it. -/
def rasPop (a : Agent) : Z Unit :=
  match a with
  | .core c => modify (fun s => s.modCore c.val (fun k => { k with ras := k.ras.drop 1 }))
  | .thread _ => pure ()

/-- The link, and the rotation forward. -/
def callWith (a : Agent) : Z Unit := do
  let link := (← get).pcWord a + 4
  rotateForward a link
  rasPush a link

/-- CALL. -/
def execCall (a : Agent) (disp : BitVec 24) (s : State) : Result :=
  zis a (brZi false) (do
    let t := relTarget ((← get).pcVal a) disp
    mayForward a
    callWith a
    pure (.jump t false)) s

/-- CALLR: ra is read in the window before the rotation. -/
def execCallr (a : Agent) (ra : Reg5) (s : State) : Result :=
  zis a (ckptZi false) (do
    mayForward a
    let t ← rdReg a ra
    callWith a
    pure (.jump (regTarget t) true)) s

/-- JR. -/
def execJr (a : Agent) (short : Bool) (ra : Reg5) (s : State) : Result :=
  zis a (ckptZi short) (do pure (.jump (regTarget (← rdReg a ra)) true)) s

/-- RET: x7 is read before the rotation back. -/
def execRet (a : Agent) (short : Bool) (s : State) : Result :=
  zis a (ckptZi short) (do
    mayBack a
    let t ← rdReg a 15
    rotateBack a
    rasPop a
    pure (.jump (regTarget t) true)) s

/-! ## Barriers (R316, R317, R463) -/

/-- No younger load takes what was read ahead of a barrier (R316); a barrier of a thread waits for every posted store
(R463, R465). -/
def ordered (a : Agent) : Z Unit :=
  match a with
  | .core c => modify (fun s => s.endEarly c.val)
  | .thread t => modify (fun s => s.threadRest t.val)

/-- LBAR: every older load has been performed, since a load is performed when it executes or before. -/
def execLbar (a : Agent) (short : Bool) (s : State) : Result :=
  zis a { intZi short with sys := true } (do ordered a; pure .seq) s

/-- Every retired store of a core is performed, once no other core holds a line of one (R324, R332). -/
def drainZ (c : Nat) : Z Unit := do
  let s ← get
  if s.drainBlocked c then throw .wait else set (s.drainSb c)

/-- The store buffer drains; a member's fold starts a new epoch (R346). A thread's posted stores are performed (R463). -/
def drain (a : Agent) (epoch : Bool) : Z Unit := do
  match a with
  | .core c =>
    drainZ c.val
    modify (fun s =>
      if epoch && s.inGroup c.val then s.modMem c.val (fun m => { m with epoch := m.epoch + 1 }) else s)
  | .thread t => modify (fun s => s.threadRest t.val)

/-- SBAR. -/
def execSbar (a : Agent) (short : Bool) (s : State) : Result :=
  zis a { intZi short with sys := true } (do drain a true; pure .seq) s

/-- FBAR: in a group it ends the instar. -/
def execFbar (a : Agent) (short : Bool) (s : State) : Result :=
  zis a { intZi short with ends := some 4, sys := true } (do drain a false; ordered a; pure .seq) s

/-! ## Traps and returns (R242 to R248, R252) -/

/-- TRAP: taken after the instruction; where the ring cannot open its trap window it is the instruction that raises the
double fault (R200). -/
def execTrap (a : Agent) (short : Bool) (n : BitVec 8) (s : State) : Result :=
  zis a { brZi short with sys := true } (do
    match a with
    | .thread _ => throw (.fault 10 0 n.toNat)
    | .core c =>
      if (← get).drainBlocked c.val then throw .wait else pure ()
      let x := ((← get).core c.val).arch
      let h := excMode x.mode.toNat 0x0E == 2
      if x.tw h = 1 then (if h then throw .hring
        else throw (.exc { vec := 0x0E, trapno := n.toNat }))
      else
        if h then pure () else ensureWindow c.val ((x.cur false + 1) % 12)
        pure (.trap n.toNat)) s

/-- The instruction requires S or H. -/
def needsS (c : CoreId) : Z Unit := do
  if ((← get).core c.val).arch.mode = 0 then privExc 0 else pure ()

/-- ERET (R248). -/
def execEret (a : Agent) (s : State) : Result :=
  zis a { brZi false with thr := false, ends := some 5, sys := true } (do
    match a with
    | .thread _ => illegal a
    | .core c =>
      needsS c
      rotateEret c.val
      ordered a
      pure .eret) s

/-- PARK (R252). -/
def execPark (a : Agent) (s : State) : Result :=
  zis a { brZi false with thr := false, ends := some 7, sys := true } (do
    match a with
    | .thread _ => illegal a
    | .core c =>
      needsS c
      drain a false
      ordered a
      pure .park) s

/-! ## System registers (R239, R240, R463) -/

/-- `mfs` on a thread: its identity; its issue slots since START, of which the model counts those that issued an instruction: the
slots in which it stood or waited are a free number on top, which the count keeps (assumption log 270). -/
def threadMfs (t : ThreadId) (csn : Nat) : Z Word := do
  if csn = 0 then pure (BitVec.ofNat 64 (0x300 + t.val))
  else if csn = 0x040 then
    let (v, s) := (← get).freeVal
    let n := (s.thread t.val).slots + v.truncate 64
    set (s.modThread t.val (fun k => { k with slots := n }))
    pure n
  else illegal (.thread t)

/-- MFS. -/
def execMfs (a : Agent) (rd : Reg5) (csn : BitVec 12) (s : State) : Result :=
  zis a { intZi false with sys := true } (do
    match a with
    | .core c => putInt a rd (← coreMfs c.val csn.toNat)
    | .thread t => putInt a rd (← threadMfs t csn.toNat)) s

/-- MTS. -/
def execMts (a : Agent) (csn : BitVec 12) (ra : Reg5) (s : State) : Result :=
  zis a { intZi false with thr := false, sys := true, pmc := csPmc csn.toNat } (do
    match a with
    | .thread _ => illegal a
    | .core c =>
      needs a (mtsMode csn.toNat).isSome
      let v ← rdRegAfter (mtsPriv c.val csn.toNat) a ra
      coreMts c.val csn.toNat v
      pure .seq) s

/-! ## Encodings that name no instruction (R135, R146) -/

/-- The illegal-instruction exception of a core, or a thread's fault, at a 16-bit or 32-bit encoding. -/
def zisIllegal (a : Agent) (short : Bool) (s : State) : Result := zis a (intZi short) (illegal a) s

end Sys2Proof.Machine
end

