-- ==== Sys2Proof/Machine/Debug.lean ====
section
/-!
DEFINITION. Debug (chapter 22): the authorisation, halting, stepping and resuming cores and threads, and what a debugger
reads and writes in them (R542, R558 to R566).
-/

namespace Sys2Proof.Machine

/-! ## Who may act (R560) -/

/-- Who may write a core's debug registers, while HALT is set. -/
def State.dbgMay (s : State) (src : Src) : Bool :=
  (s.srcIsH src || src == .jtag || src == .cocoon) && s.flag Fld.TR_AUTH_HALT 0

/-- The same for a thread's: of a secure engine, the Cocoon alone. -/
def State.sdbgMay (s : State) (t : Nat) (src : Src) : Bool :=
  s.dbgMay src && (src == .cocoon || !s.engineSecure (t / 8))

/-! ## Cores (R561 to R564) -/

/-- A core goes on: what halted it is forgotten, and no execute comparator acts on its next instruction (R563). -/
def State.unhalt (s : State) (c : Nat) (step stepInt : Bool) : State :=
  let s := s.modCore c (fun k => { k with halted := step, stepping := step, stepInt := stepInt, skipCmp := true })
  (s.setFld Fld.TR_DBG_HALTED c 0).setFld Fld.TR_DBG_HCAUSE c 0

/-- A machine check that was held is taken before the first instruction (R562): at once; in a group, at a cut. -/
def State.heldMcheck (s : State) (c : Nat) (step : Bool) : State :=
  if (s.core c).mchecks.isEmpty || (s.core c).arch.tw true != 0 then s
  else match s.groupOf c with
    | some g => if s.groupPrimary g = c then s.modGroup g (fun x => { x with cut := true, mc := true }) else s
    | none =>
      let t := (s.modCore c (fun k => { k with halted := false })).enterMcheck c
      if step then t.haltCore c 2 else t

/-- The cores that a debug command to one of them acts on (R564). -/
def State.dbgCores (s : State) (c : Nat) : List Nat :=
  match s.groupOf c with
  | some g => s.groupRunning g
  | none => [c]

/-- RESUME, or STEP (R563, R564). -/
def State.dbgGo (s : State) (c : Nat) (step stepInt : Bool) : State :=
  let cs := s.dbgCores c
  let s := cs.foldl (fun s d => s.unhalt d step stepInt) s
  cs.foldl (fun s d => s.heldMcheck d step) s

/-- HALT (R561, R564): a parked core is woken first, and so is a parked group, its last instar drained. A halt of a core that
FORM or ADMIT has committed waits until it is a member (R339). -/
def State.dbgHalt (s : State) (c : Nat) : State :=
  if s.forming c then s.modCore c (fun k => { k with haltDue := true })
  else match s.groupOf c with
    | none =>
      if (s.core c).run = .parked then
        let s := (s.icWakeIsland (coreIsland c)).modCore c (fun k => { k with haltDue := true })
        if s.islState (coreIsland c) = 1 then s.wakeCore c else s
      else if (s.core c).run = .running then s.haltCore c 1 else s
    | some g => s.haltJoined g c

/-- A core's island admits no debug halt: it is shut, and neither retained nor on its way there, from where a halt wakes
it (R252, R561). -/
def State.haltShut (s : State) (c : Nat) : Bool :=
  let j := coreIsland c
  !s.islOpen j && !(s.islState j == 3 || s.islState j == 4 || (s.islState j == 2 && !(s.island j).gating))

/-- A core is halted, and not on its way through a step (R561, R563). -/
def State.coreHalted (s : State) (c : Nat) : Bool := (s.core c).halted && !(s.core c).stepping

/-- A thread is halted, and not on its way through a step (R566). -/
def State.threadHalted (s : State) (t : Nat) : Bool := (s.thread t).run == .halted && !(s.thread t).stepping

/-- A write to TR_DBG_c (R560 to R564): the status, and the effect. -/
def State.dbgWrite (s : State) (c : Nat) (src : Src) (v : Word) : State :=
  let halted := s.coreHalted c
  let (st, s) : Nat × State :=
    if !s.dbgMay src then (stDenied, s)
    else match Fld.TR_DBG_CMD.of v with
      | 1 => if halted then (stOk, s) else if s.haltShut c then (stBusy, s) else (stOk, s.dbgHalt c)
      | 2 => if halted then (stOk, s.dbgGo c true (Fld.TR_DBG_STEPINT.of v == 1)) else (stBusy, s)
      | 3 => if halted then (stOk, s.dbgGo c false false) else (stBusy, s)
      | _ => (stOk, s)
  s.setFld Fld.TR_DBG_LAST_STATUS c st

/-- A write to TR_DSEL_c. -/
def State.dselWrite (s : State) (c : Nat) (src : Src) (v : Word) : State :=
  if s.dbgMay src then (s.codeWrite .TR_DSEL c v).setFld Fld.TR_DBG_LAST_STATUS c stOk
  else s.setFld Fld.TR_DBG_LAST_STATUS c stDenied

/-- What the selected register of a halted core holds (R562). -/
def State.dbgGet (s : State) (c : CoreId) : Word × State :=
  let n := s.fld Fld.TR_DSEL_NUM c.val
  let w := s.fld Fld.TR_DSEL_WORD c.val
  match s.fld Fld.TR_DSEL_CLASS c.val with
  | 0 =>
    match (rdReg (.core c) (BitVec.ofNat 5 n)).run s with
    | .ok v t => (v, t.made c.val (s.core c.val))
    | .error _ t => ((s.unmade t c.val).regVal (.core c) (BitVec.ofNat 5 n), s.unmade t c.val)
  | 1 => (((s.qVal c.val (BitVec.ofNat 5 n)) >>> (64 * w)).truncate 64, s)
  | 2 => ((mfsMode false n).elim 0 (fun _ => s.csVal c.val n), s)
  | 3 => ((s.core c.val).arch.pc.zeroExtend 64, s)
  | 4 => ((s.core c.val).arch.fl.zeroExtend 64, s)
  | _ => (0, s)

/-- The selected register of a halted core takes a value; a system register as an `mts` would write it (R562). -/
def State.dbgPut (s : State) (c : CoreId) (v : Word) : State :=
  let n := s.fld Fld.TR_DSEL_NUM c.val
  let w := s.fld Fld.TR_DSEL_WORD c.val
  match s.fld Fld.TR_DSEL_CLASS c.val with
  | 0 =>
    match (wrReg (.core c) (BitVec.ofNat 5 n) v).run s with
    | .ok _ t => t.made c.val (s.core c.val)
    | .error _ t => s.unmade t c.val
  | 1 =>
    let old := s.qVal c.val (BitVec.ofNat 5 n)
    let mask : QWord := (BitVec.allOnes 64).zeroExtend 256 <<< (64 * w)
    s.qSet c.val (BitVec.ofNat 5 n) ((old &&& ~~~ mask) ||| (v.zeroExtend 256 <<< (64 * w)))
  | 2 =>
    match mtsMode n with
    | none => s
    | some _ =>
      match (csWrite c.val 2 n v).run s with
      | .ok _ t => t.made c.val (s.core c.val)
      | .error _ t => s.unmade t c.val
  | 3 => s.modArch c.val (fun a => { a with pc := v.truncate 48 &&& ~~~ 1 })
  | 4 => s.modArch c.val (fun a => { a with fl := v.truncate 4 })
  | _ => s

/-- A write to TR_DDATA_c, while the core is halted (R562). -/
def State.ddataWrite (s : State) (c : CoreId) (src : Src) (v : Word) : State :=
  if !s.dbgMay src then s.setFld Fld.TR_DBG_LAST_STATUS c.val stDenied
  else if !s.coreHalted c.val then s.setFld Fld.TR_DBG_LAST_STATUS c.val stBusy
  else (s.dbgPut c v).setFld Fld.TR_DBG_LAST_STATUS c.val stOk

/-- A read of TR_DDATA_c, while the core is halted. -/
def State.ddataRead (s : State) (c : CoreId) : Word × State :=
  if !s.coreHalted c.val then (0, s.setFld Fld.TR_DBG_LAST_STATUS c.val stBusy)
  else
    let (v, s) := s.dbgGet c
    (v, s.setFld Fld.TR_DBG_LAST_STATUS c.val stOk)

/-! ## Threads (R566) -/

/-- RESUME, or STEP, of a halted thread. -/
def State.threadGo (s : State) (t : Nat) (step : Bool) : State :=
  let s := s.modThread t (fun k => { k with run := if step then .halted else .run, stepping := step, skipBrk := true })
  ((s.setFld Fld.SP_THR_STATE t 1).setFld Fld.TR_SDBG_HALTED t 0).setFld Fld.TR_SDBG_HCAUSE t 0

/-- A write to TR_SDBG_t. -/
def State.sdbgWrite (s : State) (t : Nat) (src : Src) (v : Word) : State :=
  let k := s.thread t
  let halted := s.threadHalted t
  let (st, s) : Nat × State :=
    if !s.sdbgMay t src then (stDenied, s)
    else match Fld.TR_SDBG_CMD.of v with
      | 1 => (stOk, if k.run = .run ∨ k.run = .wait ∨ (k.run = .halted ∧ k.stepping) then s.haltThread t 1 else s)
      | 2 => if halted then (stOk, s.threadGo t true) else (stBusy, s)
      | 3 => if halted then (stOk, s.threadGo t false) else (stBusy, s)
      | _ => (stOk, s)
  s.setFld Fld.TR_SDBG_LAST_STATUS t st

/-- A write to TR_SDSEL_t or TR_SBRK_t. -/
def State.sdselWrite (s : State) (r : Reg) (t : Nat) (src : Src) (v : Word) : State :=
  if s.sdbgMay t src then (s.codeWrite r t v).setFld Fld.TR_SDBG_LAST_STATUS t stOk
  else s.setFld Fld.TR_SDBG_LAST_STATUS t stDenied

/-- What the selected register of a halted thread holds. -/
def State.sdbgGet (s : State) (t : ThreadId) : Word × State :=
  let n := s.fld Fld.TR_SDSEL_NUM t.val
  match s.fld Fld.TR_SDSEL_CLASS t.val with
  | 0 => (s.regVal (.thread t) (BitVec.ofNat 5 n), s)
  | 2 =>
    match (threadMfs t n).run s with
    | .ok v u => (v, u)
    | .error _ u => (0, u)
  | 3 => ((s.thread t.val).pc.zeroExtend 64, s)
  | 4 => ((s.thread t.val).fl.zeroExtend 64, s)
  | _ => (0, s)

/-- The selected register of a halted thread takes a value. -/
def State.sdbgPut (s : State) (t : ThreadId) (v : Word) : State :=
  let n := s.fld Fld.TR_SDSEL_NUM t.val
  match s.fld Fld.TR_SDSEL_CLASS t.val with
  | 0 => s.regSet (.thread t) (BitVec.ofNat 5 n) v
  | 3 => s.modThread t.val (fun k => { k with pc := v.truncate 48 &&& ~~~ 1 })
  | 4 => s.modThread t.val (fun k => { k with fl := v.truncate 4 })
  | _ => s

/-- A write to TR_SDDATA_t. -/
def State.sddataWrite (s : State) (t : ThreadId) (src : Src) (v : Word) : State :=
  if !s.sdbgMay t.val src then s.setFld Fld.TR_SDBG_LAST_STATUS t.val stDenied
  else if !s.threadHalted t.val then s.setFld Fld.TR_SDBG_LAST_STATUS t.val stBusy
  else (s.sdbgPut t v).setFld Fld.TR_SDBG_LAST_STATUS t.val stOk

/-- A read of TR_SDDATA_t; of a secure engine's thread, by the Cocoon alone. -/
def State.sddataRead (s : State) (t : ThreadId) (src : Src) : Word × State :=
  if s.engineSecure (t.val / 8) && src != .cocoon then (0, s)
  else if !s.threadHalted t.val then (0, s.setFld Fld.TR_SDBG_LAST_STATUS t.val stBusy)
  else
    let (v, s) := s.sdbgGet t
    (v, s.setFld Fld.TR_SDBG_LAST_STATUS t.val stOk)

/-! ## The authorisation (R542, R565) -/

/-- Every halted core and thread goes on, as HALT is cleared (R565). -/
def State.resumeAll (s : State) : State :=
  let s := (List.range 160).foldl (fun s c => if (s.core c).halted then s.dbgGo c false false else s) s
  (List.range 256).foldl (fun s t => if (s.thread t).run = .halted then s.threadGo t false else s) s

/-- A write to TR_AUTH, from the Cocoon alone. -/
def State.authWrite (s : State) (src : Src) (v : Word) : State :=
  if src ≠ .cocoon then s
  else
    let was := s.flag Fld.TR_AUTH_HALT 0
    let s := s.codeWrite .TR_AUTH 0 v
    if was && !s.flag Fld.TR_AUTH_HALT 0 then s.resumeAll else s

/-! ## Commands -/

/-- AUTH_WRITE (R542). -/
def execAuthWrite (src : Src) (v : Word) (s : State) : Result :=
  .next (s.csrPort src .TR_AUTH 0 (fun s => s.authWrite src v))

/-- HALT (R561). -/
def execHalt (src : Src) (c : CoreId) (v : Word) (s : State) : Result :=
  .next (s.csrPort src .TR_DBG c.val (fun s => s.dbgWrite c.val src (withBits v 2 0 1)))

/-- STEP (R563). -/
def execStep (src : Src) (c : CoreId) (v : Word) (s : State) : Result :=
  .next (s.csrPort src .TR_DBG c.val (fun s => s.dbgWrite c.val src (withBits v 2 0 2)))

/-- RESUME (R563). -/
def execResume (src : Src) (c : CoreId) (v : Word) (s : State) : Result :=
  .next (s.csrPort src .TR_DBG c.val (fun s => s.dbgWrite c.val src (withBits v 2 0 3)))

/-- DEBUG_DATA_ACCESS (R562): a read or a write of TR_DDATA_c. -/
def execDebugDataAccess (src : Src) (c : CoreId) (write : Bool) (v : Word) (s : State) : Result :=
  .next (if write then s.csrPort src .TR_DDATA c.val (fun s => s.ddataWrite c src v)
    else if !s.srcLive src then s
    else if !s.unitUp .TR_DDATA then s.replyErr
    else
      let (w, s) := s.ddataRead c
      s.reply (w.zeroExtend 256))

/-- SPINNER_HALT (R566). -/
def execSpinnerHalt (src : Src) (t : ThreadId) (v : Word) (s : State) : Result :=
  .next (s.csrPort src .TR_SDBG t.val (fun s => s.sdbgWrite t.val src (withBits v 2 0 1)))

/-- SPINNER_STEP (R566). -/
def execSpinnerStep (src : Src) (t : ThreadId) (v : Word) (s : State) : Result :=
  .next (s.csrPort src .TR_SDBG t.val (fun s => s.sdbgWrite t.val src (withBits v 2 0 2)))

/-- SPINNER_RESUME (R566). -/
def execSpinnerResume (src : Src) (t : ThreadId) (v : Word) (s : State) : Result :=
  .next (s.csrPort src .TR_SDBG t.val (fun s => s.sdbgWrite t.val src (withBits v 2 0 3)))

/-- SPINNER_DEBUG_DATA_ACCESS (R566). -/
def execSpinnerDebugDataAccess (src : Src) (t : ThreadId) (write : Bool) (v : Word) (s : State) : Result :=
  .next (if write then s.csrPort src .TR_SDDATA t.val (fun s => s.sddataWrite t src v)
    else if !s.srcLive src then s
    else if !s.unitUp .TR_SDDATA then s.replyErr
    else
      let (w, s) := s.sddataRead t src
      s.reply (w.zeroExtend 256))

end Sys2Proof.Machine
end

