-- ==== Sys2Proof/Machine/Cocoon.lean ====
section
/-!
DEFINITION. The Cocoon (chapter 21): its mailboxes and services, and the override notice.
-/

namespace Sys2Proof.Machine

/-! ## Status codes (R527) -/

def ckBadRequest : Nat := 0x30
def ckSigBad : Nat := 0x31
def ckTagBad : Nat := 0x32
def ckNoKey : Nat := 0x33
def ckKeyDenied : Nat := 0x34
def ckCertBad : Nat := 0x35
def ckEntropy : Nat := 0x36

/-! ## The override notice (R538) -/

/-- A write to CK_NOTE (R538): from the Reeve alone. -/
def State.noteWrite (s : State) (src : Src) (v : Word) : State :=
  if src ≠ .reeve then s
  else s.ringNote (Fld.CK_NOTE_CAUSE.of v)

/-- OVERRIDE_NOTICE (R538). -/
def execOverrideNotice (src : Src) (v : Word) (s : State) : Result :=
  .next (s.csrPort src .CK_NOTE 0 (fun s => s.noteWrite src v))

/-! ## Mailboxes (R524, R525) -/

/-- COCOON_SLOT_OWN_WRITE (R524). -/
def execCocoonSlotOwnWrite (src : Src) (m : MbxId) (v : Word) (s : State) : Result :=
  .next (s.csrPort src .CK_OWN m.val (fun s => s.ckOwnWrite m.val src v))

/-- COCOON_DOORBELL (R524). -/
def execCocoonDoorbell (src : Src) (m : MbxId) (v : Word) (s : State) : Result :=
  .next (s.csrPort src .CK_CMD m.val (fun s => s.ckDoorbell m.val src v))

/-- COCOON_CALL_TIMEOUT (R524). -/
def execCocoonCallTimeout (m : MbxId) (s : State) : Result :=
  .next (if s.clockRuns then s.ckExpire m.val else s)

/-- MESSAGE_WRITE (R525). -/
def execMessageWrite (src : Src) (m : MbxId) (i : Fin 8) (v : Word) (s : State) : Result :=
  .next (s.csrPort src .CK_MSG (8 * m.val + i.val) (fun s => s.ckMsgWrite m.val i.val src v))

/-! ## Services: callers and buffers (R526) -/

/-- The bytes of a number, lowest first. -/
def natBytes (v : Nat) : Nat → List Byte
  | 0 => []
  | n + 1 => BitVec.ofNat 8 v :: natBytes (v / 256) n

/-- Read a request's buffer: with NS = 1 unless the caller is secure; the staging words of debug included (R526, R553). -/
def State.ckFetch (s : State) (sec : Bool) (pa n : Nat) : Option (List Byte) × State :=
  if 0xFE0A008000 ≤ pa ∧ pa + n ≤ 0xFE0A009000 then
    (some ((List.range n).map (fun k =>
      let o := pa + k - 0xFE0A008000
      BitVec.ofNat 8 ((s.csrGet .TR_STAGE (o / 8)).toNat >>> (8 * (o % 8))))), s)
  else
    let ns := s.capNs
    match ({ s with capNs := !sec }).bulkRead .cocoon pa n none (n + 1) with
    | (.ok v, s) => (some (natBytes v n), { s with capNs := ns })
    | (.error _, s) => (none, { s with capNs := ns })

/-- Write a reply's buffer; whether it was accepted. -/
def State.ckPut (s : State) (sec : Bool) (pa : Nat) (b : List Byte) : Bool × State :=
  let ns := s.capNs
  match ({ s with capNs := !sec }).bulkWrite .cocoon pa b.length (bytesNat b) none (b.length + 1) with
  | (none, s) => (true, { s with capNs := ns })
  | (some _, s) => (false, { s with capNs := ns })

/-- The codes of R526's services. -/
def ckNamed (code : Nat) : Bool := decide (1 ≤ code) && decide (code ≤ 0x0C)

/-- The Cocoon's firmware, while it runs, comes to a call that it has taken: with this service's code it runs the service; with a
code that names none, BAD_REQUEST is the answer (R527), whichever service's command comes (DESIGN CHOICE, assumption log 344). -/
def State.ckService (s : State) (m code : Nat) (k : State → State) : Result :=
  .next (if s.cocoon.run != .running then s
    else if s.ckServing m code then k s
    else if (s.ckSlot m).taken && !ckNamed (s.ckSlot m).code then s.ckReply m ckBadRequest
    else s)

/-- The callers "H" and "JTAG" of R526: JTAG debug counts apart from a core in H mode. -/
def Slot.callerH (k : Slot) : Bool := k.hmode && k.src != 0x202
def Slot.callerJtag (k : Slot) : Bool := k.src == 0x202

/-- A key slot. -/
def State.keySlot (s : State) (i : Nat) : KeySlot := FMap.get s.keys {} i

/-- Whether a key slot admits a source (R526, R527). -/
def keyAdmits (k : KeySlot) (src : Nat) : Bool := (src &&& k.mask) == (k.value &&& k.mask)

/-- The key of slot `i` for a use that needs keys of one kind: the status, or the key. -/
def State.ckKey (s : State) (i kind src : Nat) : Except Nat KeySlot :=
  let k := s.keySlot i
  if 63 < i then .error ckBadRequest
  else if !k.used then .error ckNoKey
  else if !keyAdmits k src then .error ckKeyDenied
  else if k.kind ≠ kind then .error ckBadRequest
  else .ok k

/-- The health test of the generator fails: the status, and a record (R527). -/
def State.ckEntropyFails (s : State) (m : Nat) : State :=
  (s.logErr { unit := 252, sev := 2, type := 0x38 }).ckReply m ckEntropy

/-- Draw random bits. -/
def State.draw (s : State) : BitVec 512 × State := (Config.random s.draws, { s with draws := s.draws + 1 })

/-- The words of a bit string, lowest first. -/
def wordsOf (n : Nat) (v : Nat) : List Word := (List.range n).map (fun i => BitVec.ofNat 64 (v >>> (64 * i)))

/-- A byte string's digest as bits: curve 0 hashes with SHA-256, curve 1 with SHA-384. -/
def digestOf (curve : Nat) (b : List Byte) : BitVec 384 :=
  if curve = 0 then (Config.sha256 b).zeroExtend 384 else Config.sha384 b

/-- The bytes of a public key (uncompressed) and of a signature of a curve. -/
def pubLen (curve : Nat) : Nat := if curve = 0 then 65 else 97
def sigLen (curve : Nat) : Nat := if curve = 0 then 64 else 96

/-! ## Services (R526) -/

/-- VERSION. -/
def execCocoonVersion (m : MbxId) (s : State) : Result :=
  s.ckService m.val 0x01 (fun s =>
    s.ckReply m.val stOk [Config.cocoonRomVersion, s.cocoonVer.zeroExtend 64])

/-- RANDOM. -/
def execRandom (m : MbxId) (entropyFail : Bool) (s : State) : Result :=
  s.ckService m.val 0x02 (fun s =>
    let n := s.ckWord m.val 0
    if n < 1 ∨ 56 < n then s.ckReply m.val ckBadRequest
    else if entropyFail then s.ckEntropyFails m.val
    else
      let (r, s) := s.draw
      s.ckReply m.val stOk (wordsOf 7 r.toNat))

/-- HASH. -/
def execHash (m : MbxId) (s : State) : Result :=
  s.ckService m.val 0x03 (fun s =>
    let alg := s.ckWord m.val 0
    let n := s.ckWord m.val 2
    if 1 < alg ∨ 2 ^ 24 < n then s.ckReply m.val ckBadRequest
    else match s.ckFetch (s.ckSlot m.val).sec (s.ckWord m.val 1) n with
      | (some b, s) => s.ckReply m.val stOk (wordsOf (if alg = 0 then 4 else 6) (digestOf alg b).toNat)
      | (none, s) => s.ckReply m.val ckBadRequest)

/-- The public key that VERIFY uses: the slot's, or the one at the address of w2. -/
def State.verifyKey (s : State) (m curve : Nat) (sec : Bool) : Except Nat (List Byte) × State :=
  let i := s.ckWord m 1
  if i = 0xFFFF then
    match s.ckFetch sec (s.ckWord m 2) (pubLen curve) with
    | (some b, s) => (.ok b, s)
    | (none, s) => (.error ckBadRequest, s)
  else if 63 < i then (.error ckBadRequest, s)
  else if !(s.keySlot i).used then (.error ckNoKey, s)
  else if (s.keySlot i).kind ≠ curve + 1 then (.error ckBadRequest, s)
  else (.ok (Config.ecdsaPublic curve (s.keySlot i).key), s)

/-- VERIFY. -/
def execVerify (m : MbxId) (s : State) : Result :=
  s.ckService m.val 0x04 (fun s =>
    let curve := s.ckWord m.val 0
    let sec := (s.ckSlot m.val).sec
    if 1 < curve then s.ckReply m.val ckBadRequest
    else match s.verifyKey m.val curve sec with
      | (.error e, s) => s.ckReply m.val e
      | (.ok key, s) =>
        match s.ckFetch sec (s.ckWord m.val 3) (s.ckWord m.val 4) with
        | (none, s) => s.ckReply m.val ckBadRequest
        | (some msg, s) =>
          match s.ckFetch sec (s.ckWord m.val 5) (sigLen curve) with
          | (none, s) => s.ckReply m.val ckBadRequest
          | (some sig, s) =>
            s.ckReply m.val (if Config.ecdsaVerifies curve key (digestOf curve msg) sig then stOk else ckSigBad))

/-- SIGN. -/
def execSign (m : MbxId) (entropyFail : Bool) (s : State) : Result :=
  s.ckService m.val 0x05 (fun s =>
    let w := s.ckWord m.val 0
    let curve := w % 256
    let k := s.ckSlot m.val
    if 1 < curve then s.ckReply m.val ckBadRequest
    else match s.ckKey (s.ckWord m.val 1) (curve + 1) k.src with
      | .error e => s.ckReply m.val e
      | .ok key =>
        if entropyFail then s.ckEntropyFails m.val
        else
          let digest : Nat := (List.range (if curve = 0 then 4 else 6)).foldl (fun d i =>
            d + s.ckWord m.val (i + 2) * 2 ^ (64 * i)) 0
          let sig := (Config.ecdsaSign curve key.key (BitVec.ofNat 384 digest)).take (sigLen curve)
          if curve = 0 then s.ckReply m.val stOk (wordsOf 8 (bytesNat sig))
          else
            let (ok, s) := s.ckPut k.sec (w / 2 ^ 16) sig
            if ok then s.ckReply m.val stOk [0] else s.ckReply m.val ckBadRequest)

/-- The inputs that SEAL and OPEN have in common: the key, the data, the associated data and the IV. -/
def State.gcmInputs (s : State) (m : Nat) : Except Nat (List Byte × List Byte × List Byte × List Byte) × State :=
  let k := s.ckSlot m
  match s.ckKey (s.ckWord m 0) 0 k.src with
  | .error e => (.error e, s)
  | .ok key =>
    match s.ckFetch k.sec (s.ckWord m 1) (s.ckWord m 3) with
    | (none, s) => (.error ckBadRequest, s)
    | (some data, s) =>
      match s.ckFetch k.sec (s.ckWord m 4) (s.ckWord m 5) with
      | (none, s) => (.error ckBadRequest, s)
      | (some aad, s) =>
        let iv := natBytes (s.ckWord m 6 + s.ckWord m 7 % 2 ^ 32 * 2 ^ 64) 12
        (.ok (natBytes key.key.toNat 32, data, aad, iv), s)

/-- SEAL. -/
def execSeal (m : MbxId) (s : State) : Result :=
  s.ckService m.val 0x06 (fun s =>
    match s.gcmInputs m.val with
    | (.error e, s) => s.ckReply m.val e
    | (.ok (key, data, aad, iv), s) =>
      let (out, tag) := Config.gcmSeal key iv aad data
      let (ok, s) := s.ckPut (s.ckSlot m.val).sec (s.ckWord m.val 2) (out.take data.length)
      if ok then s.ckReply m.val stOk (wordsOf 2 (bytesNat tag)) else s.ckReply m.val ckBadRequest)

/-- OPEN: the request has no place for the tag, so the tag presented is a free value; no output unless it verifies. -/
def execCocoonOpen (m : MbxId) (s : State) : Result :=
  s.ckService m.val 0x07 (fun s =>
    match s.gcmInputs m.val with
    | (.error e, s) => s.ckReply m.val e
    | (.ok (key, data, aad, iv), s) =>
      let (out, tag) := Config.gcmOpen key iv aad data
      let (given, s) := s.freeVal
      if natBytes given.toNat 16 ≠ tag then s.ckReply m.val ckTagBad
      else
        let (ok, s) := s.ckPut (s.ckSlot m.val).sec (s.ckWord m.val 2) (out.take data.length)
        if ok then s.ckReply m.val stOk else s.ckReply m.val ckBadRequest)

/-- KEY_GEN: the lowest empty slot takes a fresh key. -/
def execKeyGen (m : MbxId) (entropyFail : Bool) (s : State) : Result :=
  s.ckService m.val 0x08 (fun s =>
    let k := s.ckSlot m.val
    let kind := s.ckWord m.val 0
    let who := s.ckWord m.val 1
    if !(k.callerH || k.sec) then s.ckReply m.val stDenied
    else if 2 < kind then s.ckReply m.val ckBadRequest
    else match (List.range 64).find? (fun i => !(s.keySlot i).used) with
      | none => s.ckReply m.val ckNoKey
      | some i =>
        if entropyFail then s.ckEntropyFails m.val
        else
          let (r, s) := s.draw
          let key : BitVec 384 := if kind = 2 then r.truncate 384 else (r.truncate 256).zeroExtend 384
          let made : KeySlot := { used := true, kind := kind, value := who % 4096, mask := who / 4096 % 4096, key := key }
          let (ok, s) := if kind = 0 then (true, s)
            else s.ckPut k.sec (s.ckWord m.val 2) ((Config.ecdsaPublic (kind - 1) key).take (pubLen (kind - 1)))
          if ok then ({ s with keys := FMap.set s.keys i made }).ckReply m.val stOk [BitVec.ofNat 64 i]
          else s.ckReply m.val ckBadRequest)

/-- KEY_DEL. -/
def execKeyDel (m : MbxId) (s : State) : Result :=
  s.ckService m.val 0x09 (fun s =>
    let k := s.ckSlot m.val
    let i := s.ckWord m.val 0
    if !(k.callerH || k.sec) then s.ckReply m.val stDenied
    else if 63 < i then s.ckReply m.val ckBadRequest
    else if !(s.keySlot i).used then s.ckReply m.val ckNoKey
    else if !keyAdmits (s.keySlot i) k.src then s.ckReply m.val ckKeyDenied
    else ({ s with keys := FMap.set s.keys i {} }).ckReply m.val stOk)

/-- A world switch of the debug authorisation: TR_AUTH, and the flush of secure lines (R537, R542). -/
def State.debugScope (s : State) (scope : Nat) : State :=
  let s := s.authWrite .cocoon (BitVec.ofNat 64 scope)
  s.secureFlushAll

/-- DEBUG_AUTH (R526, R537, R542, R595). -/
def execDebugAuth (m : MbxId) (s : State) : Result :=
  s.ckService m.val 0x0A (fun s =>
    let k := s.ckSlot m.val
    let n := s.ckWord m.val 1
    if !(k.callerH || k.callerJtag) then s.ckReply m.val stDenied
    else if s.fuseOpt 5 ∨ s.fuseField 1920 384 = 0 ∨ 4096 < n then s.ckReply m.val ckCertBad
    else match s.ckFetch k.sec (s.ckWord m.val 0) n with
      | (none, s) => s.ckReply m.val ckBadRequest
      | (some b, s) =>
        match Config.debugCert (BitVec.ofNat 384 (s.fuseField 1920 384)) b with
        | none => s.ckReply m.val ckCertBad
        | some scope => (s.debugScope scope.toNat).ckReply m.val stOk [scope.zeroExtend 64])

/-- DEBUG_REVOKE (R526, R537, R542). -/
def execDebugRevoke (m : MbxId) (s : State) : Result :=
  s.ckService m.val 0x0B (fun s =>
    let k := s.ckSlot m.val
    if !(k.callerH || k.callerJtag) then s.ckReply m.val stDenied
    else (s.debugScope 0).ckReply m.val stOk)

/-- IMAGE_CHECK (R523): an extension, or a replacement Reeve image signed with the customer Reeve key. It is copied into private
SRAM, verified there and, when accepted, handed over. -/
def execImageCheck (m : MbxId) (s : State) : Result :=
  s.ckService m.val 0x0C (fun s =>
    let k := s.ckSlot m.val
    let kind := s.ckWord m.val 0
    if k.src ≠ 0x200 then s.ckReply m.val stDenied
    else if kind ≠ 1 ∧ kind ≠ 2 then s.ckReply m.val ckBadRequest
    else match s.ckFetch k.sec (s.ckWord m.val 1) (s.ckWord m.val 2) with
      | (none, s) => s.ckReply m.val ckBadRequest
      | (some b, s) =>
        let ik := if kind = 1 then 4 else 2
        let s := s.stage b
        if s.imgAccepted ik b && (kind == 1 || imgKeysel b == 1) then
          let s := (s.commitImage ik b).handOver
          (if kind = 2 then s.replaceReeve else s).ckReply m.val stOk [BitVec.ofNat 64 (imgVersion b)]
        else s.ckReply m.val ckCertBad)

end Sys2Proof.Machine
end

