-- ==== Sys2Proof/Machine/IrqCmd.lean ====
section
/-!
DEFINITION. The commands of the interrupt controller (chapter 15): inputs and events, claims, completions and writes.
-/

namespace Sys2Proof.Machine

/-- The controller runs: its island F is open. -/
def State.icRuns (s : State) : Bool := s.islOpen 20

/-- SOURCE_INPUT_CHANGE (R371): a level source's input follows its producer. -/
def execSourceInputChange (n : IcSource) (s : State) : Result :=
  .next (if s.icRuns && !icIsEvent n.val then (s.icInput n.val (s.producerLevel n.val)).icSettle s else s)

/-- SOURCE_EVENT (R371): an event source's latch sets. -/
def execSourceEvent (n : IcSource) (s : State) : Result :=
  .next (if s.icRuns && icIsEvent n.val then s.icEvent n.val else s)

/-- CLAIM (R377): a read of IC_CLAIM_t. -/
def execClaim (src : Src) (t : IcTarget) (s : State) : Result :=
  .next (if !s.srcLive src then s
    else if !s.unitUp .IC_CLAIM then s.replyErr
    else
      let (w, s) := s.icClaim src t.val
      s.icFell.reply (w.zeroExtend 256))

/-- COMPLETE (R379): the running priority that falls, and the source that is sampled again, may raise a level (R376). -/
def execComplete (src : Src) (t : IcTarget) (v : Word) (s : State) : Result :=
  .next (s.csrPort src .IC_COMPLETE t.val (fun s => (s.icComplete src t.val v).icSettle s))

/-- TARGET_CTL_WRITE (R382, R387). -/
def execTargetCtlWrite (src : Src) (t : IcTarget) (v : Word) (s : State) : Result :=
  .next (s.csrPort src .IC_TCTL t.val (fun s => (s.icTctlWrite src t.val v).icSettle s))

/-- SOURCE_CONFIG_WRITE (R373). -/
def execSourceConfigWrite (src : Src) (n : IcSource) (v : Word) (s : State) : Result :=
  .next (s.csrPort src .IC_SRC n.val (fun s => (s.icSrcWrite src n.val v).icSettle s))

/-- A write to IC_SWI_SET (R386): the latch of source 10,240 + NUM. -/
def State.swiWrite (s : State) (src : Src) (v : Word) : State :=
  if swiAccepts src then s.icEvent (10240 + Fld.IC_SWI_SET_NUM.of v) else s

/-- SWI_SET (R370). -/
def execSwiSet (src : Src) (v : Word) (s : State) : Result :=
  .next (s.csrPort src .IC_SWI_SET 0 (fun s => s.swiWrite src v))

end Sys2Proof.Machine
end

