-- ==== Sys2Proof/Machine/Perf.lean ====
section
/-!
DEFINITION. Performance counters (chapter 23): freezing, snapshots and the register views (R574 to R582).
-/

namespace Sys2Proof.Machine

/-- Who may use the PM_ window (R581). -/
def State.pmMay (s : State) (src : Src) : Bool := s.srcSys src || src == .cocoon

/-- The status of a write to the PM_ window. -/
def State.pmStatus (s : State) (st : Nat) : State := s.setFld Fld.PM_GSTAT_LAST_STATUS 0 st

/-! ## Snapshots (R577 to R579) -/

/-- A core captures its counters; one whose island is not ON keeps its snapshot registers (R579). -/
def State.snapCore (s : State) (c : Nat) : State :=
  if s.islState (coreIsland c) ≠ 1 then s.setFld Fld.PM_CSTAT_VALID c 0
  else
    let a := (s.core c).arch
    let s := (List.range 8).foldl (fun s i =>
      s.csrSet .PM_CSNAP (8 * c + i) (BitVec.ofNat 64 (a.csf CsFld.PMC_COUNT i))) s
    (s.setFld Fld.PM_CSTAT_VALID c 1).setFld Fld.PM_CSTAT_SEQ c (s.fld Fld.PM_GSTAT_SEQ 0 + 1)

/-- A unit's counters are captured, from counter `b` up. -/
def State.snapUnit (s : State) (cnt snap : Reg) (b n : Nat) : State :=
  (List.range n).foldl (fun s i => s.csrSet snap (b + i) (s.csrGet cnt (b + i))) s

/-- A snapshot's trigger: the stamp, the captures, and the distribution that SNAPSHOT_DONE ends (R577). -/
def State.snapTrigger (s : State) : State :=
  let s := (s.setFld Fld.PM_GSTAT_BUSY 0 1).setFld Fld.PM_GSNAPTS_TS 0 s.ts48
  let s := (List.range 160).foldl (fun s c => s.snapCore c) s
  let s := s.snapUnit .PM_LCNT .PM_LSNAP 0 320
  { s.snapUnit .PM_HCNT .PM_HSNAP 0 512 with pmSnap := true }

/-- A write to PM_GCTL (R577, R578, R581). -/
def State.gctlWrite (s : State) (src : Src) (v : Word) : State :=
  let snap := Fld.PM_GCTL_SNAP.of v == 1
  let change := Fld.PM_GCTL_FREEZE.of v != s.fld Fld.PM_GCTL_FREEZE 0
  if !s.pmMay src then s.pmStatus stDenied
  else if s.flag Fld.PM_GSTAT_BUSY 0 && (snap || change) then s.pmStatus stBusy
  else
    let s := (s.codeWrite .PM_GCTL 0 v).pmStatus stOk
    if snap then s.snapTrigger
    else if change then s.setFld Fld.PM_GSTAT_BUSY 0 1 else s

/-- SNAP (R577). -/
def execSnap (src : Src) (v : Word) (s : State) : Result :=
  .next (s.csrPort src .PM_GCTL 0 (fun s => s.gctlWrite src (withBits v 8 8 1)))

/-- FREEZE (R577): a write of PM_GCTL that takes no snapshot. -/
def execFreeze (src : Src) (v : Word) (s : State) : Result :=
  .next (s.csrPort src .PM_GCTL 0 (fun s => s.gctlWrite src (withBits v 8 8 0)))

/-- The bell counter runs on to the next tick that TICK selects: a FRAC wrap, a LOCK window boundary, or a FRAC value
floor(k 2^32 / 100) (PM_GCTL). -/
def State.toTick (s : State) : State :=
  let n := if s.fld Fld.PM_GCTL_TICK 0 = 1 then 1 else if s.fld Fld.PM_GCTL_TICK 0 = 2 then 10000 else 100
  s.advance (s.cyclesTo (s.toFrac (bellBoundary n (s.bell80.toNat % 2 ^ 32))))

/-- SNAPSHOT_TICK: the tick that TICK selects comes (R578). -/
def execSnapshotTick (s : State) : Result :=
  .next (if s.fld Fld.PM_GCTL_TICK 0 = 0 ∨ !s.clockRuns ∨ !s.islOpen 20 then s
    else
    let s := s.toTick
    if s.flag Fld.PM_GSTAT_BUSY 0 then s.satField Fld.PM_GSTAT_MISSED 0
    else s.snapTrigger)

/-- SNAPSHOT_DONE: every captured value is held (R577). -/
def execSnapshotDone (s : State) : Result :=
  .next (if !s.flag Fld.PM_GSTAT_BUSY 0 then s
    else
      let s := if s.pmSnap then s.incField Fld.PM_GSTAT_SEQ 0 else s
      { s.setFld Fld.PM_GSTAT_BUSY 0 0 with pmSnap := false })

/-! ## Register views (R580, R581) -/

/-- A write to a register of the PM_ window: CHAIN is reserved in even counters (R574). -/
def State.pmWrite (s : State) (r : Reg) (i : Nat) (src : Src) (v : Word) : State :=
  if r = .PM_GCTL then s.gctlWrite src v
  else if !s.pmMay src then s.pmStatus stDenied
  else
    let v := if (r == .PM_LSEL || r == .PM_HSEL) && i % 2 == 0 then withBits v 2 2 0 else v
    (s.codeWrite r i v).pmStatus stOk

/-- A read of a register of the PM_ window; `none` is an error response. -/
def State.pmRead (s : State) (r : Reg) (i : Nat) (src : Src) : Option Word :=
  let c := match r with
    | .PM_CCNT => i / 8
    | .PM_CEV => i / 8
    | _ => i
  if !s.pmMay src then some 0
  else match r with
    | .PM_CSTAT => some (withBits (s.csrGet r i) 0 0 (bit (s.islState (coreIsland c) == 1)))
    | .PM_CCNT => if s.islState (coreIsland c) = 1 then some (s.csVal c (0x300 + i % 8)) else none
    | .PM_CEV => some (s.csVal c (0x308 + i % 8))
    | .PM_CCTL => some (s.csVal c 0x310)
    | _ => some (s.csrGet r i)

end Sys2Proof.Machine
end

