-- ==== Sys2Proof/Machine/Csr.lean ====
section
/-!
DEFINITION. CSR space (R3 to R13, R22): what a write of any register does and what a read of it returns, by window, and
the two commands that write a register by its address.
-/

namespace Sys2Proof.Machine

/-! ## Writes by window -/

/-- A write to the power block (R66, R80, R89). -/
def State.pwCsrWrite (s : State) (r : Reg) (i : Nat) (src : Src) (v : Word) : State :=
  match r with
  | .PW_VSET => s.vsetWrite i src v
  | .PW_RCTL => s.rctlWrite i src v
  | .PW_THERM => s.thermWrite v
  | .PW_HOLD_ISL => if src = .cocoon then (s.codeWrite r 0 v).holdChanged else s
  | .PW_HOLD_GR => if src = .cocoon then (s.codeWrite r 0 v).holdChanged else s
  | r => s.codeWrite r i v

/-- A write to the time base (R92 to R107). -/
def State.tbCsrWrite (s : State) (r : Reg) (i : Nat) (src : Src) (v : Word) : State :=
  match r with
  | .TB_CTL => s.tbCtlWrite v
  | .TB_STAT => s.tbStatWrite v
  | .TB_ADDEND => s.addendWrite src v
  | .TB_SLEW => s.slewWrite src v
  | .TB_SECSET => s.secsetWrite v
  | .TB_PPSOUT => s.ppsoutWrite v
  | .TB_CMP_OWN => s.cmpOwnWrite i src v
  | .TB_CMP_TGT => s.cmpTgtWrite i src v
  | .TB_CMP_PER => s.cmpPerWrite i src v
  | .TB_CMP_CTL => s.cmpCtlWrite i src v
  | r => s.codeWrite r i v

/-- A write to the Reeve's mailboxes (R127). -/
def State.rvCsrWrite (s : State) (r : Reg) (i : Nat) (src : Src) (v : Word) : State :=
  match r with
  | .RV_OWN => s.slotOwnWrite i src v
  | .RV_CMD => s.doorbell i src v
  | r => s.slotRegWrite r i src v

/-- A write to the check groups (R336). -/
def State.cgCsrWrite (s : State) (r : Reg) (i : Nat) (src : Src) (v : Word) : State :=
  match r with
  | .CG_CFG => s.cgCfgWrite src v
  | .CG_DEF => s.cgDefWrite i src v
  | .CG_CMD => s.cgCmd i src v
  | _ => s

/-- A write to the interrupt controller (R386, R387). -/
def State.icCsrWrite (s : State) (r : Reg) (i : Nat) (src : Src) (v : Word) : State :=
  match r with
  | .IC_SWI_SET => s.swiWrite src v
  | .IC_SRC => (s.icSrcWrite src i v).icSettle s
  | .IC_TCTL => (s.icTctlWrite src i v).icSettle s
  | .IC_COMPLETE => (s.icComplete src i v).icSettle s
  | _ => s

/-- A write to the memory controllers, stacks, map block and LLC slices (R308, R393, R401). A pattern run that a plain
register write starts meets no lane in error, and the 1500 port shifts out a free value. -/
def State.mcCsrWrite (s : State) (r : Reg) (i : Nat) (src : Src) (v : Word) : State :=
  match r with
  | .MC_PCCTL => s.pcctlWrite i src v
  | .MC_SCRUB => s.scrubWrite i src v
  | .MC_INJ => s.pcWrite r i src v
  | .MC_ECC => s.pcWrite r i src v
  | .MC_PGEN => s.pgenWrite i src v 0
  | .MC_1500 =>
    let (f, s) := s.freeVal
    s.p1500Write i src v (f.truncate 64)
  | .MC_RAWCMD => s.rawWrite i src v
  | .MC_ILV => s.ilvWrite src v
  | .MC_HINT => if s.mcMapper src then s.codeWrite r i v else s
  | .MC_MIR => s.mirWriteReg i src v
  | .MC_LLC_CTL => s.llcCtlWrite i src v
  | .MC_LLC_SECFLUSH =>
    if src = .cocoon ∧ Fld.MC_LLC_SECFLUSH_GO.of v = 1 then s.setFld Fld.MC_LLC_SECFLUSH_DONE i 0 else s
  | r => s.trainWrite r i src v

/-- A write to the Granary's registers (R425, R432). -/
def State.grCsrWrite (s : State) (r : Reg) (i : Nat) (src : Src) (v : Word) : State :=
  match r with
  | .GR_CMD => s.granCmd i src v
  | .GR_CONF => s.granConfWrite i src v
  | _ => s

/-- A write to the ports and Spinners (R434, R452, R455, R471). -/
def State.ptCsrWrite (s : State) (r : Reg) (i : Nat) (src : Src) (v : Word) : State :=
  if r.isPortSet then s.ptWrite r i src v
  else match r with
    | .PT_CBS => s.cbsWrite i src v
    | .PT_CBC => s
    | .PT_GPIO => s.gpioWrite r src v
    | .PT_GPIO_OSET => s.gpioWrite r src v
    | .PT_GPIO_OCLR => s.gpioWrite r src v
    | .PT_SVC_CTL => s.svcWrite r src v
    | .PT_SVC_RXB => s.svcWrite r src v
    | .PT_SVC_TXB => s.svcWrite r src v
    | .PT_SVC_IDX => s.svcWrite r src v
    | .PT_MDIO => s.svcWrite r src v
    | r => s.spWrite r i src v

/-- A write to the queue engine (R483, R484, R493, R494). -/
def State.qeCsrWrite (s : State) (r : Reg) (i : Nat) (src : Src) (v : Word) : State :=
  match r with
  | .QE_FM_CMD => s.fmCmd src v
  | .QE_MISS => s.missWrite i src v
  | .QE_CFG => s.qCfgWrite i src v
  | .QE_HOST => s.qHostWrite i src v
  | .QE_PTR => s.qPtrWrite i src v
  | .QE_DMA_CTL => s.dmaCtlWrite i src v
  | _ => s

/-- A write to the Cocoon's blocks (R524, R525, R530, R538). -/
def State.ckCsrWrite (s : State) (r : Reg) (i : Nat) (src : Src) (v : Word) : State :=
  match r with
  | .CK_OWN => s.ckOwnWrite i src v
  | .CK_CMD => s.ckDoorbell i src v
  | .CK_STAT => s.ckRegWrite r i src v
  | .CK_MSG => s.ckMsgWrite (i / 8) (i % 8) src v
  | .CK_FWA => s.fwRegionWrite false false i src v
  | .CK_FWB => s.fwRegionWrite false true i src v
  | .CK_GFWA => s.fwRegionWrite true false i src v
  | .CK_GFWB => s.fwRegionWrite true true i src v
  | .CK_FWCTL => s.fwCtl false i src v
  | .CK_GFWCTL => s.fwCtl true i src v
  | .CK_NOTE => s.noteWrite src v
  | _ => s

/-- A write to trace and debug (R542, R553, R560, R566). -/
def State.trCsrWrite (s : State) (r : Reg) (i : Nat) (src : Src) (v : Word) : State :=
  match r with
  | .TR_AUTH => s.authWrite src v
  | .TR_SINK_CTL => s.sinkWrite src v
  | .TR_SINK_BASE => s.sinkBaseWrite src v
  | .TR_STAGE => if src = .jtag ∨ src = .cocoon then s.codeWrite r i v else s
  | .TR_DBG => s.dbgWrite i src v
  | .TR_DSEL => s.dselWrite i src v
  | .TR_DDATA => if h : i < 160 then s.ddataWrite ⟨i, h⟩ src v else s
  | .TR_SDBG => s.sdbgWrite i src v
  | .TR_SDSEL => s.sdselWrite r i src v
  | .TR_SBRK => s.sdselWrite r i src v
  | .TR_SDDATA => if h : i < 256 then s.sddataWrite ⟨i, h⟩ src v else s
  | _ => s

/-- A write to the error units (R604, R617). -/
def State.erCsrWrite (s : State) (r : Reg) (i : Nat) (src : Src) (v : Word) : State :=
  match r with
  | .ER_UCTL => s.erUctlWrite i src v
  | .ER_INJ => s.erInjWrite i src v
  | .ER_STATUS => s.erStatusWrite (i / 4) (i % 4) src v
  | .ER_WDOG => s.wdogWrite src v
  | _ => s

/-- A write to the boot block (R39, R587, R599). -/
def State.btCsrWrite (s : State) (r : Reg) (i : Nat) (src : Src) (v : Word) : State :=
  match r with
  | .BT_RST => s.rstWrite src (Fld.BT_RST_OP.of v) (Fld.BT_RST_TARGET.of v)
  | .BT_ENTRY => if src = .reeve then s.codeWrite r i v else s
  | .BT_VER => if src = .reeve then s.codeWrite r i v else s
  | .BT_CREL => s.crelWrite i src v
  | .BT_LOWN => s.lownWrite i src v
  | _ => s

/-- Whether a register is an XGATE (R9). -/
def Reg.isGate (r : Reg) : Bool :=
  r == .PW_XGATE || r == .TB_XGATE || r == .CG_XGATE || r == .IC_XGATE || r == .MC_XGATE || r == .PT_XGATE ||
  r == .ER_XGATE

/-- A write that R10 does not see when the Reeve makes it (R66, R105). -/
def Reg.reeveUnseen (r : Reg) : Bool := r == .PW_VSET || r == .PW_RCTL || r == .TB_SLEW || r == .TB_ADDEND

/-- What a write that a unit's port has taken does. -/
def State.csrEffect (s : State) (r : Reg) (i : Nat) (src : Src) (v : Word) : State :=
  match r.window with
  | 0 => s.pwCsrWrite r i src v
  | 1 => s.tbCsrWrite r i src v
  | 2 => s.rvCsrWrite r i src v
  | 3 => s.cgCsrWrite r i src v
  | 4 => s.icCsrWrite r i src v
  | 5 => s.mcCsrWrite r i src v
  | 6 => s.grCsrWrite r i src v
  | 7 => s.ptCsrWrite r i src v
  | 8 => s.qeCsrWrite r i src v
  | 9 => s.ckCsrWrite r i src v
  | 10 => s.trCsrWrite r i src v
  | 11 => s.pmWrite r i src v
  | 12 => s.erCsrWrite r i src v
  | _ => s.btCsrWrite r i src v

/-- A write to an XGATE that its unit has taken (R9, R10): one that the unit refuses by its source moves the state as a write
that is no key does (log 335), and a controller's block records its status (R416). -/
def State.gateWrite (s : State) (g : Reg) (k : Nat) (src : Src) (v : Word) : State :=
  if s.gateRefuses g k src then s.gateFall g k
  else
    let s := s.xgateWrite g k v
    if g = .MC_XGATE ∧ k < 64 then s.pcStatus k stOk
    else if g = .MC_XGATE ∧ k < 68 then s.stkStatus (k - 64) stOk
    else s

/-- A write of a CSR by its address: the registers by their units' rules, a reserved offset ignored (R4), and an error
response from an unmapped address or at a misaligned one (R3, R20). A reserved offset holds no register, so a write there
is none of the writes that R10 and R11 count: a unit in HALF stays in HALF (DESIGN CHOICE, assumption log 303). -/
def State.csrWrite (s : State) (src : Src) (a : Nat) (v : Word) : State :=
  if !s.srcLive src then s
  else if a % 8 ≠ 0 then s.replyErr
  else match Reg.decode a with
    | some (r, i) =>
      if r.isGate then (if s.unitUp r then (s.gateWrite r i src v).reply 0 else s.replyErr)
      else if r.reeveUnseen then s.csrPortReeve src r i (fun s => s.csrEffect r i src v)
      else s.csrPort src r i (fun s => s.csrEffect r i src v)
    | none => if isCsr a && csrMapped a then s.reply 0 else s.replyErr

/-! ## Reads -/

/-- Whether a source identifier belongs to a secure requester at present (R529). -/
def State.idSecure (s : State) (id : Nat) : Bool :=
  (id == 0x201 && !s.capNs) || (0x100 ≤ id && id < 0x200 && s.engineSecure ((id - 0x100) / 8)) ||
  (0x300 ≤ id && id < 0x400 && s.flag Fld.QE_DMA_CTL_SEC (id - 0x300))

/-- What a source reads of a message word (R525). -/
def State.ckMsgRead (s : State) (i : Nat) (src : Src) : Word :=
  let own := s.fld Fld.CK_OWN_OWN_SRC (i / 8)
  if s.flag Fld.CK_OWN_CLAIM (i / 8) && s.idSecure own && own != srcId src then 0 else s.csrGet .CK_MSG i

/-- What a source reads of an error record (R604): of a secure one, or the Cocoon's, only the bare STATUS. -/
def State.erRead (s : State) (r : Reg) (i : Nat) (src : Src) : Word :=
  let x := if r = .ER_DATA then i / 12 else i
  let isRec := r == .ER_STATUS || r == .ER_ADDR || r == .ER_TFIRST || r == .ER_TLAST || r == .ER_DATA
  let hide := isRec && (x / 4 == 252 || s.flag Fld.ER_STATUS_SEC x) && src != .cocoon && src != .reeve
  if !hide then s.csrGet r i
  else if r = .ER_STATUS then withBits (withBits (s.csrGet r i) 55 32 0) 31 0 0
  else 0

/-- The time base's counter registers (R90, R94). -/
def State.nowLo (s : State) : Word := BitVec.ofNat 64 s.bell80.toNat
def State.nowHi (s : State) : Word := withBits (s.csrGet .TB_NOW_HI 0) 15 0 (s.bell80.toNat / 2 ^ 64)

/-- A read of a register whose unit answers: `none` is an error response. -/
def State.csrValue (s : State) (r : Reg) (i : Nat) (src : Src) : Option Word × State :=
  match r with
  | .TB_NOW_LO => (some s.nowLo, s)
  | .TB_NOW_HI => (some s.nowHi, s)
  | .IC_CLAIM =>
    let (w, s) := s.icClaim src i
    (some w, s.icFell)
  | .IC_TCTL => (some (if i = 321 ∧ src ≠ .cocoon then 0 else s.csrGet r i), s)
  | .IC_TOP => (some (if i = 321 ∧ src ≠ .cocoon then 0 else s.csrGet r i), s)
  | .IC_TSTAT => (some (if i = 321 ∧ src ≠ .cocoon then 0 else withBits (s.csrGet r i) 0 0 (bit (s.icLevel i))), s)
  | .IC_SRC => (some (s.icSrcRead src i), s)
  | .MC_PCSTAT => (some (s.pcstatRead i), s)
  | .MC_LLC_STAT => (some (withBits ((s.llcSweep i).csrGet r i) 47 32 ((s.llcSweep i).llcDirty i)), s.llcSweep i)
  | .GR_BANK => (some (withBits (s.csrGet r i) 7 6 (s.granShare i)), s)
  | .PT_SVC_CTL =>
    let (w, s) := s.svcCtlRead s.svcRuns
    (some w, s)
  | .PT_MDIO =>
    let (w, s) := s.mdioRead
    (some w, s)
  | .GR_CONF => (some (if i = 673 ∧ src ≠ .cocoon then 0 else s.csrGet r i), s)
  | .QE_CFG => (some (s.qRead r i src), s)
  | .QE_HOST => (some (s.qRead r i src), s)
  | .QE_PTR => (some (s.qRead r i src), s)
  | .QE_STAT => (some (s.qRead r i src), s)
  | .SP_THR => (some (s.spRead r i src), s)
  | .SP_START => (some (s.spRead r i src), s)
  | .SP_ARG => (some (s.spRead r i src), s)
  | .SP_FAULT => (some (s.spRead r i src), s)
  | .SP_FADDR => (some (s.spRead r i src), s)
  | .CK_MSG => (some (s.ckMsgRead i src), s)
  | .TR_STAGE => (some (if src = .jtag ∨ src = .cocoon then s.csrGet r i else 0), s)
  | .TR_DDATA =>
    if h : i < 160 then
      let (w, s) := s.ddataRead ⟨i, h⟩
      (some w, s)
    else (some 0, s)
  | .TR_SDDATA =>
    if h : i < 256 then
      let (w, s) := s.sddataRead ⟨i, h⟩ src
      (some w, s)
    else (some 0, s)
  | r =>
    if r.isPortSet then (some (s.ptRead r i src), s)
    else if r.window = 9 then (some (s.fwRead r i src), s)
    else if r.window = 11 then (s.pmRead r i src, s)
    else if r.window = 12 then (some (s.erRead r i src), s)
    else (some (s.csrGet r i), s)

/-- A read of a CSR by its address; `none` is an error response (R3, R4, R20, R79). -/
def State.csrRead (s : State) (src : Src) (a : Nat) : Option Word × State :=
  if a % 8 ≠ 0 then (none, s)
  else match Reg.decode a with
    | some (r, i) => if s.unitUp r then s.csrValue r i src else (none, s)
    | none => (if isCsr a && csrMapped a then some 0 else none, s)

/-! ## Commands -/

/-- REGISTER_WRITE (R5): a write of any register by its address. -/
def execRegisterWrite (src : Src) (addr : PA) (v : Word) (s : State) : Result := .next (s.csrWrite src addr.toNat v)

/-- XGATE_WRITE (R9, R10). -/
def execXgateWrite (src : Src) (addr : PA) (v : Word) (s : State) : Result :=
  match Reg.decode addr.toNat with
  | some (r, _) => .next (if r.isGate then s.csrWrite src addr.toNat v else s)
  | none => .next s

end Sys2Proof.Machine
end

