-- ==== Sys2Proof/Machine/Bus.lean ====
section
/-!
DEFINITION. An access of any requester to the physical address space: CSR space by its registers, everything else at its
target (R3, R19, R20).
-/

namespace Sys2Proof.Machine

/-- Read `n` bytes within a line. -/
def State.busRead (s : State) (src : Src) (sec : Bool) (a n : Nat) : MemAns × State :=
  if isCsr a && !csrMapped a then ({ err := 1 }, s)
  else if isCsr a then
    if n ≠ 8 then ({ err := 2 }, s)
    else match s.csrRead src a with
      | (some v, s) => ({ val := v.toNat }, s)
      | (none, s) => ({ err := 2 }, s)
  else s.physRead src sec a n

/-- Write `n` bytes within a line: the error kind. -/
def State.busWrite (s : State) (src : Src) (sec : Bool) (a n v : Nat) : Nat × State :=
  if isCsr a && !csrMapped a then (1, s)
  else if isCsr a then
    if n ≠ 8 ∨ !s.srcLive src then (2, s)
    else
      let s := s.csrWrite src a (BitVec.ofNat 64 v)
      (if s.resp.err then 2 else 0, s)
  else s.physWrite src sec a n v

end Sys2Proof.Machine
end

