-- ==== Sys2Proof/Machine/ZisMem.lean ====
section
/-!
DEFINITION. The loads, stores and atomics of ZIS on cores and threads (R150, R152, R155 to R157, R168 to R174, R183,
R228, R233 to R236, R319 to R321, R326 to R332, R349, R353, R464, R465).
-/

namespace Sys2Proof.Machine

/-! ## Forms (R156, R157, R169, R171) -/

/-- The size in bytes of an access, by MOP. -/
def mopSize (op : Nat) : Nat :=
  if op = 0x10 ∨ op = 0x11 then 32
  else if op = 0x00 ∨ op = 0x01 ∨ op = 0x08 then 1
  else if op = 0x02 ∨ op = 0x03 ∨ op = 0x09 then 2
  else if op = 0x04 ∨ op = 0x05 ∨ op = 0x07 ∨ op = 0x0A ∨ op = 0x0C then 4
  else 8

/-- Whether rt names a q register. -/
def mopQ (op : Nat) : Bool := op == 0x07 || op == 0x0C || op == 0x0D || op == 0x0E || op == 0x10 || op == 0x11

/-- The word that an integer load makes of what it read. -/
def mopWord (op v : Nat) : Word :=
  if op = 0x01 then (BitVec.ofNat 8 v).signExtend 64
  else if op = 0x03 then (BitVec.ofNat 16 v).signExtend 64
  else if op = 0x05 then (BitVec.ofNat 32 v).signExtend 64
  else BitVec.ofNat 64 (v % 2 ^ (8 * mopSize op))

/-- Whether the form is one that R171 admits for a load to `rt` or a store. -/
def memLegal (m : MemMode) (rt : Reg5) (intLoad : Bool) : Bool :=
  match m with
  | .disp _ _ _ => true
  | .index _ _ _ => true
  | .postInc _ b => b != 0 && !(intLoad && rt == b)
  | .preDec _ b => b != 0 && !(intLoad && rt == b)

/-- The length of the instruction in this form. -/
def memLen : MemMode → Nat
  | .disp short _ _ => if short then 2 else 4
  | .index _ _ _ => 4
  | .postInc short _ => if short then 2 else 4
  | .preDec short _ => if short then 2 else 4

/-- The effective address, and the base register with its updated value (R168, R169). -/
def memEa (a : Agent) (m : MemMode) (size : Nat) : Z (Word × Option (Reg5 × Word)) := do
  match m with
  | .disp _ b d => pure ((← rdReg a b) + d.signExtend 64, none)
  | .index b i k =>
    let x ← rdReg a b
    pure (x + ((← rdReg a i) <<< k.toNat), none)
  | .postInc _ b =>
    let x ← rdReg a b
    pure (x, some (b, x + BitVec.ofNat 64 size))
  | .preDec _ b =>
    let x := (← rdReg a b) - BitVec.ofNat 64 size
    pure (x, some (b, x))

/-- The halves of an access: one where the address is a multiple of the size, else two, split at the next multiple
(R233). -/
def halvesOf (ea : Word) (size : Nat) : List (Word × Nat) :=
  let r := ea.toNat % size
  if r = 0 then [(ea, size)] else [(ea, size - r), (ea + BitVec.ofNat 64 (size - r), r)]

/-! ## Parts of an access on a core -/

/-- A half that has been translated: its effective and its physical address, its bytes, the memory type (R265), and the
flag updates to be made first. -/
structure MemPart where
  ea   : Word
  pa   : Nat
  len  : Nat
  mt   : Nat
  upds : List AdUpdate
  deriving DecidableEq, Repr

/-- Translate parts of an access in order. -/
def corePartsOf (c : Nat) (acc : Access) : List (Word × Nat) → Z (List MemPart)
  | [] => pure []
  | (ea, n) :: r => do
    let (x, s) := (← get).xlate c ea acc
    set s
    match x with
    | .error e => throwXlate c acc ea e
    | .ok x => pure (⟨ea, x.pa, n, x.mt, x.upds⟩ :: (← corePartsOf c acc r))

/-- ALIGN or DEVICE by memory type (R172, R242): `dev` is the DETAIL of DEVICE for an instruction that device memory
never takes, 0 for the others. -/
def typeFault (size dev : Nat) (split : Bool) (p : MemPart) : Option Exc :=
  if p.mt ≠ 2 then none
  else if split then some { vec := 0x07, detail := size, addr := p.ea }
  else if dev ≠ 0 then some { vec := 0x09, detail := dev, addr := p.ea }
  else if isCsr p.pa ∧ size ≠ 8 then some { vec := 0x09, detail := 1, addr := p.ea }
  else none

/-- An unmapped address, or a write to the core boot ROM (R20). -/
def mapFault (write : Bool) (p : MemPart) : Option Exc :=
  if isHbm p.pa || isGranary p.pa || isSpinnerMem p.pa || (isCsr p.pa && csrMapped p.pa) || (isRom p.pa && !write) then none
  else some { vec := 0x08, detail := 1, addr := p.ea }

/-- Each half translated and checked, the low half before the high one: where both fault, the low half's fault is taken
(R234, R246). -/
def checkedParts (c : Nat) (acc : Access) (size dev : Nat) (write split : Bool) : List (Word × Nat) → Z (List MemPart)
  | [] => pure []
  | h :: r => do
    let ps ← corePartsOf c acc [h]
    match (ps.findSome? (typeFault size dev split)).or (ps.findSome? (mapFault write)) with
    | some x => throw (.exc x)
    | none => pure (ps ++ (← checkedParts c acc size dev write split r))

/-- The halves of an access, translated and checked before either is performed (R234). -/
def coreParts (c : Nat) (acc : Access) (ea : Word) (size dev : Nat) (write : Bool) : Z (List MemPart) :=
  checkedParts c acc size dev write ((halvesOf ea size).length != 1) (halvesOf ea size)

/-- The parts of an access, the updates of flags that come first made, each for its own part (R234, R267). -/
def partsMade (c : Nat) (acc : Access) (walk : Z (List MemPart)) : Z (List MemPart) :=
  untilMade c acc (fun ps => ps.flatMap (fun p => p.upds.map (fun u => (p.ea, u)))) walk walkTries

/-- What the performing of an access of a core came to: an error response is DATA_ERR, poison is consumed. -/
def coreAnswer (ea : Word) (pa : Nat) (m : MemAns) : Z Nat :=
  if m.err ≠ 0 then throw (.exc { vec := 0x08, detail := m.err, addr := ea })
  else if m.poison then throw (.poison pa)
  else pure m.val

/-- A data access meets the comparators of its kind, which act once it retires (R559), and counts where it was split. -/
def coreMet (c kind : Nat) (ea : Word) (size : Nat) (split : Bool) : Z Unit :=
  modify (fun s =>
    let s := s.modCore c (fun k => { k with dbgHit := k.dbgHit ++ k.arch.cmpList kind (ea.truncate 48) size })
    if split then s.pmCore c 0x09 1 else s)

/-- The base update of a post-increment or a pre-decrement. -/
def State.basePut (s : State) (a : Agent) (base : Option (Reg5 × Word)) : State :=
  match base with
  | some (b, x) => s.regSet a b x
  | none => s

/-- A load's destination takes a value that was fixed at a time (R314); the base update depends on the old base alone
(R173). -/
def State.atTime (s : State) (a : Agent) (time : Nat) (f : State → State) : State :=
  match a with
  | .core c =>
    if (s.core c.val).early.isEmpty then f s
    else
      let t0 := (s.core c.val).rdTime
      (f (s.modCore c.val (fun k => { k with rdTime := time }))).modCore c.val (fun k => { k with rdTime := t0 })
  | .thread _ => f s

/-- Registers are written once the access has been performed: the destination, then the base (R170). -/
def State.loadDone (s : State) (a : Agent) (op : Nat) (rt : Reg5) (base : Option (Reg5 × Word)) (v time : Nat) : State :=
  let s := match a with
    | .core c => if mopQ op then s.qSet c.val rt (BitVec.ofNat 256 v) else s.atTime a time (fun s => s.regSet a rt (mopWord op v))
    | .thread _ => s.regSet a rt (mopWord op v)
  s.basePut a base

/-- What the core has read ahead serves bytes of a line, for an address whose registers were fixed before the reading. -/
def Core.earlyFor (k : Core) (pa n : Nat) : Option Early :=
  k.early.find? (fun x => x.line == pa / 64 && decide (k.rdTime ≤ 2 * x.stamp) &&
    byteMask (pa % 64) n &&& x.mask == byteMask (pa % 64) n)

/-- An atomic unit of a load: its bytes as they are now, or, where they were read ahead, as they were then, a free value
deciding (R314). -/
def earlyUnit (v : Nat) (x : Early) (pa n base : Nat) (pick : Bool) : Nat :=
  let o := pa - base
  let old := lineBytes x.data (pa % 64) n
  if pick then v % 2 ^ (8 * o) + old * 2 ^ (8 * o) + v / 2 ^ (8 * (o + n)) * 2 ^ (8 * (o + n)) else v

/-- The units of a load that are atomic: each aligned word of a 32-byte access, or the access as a whole (R312). -/
def loadUnits (pa n : Nat) : List (Nat × Nat) :=
  if n = 32 ∧ pa % 32 = 0 then [(pa, 8), (pa + 8, 8), (pa + 16, 8), (pa + 24, 8)] else [(pa, n)]

/-- A load of NORMAL or NORMAL_NC memory in HBM by a core, given what it reads now: with each unit as it is now or as it was read ahead;
the value, and how late it was fixed. The bytes it takes as they are now can no longer be read ahead. -/
def State.loadPick (s : State) (c pa n v : Nat) : Nat × Nat × State :=
  let k := s.core c
  match k.earlyFor pa n with
  | none => (v, k.now, s.earlyLess c pa n)
  | some x =>
    let (w, s) := s.freeVal
    (loadUnits pa n).foldl (fun (acc : Nat × Nat × State) u =>
      let pick := w.getLsbD (u.1 - pa)
      (earlyUnit acc.1 x u.1 u.2 pa pick, max acc.2.1 (if pick then 2 * x.stamp else k.now),
       if pick then acc.2.2 else acc.2.2.earlyLess c u.1 u.2)) (v, 0, s)

/-- A half of a load from normal memory (R229, R285, R297), and how late its value was fixed. A line that another core holds
for its `sc` is waited for (R332). -/
def coreReadPart (c : Nat) (p : MemPart) : Z (Nat × Nat) := do
  let s ← get
  if (isHbm p.pa && s.heldAgainst (p.pa / 64) (some c)) || s.oldestHeld c (sbFirst (s.core c).sb p.pa p.len) then throw .wait
  else pure ()
  let (m, s) := s.coreLoad c (p.mt == 1) p.pa p.len (coreReq c)
  let ahead := isHbm p.pa
  let s := if p.mt = 0 ∧ ahead then s.train c (s.core c).arch.pc p.pa else s
  set s
  let v ← coreAnswer p.ea p.pa m
  let (v, time, s) := if ahead then s.loadPick c p.pa p.len v else (v, (s.core c).now, s)
  set s
  pure (v, time)

/-- What a load of a core outside any group reads, by its parts, and how late it was fixed. A load from device memory waits
for the store buffer (R228, R320). -/
def coreReads (c : CoreId) (size : Nat) (ea : Word) : List MemPart → Z (Nat × Nat)
  | [p] => do
    if p.mt ≠ 2 then coreReadPart c.val p
    else
      drainZ c.val
      let (m, s) := ((← get).endEarly c.val).busRead (.core c) false p.pa size
      set s
      pure (← coreAnswer ea p.pa m, 0)
  | lo :: hi :: _ => do
    let x ← coreReadPart c.val lo
    let y ← coreReadPart c.val hi
    pure (x.1 + y.1 * 2 ^ (8 * lo.len), max x.2 y.2)
  | [] => pure (0, 0)

/-- The parts of a load of a core, with the updates of flags that come first. -/
def coreLoadParts (c : CoreId) (size : Nat) (ea : Word) : Z (List MemPart) := do
  partsMade c.val .load (coreParts c.val .load ea size (if size = 32 then 3 else 0) false)

/-- A load of a core, its registers included; a member of a group issues a load from device memory as an external
operation (R349). -/
def coreLoadTo (c : CoreId) (op : Nat) (rt : Reg5) (ea : Word) (base : Option (Reg5 × Word)) : Z Unit := do
  let size := mopSize op
  let ps ← coreLoadParts c size ea
  if (← get).inGroup c.val && ps.any (fun p => p.mt == 2) then
    modify (fun s =>
      let s := (s.drainSb c.val).endEarly c.val
      s.issueExt c.val { kind := 1, op := op, pc := (s.core c.val).savedPc, pa := (ps.headD ⟨0, 0, 0, 0, []⟩).pa, size := size,
                         data := 0, ea := ea, dest := some rt, base := base } false)
  else
    let (v, time) ← coreReads c size ea ps
    modify (fun s => s.loadDone (.core c) op rt base v time)
  coreMet c.val 2 ea size (ps.length != 1)

/-- The part of a stored value that a half writes: `skip` bytes went into the half below it. -/
def partVal (v skip len : Nat) : Nat := v / 2 ^ (8 * skip) % 2 ^ (8 * len)

/-- One performed part of a store: into the store buffer or the fold. -/
def State.storePart (s : State) (c : Nat) (p : MemPart) (v : Nat) (half : Nat) : State :=
  s.coreStore c (p.mt == 1) p.pa p.len v half

/-- A store enters the store buffer, which is full where it holds 56 entries: its oldest are then performed first, once no
other core holds their lines (R322, R332). -/
def bufferRoom (c n : Nat) : Z Unit := do
  let s ← get
  let extra := (s.core c).sb.length + n - 56
  if !s.inGroup c && s.oldestHeld c extra then throw .wait else pure ()

/-- The parts of a store of a core, with the updates of flags that come first. -/
def coreStoreParts (c : CoreId) (size : Nat) (ea : Word) : Z (List MemPart) := do
  partsMade c.val .store (do
    let ps ← coreParts c.val .store ea size (if size = 32 then 3 else 0) true
    storeMay
    pure ps)

/-- A store of a core by its parts; to device memory, that of a core outside any group. -/
def coreWrites (c : CoreId) (size v : Nat) (ea : Word) : List MemPart → Z Unit
  | [p] => do
    if p.mt ≠ 2 then
      foldRoom c.val [foldEntry p.pa p.len v ((← get).core c.val).mem.epoch (p.mt == 1)] false
      bufferRoom c.val 1
      modify (fun s => (s.storePart c.val p v 0).feedStore c.val p.pa size v)
    else
      drainZ c.val
      let (e, s) := ((← get).endEarly c.val).busWrite (.core c) false p.pa size v
      set s
      if e ≠ 0 then throw (.exc { vec := 0x08, detail := e, addr := ea }) else pure ()
  | lo :: hi :: _ => do
    let ep := ((← get).core c.val).mem.epoch
    let x := partVal v 0 lo.len
    let y := partVal v lo.len hi.len
    foldRoom c.val [foldEntry lo.pa lo.len x ep (lo.mt == 1), foldEntry hi.pa hi.len y ep (hi.mt == 1)] true
    bufferRoom c.val 2
    modify (fun s => ((s.storePart c.val lo x 1).storePart c.val hi y 2).feedStore c.val lo.pa size v)
  | [] => pure ()

/-- A store of a core, its base update included; a member of a group issues a store to device memory as an external
operation (R349). -/
def coreStoreFrom (c : CoreId) (size : Nat) (v : Nat) (ea : Word) (base : Option (Reg5 × Word)) : Z Unit := do
  let ps ← coreStoreParts c size ea
  if (← get).inGroup c.val && ps.any (fun p => p.mt == 2) then
    modify (fun s =>
      let s := (s.drainSb c.val).endEarly c.val
      s.issueExt c.val { kind := 2, op := 0x0B, pc := (s.core c.val).savedPc, pa := (ps.headD ⟨0, 0, 0, 0, []⟩).pa, size := size,
                         data := BitVec.ofNat 64 v, ea := ea, dest := none, base := base } true)
  else
    coreWrites c size v ea ps
    modify (fun s => s.basePut (.core c) base)
  coreMet c.val 3 ea size (ps.length != 1)

/-! ## Parts of an access of a thread (R464, R465) -/

/-- What a thread may not do with an address: ALIGN and DEVICE on CSR space, ACCESS elsewhere. -/
def threadPartFault (t size dev : Nat) (split write : Bool) (ea : Word) (n : Nat) : Option Stop :=
  let pa := ea.toNat
  if isCsr pa then
    if split then some (.fault 5 pa 0) else if dev ≠ 0 ∨ size ≠ 8 then some (.fault 6 pa 0) else none
  else if ownDmem t pa n || isGranary pa || isHbm pa || (ownImem t pa n && !write) then none
  else some (.fault 3 pa 0)

/-- The fault ACCESS, which ALIGN and DEVICE precede (R246). -/
def Stop.isAccess : Stop → Bool
  | .fault c _ _ => c == 3
  | _ => false

/-- The halves of a thread's access, checked before either is performed. -/
def threadParts (t : Nat) (ea : Word) (size dev : Nat) (write : Bool) : Z (List (Word × Nat)) := do
  let ps := halvesOf ea size
  let bad := ps.filterMap (fun p => threadPartFault t size dev (ps.length != 1) write p.1 p.2)
  match (bad.find? (fun e => !e.isAccess)).or bad.head? with
  | some e => throw e
  | none => pure ps

/-- The fault of an error kind: REFUSED for a refusal, ACCESS for any other error response (R468). -/
def threadErr (e : Nat) (ea : Word) : Stop := .fault (if e = 3 then 4 else 3) ea.toNat 0

/-- An access of a thread finds every posted store performed, but one to HBM that touches no line of a posted store (R314,
R465); what was read ahead of a posted store to its line is stale. -/
def threadBefore (t : ThreadId) (pa : Nat) : Z Unit := do
  let k := (← get).thread t.val
  if k.rest.isEmpty || (isHbm pa && k.rest.all (fun e => isHbm e.1 && e.1 / 64 != pa / 64)) then pure ()
  else modify (fun s => (s.threadRest t.val).modThread t.val (fun k => { k with early := none }))

/-- One half of a thread's load: as the memory is now, or as a line that the thread has read ahead of this instruction was
then, a free value deciding (R312, R314). -/
def threadReadPart (t : ThreadId) (p : Word × Nat) : Z Nat := do
  threadBefore t p.1.toNat
  let s ← get
  if isHbm p.1.toNat && s.heldAgainst (p.1.toNat / 64) none then throw .wait else pure ()
  let (m, s) := s.busRead (.thread t) true p.1.toNat p.2
  set s
  if m.err ≠ 0 then throw (threadErr m.err p.1)
  else if m.poison then throw (.fault 7 p.1.toNat 0)
  else match (s.thread t.val).early with
    | some (line, d) =>
      if line = p.1.toNat / 64 ∧ isHbm p.1.toNat then
        let (w, s) := s.freeVal
        set s
        pure (if w.getLsbD 0 then lineBytes d (p.1.toNat % 64) p.2 else m.val)
      else pure m.val
    | none => pure m.val

/-- A line that a core holds for its `sc` is not written by another agent meanwhile (R332). -/
def heldWait (pa : Nat) (c : Option Nat) : Z Unit := do
  if isHbm pa && (← get).heldAgainst (pa / 64) c then throw .wait else pure ()

/-- One half of a thread's store: to HBM it is posted, unless it would meet an error (R465, R468). -/
def threadWritePart (t : ThreadId) (p : Word × Nat) (v : Nat) : Z Unit := do
  heldWait p.1.toNat none
  if isHbm p.1.toNat then pure () else threadBefore t p.1.toNat
  let s ← get
  let (e, s') := s.busWrite (.thread t) true p.1.toNat p.2 v
  if e ≠ 0 then
    set s'
    throw (threadErr e p.1)
  else set (if isHbm p.1.toNat then s.threadPost t.val p.1.toNat p.2 v else s')

/-- What a load of a thread reads. -/
def threadReads (t : ThreadId) (size : Nat) (ea : Word) : Z Nat := do
  match ← threadParts t.val ea size 0 false with
  | [p] => threadReadPart t p
  | lo :: hi :: _ =>
    let x ← threadReadPart t lo
    let y ← threadReadPart t hi
    pure (x + y * 2 ^ (8 * lo.2))
  | [] => pure 0

/-- A load of a thread. -/
def threadLoadTo (t : ThreadId) (op : Nat) (rt : Reg5) (ea : Word) (base : Option (Reg5 × Word)) : Z Unit := do
  let v ← threadReads t (mopSize op) ea
  modify (fun s => s.loadDone (.thread t) op rt base v 0)

/-- What a store of a thread writes; neither half is written where either meets an error (R170, R468). The high half follows
the low one as an access of its own, before the thread's next instruction (R233, R236). -/
def threadWrites (t : ThreadId) (size v : Nat) (ea : Word) : Z Unit := do
  match ← threadParts t.val ea size 0 true with
  | [p] => threadWritePart t p (partVal v 0 p.2)
  | lo :: hi :: _ =>
    heldWait lo.1.toNat none
    heldWait hi.1.toNat none
    if isHbm lo.1.toNat && isHbm hi.1.toNat then pure () else threadBefore t lo.1.toNat
    let s ← get
    let (e, s') := s.busWrite (.thread t) true lo.1.toNat lo.2 (partVal v 0 lo.2)
    let (k, s'') := s.busWrite (.thread t) true hi.1.toNat hi.2 (partVal v lo.2 hi.2)
    if e ≠ 0 then
      set s'
      throw (threadErr e lo.1)
    else if k ≠ 0 then
      set s''
      throw (threadErr k hi.1)
    else
      let s := if isHbm lo.1.toNat then s.threadPost t.val lo.1.toNat lo.2 (partVal v 0 lo.2) else s'
      set (s.threadPost t.val hi.1.toNat hi.2 (partVal v lo.2 hi.2))
  | [] => pure ()

/-- A store of a thread. -/
def threadStoreFrom (t : ThreadId) (size v : Nat) (ea : Word) (base : Option (Reg5 × Word)) : Z Unit := do
  threadWrites t size v ea
  modify (fun s => s.basePut (.thread t) base)

/-! ## Loads and stores of either -/

/-- A load at an effective address. -/
def loadTo (a : Agent) (op : Nat) (rt : Reg5) (ea : Word) (base : Option (Reg5 × Word)) : Z Flow := do
  match a with
  | .core c => coreLoadTo c op rt ea base
  | .thread t => threadLoadTo t op rt ea base
  pure .seq

/-- The wrapper's view of a load or store. -/
def memZi (len : Nat) (op : Nat) (ld st : Bool) : Zi := { len := len, thr := !mopQ op, ld := ld, st := st }

/-- A load instruction. The window of its destination is exchanged before the access (R206). -/
def zisLoad (a : Agent) (op : Nat) (rt : Reg5) (m : MemMode) (s : State) : Result :=
  zis a (memZi (memLen m) op true false) (do
    needs a (memLegal m rt (!mopQ op))
    if mopQ op then pure () else useReg a rt
    let (ea, base) ← memEa a m (mopSize op)
    loadTo a op rt ea base) s

/-- What a store writes: the low bytes of rt, or of its q register (R157); a base stored as data is read before its
update (R171). -/
def storeData (a : Agent) (op : Nat) (rt : Reg5) : Z Nat := do
  match a with
  | .core c =>
    if mopQ op then pure (((← get).qVal c.val rt).toNat % 2 ^ (8 * mopSize op))
    else pure ((← rdReg a rt).toNat % 2 ^ (8 * mopSize op))
  | .thread _ => pure ((← rdReg a rt).toNat % 2 ^ (8 * mopSize op))

/-- A store instruction. -/
def zisStore (a : Agent) (op : Nat) (rt : Reg5) (m : MemMode) (s : State) : Result :=
  zis a (memZi (memLen m) op false true) (do
    needs a (memLegal m rt false)
    let v ← storeData a op rt
    let (ea, base) ← memEa a m (mopSize op)
    match a with
    | .core c => coreStoreFrom c (mopSize op) v ea base
    | .thread t => threadStoreFrom t (mopSize op) v ea base
    pure .seq) s

/-- A pc-relative load (R152, R155, R175). -/
def zisLoadPc (a : Agent) (op len : Nat) (rt : Reg5) (off : Word) (s : State) : Result :=
  zis a (memZi len op true false) (do
    if mopQ op then pure () else useReg a rt
    loadTo a op rt ((← get).pcWord a + off) none) s

/-- LDPC: 16-bit with U5, 32-bit with IMM16, both times 4. -/
def execLdpc (a : Agent) (short : Bool) (rd : Reg5) (imm : BitVec 16) (s : State) : Result :=
  zisLoadPc a 0x06 (if short then 2 else 4) rd
    ((if short then (imm.truncate 5).zeroExtend 64 else imm.signExtend 64) * 4) s
/-- LDPCW. -/
def execLdpcw (a : Agent) (rd : Reg5) (imm : BitVec 16) (s : State) : Result :=
  zisLoadPc a 0x05 4 rd (imm.signExtend 64 * 4) s
/-- FLDPC. -/
def execFldpc (a : Agent) (qd : Reg5) (imm : BitVec 16) (s : State) : Result :=
  zisLoadPc a 0x0D 4 qd (imm.signExtend 64 * 4) s

/-- LDBU. -/
def execLdbu (a : Agent) (rt : Reg5) (m : MemMode) (s : State) : Result := zisLoad a 0x00 rt m s
/-- LDBS. -/
def execLdbs (a : Agent) (rt : Reg5) (m : MemMode) (s : State) : Result := zisLoad a 0x01 rt m s
/-- LDHU. -/
def execLdhu (a : Agent) (rt : Reg5) (m : MemMode) (s : State) : Result := zisLoad a 0x02 rt m s
/-- LDHS. -/
def execLdhs (a : Agent) (rt : Reg5) (m : MemMode) (s : State) : Result := zisLoad a 0x03 rt m s
/-- LDWU. -/
def execLdwu (a : Agent) (rt : Reg5) (m : MemMode) (s : State) : Result := zisLoad a 0x04 rt m s
/-- LDWS. -/
def execLdws (a : Agent) (rt : Reg5) (m : MemMode) (s : State) : Result := zisLoad a 0x05 rt m s
/-- LDD. -/
def execLdd (a : Agent) (rt : Reg5) (m : MemMode) (s : State) : Result := zisLoad a 0x06 rt m s
/-- FLW. -/
def execFlw (a : Agent) (rt : Reg5) (m : MemMode) (s : State) : Result := zisLoad a 0x07 rt m s
/-- FLD. -/
def execFld (a : Agent) (rt : Reg5) (m : MemMode) (s : State) : Result := zisLoad a 0x0D rt m s
/-- VLD. -/
def execVld (a : Agent) (rt : Reg5) (m : MemMode) (s : State) : Result := zisLoad a 0x10 rt m s
/-- STB. -/
def execStb (a : Agent) (rt : Reg5) (m : MemMode) (s : State) : Result := zisStore a 0x08 rt m s
/-- STH. -/
def execSth (a : Agent) (rt : Reg5) (m : MemMode) (s : State) : Result := zisStore a 0x09 rt m s
/-- STW. -/
def execStw (a : Agent) (rt : Reg5) (m : MemMode) (s : State) : Result := zisStore a 0x0A rt m s
/-- STD. -/
def execStd (a : Agent) (rt : Reg5) (m : MemMode) (s : State) : Result := zisStore a 0x0B rt m s
/-- FSW. -/
def execFsw (a : Agent) (rt : Reg5) (m : MemMode) (s : State) : Result := zisStore a 0x0C rt m s
/-- FSD. -/
def execFsd (a : Agent) (rt : Reg5) (m : MemMode) (s : State) : Result := zisStore a 0x0E rt m s
/-- VST. -/
def execVst (a : Agent) (rt : Reg5) (m : MemMode) (s : State) : Result := zisStore a 0x11 rt m s

/-! ## Load-linked, store-conditional and atomics (R183, R326 to R332) -/

/-- What an atomic writes, of the old value and its operand. -/
def atomicNew (op : Nat) (old v : Word) : Word :=
  if op = 0x14 then v else if op = 0x15 then old + v else if op = 0x16 then old &&& v else old ||| v

/-- How many of the oldest entries of the store buffer are performed before an `sc` or atomic of the granule (R326). -/
def granuleFirst (sb : List SbEntry) (pa : Nat) : Nat :=
  match sbYoungest sb (pa / 128 * 128) 128 with
  | some i => i + 1
  | none => 0

/-- It is core `c`'s turn for an `ll` of the granule: no other core holds it, and none whose request was held waits longer
(R332). -/
def State.llTurn (s : State) (c pa : Nat) : Bool :=
  let mine := match (s.core c).llWait with
    | some (g, n) => if g = pa / 128 then some n else none
    | none => none
  !s.heldAgainst (pa / 64) (some c) &&
  s.cores.all (fun e => e.1 == c || (match e.2.llWait with
    | some (g, n) => g != pa / 128 || mine.any (fun m => decide (m ≤ n))
    | none => true))

/-- The `ll` waits: it draws the next number of those that wait, unless it has one. -/
def State.llQueue (s : State) (c pa : Nat) : State :=
  if (s.core c).llWait.any (fun w => w.1 == pa / 128) then s
  else
    let n := s.cores.foldl (fun m e => (e.2.llWait.map (fun w => max m (w.2 + 1))).getD m) 0
    s.modCore c (fun k => { k with llWait := some (pa / 128, n) })

/-- Older buffered stores to the granule of an `sc` or atomic are performed first (R326). -/
def State.performGranule (s : State) (c pa : Nat) : State :=
  match sbYoungest (s.core c).sb (pa / 128 * 128) 128 with
  | some i => s.sbPerformN c (i + 1)
  | none => s

/-- A core's reservation ends. -/
def State.dropResv (s : State) (c : Nat) : State := s.modCore c (fun k => { k with resv := none })

/-- A core's own atomic or plain store ends its reservation on the granule (R328). -/
def State.endResv (s : State) (c pa : Nat) : State :=
  s.modCore c (fun k => { k with resv := if k.resv.any (fun r => r.granule == pa / 128) then none else k.resv })

/-- A core holds a reservation on the granule of an address. -/
def Core.reserves (k : Core) (pa : Nat) : Bool := k.resv.any (fun r => r.granule == pa / 128)

/-- Whether `ll` and `sc` are defined at an address: NORMAL memory in HBM (R331). -/
def linkable (nc : Bool) (pa : Nat) : Bool := !nc && isHbm pa

/-- Whether this operation writes memory at once. -/
def State.syncWrites (s : State) (c op pa : Nat) (nc : Bool) : Bool :=
  if op = 0x12 then false else if op = 0x13 then linkable nc pa && (s.core c).reserves pa else true

/-- The 8-byte read of a core's atomic: at its L2, or at its target under NORMAL_NC (R326, R331). -/
def State.syncRead (s : State) (c : Nat) (src : Src) (nc : Bool) (pa : Nat) (q : FwReq) : MemAns × State :=
  if isHbm pa then s.coreLoad c nc pa 8 q else s.busRead src false pa 8

/-- Its 8-byte write: the error kind. -/
def State.syncWrite (s : State) (c : Nat) (src : Src) (nc : Bool) (pa : Nat) (v : Word) (q : FwReq) : Nat × State :=
  if isHbm pa then
    if nc then s.homeWrite (pa / 64) (byteMask (pa % 64) 8) (lineOf (pa % 64) 8 v.toNat) { q with cls := 3 } false (some c)
    else s.coreWrite c (pa / 64) (byteMask (pa % 64) 8) (lineOf (pa % 64) 8 v.toNat) q
  else s.busWrite src false pa 8 v.toNat

/-- `ll`, `sc` or an atomic performed by a core, as itself or as its group's primary: what rt receives, an error kind, or
poison (R183, R327 to R332). -/
def State.syncPerform (s : State) (c : Nat) (src : Src) (op pa : Nat) (nc : Bool) (v : Word) : MemAns × State :=
  let q : FwReq := match src with
    | .group _ => s.fwReq src false pa
    | _ => coreReq c
  let s := s.performGranule c pa
  if op = 0x13 then
    let ok := linkable nc pa && (s.core c).reserves pa
    let s := s.dropResv c
    if !ok then ({ val := 1 }, s)
    else
      let (e, s) := s.syncWrite c src nc pa v q
      ({ err := e, val := 0 }, s)
  else
    let (m, s) := s.syncRead c src nc pa q
    if m.err ≠ 0 ∨ m.poison then (m, s)
    else if op = 0x12 then
      (m, if linkable nc pa then s.modCore c (fun k => { k with resv := some { granule := pa / 128, hold := true } }) else s)
    else
      let (e, s) := (s.endResv c pa).syncWrite c src nc pa (atomicNew op (BitVec.ofNat 64 m.val) v) q
      ({ m with err := e }, s)

/-- `ll`, `sc` or an atomic of a core at an effective address. -/
def coreSync (c : CoreId) (op : Nat) (rt : Reg5) (v ea : Word) : Z Unit := do
  if ea.toNat % 8 ≠ 0 then throw (.exc { vec := 0x07, detail := 8, addr := ea }) else pure ()
  let acc : Access := if op = 0x12 then .load else .store
  let ps ← partsMade c.val acc (do
    let ps ← coreParts c.val acc ea 8 2 (decide (0x14 ≤ op))
    if op = 0x12 then pure () else storeMay
    pure ps)
  match ps with
  | p :: _ =>
    let nc := p.mt == 1
    if (← get).inGroup c.val then
      modify (fun s => s.issueExt c.val { kind := 3, op := op, pc := (s.core c.val).savedPc, pa := p.pa, size := 8, data := v,
                                          ea := ea, dest := some rt, base := none, nc := nc } (op != 0x12))
    else
      let s ← get
      if op = 0x12 ∧ linkable nc p.pa then
        if s.llTurn c.val p.pa then pure ()
        else
          set (s.llQueue c.val p.pa)
          throw .wait
      else if s.syncWrites c.val op p.pa nc then heldWait p.pa (some c.val) else pure ()
      if s.oldestHeld c.val (granuleFirst (s.core c.val).sb p.pa) then throw .wait else pure ()
      let (m, s) := (← get).syncPerform c.val (.core c) op p.pa nc v
      set (s.earlyLess c.val p.pa 8)
      let r ← coreAnswer ea p.pa m
      modify (fun s => s.atTime (.core c) (s.core c.val).now (fun s => s.regSet (.core c) rt (BitVec.ofNat 64 r)))
    if op = 0x13 then pure () else coreMet c.val 2 ea 8 false
    if op = 0x12 then pure () else coreMet c.val 3 ea 8 false
  | [] => pure ()

/-- `ll`, `sc` or an atomic of a thread: `ll` reserves nothing and `sc` always fails (R463). -/
def threadSync (t : ThreadId) (op : Nat) (rt : Reg5) (v ea : Word) : Z Unit := do
  if ea.toNat % 8 ≠ 0 then throw (.fault 5 ea.toNat 0) else pure ()
  let _ ← threadParts t.val ea 8 2 (op != 0x12)
  if op = 0x13 then modify (fun s => s.regSet (.thread t) rt 1)
  else
    if op = 0x12 then pure ()
    else
      heldWait ea.toNat none
      modify (fun s => s.modThread t.val (fun k => { k with early := none }))
    modify (fun s => s.threadRest t.val)
    let x ← threadReadPart t (ea, 8)
    if op = 0x12 then pure ()
    else
      let (e, s) := (← get).busWrite (.thread t) true ea.toNat 8 (atomicNew op (BitVec.ofNat 64 x) v).toNat
      set s
      if e ≠ 0 then throw (threadErr e ea) else pure ()
    modify (fun s => s.regSet (.thread t) rt (BitVec.ofNat 64 x))

/-- The instruction: its register rule (R171), the operand, and the access at rb. The ri of `ll` is g0 (R157), so a
destination of g0 is one of the combinations that R171 makes illegal (DEDUCED, assumption log 319). -/
def zisSync (a : Agent) (op : Nat) (rt ri rb : Reg5) (s : State) : Result :=
  zis a { len := 4, ld := op != 0x13, st := op != 0x12, link := op == 0x12 } (do
    needs a (rt != rb && rt != ri)
    useReg a rt
    let v ← rdReg a ri
    let ea ← rdReg a rb
    match a with
    | .core c => coreSync c op rt v ea
    | .thread t => threadSync t op rt v ea
    pure .seq) s

/-- LL. -/
def execLl (a : Agent) (rt rb : Reg5) (s : State) : Result := zisSync a 0x12 rt 0 rb s
/-- SC. -/
def execSc (a : Agent) (rt ri rb : Reg5) (s : State) : Result := zisSync a 0x13 rt ri rb s
/-- SWP. -/
def execSwp (a : Agent) (rt ri rb : Reg5) (s : State) : Result := zisSync a 0x14 rt ri rb s
/-- LDADD. -/
def execLdadd (a : Agent) (rt ri rb : Reg5) (s : State) : Result := zisSync a 0x15 rt ri rb s
/-- LDAND. -/
def execLdand (a : Agent) (rt ri rb : Reg5) (s : State) : Result := zisSync a 0x16 rt ri rb s
/-- LDOR. -/
def execLdor (a : Agent) (rt ri rb : Reg5) (s : State) : Result := zisSync a 0x17 rt ri rb s

end Sys2Proof.Machine
end

