-- ==== Sys2Proof/Machine/ZisMaint.lean ====
section
/-!
DEFINITION. Maintenance of TLBs and caches: `tlbi` with the delivery of broadcasts (R223 to R225, R274 to R279), and
`cmo` (R282, R300 to R303), with the same operations as a group's external ones (R349).
-/

namespace Sys2Proof.Machine

/-- The wrapper's view of `tlbi` and `cmo`, which no thread decodes (R160). -/
def sysZi : Zi := { len := 4, thr := false, sys := true }

/-- The instruction requires a mode (R238). -/
def needsMode (c m : Nat) : Z Unit := do
  if ((← get).core c).arch.mode.toNat < m then privExc 0 else pure ()

/-! ## TLB maintenance (R275 to R279) -/

/-- The lowest mode of an operation of `tlbi` (R275). -/
def tlbiMode (op : Nat) : Nat := if op < 0x10 then 2 else 1

/-- The current guest of `tlbi`, in whatever mode it runs (R275). -/
def CoreArch.tlbiGuest (a : CoreArch) : Nat := if a.csf CsFld.G2CTL_EN = 1 then a.csf CsFld.G2BASE_GID else 0

/-- A broadcast is performed at a core: its retired stores first, then its entries are removed (R276). -/
def State.tlbiDo (s : State) (c op : Nat) (ra : Word) (guest : Nat) : State := (s.drainSb c).tlbiAt c op ra guest

/-- Every retired store of a member's instars up to `n` has been performed, or is nobody's any longer (R276, R348): its fold
holds none, or none of an instar so old. -/
def State.foldPast (s : State) (c n : Nat) : Bool :=
  let m := (s.core c).mem
  !s.inGroup c ||
  ((decide (n < m.instar) || m.openF.isEmpty) && (m.closedF.isEmpty || m.closedN.all (fun i => n < i)))

/-- A broadcast goes to one other core: it waits there; a core whose island is not ON counts as done, and what such a
core retains is invalid when it comes back (R276, R277). -/
def State.tlbiSend (s : State) (c d : Nat) (x : TlbiOp) : State :=
  if s.islOpen (coreIsland d) then
    (s.modCore d (fun k => { k with tlbis := k.tlbis ++ [x] })).modCore c (fun k => { k with tlbiWait := k.tlbiWait + 1 })
  else if (s.core d).dropHeld == s.core d then s
  else s.modCore d Core.dropHeld

/-- A broadcast by a core: at itself at once, and to every other core. -/
def State.tlbiBroadcast (s : State) (c op : Nat) (ra : Word) : State :=
  let a := (s.core c).arch
  let x : TlbiOp := { op := op, arg := ra, gid := a.tlbiGuest, asid := 0, issuer := c }
  ((List.range 160).filter (· != c)).foldl (fun s d => s.tlbiSend c d x) (s.tlbiDo c op ra a.tlbiGuest)

/-- The operations of `tlbi` that take no operand, whose ra must be g0: TLBI_ALL, TLBI_H_ALL and TLBI_S_ALL (R159, R275). -/
def tlbiNoArg (op : Nat) : Bool := op == 0x00 || op == 0x03 || op == 0x10

/-- A `tlbi`: local, broadcast, or, in a group, broadcast as an external operation (R279, R349). A broadcast is sent, and
retires once every core has performed it: until then the core waits at it, and an interrupt may still be taken before it
(R219, R276). -/
def zisTlbi (a : Agent) (op : Nat) (broadcast : Bool) (ra : Reg5) (s : State) : Result :=
  zis a sysZi (do
    match a with
    | .thread _ => illegal a
    | .core c =>
      needs a (!tlbiNoArg op || ra == 0)
      needsMode c.val (tlbiMode op)
      let v ← rdReg a ra
      let s ← get
      if !broadcast then set (s.tlbiAt c.val op v (s.core c.val).arch.tlbiGuest)
      else if s.inGroup c.val then
        set (s.issueExt c.val { kind := 4, op := 0x100 + op, pc := (s.core c.val).savedPc, pa := v.toNat % 2 ^ 48, size := 0,
                                data := v, ea := v, dest := none, base := none } false)
      else if (s.core c.val).tlbiSent = some (op, v) then pure ()
      else
        if s.drainBlocked c.val then throw .wait else pure ()
        let t := s.tlbiBroadcast c.val op v
        if (t.core c.val).tlbiWait = 0 then set t
        else
          set (t.modCore c.val (fun k => { k with tlbiSent := some (op, v) }))
          throw .wait
      pure .seq) s

/-- TLBI_ALL. -/
def execTlbiAll (a : Agent) (broadcast : Bool) (ra : Reg5) (s : State) : Result := zisTlbi a 0x00 broadcast ra s
/-- TLBI_GUEST. -/
def execTlbiGuest (a : Agent) (broadcast : Bool) (ra : Reg5) (s : State) : Result := zisTlbi a 0x01 broadcast ra s
/-- TLBI_IPA. -/
def execTlbiIpa (a : Agent) (broadcast : Bool) (ra : Reg5) (s : State) : Result := zisTlbi a 0x02 broadcast ra s
/-- TLBI_H_ALL. -/
def execTlbiHAll (a : Agent) (broadcast : Bool) (ra : Reg5) (s : State) : Result := zisTlbi a 0x03 broadcast ra s
/-- TLBI_H_VA. -/
def execTlbiHVa (a : Agent) (broadcast : Bool) (ra : Reg5) (s : State) : Result := zisTlbi a 0x04 broadcast ra s
/-- TLBI_S_ALL. -/
def execTlbiSAll (a : Agent) (broadcast : Bool) (ra : Reg5) (s : State) : Result := zisTlbi a 0x10 broadcast ra s
/-- TLBI_ASID. -/
def execTlbiAsid (a : Agent) (broadcast : Bool) (ra : Reg5) (s : State) : Result := zisTlbi a 0x11 broadcast ra s
/-- TLBI_VA. -/
def execTlbiVa (a : Agent) (broadcast : Bool) (ra : Reg5) (s : State) : Result := zisTlbi a 0x12 broadcast ra s
/-- TLBI_VA_ALLASID. -/
def execTlbiVaAllasid (a : Agent) (broadcast : Bool) (ra : Reg5) (s : State) : Result := zisTlbi a 0x13 broadcast ra s

/-- A core has done what a broadcast asks: the issuer waits for one fewer. -/
def State.tlbiAnswer (s : State) (issuer : Nat) : State :=
  if issuer < 160 then s.modCore issuer (fun k => { k with tlbiWait := k.tlbiWait - 1 }) else s

/-- TLBI_DELIVERY: the oldest broadcast that waits at a core is performed there (R276 to R278); its issuer waits for one
fewer. A member of a group, whose stores its fold holds, removes the entries and is done once its instars so far have been
confirmed and drained. -/
def execTlbiDelivery (c : CoreId) (s : State) : Result :=
  .next (match (s.core c.val).tlbis with
    | [] => s
    | x :: r =>
      if !s.islOpen (coreIsland c.val) ∨ s.drainBlocked c.val then s
      else
        let n := x.fold.getD (s.core c.val).mem.instar
        let s := if x.fold.isSome then s else s.tlbiDo c.val x.op x.arg x.gid
        if s.foldPast c.val n then (s.modCore c.val (fun k => { k with tlbis := r })).tlbiAnswer x.issuer
        else s.modCore c.val (fun k => { k with tlbis := { x with fold := some n } :: r }))

/-! ## Cache maintenance (R300 to R302) -/

/-- Buffered stores of a core to a line are performed first: the operation follows them as a store to the line would
(R302). -/
def State.performLine (s : State) (c line : Nat) : State :=
  let s := s.earlyLess c (64 * line) 64
  match sbYoungest (s.core c).sb (64 * line) 64 with
  | some i => s.sbPerformN c (i + 1)
  | none => s

/-- A `cmo`: its operand, which ILLEGAL judges before PRIV judges the mode (R246), and what it does. An operation without
an operand has ra = g0 (R159). -/
def zisCmo (a : Agent) (mode : Nat) (ra : Reg5) (body : CoreId → Word → Z Unit) (s : State)
    (legal : Word → Bool := fun _ => true) (noArg : Bool := false) : Result :=
  zis a sysZi (do
    match a with
    | .thread _ => illegal a
    | .core c =>
      needs a (!noArg || ra == 0)
      let v ← rdRegAfter (needsMode c.val mode) a ra
      needs a (legal v)
      needsMode c.val mode
      body c v
      pure .seq) s

/-- A by-address operation: ra translated as a load; nothing where the type is not NORMAL (R300). -/
def cmoLine (c : CoreId) (v : Word) (act : Nat → Z Unit) : Z Unit := do
  let ps ← partsMade c.val .load (corePartsOf c.val .load [(v, 1)])
  match ps with
  | p :: _ =>
    if p.mt ≠ 0 then pure ()
    else match mapFault false p with
    | some x => throw (.exc x)
    | none =>
      modify (fun s => s.performLine c.val (p.pa / 64))
      act (p.pa / 64)
  | [] => pure ()

/-- I_INV: the own L1 instruction cache, or every core's. -/
def execIInv (a : Agent) (broadcast : Bool) (ra : Reg5) (s : State) : Result :=
  zisCmo a 0 ra (fun c v => cmoLine c v (fun line =>
    modify (fun s => if broadcast then { s with cores := s.cores.map (fun e => (e.1, e.2.dropI line)) }
                     else s.modCore c.val (fun k => k.dropI line)))) s

/-- I_INV_ALL. -/
def execIInvAll (a : Agent) (ra : Reg5) (s : State) : Result :=
  zisCmo a 1 ra (fun c _ => modify (fun s => s.modCore c.val (fun k => { k with l1i := [] }))) s (noArg := true)

/-- D_INV_L1. -/
def execDInvL1 (a : Agent) (ra : Reg5) (s : State) : Result :=
  zisCmo a 0 ra (fun c v => cmoLine c v (fun line => modify (fun s => s.modCore c.val (fun k => k.dropD line)))) s

/-- D_INV_ALL. -/
def execDInvAll (a : Agent) (ra : Reg5) (s : State) : Result :=
  zisCmo a 1 ra (fun c _ => modify (fun s => s.modCore c.val (fun k => { k with l1d := [] }))) s (noArg := true)

/-- CLEAN_L2. -/
def execCleanL2 (a : Agent) (ra : Reg5) (s : State) : Result :=
  zisCmo a 0 ra (fun c v => cmoLine c v (fun line => modify (fun s => s.l2Clean c.val line))) s

/-- CINV_L2. -/
def execCinvL2 (a : Agent) (ra : Reg5) (s : State) : Result :=
  zisCmo a 0 ra (fun c v => cmoLine c v (fun line => modify (fun s => s.l2CleanInv c.val line))) s

/-- INV_L2. -/
def execInvL2 (a : Agent) (ra : Reg5) (s : State) : Result :=
  zisCmo a 2 ra (fun c v => cmoLine c v (fun line => modify (fun s => s.l2Drop c.val line))) s

/-- What an LLC operation of a requester does to a line of the whole device, by CSN[7:0]. A normal one that hits a secure line is
refused at the slice and recorded, and retires (R535; DESIGN CHOICE that it raises no exception, assumption log 339). -/
def State.cmoLlc (s : State) (q : FwReq) (op line : Nat) : State :=
  if (s.llcFind line).any (fun l => l.sec) && !q.sec then s.secureHit line q
  else if op = 0x14 then s.llcClean line else if op = 0x15 then s.llcCleanInv line else s.llcInv line

/-- An operation of LLC scope: in a group external (R302, R349). -/
def cmoGlobal (c : CoreId) (op pa : Nat) (v : Word) (act : Z Unit) : Z Unit := do
  let s ← get
  if s.inGroup c.val then
    set (s.issueExt c.val { kind := 5, op := op, pc := (s.core c.val).savedPc, pa := pa, size := 0, data := v, ea := v,
                            dest := none, base := none } false)
  else act

/-- CLEAN_LLC, CINV_LLC and INV_LLC; a line that another core holds for its `sc` is not taken from it (R332). -/
def zisCmoLlc (a : Agent) (op mode : Nat) (ra : Reg5) (s : State) : Result :=
  zisCmo a mode ra (fun c v => cmoLine c v (fun line =>
    cmoGlobal c op (64 * line) v (do
      if op = 0x14 then pure () else heldWait (64 * line) (some c.val)
      modify (fun s => s.cmoLlc (coreReq c.val) op line)))) s

/-- CLEAN_LLC. -/
def execCleanLlc (a : Agent) (ra : Reg5) (s : State) : Result := zisCmoLlc a 0x14 0 ra s
/-- CINV_LLC. -/
def execCinvLlc (a : Agent) (ra : Reg5) (s : State) : Result := zisCmoLlc a 0x15 0 ra s
/-- INV_LLC. -/
def execInvLlc (a : Agent) (ra : Reg5) (s : State) : Result := zisCmoLlc a 0x16 2 ra s

/-! ## By set and way (R282, R301) -/

/-- SET, WAY and SLICE of an operand. -/
def swSet (v : Word) : Nat := bitsOf v 23 8
def swWay (v : Word) : Nat := bitsOf v 3 0
def swSlice (v : Word) : Nat := bitsOf v 46 40

/-- The line that a way of an L1 holds. -/
def l1Way (l : List (Nat × Nat)) (set way : Nat) : Option Nat :=
  (l.find? (fun e => l1Index e.1 == set && e.2 == way)).map Prod.fst

/-- The line that a way of a core's L2 holds. -/
def Core.l2Way (k : Core) (set way : Nat) : Option Nat :=
  (k.l2.find? (fun x => l2Index x.line == set && x.way == way)).map (·.line)

/-- The operand names a place in a cache of so many sets, ways and slices (R301). -/
def inPlace (sets ways slices : Nat) (v : Word) : Bool :=
  decide (swSet v < sets) && decide (swWay v < ways) && decide (swSlice v < slices)

/-- D_INV_SW. -/
def execDInvSw (a : Agent) (ra : Reg5) (s : State) : Result :=
  zisCmo a 1 ra (fun c v =>
    modify (fun s => match l1Way (s.core c.val).l1d (swSet v) (swWay v) with
      | some line => s.modCore c.val (fun k => k.dropD line)
      | none => s)) s (inPlace 256 4 1)

/-- I_INV_SW. -/
def execIInvSw (a : Agent) (ra : Reg5) (s : State) : Result :=
  zisCmo a 1 ra (fun c v =>
    modify (fun s => match l1Way (s.core c.val).l1i (swSet v) (swWay v) with
      | some line => s.modCore c.val (fun k => k.dropI line)
      | none => s)) s (inPlace 256 4 1)

/-- An operation on the line in a way of the own L2. -/
def zisCmoL2Way (a : Agent) (mode : Nat) (ra : Reg5) (act : State → Nat → Nat → State) (s : State) : Result :=
  zisCmo a mode ra (fun c v =>
    modify (fun s => match (s.core c.val).l2Way (swSet v) (swWay v) with
      | some line => act (s.performLine c.val line) c.val line
      | none => s)) s (inPlace 2048 8 1)

/-- CLEAN_SW_L2. -/
def execCleanSwL2 (a : Agent) (ra : Reg5) (s : State) : Result := zisCmoL2Way a 1 ra State.l2Clean s
/-- CINV_SW_L2. -/
def execCinvSwL2 (a : Agent) (ra : Reg5) (s : State) : Result := zisCmoL2Way a 1 ra State.l2CleanInv s
/-- INV_SW_L2. -/
def execInvSwL2 (a : Agent) (ra : Reg5) (s : State) : Result := zisCmoL2Way a 2 ra State.l2Drop s

/-- A way of an LLC slice is cleaned (0x25), cleaned and invalidated (0x26) or invalidated (0x27): the slice's own line,
which alone the operand names; a secure one as in `cmoLlc`. -/
def State.cmoLlcWay (s : State) (q : FwReq) (op : Nat) (v : Word) : State :=
  let t := swSlice v
  match (s.llcOf t).find? (fun x => llcIndex x.line == swSet v && x.way == swWay v) with
  | none => s
  | some x =>
    if x.sec && !q.sec then s.secureHit x.line q
    else
    let s := if op ≠ 0x27 ∧ x.dirty then (s.llcFlush x).2 else s
    s.llcPutAll t (if op = 0x25 then (s.llcOf t).map (fun l => if l.line = x.line then { l with dirty := false } else l)
                   else (s.llcOf t).filter (fun l => l.line != x.line))

/-- An operation on a way of a slice. -/
def zisCmoLlcWay (a : Agent) (op : Nat) (ra : Reg5) (s : State) : Result :=
  zisCmo a 2 ra (fun c v =>
    cmoGlobal c op (v.toNat % 2 ^ 48) v (modify (fun s => s.cmoLlcWay (coreReq c.val) op v))) s (inPlace 1536 16 80)

/-- CLEAN_SW_LLC. -/
def execCleanSwLlc (a : Agent) (ra : Reg5) (s : State) : Result := zisCmoLlcWay a 0x25 ra s
/-- CINV_SW_LLC. -/
def execCinvSwLlc (a : Agent) (ra : Reg5) (s : State) : Result := zisCmoLlcWay a 0x26 ra s
/-- INV_SW_LLC. -/
def execInvSwLlc (a : Agent) (ra : Reg5) (s : State) : Result := zisCmoLlcWay a 0x27 ra s

end Sys2Proof.Machine
end

