-- ==== Sys2Proof/Machine/ExtOps.lean ====
section
/-!
DEFINITION. A group's external operations, performed once by the primary and delivered to every member (R279, R302, R326
to R332, R349, R351).
-/

namespace Sys2Proof.Machine

/-- What performing an external operation came to: not now; done, with what it returned; or an error. -/
inductive ExtOut where
  | notYet
  | done (v : Nat)
  | failed (m : MemAns)
  deriving DecidableEq, Repr

/-- An answer of a target as an outcome. -/
def MemAns.out (m : MemAns) : ExtOut := if m.err ≠ 0 ∨ m.poison then .failed m else .done m.val

/-- The primary performs the operation with the group's source identifier and its own mode (R38, R349). A broadcast
`tlbi` is sent, and is over once every core has performed it; `sc` and atomics, and operations that take lines away, wait
for a line that another core holds (R332). -/
def State.extPerform (s : State) (g : GroupId) (p : Nat) (x : ExtOp) : ExtOut × State :=
  if x.kind = 1 then
    let (m, s) := s.busRead (.group g) false x.pa x.size
    (m.out, s)
  else if x.kind = 2 then
    let (e, s) := s.busWrite (.group g) false x.pa x.size x.data.toNat
    (({ err := e } : MemAns).out, s)
  else if x.kind = 3 then
    if x.op = 0x12 ∧ linkable x.nc x.pa ∧ !s.llTurn p x.pa then (.notYet, s.llQueue p x.pa)
    else if s.syncWrites p x.op x.pa x.nc && isHbm x.pa && s.heldAgainst (x.pa / 64) (some p) then (.notYet, s)
    else
      let s := s.modCore p (fun k => { k with llWait := none })
      let (m, s) := s.syncPerform p (.group g) x.op x.pa x.nc x.data
      (m.out, s)
  else if x.kind = 4 then
    if x.op = 0x1000 then
      let (o, s) := s.adWrite p { pa := x.pa, old := x.ea, new := x.data, level := 0, stage2 := false }
        (s.fwReq (.group g) false x.pa)
      (if o = .failed then .failed { err := 1 } else .done 0, s)
    else
      let s := if x.op < 0x200 then
          (s.tlbiBroadcast p (x.op - 0x100) x.data).modMem p (fun m => { m with ext := some { x with op := x.op + 0x100 } })
        else s
      (if (s.core p).tlbiWait = 0 then .done 0 else .notYet, s)
  else if x.op < 0x20 then
    if x.op ≠ 0x14 ∧ s.heldAgainst (x.pa / 64) (some p) then (.notYet, s)
    else (.done 0, s.cmoLlc (s.fwReq (.group g) false x.pa) x.op (x.pa / 64))
  else (.done 0, s.cmoLlcWay (s.fwReq (.group g) false x.pa) x.op x.data)

/-- The newest checkpoint holds the state as it is now. -/
def State.ckptNow (s : State) (c n : Nat) : State :=
  s.modCore c (fun k => { k with mem := { k.mem with
    ckpts := k.mem.ckpts.map (fun x => if x.instar = n then { x with arch := k.arch } else x) } })

/-- The result is a member's first event of its next instar, whose checkpoint is taken after it; a load's destination and
base are written here. -/
def State.extResult (s : State) (c : CoreId) (x : ExtOp) (v : Nat) : State :=
  let s := ((s.modMem c.val (fun m => { m with ext := none })).beginInstar c.val).pmFree c.val 0x23
  let n := (s.core c.val).mem.instar
  let s := match x.dest with
    | some rt => s.loadDone (.core c) (if x.kind = 1 then x.op else 0x06) rt x.base v 0
    | none => match x.base with
      | some (b, w) => s.regSet (.core c) b w
      | none => s
  s.ckptNow c.val n

/-- An error response is every member's DATA_ERR, or the translation fault of an update of flags, at the same count, with the
operation's instruction as the saved pc;
poison is the group's deferred machine check, with one DETAIL for every member (R349, R362). -/
def State.extError (s : State) (c : CoreId) (x : ExtOp) (m : MemAns) (mc : BitVec 16 × Word) : State :=
  let s := (s.modMem c.val (fun m => { m with ext := none })).beginInstar c.val
  let n := (s.core c.val).mem.instar
  if m.err ≠ 0 then
    (match x.walk with
      | some (acc, ea, f) => (s.hipaPut c.val f).takeExc c.val (f.exc acc ea) x.pc
      | none => s.takeExc c.val { vec := 0x08, detail := m.err, addr := x.ea } x.pc).ckptNow c.val n
  else
    let s := s.modCore c.val (fun k => { k with slot := none, arch := { k.arch with pc := x.pc } })
    ((s.mcheck c.val ⟨mc.1, mc.2, true, true, some x.pc⟩).enterMcheck c.val).ckptNow c.val n

/-- The record of poison that an operation returned is the primary's (R613). -/
def State.extPoison (s : State) (p : Nat) (x : ExtOp) (m : MemAns) : (BitVec 16 × Word) × State :=
  if m.err ≠ 0 then ((0, 0), s)
  else
    let (t, r) := s.logPoison { unit := p, sev := 1, type := 0x03, addr := some x.pa, src := p, data := [x.pc.toNat] }
    ((mcDetail p 1 r, mcAddr r x.pa), t)

/-- Every running member has reached the operation, and the instar that ends with it is confirmed and drained. -/
def State.extReady (s : State) (g : Nat) : Bool :=
  s.fld Fld.CG_STAT_STATE g == 3 && s.islOpen (coreIsland (s.groupPrimary g)) &&
  (s.groupRunning g).all (fun c => (s.core c).mem.ext.isSome && (s.core c).mem.closedN.isNone)

/-- EXTERNAL_OP. -/
def execExternalOp (g : GroupId) (s : State) : Result :=
  .next (
    let p := s.groupPrimary g.val
    match (s.core p).mem.ext with
    | none => s
    | some x =>
      if !s.extReady g.val then s
      else
        let (o, s) := s.extPerform g p x
        let each (s : State) (f : State → CoreId → State) : State := (s.groupRunning g.val).foldl (fun s c =>
          if h : c < 160 then f s ⟨c, h⟩ else s) s
        match o with
        | .notYet => s
        | .done v => each s (fun s c => s.extResult c x v)
        | .failed m =>
          let (d, s) := s.extPoison p x m
          each s (fun s c => s.extError c x m d))

end Sys2Proof.Machine
end

