-- ==== Sys2Proof/Machine/Tally.lean ====
section
/-!
DEFINITION. The Tally instruction set (R112 to R126, R516 to R519): loads and stores over the data spaces, instructions,
event entry, and the commands of the two mailboxes.
-/

namespace Sys2Proof.Machine

/-- The steps that a data access adds to its word's own (R121): one for the data SRAM; an aperture's crossings and its
responder take a time that is not stated in steps. -/
def State.tallyAccessTime (s : State) (cpu : TallyCpu) (a : Nat) : State :=
  match tallySpace cpu a with
  | .sram => s.tallySteps cpu 1
  | .aperture => s.tallyTime cpu
  | .locals _ | .mirror _ | .crypto | .fuses _ | .none => s

/-- Read `n` (4 or 8) bytes of data space; `none` is a data fault (R118, R126). -/
def State.tallyRead (s : State) (cpu : TallyCpu) (a n : Nat) : Option Nat × State :=
  match tallySpace cpu a with
  | .sram =>
    match s.sramRead cpu (a / 4) with
    | (some lo, s) =>
      if n = 4 then (some lo.toNat, s)
      else match s.sramRead cpu (a / 4 + 1) with
        | (some hi, s) => (some (lo.toNat + hi.toNat * 2 ^ 32), s)
        | (none, s) => (none, s)
    | (none, s) => (none, s)
  | .locals off =>
    match s.localRead cpu off with
    | some (lo, s) =>
      if n = 4 then (some lo.toNat, s)
      else match s.localRead cpu (off + 4) with
        | some (hi, s) => (some (lo.toNat + hi.toNat * 2 ^ 32), s)
        | none => (none, s)
    | none => (none, s)
  | .mirror off =>
    match s.mirrorRead cpu off with
    | some lo =>
      if n = 4 then (some lo.toNat, s)
      else match s.mirrorRead cpu (off + 4) with
        | some hi => (some (lo.toNat + hi.toNat * 2 ^ 32), s)
        | none => (none, s)
    | none => (none, s)
  | .crypto =>
    let (v, s) := s.freeVal
    (some (v.toNat % 2 ^ (8 * n)), s)
  | .fuses off => (some ((s.fuses >>> (8 * off)).toNat % 2 ^ (8 * n)), s)
  | .aperture =>
    let (r, s) := s.busRead (tallySrc cpu) (s.tallySec cpu) ((s.tally cpu).physical a) n
    if r.err ≠ 0 then (none, s)
    else if r.poison then
      (none, (s.logPoison { unit := tallyUnit cpu, sev := 1, type := 0x03, addr := some ((s.tally cpu).physical a) }).1)
    else (some r.val, s)
  | .none => (none, s)

/-- Write `n` (4 or 8) bytes of data space; `none` is a data fault (R118, R126). -/
def State.tallyWrite (s : State) (cpu : TallyCpu) (a n v : Nat) : Bool × State :=
  let done (o : Option State) : Bool × State :=
    match o with
    | some s => (true, s)
    | none => (false, s)
  match tallySpace cpu a with
  | .sram =>
    let s := s.sramWrite cpu (a / 4) (BitVec.ofNat 32 v)
    (true, if n = 4 then s else s.sramWrite cpu (a / 4 + 1) (BitVec.ofNat 32 (v / 2 ^ 32)))
  | .locals off =>
    done ((s.localWrite cpu off (BitVec.ofNat 32 v)).bind (fun s =>
      if n = 4 then some s else s.localWrite cpu (off + 4) (BitVec.ofNat 32 (v / 2 ^ 32))))
  | .mirror off =>
    done ((s.mirrorWrite cpu off (BitVec.ofNat 32 v)).bind (fun s =>
      if n = 4 then some s else s.mirrorWrite cpu (off + 4) (BitVec.ofNat 32 (v / 2 ^ 32))))
  | .crypto => (true, s)
  | .fuses _ => (false, s)
  | .aperture =>
    let (e, s) := s.busWrite (tallySrc cpu) (s.tallySec cpu) ((s.tally cpu).physical a) n v
    (e == 0, s)
  | .none => (false, s)

/-! ## Instructions -/

/-- An ALU register operation: a result, or none to write, and flags from d, s and the flags (R117); `mul` and `mulhu`
take two steps more (R121). -/
def State.tallyAlu (s : State) (cpu : TallyCpu) (d r : TReg)
    (f : BitVec 32 → BitVec 32 → BitVec 4 → Option (BitVec 32) × BitVec 4) (more : BitVec 32 := 0) : State :=
  s.tallyDo cpu false (fun s => (s.tallySteps cpu more).tallyNext cpu (fun k =>
    let (res, fl) := f (k.t d) (k.t r) k.flags
    let k := k.setFlags fl
    match res with
    | some v => k.setT d v
    | none => k))

/-- TALLY_MOV (R117). -/
def execTallyMov (cpu : TallyCpu) (d r : TReg) (s : State) : Result :=
  .next (s.tallyAlu cpu d r (fun _ b fl => (some b, fl)))

/-- TALLY_ADD (R117). -/
def execTallyAdd (cpu : TallyCpu) (d r : TReg) (s : State) : Result :=
  .next (s.tallyAlu cpu d r (fun a b _ => let (x, fl) := addFlags a b false; (some x, fl)))

/-- TALLY_SUB (R117). -/
def execTallySub (cpu : TallyCpu) (d r : TReg) (s : State) : Result :=
  .next (s.tallyAlu cpu d r (fun a b _ => let (x, fl) := subFlags a b true; (some x, fl)))

/-- TALLY_CMP (R117). -/
def execTallyCmp (cpu : TallyCpu) (d r : TReg) (s : State) : Result :=
  .next (s.tallyAlu cpu d r (fun a b _ => (none, (subFlags a b true).2)))

/-- TALLY_AND (R117). -/
def execTallyAnd (cpu : TallyCpu) (d r : TReg) (s : State) : Result :=
  .next (s.tallyAlu cpu d r (fun a b fl => (some (a &&& b), flagsNZ (a &&& b) fl)))

/-- TALLY_OR (R117). -/
def execTallyOr (cpu : TallyCpu) (d r : TReg) (s : State) : Result :=
  .next (s.tallyAlu cpu d r (fun a b fl => (some (a ||| b), flagsNZ (a ||| b) fl)))

/-- TALLY_XOR (R117). -/
def execTallyXor (cpu : TallyCpu) (d r : TReg) (s : State) : Result :=
  .next (s.tallyAlu cpu d r (fun a b fl => (some (a ^^^ b), flagsNZ (a ^^^ b) fl)))

/-- TALLY_TST (R117). -/
def execTallyTst (cpu : TallyCpu) (d r : TReg) (s : State) : Result :=
  .next (s.tallyAlu cpu d r (fun a b fl => (none, flagsNZ (a &&& b) fl)))

/-- TALLY_SHL (R117). -/
def execTallyShl (cpu : TallyCpu) (d r : TReg) (s : State) : Result :=
  .next (s.tallyAlu cpu d r (fun a b fl => let (x, f) := shiftFlags .left a (b.toNat % 32) fl; (some x, f)))

/-- TALLY_SHR (R117). -/
def execTallyShr (cpu : TallyCpu) (d r : TReg) (s : State) : Result :=
  .next (s.tallyAlu cpu d r (fun a b fl => let (x, f) := shiftFlags .right a (b.toNat % 32) fl; (some x, f)))

/-- TALLY_SAR (R117). -/
def execTallySar (cpu : TallyCpu) (d r : TReg) (s : State) : Result :=
  .next (s.tallyAlu cpu d r (fun a b fl => let (x, f) := shiftFlags .arith a (b.toNat % 32) fl; (some x, f)))

/-- TALLY_MUL (R117). -/
def execTallyMul (cpu : TallyCpu) (d r : TReg) (s : State) : Result :=
  .next (s.tallyAlu cpu d r (fun a b fl => (some (a * b), flagsNZ (a * b) fl)) 2)

/-- The high half of an unsigned product. -/
def mulHigh {w : Nat} (a b : BitVec w) : BitVec w := BitVec.ofNat w (a.toNat * b.toNat / 2 ^ w)

/-- TALLY_MULHU (R117). -/
def execTallyMulhu (cpu : TallyCpu) (d r : TReg) (s : State) : Result :=
  .next (s.tallyAlu cpu d r (fun a b fl => (some (mulHigh a b), flagsNZ (mulHigh a b) fl)) 2)

/-- TALLY_ADC (R117). -/
def execTallyAdc (cpu : TallyCpu) (d r : TReg) (s : State) : Result :=
  .next (s.tallyAlu cpu d r (fun a b fl => let (x, f) := addFlags a b (Flg.c fl); (some x, f)))

/-- TALLY_SBC (R117). -/
def execTallySbc (cpu : TallyCpu) (d r : TReg) (s : State) : Result :=
  .next (s.tallyAlu cpu d r (fun a b fl => let (x, f) := subFlags a b (Flg.c fl); (some x, f)))

/-- TALLY_CLZ (R117): Z alone is set. -/
def execTallyClz (cpu : TallyCpu) (d r : TReg) (s : State) : Result :=
  .next (s.tallyAlu cpu d r (fun _ b fl =>
    let x := BitVec.ofNat 32 (leadingZeros b)
    (some x, mkFlags (Flg.n fl) (x == 0) (Flg.c fl) (Flg.v fl))))

/-- An ALU immediate operation (R117, R119): the immediate is E:IMM6. -/
def State.tallyImm (s : State) (cpu : TallyCpu) (d : TReg) (imm : BitVec 6) (signed : Bool)
    (f : BitVec 32 → BitVec 32 → BitVec 4 → Option (BitVec 32) × BitVec 4) : State :=
  s.tallyDo cpu true (fun s => s.tallyNext cpu (fun k =>
    let (res, fl) := f (k.t d) (k.extend 6 imm.toNat signed) k.flags
    let k := k.setFlags fl
    match res with
    | some v => k.setT d v
    | none => k))

/-- TALLY_MOVI (R117, R119). -/
def execTallyMovi (cpu : TallyCpu) (d : TReg) (imm6 : BitVec 6) (s : State) : Result :=
  .next (s.tallyImm cpu d imm6 true (fun _ b fl => (some b, fl)))

/-- TALLY_ADDI (R117, R119). -/
def execTallyAddi (cpu : TallyCpu) (d : TReg) (imm6 : BitVec 6) (s : State) : Result :=
  .next (s.tallyImm cpu d imm6 true (fun a b _ => let (x, fl) := addFlags a b false; (some x, fl)))

/-- TALLY_CMPI (R117, R119). -/
def execTallyCmpi (cpu : TallyCpu) (d : TReg) (imm6 : BitVec 6) (s : State) : Result :=
  .next (s.tallyImm cpu d imm6 true (fun a b _ => (none, (subFlags a b true).2)))

/-- TALLY_ANDI (R117, R119). -/
def execTallyAndi (cpu : TallyCpu) (d : TReg) (imm6 : BitVec 6) (s : State) : Result :=
  .next (s.tallyImm cpu d imm6 false (fun a b fl => (some (a &&& b), flagsNZ (a &&& b) fl)))

/-- The data address of a memory instruction of `n` bytes (R117, R119). -/
def Tally.dataAddr (k : Tally) (b : TReg) (n : Nat) : BitVec 32 := k.t b + k.offset n

/-- Whether a memory access is allowed (R118): aligned to its size, and with an even d for a pair. -/
def tallyAligned (a : BitVec 32) (d : TReg) (n : Nat) : Bool := a.toNat % n == 0 && (n == 4 || d.toNat % 2 == 0)

/-- A load of `n` bytes into d, or d and d + 1 (R117, R118). -/
def State.tallyLoad (s : State) (cpu : TallyCpu) (d b : TReg) (n : Nat) : State :=
  s.tallyDo cpu true (fun s =>
    let a := (s.tally cpu).dataAddr b n
    if !tallyAligned a d n then s.tallyTrap cpu 2 (some a)
    else match (s.tallyAccessTime cpu a.toNat).tallyRead cpu a.toNat n with
      | (none, s) => s.tallyTrap cpu 2 (some a)
      | (some v, s) => s.tallyNext cpu (fun k =>
          let k := k.setT d (BitVec.ofNat 32 v)
          if n = 8 then k.setT (d + 1) (BitVec.ofNat 32 (v / 2 ^ 32)) else k))

/-- A store of `n` bytes from d, or d + 1 : d (R117, R118). -/
def State.tallyStore (s : State) (cpu : TallyCpu) (d b : TReg) (n : Nat) : State :=
  s.tallyDo cpu true (fun s =>
    let k := s.tally cpu
    let a := k.dataAddr b n
    let v := (k.t d).toNat + (if n = 8 then (k.t (d + 1)).toNat * 2 ^ 32 else 0)
    if !tallyAligned a d n then s.tallyTrap cpu 2 (some a)
    else match (s.tallyAccessTime cpu a.toNat).tallyWrite cpu a.toNat n v with
      | (false, s) => s.tallyTrap cpu 2 (some a)
      | (true, s) => s.tallyNext cpu id)

/-- LD (R117). -/
def execLd (cpu : TallyCpu) (d b : TReg) (s : State) : Result := .next (s.tallyLoad cpu d b 4)

/-- ST (R117). -/
def execSt (cpu : TallyCpu) (d b : TReg) (s : State) : Result := .next (s.tallyStore cpu d b 4)

/-- LDP (R117). -/
def execLdp (cpu : TallyCpu) (d b : TReg) (s : State) : Result := .next (s.tallyLoad cpu d b 8)

/-- STP (R117). -/
def execStp (cpu : TallyCpu) (d b : TReg) (s : State) : Result := .next (s.tallyStore cpu d b 8)

/-- PREFIX (R119): a fourth consecutive prefix is illegal. -/
def execTallyPrefix (cpu : TallyCpu) (payload : BitVec 12) (s : State) : Result :=
  .next (s.tallyDo cpu true (fun s =>
    if 3 ≤ (s.tally cpu).prefixN then s.tallyTrap cpu 1
    else s.modTally cpu (fun k =>
      { k with prefixPc := k.firstPc, prefixN := k.prefixN + 1,
               prefixE := (k.prefixE <<< 12) ||| payload.zeroExtend 36, pc := k.pc + 1 })))

/-- The target of a branch or jump (R119). -/
def Tally.target (k : Tally) (n disp : Nat) : BitVec 16 := k.pc + 1 + (k.extend n disp true).truncate 16

/-- A branch or jump that is taken adds two steps (R121). -/
def Tally.taken (k : Tally) : Tally := k.addSteps 2

/-- TALLY_BRANCH (R119, R120). -/
def execTallyBranch (cpu : TallyCpu) (cond : Cond) (disp6 : BitVec 6) (s : State) : Result :=
  .next (s.tallyDo cpu true (fun s => s.modTally cpu (fun k =>
    if condHolds cond k.flags then { k.taken.noPrefix with pc := k.target 6 disp6.toNat }
    else { k.noPrefix with pc := k.pc + 1 })))

/-- TALLY_JUMP (R119, R120). -/
def execTallyJump (cpu : TallyCpu) (link : Bool) (disp9 : BitVec 9) (s : State) : Result :=
  .next (s.tallyDo cpu true (fun s => s.modTally cpu (fun k =>
    let k' := if link then k.setT 15 ((k.pc + 1).zeroExtend 32) else k
    { k'.taken.noPrefix with pc := k.target 9 disp9.toNat })))

/-- TALLY_JR (R121). -/
def execTallyJr (cpu : TallyCpu) (r : TReg) (s : State) : Result :=
  .next (s.tallyDo cpu false (fun s => s.modTally cpu (fun k => { k.taken with pc := (k.t r).truncate 16 })))

/-- JLR (R121): t15 takes the next address and pc takes r, as r stood before. -/
def execJlr (cpu : TallyCpu) (r : TReg) (s : State) : Result :=
  .next (s.tallyDo cpu false (fun s => s.modTally cpu (fun k =>
    { (k.setT 15 ((k.pc + 1).zeroExtend 32)).taken with pc := (k.t r).truncate 16 })))

/-- RETI (R121): pc takes EPC and IE takes PIE; an extension handler's return ends its call's service. -/
def execReti (cpu : TallyCpu) (s : State) : Result :=
  .next (s.tallyDo cpu false (fun s => s.modTally cpu (fun k =>
    let x := k.x 0
    let ie : BitVec 32 := if x.getLsbD 5 then 0x10 else 0
    { (k.setX 0 ((x &&& ~~~ (0x10 : BitVec 32)) ||| ie)).taken with pc := (k.x 1).truncate 16 })))

/-- The special register that `mfx` and `mtx` name: E, or X0 without prefix (R121). -/
def Tally.xnum (k : Tally) : Nat := if k.prefixN = 0 then 0 else k.prefixE.toNat

/-- MFX (R121, R122): STEPS counts this word's step too; a number above 7 is illegal. -/
def execMfx (cpu : TallyCpu) (r : TReg) (s : State) : Result :=
  .next (s.tallyDo cpu true (fun s =>
    let n := (s.tally cpu).xnum
    if 7 < n then s.tallyTrap cpu 1
    else if n = 5 then s.tallyNext cpu (fun k => k.setT r (s.tallyEvents cpu))
    else s.tallyNext cpu (fun k => k.setT r (k.x n))))

/-- The bits of a special register that a write sets (R122): those of RW registers. -/
def xWriteMask : Nat → BitVec 32
  | 0 => 0x7F
  | 1 => 0xFFFF
  | 4 => 0x1FFFF
  | 6 => 0xFF
  | _ => 0

/-- MTX (R121, R122). -/
def execMtx (cpu : TallyCpu) (r : TReg) (s : State) : Result :=
  .next (s.tallyDo cpu true (fun s =>
    let n := (s.tally cpu).xnum
    if 7 < n then s.tallyTrap cpu 1
    else s.tallyNext cpu (fun k =>
      if xWriteMask n = 0 then k else k.setX n ((k.t r) &&& xWriteMask n))))

/-- TALLY_WAIT (R121, R125): with an event pending it completes; otherwise it sleeps. -/
def execTallyWait (cpu : TallyCpu) (r : TReg) (s : State) : Result :=
  .next (s.tallyDo cpu false (fun s =>
    let k := s.tally cpu
    if s.tallyEvents cpu &&& k.t r ≠ 0 then s.tallyNext cpu id
    else s.modTally cpu (fun k => { k with waiting := some (k.t r) })))

/-- TALLY_WAIT_WAKE (R125): a masked event ends the sleep, whose steps the spec does not state. -/
def execTallyWaitWake (cpu : TallyCpu) (s : State) : Result :=
  .next (match (s.tally cpu).waiting with
    | some m =>
      if s.tallyEvents cpu &&& m ≠ 0 then
        (s.modTally cpu (fun k => { k with waiting := none, pc := k.pc + 1 })).tallyTime cpu
      else s
    | none => s)

/-- FENCE (R121): aperture writes are performed at once here, so the fence only moves on. -/
def execFence (cpu : TallyCpu) (s : State) : Result := .next (s.tallyDo cpu false (fun s => s.tallyNext cpu id))

/-- TALLY_EVENT_ENTRY (R122, R123): with IE set, a pending event of EVMASK takes cause 3 between instructions. -/
def execTallyEventEntry (cpu : TallyCpu) (s : State) : Result :=
  let k := s.tally cpu
  .next (if s.tallyIssues cpu && k.prefixN == 0 && (k.x 0).getLsbD 4 && s.tallyEvents cpu &&& k.x 6 != 0 then
    s.modTally cpu (fun k => k.enter 3) else s)

/-- LOCKSTEP_MISMATCH (R113). -/
def execLockstepMismatch (s : State) : Result :=
  .next (if s.reeve.run == .running && s.islState 23 == 1 then s.lockstepStop else s)

/-- MBQ_READ (R126): a word read of the local register MBQ; the doorbell is the answer. -/
def execMbqRead (cpu : TallyCpu) (s : State) : Result :=
  .next (if s.tallyIssues cpu then let (v, s) := s.mbqPop cpu; s.reply (v.zeroExtend 256) else s)

/-- The slot whose call the Reeve takes next: the oldest doorbell whose call is PENDING (R131). -/
def State.nextCall (s : State) : Option Nat :=
  (s.reeve.readQ ++ s.reeve.mbq.map (·.1)).find? (fun m => s.callState m == 1)

/-- MAILBOX_TAKE (R129): the Reeve's write to MBTAKE. It takes calls in MBQ order, and so takes none before an older one
that is PENDING (R131). -/
def execMailboxTake (v : BitVec 32) (s : State) : Result :=
  .next (if s.tallyIssues .reeve && (s.callState (v.toNat % 32) != 1 || s.nextCall == some (v.toNat % 32))
    then s.mailboxTake .reeve v else s)

/-- MAILBOX_COMPLETE (R130): the Reeve's write to MBDONE. -/
def execMailboxComplete (v : BitVec 32) (s : State) : Result :=
  .next (if s.tallyIssues .reeve then s.mailboxDone .reeve v else s)

/-- EVENT_ACK (R124). -/
def execEventAck (cpu : TallyCpu) (v : BitVec 32) (s : State) : Result :=
  .next (if s.tallyIssues cpu then s.evAck cpu v else s)

/-- PLOAD_DATA (R115). -/
def execPloadData (v : BitVec 32) (s : State) : Result :=
  .next (if s.tallyIssues .reeve then s.pload v else s)

/-- PLOCK_SET (R115). -/
def execPlockSet (v : BitVec 32) (s : State) : Result :=
  .next (if s.tallyIssues .reeve then s.plockSet v else s)

/-- COCOON_STOP (R516). -/
def execCocoonStop (s : State) : Result :=
  .next (if s.cocoon.run == .running && s.islState 24 == 1 then s.cocoonStop else s)

/-- COCOON_MAILBOX_TAKE (R524). -/
def execCocoonMailboxTake (v : BitVec 32) (s : State) : Result :=
  .next (if s.tallyIssues .cocoon then s.mailboxTake .cocoon v else s)

/-- COCOON_MAILBOX_COMPLETE (R525). -/
def execCocoonMailboxComplete (v : BitVec 32) (s : State) : Result :=
  .next (if s.tallyIssues .cocoon then s.mailboxDone .cocoon v else s)

/-- COCOON_TICK (R519): 1 ms of domain T. -/
def execCocoonTick (s : State) : Result :=
  .next (if s.clockRuns && s.islState 24 == 1 then s.cocoonEvent 5 else s)

/-! ## Service slots of the Reeve (R127 to R130) -/

/-- SLOT_OWN_WRITE (R127). -/
def execSlotOwnWrite (src : Src) (m : SlotId) (v : Word) (s : State) : Result :=
  .next (s.csrPort src .RV_OWN m.val (fun s => s.slotOwnWrite m.val src v))

/-- SERVICE_DOORBELL (R128). -/
def execServiceDoorbell (src : Src) (m : SlotId) (v : Word) (s : State) : Result :=
  .next (s.csrPort src .RV_CMD m.val (fun s => s.doorbell m.val src v))

/-- SERVICE_TIMEOUT (R129). -/
def execServiceTimeout (m : SlotId) (s : State) : Result :=
  .next (if s.clockRuns then s.callExpire m.val else s)

end Sys2Proof.Machine
end

