-- ==== Sys2Proof/Machine/Illegal.lean ====
section
/-!
DEFINITION. An encoding that names no instruction, on any of the processors (R113, R120, R135, R146, R468).
-/

namespace Sys2Proof.Machine

/-- ILLEGAL_INSTRUCTION: the illegal-instruction exception of a core, the fault of a thread, the trap of a Tally. -/
def execIllegalInstruction (a : AnyAgent) (short : Bool) (s : State) : Result :=
  match a with
  | .zis a => zisIllegal a short s
  | .tally cpu => .next (s.tallyDo cpu true (fun s => s.tallyTrap cpu 1))

end Sys2Proof.Machine
end

