-- ==== Sys2Proof/Machine/Pmbus.lean ====
section
/-!
DEFINITION. The management port (R459): the PMBus commands, their values in LINEAR11 and the status bits.
-/

namespace Sys2Proof.Machine

/-- The exponent of LINEAR11 whose steps are finest among those that hold the value num / den. -/
def linearExp (num : Int) (den : Nat) : Int :=
  match (List.range 32).find? (fun (k : Nat) =>
    let e : Int := (k : Int) - 16
    let y := if e < 0 then num * 2 ^ (-e).toNat / den else num / (den * 2 ^ e.toNat)
    y ≤ 1023 && -1024 ≤ y) with
  | some k => (k : Int) - 16
  | none => 15

/-- A value num / den in LINEAR11: 5 bits of exponent over 11 bits of mantissa, both signed. -/
def linear11 (num : Int) (den : Nat) : BitVec 16 :=
  let e := linearExp num den
  let y := if e < 0 then num * 2 ^ (-e).toNat / den else num / (den * 2 ^ e.toNat)
  BitVec.ofNat 16 (encSigned 5 e * 2 ^ 11 + encSigned 11 y)

/-- The management port answers from phase 4, but not while RESET_N is low, nor once the power-fail sequence has released
every land (R35, R49, R459). -/
def State.mgmtUp (s : State) : Bool :=
  s.pwr.standby && 4 ≤ s.pwr.phase && !s.pwr.resetLow && !s.pwr.past380 &&
  (s.pwr.mode == .start || s.pwr.mode == .run || s.pwr.mode == .standby)

/-- A command of the management port: not acknowledged before it answers. -/
def State.mgmt (s : State) (k : State → State) : Result := .next (if s.mgmtUp then k s else s.replyErr)

/-- The packet error code of a transfer: the CRC-8 of SMBus, x^8 + x^2 + x + 1, of its bytes, the address bytes 0x94 (write) and
0x95 (read) of target 0x4A among them (R459; PRESUMED from SMBus, assumption log 131). -/
def pecBit (x : Byte) : Byte := if x.msb then (x <<< 1) ^^^ 0x07 else x <<< 1
def pecOf (bytes : List Byte) : Byte :=
  bytes.foldl (fun c b => (List.range 8).foldl (fun x _ => pecBit x) (c ^^^ b)) 0

/-- A byte that the host has written under a command code comes with the right packet error code, or without one. -/
def pecGood (x : PecByte) (code : Byte) : Bool := x.pec.all (fun p => p == pecOf [0x94, code, x.data])

/-- A command that reads a word under its code: the word, and behind it the packet error code. -/
def State.pmbusWord (s : State) (code : Byte) (w : BitVec 16) : State :=
  s.reply ((pecOf [0x94, code, 0x95, w.truncate 8, (w >>> 8).truncate 8] ++ w).zeroExtend 256)

/-- SMB_ALERT_N is low while any bit of STATUS_WORD is set (R459). -/
def State.smbAlert (s : State) : Bool := s.mgmtUp && s.pmbus != 0

/-- CLEAR_FAULTS (R459). -/
def execClearFaults (s : State) : Result := s.mgmt (fun s => ({ s with pmbus := 0 }).reply 0)

/-- STATUS_WORD (R459). -/
def execStatusWord (s : State) : Result := s.mgmt (fun s => s.pmbusWord 0x79 s.pmbus)

/-- READ_VIN (R459): in volts, from PW_INSTAT's units of 10 mV. -/
def execReadVin (s : State) : Result :=
  s.mgmt (fun s => s.pmbusWord 0x88 (linear11 (s.fld Fld.PW_INSTAT_VIN 0) 100))

/-- READ_IIN (R459): the reading, in mA, as amperes. -/
def execReadIin (iin : Nat) (s : State) : Result := s.mgmt (fun s => s.pmbusWord 0x89 (linear11 iin 1000))

/-- READ_PIN (R459): the 10 ms average, in watts. -/
def execReadPin (s : State) : Result := s.mgmt (fun s => s.pmbusWord 0x97 (linear11 s.pwr.p10ms 10))

/-- READ_TEMPERATURE_1 (R459): the highest TJ, in degrees, from quarters. -/
def execReadTemperature1 (s : State) : Result := s.mgmt (fun s => s.pmbusWord 0x8D (linear11 s.pwr.hottest 4))

/-- A refused command: its status bit (R459). -/
def State.mgmtRefuse (s : State) : State := (s.pmbusSet 1).replyErr

/-- MFR_STANDBY (R81, R459): refused while the Cocoon holds a block that STANDBY would power down. -/
def execMfrStandby (v : PecByte) (s : State) : Result :=
  s.mgmt (fun s =>
    if !pecGood v 0xD0 then s.replyErr
    else if v.data ≠ 0xA5 then s.reply 0
    else if s.anyHeld then s.mgmtRefuse
    else if s.pwr.mode = .run then (s.reply 0).enterStandby else s.reply 0)

/-- MFR_WAKE (R459): start-up resumes at phase 4 (R88). -/
def execMfrWake (v : PecByte) (s : State) : Result :=
  s.mgmt (fun s =>
    if !pecGood v 0xD1 then s.replyErr
    else if v.data ≠ 0xA5 then s.reply 0
    else if s.pwr.emergency then s.mgmtRefuse
    else if s.pwr.mode = .standby then
      ({ s.reply 0 with pwr := { s.pwr with mode := .start, phase := 4, failed := false } }).setFld Fld.BT_STAT_CAUSE 0 5
    else s.reply 0)

end Sys2Proof.Machine
end

