-- ==== Sys2Proof/Machine/Tap.lean ====
section
/-!
DEFINITION. The TAP (R458, R567, R568): each command selects an instruction, captures its data register, shifts `din` in
and updates; what is shifted out is the answer.
-/

namespace Sys2Proof.Machine

/-- Select an instruction; EXTEST drives the lands only while it is selected, and PT_GPIO.IN follows the lands (R456, R458). -/
def State.tapSelect (s : State) (ir : BitVec 8) : State :=
  { s with tap := { s.tap with ir := ir, extest := ir == 0 } }

/-- The TAP answers while the standby supply feeds it. -/
def State.tapDo (s : State) (ir : BitVec 8) (k : State → State) : Result :=
  .next (if !s.pwr.standby then s
    else
      let t := k (s.tapSelect ir)
      if s.tap.extest || t.tap.extest then t.gpioSync else t)

/-- What Capture-DR loads in the boundary chain: the levels at the lands. The cells of the GPIO pins take the pins' levels; those
of the other lands, whose levels have no state, are free. -/
def State.scanCapture (s : State) (f : BitVec 256) : BitVec 256 :=
  (List.range 8).foldl (fun w i =>
    let m : BitVec 256 := 1#256 <<< (Config.scanIn i).val
    if s.gpioPin i then w ||| m else w &&& ~~~ m) f

/-- The boundary chain: the levels that `s` has at the lands are captured and shifted out, and `din` is what the chain then
holds. -/
def State.tapBoundary (s u : State) (din : BitVec 256) : State :=
  let (f, u) := u.freeVal
  ({ u with tap := { u.tap with boundary := din } }).reply (s.scanCapture (f.truncate 256))

/-- EXTEST (R458): the chain drives the 3.3 V LVCMOS lands. -/
def execExtest (din : BitVec 256) (s : State) : Result := s.tapDo 0x00 (fun u => s.tapBoundary u din)

/-- IDCODE (R458). -/
def execIdcode (_din : BitVec 256) (s : State) : Result := s.tapDo 0x01 (fun s => s.reply 0x17160ABF)

/-- SAMPLE/PRELOAD (R458). -/
def execSamplePreload (din : BitVec 256) (s : State) : Result := s.tapDo 0x02 (fun u => s.tapBoundary u din)

/-- BYPASS (R458, R567): one bit, which captures 0. -/
def execBypass (din : BitVec 256) (s : State) : Result := s.tapDo 0xFF (fun s => s.reply (din <<< 1))

/-- Whether any core or thread is halted. -/
def State.anyHalted (s : State) : Bool :=
  (List.range 160).any s.coreHalted || (List.range 256).any s.threadHalted

/-- DBG_STAT (R567). -/
def execDbgStat (_din : BitVec 256) (s : State) : Result :=
  s.tapDo 0x11 (fun s => s.reply (BitVec.ofNat 256
    (bitsOf (s.csrGet .TR_AUTH 0) 3 0 + bit s.anyHalted * 16 + bit (s.fld Fld.CK_CSTAT_STATE 0 == 2) * 32)))

/-- What the system access port reaches without SYS (R568). -/
def sapReaches (write : Bool) (a : Nat) : Bool :=
  (0xFE09000000 ≤ a && a < 0xFE09010000) || a == 0xFE09030000 || (0xFE0A008000 ≤ a && a < 0xFE0A009000) ||
  (!write && 0xFE0A000000 ≤ a && a < 0xFE0A010000)

/-- What DBG_SAP captures: data, address and status (R567). -/
def sapWord (data : Word) (a status : Nat) : BitVec 256 := BitVec.ofNat 256 (data.toNat + a * 2 ^ 64 + status * 2 ^ 112)

/-- An access of the system access port: 8 aligned bytes as source 0x202 (R567, R568). -/
def State.sapAccess (s : State) (write : Bool) (a : Nat) (data : Word) : BitVec 256 × State :=
  if !s.flag Fld.TR_AUTH_SYS 0 && !sapReaches write a then (sapWord data a 3, s)
  else if a % 8 ≠ 0 then (sapWord data a 2, s)
  else if write then
    let (e, s) := s.busWrite .jtag false a 8 data.toNat
    (sapWord data a (if e = 0 then 0 else 2), s)
  else
    let (m, s) := s.busRead .jtag false a 8
    if m.err ≠ 0 ∨ m.poison then (sapWord data a 2, s) else (sapWord (BitVec.ofNat 64 m.val) a 0, s)

/-- DBG_SAP (R567, R568): OP 0 polls, 1 reads, 2 writes; the answer is what the next Capture-DR loads. -/
def execDbgSap (op : BitVec 2) (addr : PA) (data : Word) (s : State) : Result :=
  s.tapDo 0x10 (fun s =>
    if op = 1 ∨ op = 2 then
      let (w, s) := s.sapAccess (op == 2) addr.toNat data
      ({ s with tap := { s.tap with dr := w } }).reply w
    else s.reply s.tap.dr)

end Sys2Proof.Machine
end

