-- ==== Sys2Proof/Machine/Float.lean ====
section
/-!
DEFINITION. IEEE 754 binary32 and binary64 on exact integers (R188 to R190): unpacking, one rounding, and the arithmetic
of the VF format. Nothing but the operands, RM and FZ enters.
-/

namespace Sys2Proof.Machine

/-- A format: bits of exponent and of fraction. -/
structure Fmt where
  ew : Nat
  mw : Nat
  deriving DecidableEq, Repr

def b32 : Fmt := ⟨8, 23⟩
def b64 : Fmt := ⟨11, 52⟩

/-- Width, precision, bias and the exponent of the smallest normal number. -/
def Fmt.w (f : Fmt) : Nat := f.ew + f.mw + 1
def Fmt.p (f : Fmt) : Nat := f.mw + 1
def Fmt.bias (f : Fmt) : Int := 2 ^ (f.ew - 1) - 1
def Fmt.emin (f : Fmt) : Int := 1 - f.bias

/-- RM and FZ of cs.FPCSR. -/
structure FpEnv where
  rm : Nat
  fz : Bool
  deriving DecidableEq, Repr

/-- A value: a NaN, signalling or not; an infinity with its sign; or (−1)^neg × m × 2^e. -/
inductive Fv where
  | nan (signalling : Bool)
  | inf (neg : Bool)
  | fin (neg : Bool) (m : Nat) (e : Int)
  deriving DecidableEq, Repr

/-- The sticky flags an operation raises: NV, DZ, OF, UF, NX from bit 4 down. -/
abbrev FpFlags := BitVec 5

def fpNV : FpFlags := 16
def fpDZ : FpFlags := 8
def fpOF : FpFlags := 4
def fpUF : FpFlags := 2
def fpNX : FpFlags := 1

/-- A result in its encoding, with the flags it raises. -/
abbrev FpRes := Nat × FpFlags

/-- Read an encoding; with FZ a subnormal reads as the zero of its sign. -/
def Fmt.unpack (f : Fmt) (fz : Bool) (x : Nat) : Fv :=
  let neg := x / 2 ^ (f.ew + f.mw) % 2 == 1
  let e := x / 2 ^ f.mw % 2 ^ f.ew
  let m := x % 2 ^ f.mw
  if e = 2 ^ f.ew - 1 then (if m = 0 then .inf neg else .nan (m / 2 ^ (f.mw - 1) == 0))
  else if e = 0 then .fin neg (if fz then 0 else m) (f.emin - f.mw)
  else .fin neg (m + 2 ^ f.mw) ((e : Int) - f.bias - f.mw)

/-- The encoding of a sign, a biased exponent and a fraction. -/
def Fmt.pack (f : Fmt) (neg : Bool) (e m : Nat) : Nat := neg.toNat * 2 ^ (f.ew + f.mw) + e * 2 ^ f.mw + m

/-- The NaN of every NaN result, an infinity, a zero (R189). -/
def Fmt.qnan (f : Fmt) : Nat := f.pack false (2 ^ f.ew - 1) (2 ^ (f.mw - 1))
def Fmt.infinity (f : Fmt) (neg : Bool) : Nat := f.pack neg (2 ^ f.ew - 1) 0
def Fmt.zero (f : Fmt) (neg : Bool) : Nat := f.pack neg 0 0

/-- The invalid operation. -/
def Fmt.invalid (f : Fmt) : FpRes := (f.qnan, fpNV)

/-- A NaN result of operands some of which are NaN. -/
def Fmt.nanOf (f : Fmt) (signalling : Bool) : FpRes := (f.qnan, if signalling then fpNV else 0)

/-- Whether a magnitude q + r / 2^k (r below 2^k) rounds up to q + 1. -/
def roundsUp (rm : Nat) (neg : Bool) (q r k : Nat) : Bool :=
  if r = 0 then false
  else if rm = 0 then decide (2 ^ k < 2 * r) || (2 * r == 2 ^ k && q % 2 == 1)
  else if rm = 1 then false
  else if rm = 2 then !neg
  else neg

/-- m × 2^e as a count of units of 2^qe, rounded; and whether that is inexact. -/
def roundTo (rm : Nat) (neg : Bool) (m : Nat) (e qe : Int) : Nat × Bool :=
  if qe ≤ e then (m * 2 ^ (e - qe).toNat, false)
  else
    let k := (qe - e).toNat
    let q := m / 2 ^ k
    let r := m % 2 ^ k
    (if roundsUp rm neg q r k then q + 1 else q, r != 0)

/-- The one rounding of an exact result (−1)^neg × m × 2^e with m ≠ 0, tininess detected after rounding (R189). -/
def Fmt.round (f : Fmt) (env : FpEnv) (neg : Bool) (m : Nat) (e : Int) : FpRes :=
  let top : Int := e + (m.log2 : Int)
  let free : Int := top - f.mw
  let least : Int := f.emin - f.mw
  let qe := max free least
  let (q, nx) := roundTo env.rm neg m e qe
  let (q, qe) := if q = 2 ^ f.p then (2 ^ f.mw, qe + 1) else (q, qe)
  let (u, _) := roundTo env.rm neg m e free
  let tiny := decide ((if u = 2 ^ f.p then top + 1 else top) < f.emin)
  let ex : Int := qe + f.mw + f.bias
  if q < 2 ^ f.mw then
    if env.fz ∧ q ≠ 0 then (f.zero neg, fpUF ||| fpNX)
    else (f.pack neg 0 q, if nx then (if tiny then fpUF ||| fpNX else fpNX) else 0)
  else if (2 ^ f.ew : Int) - 1 ≤ ex then
    let up := env.rm == 0 || (env.rm == 2 && !neg) || (env.rm == 3 && neg)
    (if up then f.infinity neg else f.pack neg (2 ^ f.ew - 2) (2 ^ f.mw - 1), fpOF ||| fpNX)
  else (f.pack neg ex.toNat (q - 2 ^ f.mw), if nx then (if tiny then fpUF ||| fpNX else fpNX) else 0)

/-- A signed sum a × 2^e rounded; a zero sum takes the sign given for it. -/
def Fmt.roundInt (f : Fmt) (env : FpEnv) (a : Int) (e : Int) (zeroNeg : Bool) : FpRes :=
  if a = 0 then (f.zero zeroNeg, 0) else f.round env (decide (a < 0)) a.natAbs e

/-- (−1)^neg × m as an integer. -/
def signedMag (neg : Bool) (m : Nat) : Int := if neg then -(m : Int) else (m : Int)

/-- The exact sum of two finite values, and the exponent it is counted in. -/
def finAdd (na : Bool) (ma : Nat) (ea : Int) (nb : Bool) (mb : Nat) (eb : Int) : Int × Int :=
  let e := min ea eb
  (signedMag na ma * 2 ^ (ea - e).toNat + signedMag nb mb * 2 ^ (eb - e).toNat, e)

/-- The sign of a zero sum: that of the operands where they agree, else negative only toward −∞. -/
def zeroSign (rm : Nat) (na nb : Bool) : Bool := if na = nb then na else rm == 3

def Fv.isNan : Fv → Bool
  | .nan _ => true
  | _ => false

def Fv.isSnan : Fv → Bool
  | .nan s => s
  | _ => false

/-- The value with its sign inverted. -/
def Fv.neg : Fv → Fv
  | .nan s => .nan s
  | .inf n => .inf (!n)
  | .fin n m e => .fin (!n) m e

/-- a + b. -/
def Fmt.add (f : Fmt) (env : FpEnv) (a b : Fv) : FpRes :=
  match a, b with
  | .fin na ma ea, .fin nb mb eb =>
    let (s, e) := finAdd na ma ea nb mb eb
    f.roundInt env s e (zeroSign env.rm na nb)
  | .inf n, .fin _ _ _ => (f.infinity n, 0)
  | .fin _ _ _, .inf n => (f.infinity n, 0)
  | .inf n, .inf m => if n = m then (f.infinity n, 0) else f.invalid
  | _, _ => f.nanOf (a.isSnan || b.isSnan)

/-- a × b. -/
def Fmt.mul (f : Fmt) (env : FpEnv) (a b : Fv) : FpRes :=
  match a, b with
  | .fin na ma ea, .fin nb mb eb =>
    if ma * mb = 0 then (f.zero (na != nb), 0) else f.round env (na != nb) (ma * mb) (ea + eb)
  | .inf n, .fin m k _ => if k = 0 then f.invalid else (f.infinity (n != m), 0)
  | .fin m k _, .inf n => if k = 0 then f.invalid else (f.infinity (n != m), 0)
  | .inf n, .inf m => (f.infinity (n != m), 0)
  | _, _ => f.nanOf (a.isSnan || b.isSnan)

/-- c + a × b, rounded once. A product of zero and infinity is invalid whatever is added. -/
def Fmt.fma (f : Fmt) (env : FpEnv) (c a b : Fv) : FpRes :=
  let bad := match a, b with
    | .inf _, .fin _ k _ => k == 0
    | .fin _ k _, .inf _ => k == 0
    | _, _ => false
  if bad then f.invalid
  else if a.isNan || b.isNan || c.isNan then f.nanOf (a.isSnan || b.isSnan || c.isSnan)
  else match a, b, c with
    | .fin na ma ea, .fin nb mb eb, .fin nc mc ec =>
      let (s, e) := finAdd nc mc ec (na != nb) (ma * mb) (ea + eb)
      f.roundInt env s e (zeroSign env.rm nc (na != nb))
    | .fin _ _ _, .fin _ _ _, .inf n => (f.infinity n, 0)
    | .inf n, .fin m _ _, d => f.add env (.inf (n != m)) d
    | .fin m _ _, .inf n, d => f.add env (.inf (n != m)) d
    | .inf n, .inf m, d => f.add env (.inf (n != m)) d
    | _, _, _ => f.nanOf false

/-- a / b: the quotient to more bits than the precision, with a sticky bit. -/
def Fmt.div (f : Fmt) (env : FpEnv) (a b : Fv) : FpRes :=
  match a, b with
  | .fin na ma ea, .fin nb mb eb =>
    if mb = 0 then (if ma = 0 then f.invalid else (f.infinity (na != nb), fpDZ))
    else if ma = 0 then (f.zero (na != nb), 0)
    else
      let k := f.p + 3 + mb.log2
      let q := ma * 2 ^ k / mb
      let r := ma * 2 ^ k % mb
      f.round env (na != nb) (2 * q + (if r = 0 then 0 else 1)) (ea - eb - k - 1)
  | .inf n, .fin m _ _ => (f.infinity (n != m), 0)
  | .fin n _ _, .inf m => (f.zero (n != m), 0)
  | .inf _, .inf _ => f.invalid
  | _, _ => f.nanOf (a.isSnan || b.isSnan)

/-- The integer square root of `n` below 2^`k`, from `r` up. -/
def isqrtFrom (n r : Nat) : Nat → Nat
  | 0 => r
  | k + 1 => isqrtFrom n (if (r + 2 ^ k) * (r + 2 ^ k) ≤ n then r + 2 ^ k else r) k

/-- √a. -/
def Fmt.sqrt (f : Fmt) (env : FpEnv) (a : Fv) : FpRes :=
  match a with
  | .nan s => f.nanOf s
  | .inf n => if n then f.invalid else (f.infinity false, 0)
  | .fin n m e =>
    if m = 0 then (f.zero n, 0)
    else if n then f.invalid
    else
      let odd := e % 2 != 0
      let m := if odd then 2 * m else m
      let e := if odd then e - 1 else e
      let k := f.p + 3
      let x := m * 2 ^ (2 * k)
      let q := isqrtFrom x 0 (2 * f.p + 6)
      f.round env false (2 * q + (if q * q = x then 0 else 1)) (e / 2 - k - 1)

/-- How a compares with b (R164). -/
def fpOrder (a b : Fv) : FpOrder :=
  match a, b with
  | .fin na ma ea, .fin nb mb eb =>
    let s := (finAdd na ma ea (!nb) mb eb).1
    if s = 0 then .equal else if s < 0 then .less else .greater
  | .inf n, .inf m => if n = m then .equal else if n then .less else .greater
  | .inf n, .fin _ _ _ => if n then .less else .greater
  | .fin _ _ _, .inf n => if n then .greater else .less
  | _, _ => .unordered

/-- The encoding of a value that the format holds exactly, as unpacking read it: with FZ a subnormal is a zero. -/
def Fmt.same (f : Fmt) (env : FpEnv) (bits : Nat) (v : Fv) : Nat :=
  match v with
  | .fin n m _ => if env.fz && m == 0 then f.zero n else bits
  | _ => bits

/-- The smaller, or the larger, of two values (R189); −0 counts below +0. -/
def Fmt.minMax (f : Fmt) (env : FpEnv) (larger : Bool) (x y : Nat) : FpRes :=
  let a := f.unpack env.fz x
  let b := f.unpack env.fz y
  let nv : FpFlags := if a.isSnan || b.isSnan then fpNV else 0
  if a.isNan && b.isNan then (f.qnan, nv)
  else if a.isNan then (f.same env y b, nv)
  else if b.isNan then (f.same env x a, nv)
  else match fpOrder a b with
    | .less => (if larger then f.same env y b else f.same env x a, nv)
    | .greater => (if larger then f.same env x a else f.same env y b, nv)
    | _ =>
      let neg := x / 2 ^ (f.ew + f.mw) % 2 == 1
      (if neg = larger then f.same env y b else f.same env x a, nv)

/-- A value rounded to a format: conversion between formats. -/
def Fmt.convert (f : Fmt) (env : FpEnv) (a : Fv) : FpRes :=
  match a with
  | .nan s => f.nanOf s
  | .inf n => (f.infinity n, 0)
  | .fin n m e => if m = 0 then (f.zero n, 0) else f.round env n m e

/-- Conversion to a signed 64-bit integer toward zero (R189). -/
def fpToInt (a : Fv) : Word × FpFlags :=
  match a with
  | .nan _ => (0, fpNV)
  | .inf n => (if n then BitVec.intMin 64 else BitVec.intMax 64, fpNV)
  | .fin n m e =>
    let (q, nx) := roundTo 1 n m e 0
    let v := signedMag n q
    if v < -(2 ^ 63) then (BitVec.intMin 64, fpNV)
    else if 2 ^ 63 ≤ v then (BitVec.intMax 64, fpNV)
    else (BitVec.ofInt 64 v, if nx then fpNX else 0)

/-- Conversion of a signed integer to a format. -/
def Fmt.ofInt (f : Fmt) (env : FpEnv) (v : Word) : FpRes := f.roundInt env v.toInt 0 false

end Sys2Proof.Machine
end

