-- ==== Sys2Proof/Machine/ZisFp.lean ====
section
/-!
DEFINITION. The floating-point and SIMD instructions of the VF format (R160, R164, R186 to R190).
-/

namespace Sys2Proof.Machine

/-! ## Types and lanes (R186) -/

/-- A float type, a scalar float type. -/
def tyFloat (ty : VTy) : Bool := ty.toNat < 4
def tyScalar (ty : VTy) : Bool := ty.toNat < 2

/-- The format of a float type, and the other one. -/
def tyFmt (ty : VTy) : Fmt := if ty.toNat % 2 = 0 then b32 else b64
def tyOther (ty : VTy) : Fmt := if ty.toNat % 2 = 0 then b64 else b32

/-- The width of a lane, and how many an operation works on. -/
def tyWidth (ty : VTy) : Nat :=
  if ty.toNat < 4 then (if ty.toNat % 2 = 0 then 32 else 64) else 8 * 2 ^ (ty.toNat - 4)
def tyLanes (ty : VTy) : Nat := if tyScalar ty then 1 else 256 / tyWidth ty

/-- Lane `i` of width `w`. -/
def lane (q : QWord) (w i : Nat) : Nat := (q.toNat >>> (w * i)) % 2 ^ w

/-- A register from lanes; the bits above them are clear. -/
def ofLanes (w : Nat) (l : List Nat) : QWord := BitVec.ofNat 256 (l.foldr (fun v acc => v % 2 ^ w + 2 ^ w * acc) 0)

/-- The lanes of an operation's result from its operands' lanes, with the OR of their flags. -/
def lanesFp (ty : VTy) (f : Nat → FpRes) : QWord × FpFlags :=
  let r := (List.range (tyLanes ty)).map f
  (ofLanes (tyWidth ty) (r.map Prod.fst), r.foldl (fun g p => g ||| p.2) 0)

/-! ## Bodies -/

/-- The wrapper's view: no thread decodes the VF major (R160). -/
def fpZi : Zi := { len := 4, thr := false }

/-- RM and FZ of a core. -/
def CoreArch.fpEnv (a : CoreArch) : FpEnv := ⟨a.csf CsFld.FPCSR_RM, a.csf CsFld.FPCSR_FZ == 1⟩

/-- Sticky flags set (R188). -/
def State.fpRaise (s : State) (c : Nat) (g : FpFlags) : State :=
  if g = 0 then s
  else s.modArch c (fun a => a.setCs 0x001 (a.cs 0 0x001 ||| (g.zeroExtend 64 <<< 8)))

/-- A body of a core alone; a thread's is illegal. -/
def onCore {α : Type} (a : Agent) (f : Nat → Z α) : Z α :=
  match a with
  | .core c => f c.val
  | .thread _ => illegal a

/-- qd := f of the environment and the operands qa, qb and the old qd; the type must be admitted. -/
def vOp (a : Agent) (ok : Bool) (qd qa qb : Reg5) (f : FpEnv → QWord → QWord → QWord → QWord × FpFlags) : Z Flow :=
  onCore a (fun c => do
    needs a ok
    let s ← get
    let (r, g) := f (s.core c).arch.fpEnv (s.qVal c qa) (s.qVal c qb) (s.qVal c qd)
    set ((s.qSet c qd r).fpRaise c g)
    pure .seq)

/-- A lane-wise operation of a float or an integer type. -/
def vLanes (ty : VTy) (ff : Fmt → FpEnv → Nat → Nat → Nat → FpRes) (fi : Nat → Nat → Nat → Nat)
    (env : FpEnv) (x y d : QWord) : QWord × FpFlags :=
  let w := tyWidth ty
  lanesFp ty (fun i =>
    if tyFloat ty then ff (tyFmt ty) env (lane x w i) (lane y w i) (lane d w i)
    else (fi w (lane x w i) (lane y w i), 0))

/-- A float operation on unpacked operands. -/
def fp2 (op : Fmt → FpEnv → Fv → Fv → FpRes) (f : Fmt) (env : FpEnv) (x y _d : Nat) : FpRes :=
  op f env (f.unpack env.fz x) (f.unpack env.fz y)

/-- An operation that no integer lane takes. -/
def noInt (_w _x _y : Nat) : Nat := 0

/-- The larger or smaller of two signed lanes. -/
def intMinMax (larger : Bool) (w x y : Nat) : Nat := if decide (signedOf w x < signedOf w y) = larger then y else x

/-- All ones in a lane where a truth holds. -/
def laneMask (w : Nat) (b : Bool) : Nat := if b then 2 ^ w - 1 else 0

/-- FADD, VADD. -/
def execFadd (a : Agent) (ty : VTy) (qd qa qb : Reg5) (s : State) : Result :=
  zis a fpZi (vOp a true qd qa qb (vLanes ty (fp2 Fmt.add) (fun _ x y => x + y))) s
/-- FSUB, VSUB. -/
def execFsub (a : Agent) (ty : VTy) (qd qa qb : Reg5) (s : State) : Result :=
  zis a fpZi (vOp a true qd qa qb
    (vLanes ty (fp2 (fun f env x y => f.add env x y.neg)) (fun w x y => x + 2 ^ w - y))) s
/-- FMUL, VMUL. -/
def execFmul (a : Agent) (ty : VTy) (qd qa qb : Reg5) (s : State) : Result :=
  zis a fpZi (vOp a true qd qa qb (vLanes ty (fp2 Fmt.mul) (fun _ x y => x * y))) s
/-- FDIV. -/
def execFdiv (a : Agent) (ty : VTy) (qd qa qb : Reg5) (s : State) : Result :=
  zis a fpZi (vOp a (tyFloat ty) qd qa qb (vLanes ty (fp2 Fmt.div) noInt)) s
/-- FSQRT. -/
def execFsqrt (a : Agent) (ty : VTy) (qd qa : Reg5) (s : State) : Result :=
  zis a fpZi (vOp a (tyFloat ty) qd qa 0 (vLanes ty (fp2 (fun f env x _ => f.sqrt env x)) noInt)) s
/-- FMA: qd + qa × qb, rounded once. -/
def execFma (a : Agent) (ty : VTy) (qd qa qb : Reg5) (s : State) : Result :=
  zis a fpZi (vOp a (tyFloat ty) qd qa qb
    (vLanes ty (fun f env x y d => f.fma env (f.unpack env.fz d) (f.unpack env.fz x) (f.unpack env.fz y)) noInt)) s
/-- FMIN, VMIN. -/
def execFmin (a : Agent) (ty : VTy) (qd qa qb : Reg5) (s : State) : Result :=
  zis a fpZi (vOp a true qd qa qb (vLanes ty (fun f env x y _ => f.minMax env false x y) (intMinMax false))) s
/-- FMAX, VMAX. -/
def execFmax (a : Agent) (ty : VTy) (qd qa qb : Reg5) (s : State) : Result :=
  zis a fpZi (vOp a true qd qa qb (vLanes ty (fun f env x y _ => f.minMax env true x y) (intMinMax true))) s
/-- FABS: the sign bit alone. -/
def execFabs (a : Agent) (ty : VTy) (qd qa : Reg5) (s : State) : Result :=
  zis a fpZi (vOp a (tyFloat ty) qd qa 0 (vLanes ty (fun f _ x _ _ => (x % 2 ^ (f.w - 1), 0)) noInt)) s
/-- FNEG: the sign bit alone. -/
def execFneg (a : Agent) (ty : VTy) (qd qa : Reg5) (s : State) : Result :=
  zis a fpZi (vOp a (tyFloat ty) qd qa 0 (vLanes ty (fun f _ x _ _ => (x ^^^ 2 ^ (f.w - 1), 0)) noInt)) s

/-- FCMP (R164). DESIGN CHOICE: it raises NV for a signalling NaN operand alone; the spec names no flag for `fcmp` (log
322). -/
def execFcmp (a : Agent) (ty : VTy) (qa qb : Reg5) (s : State) : Result :=
  zis a fpZi (onCore a (fun c => do
    needs a (tyScalar ty)
    let s := (← get).noteQ c
    let env := (s.core c).arch.fpEnv
    let f := tyFmt ty
    let x := f.unpack env.fz (lane (s.qVal c qa) f.w 0)
    let y := f.unpack env.fz (lane (s.qVal c qb) f.w 0)
    set ((s.flSet a (fcmpFlags (fpOrder x y))).fpRaise c (if x.isSnan || y.isSnan then fpNV else 0))
    pure .seq)) s

/-- VAND: on all 256 bits. -/
def execVand (a : Agent) (qd qa qb : Reg5) (s : State) : Result :=
  zis a fpZi (vOp a true qd qa qb (fun _ x y _ => (x &&& y, 0))) s
/-- VOR. -/
def execVor (a : Agent) (qd qa qb : Reg5) (s : State) : Result :=
  zis a fpZi (vOp a true qd qa qb (fun _ x y _ => (x ||| y, 0))) s
/-- VXOR. -/
def execVxor (a : Agent) (qd qa qb : Reg5) (s : State) : Result :=
  zis a fpZi (vOp a true qd qa qb (fun _ x y _ => (x ^^^ y, 0))) s

/-- A shift of every lane by lane 0 of qb, modulo the lane's width. -/
def vShift (a : Agent) (ty : VTy) (qd qa qb : Reg5) (sh : Nat → Nat → Nat → Nat) : Z Flow :=
  vOp a (!tyFloat ty) qd qa qb (fun env x y d =>
    vLanes ty (fun _ _ _ _ _ => (0, 0)) (fun w v _ => sh w v (lane y w 0 % w)) env x y d)

/-- VSHL. -/
def execVshl (a : Agent) (ty : VTy) (qd qa qb : Reg5) (s : State) : Result :=
  zis a fpZi (vShift a ty qd qa qb (fun _ x n => x * 2 ^ n)) s
/-- VSHR. -/
def execVshr (a : Agent) (ty : VTy) (qd qa qb : Reg5) (s : State) : Result :=
  zis a fpZi (vShift a ty qd qa qb (fun _ x n => x / 2 ^ n)) s
/-- VSAR. -/
def execVsar (a : Agent) (ty : VTy) (qd qa qb : Reg5) (s : State) : Result :=
  zis a fpZi (vShift a ty qd qa qb (fun w x n => encSigned w (signedOf w x / 2 ^ n))) s

/-- A comparison of float lanes: a NaN compares false, and a signalling one raises NV. -/
def fpTest (p : FpOrder → Bool) (f : Fmt) (env : FpEnv) (x y _d : Nat) : FpRes :=
  let a := f.unpack env.fz x
  let b := f.unpack env.fz y
  (laneMask f.w (p (fpOrder a b)), if a.isSnan || b.isSnan then fpNV else 0)

/-- VCMPEQ. -/
def execVcmpeq (a : Agent) (ty : VTy) (qd qa qb : Reg5) (s : State) : Result :=
  zis a fpZi (vOp a true qd qa qb (vLanes ty (fpTest (· == .equal)) (fun w x y => laneMask w (x == y)))) s
/-- VCMPGT. -/
def execVcmpgt (a : Agent) (ty : VTy) (qd qa qb : Reg5) (s : State) : Result :=
  zis a fpZi (vOp a true qd qa qb
    (vLanes ty (fpTest (· == .greater)) (fun w x y => laneMask w (decide (signedOf w y < signedOf w x))))) s
/-- VBCAST: every lane of the type := lane 0 of qa. -/
def execVbcast (a : Agent) (ty : VTy) (qd qa : Reg5) (s : State) : Result :=
  zis a fpZi (vOp a true qd qa 0 (fun _ x _ _ =>
    (ofLanes (tyWidth ty) (List.replicate (tyLanes ty) (lane x (tyWidth ty) 0)), 0))) s
/-- VSEL. -/
def execVsel (a : Agent) (qd qa qb : Reg5) (s : State) : Result :=
  zis a fpZi (vOp a true qd qa qb (fun _ x y d => ((d &&& x) ||| (~~~ d &&& y), 0))) s

/-! ## Conversions and moves -/

/-- FCVT: from the other scalar format to TY. -/
def execFcvt (a : Agent) (ty : VTy) (qd qa : Reg5) (s : State) : Result :=
  zis a fpZi (vOp a (tyScalar ty) qd qa 0 (fun env x _ _ =>
    let g := tyOther ty
    lanesFp ty (fun _ => (tyFmt ty).convert env (g.unpack env.fz (lane x g.w 0))))) s

/-- FCVTI: integer register rd := lane 0, toward zero. -/
def execFcvti (a : Agent) (ty : VTy) (rd qa : Reg5) (s : State) : Result :=
  zis a fpZi (onCore a (fun c => do
    needs a (tyScalar ty)
    let s := (← get).noteQ c
    set s
    let f := tyFmt ty
    let (v, g) := fpToInt (f.unpack (s.core c).arch.fpEnv.fz (lane (s.qVal c qa) f.w 0))
    wrReg a rd v
    modify (fun s => s.fpRaise c g)
    pure .seq)) s

/-- ICVTF: lane 0 := the signed integer register ra, rounded by RM. -/
def execIcvtf (a : Agent) (ty : VTy) (qd ra : Reg5) (s : State) : Result :=
  zis a fpZi (onCore a (fun c => do
    needs a (tyScalar ty)
    let v ← rdReg a ra
    let s ← get
    let (r, g) := (tyFmt ty).ofInt (s.core c).arch.fpEnv v
    set ((s.qSet c qd (BitVec.ofNat 256 r)).fpRaise c g)
    pure .seq)) s

/-- FMVX: integer register rd := the bits of lane 0, sign-extended from 32 for binary32. -/
def execFmvx (a : Agent) (ty : VTy) (rd qa : Reg5) (s : State) : Result :=
  zis a fpZi (onCore a (fun c => do
    needs a (tyScalar ty)
    modify (fun s => s.noteQ c)
    let q := (← get).qVal c qa
    putInt a rd (if tyWidth ty = 32 then (q.truncate 32).signExtend 64 else q.truncate 64))) s

/-- FMVQ: lane 0 := the low bits of integer register ra. -/
def execFmvq (a : Agent) (ty : VTy) (qd ra : Reg5) (s : State) : Result :=
  zis a fpZi (onCore a (fun c => do
    needs a (tyScalar ty)
    let v ← rdReg a ra
    modify (fun s => s.qSet c qd (BitVec.ofNat 256 (v.toNat % 2 ^ tyWidth ty)))
    pure .seq)) s

/-- VMOV. -/
def execVmov (a : Agent) (qd qa : Reg5) (s : State) : Result :=
  zis a fpZi (vOp a true qd qa 0 (fun _ x _ _ => (x, 0))) s

end Sys2Proof.Machine
end

