-- ==== Sys2Proof/Machine/Dispatch.lean ====
section
/-!
DEFINITION. The dispatch of a command to its meaning: one arm per constructor.
-/

namespace Sys2Proof.Machine

/-- The effect of a command on everything but the queue. -/
def exec (i : Instr) (s : State) : Host.Outcome State Fault Refusal :=
  match i with
  | .registerWrite src addr v => Sys2Proof.Machine.execRegisterWrite src addr v s
  | .xgateWrite src addr v => Sys2Proof.Machine.execXgateWrite src addr v s
  | .landOwnershipWrite src n v => Sys2Proof.Machine.execLandOwnershipWrite src n v s
  | .standbyRise bootSel => Sys2Proof.Machine.execStandbyRise bootSel s
  | .powerOn longLoss => Sys2Proof.Machine.execPowerOn longLoss s
  | .inputReversal => Sys2Proof.Machine.execInputReversal s
  | .inputStopFall => Sys2Proof.Machine.execInputStopFall s
  | .inputRecovery => Sys2Proof.Machine.execInputRecovery s
  | .deglitchExpiry => Sys2Proof.Machine.execDeglitchExpiry s
  | .overvoltageOnset => Sys2Proof.Machine.execOvervoltageOnset s
  | .overvoltageFall => Sys2Proof.Machine.execOvervoltageFall s
  | .overvoltageTimerExpiry => Sys2Proof.Machine.execOvervoltageTimerExpiry s
  | .pfw380usPoint => Sys2Proof.Machine.execPfw380usPoint s
  | .storeBelow40v => Sys2Proof.Machine.execStoreBelow40v s
  | .standbySupplyLoss => Sys2Proof.Machine.execStandbySupplyLoss s
  | .holdupStoreFull => Sys2Proof.Machine.execHoldupStoreFull s
  | .resetNAssert hottest => Sys2Proof.Machine.execResetNAssert hottest s
  | .resetNRelease => Sys2Proof.Machine.execResetNRelease s
  | .cocoonBoot flash0 flash1 trngOk => Sys2Proof.Machine.execCocoonBoot flash0 flash1 trngOk s
  | .reeveImageVerify flash0 flash1 => Sys2Proof.Machine.execReeveImageVerify flash0 flash1 s
  | .railBringUp fail => Sys2Proof.Machine.execRailBringUp fail s
  | .hbmTraining failStacks => Sys2Proof.Machine.execHbmTraining failStacks s
  | .coreFirmwareLoad flash0 flash1 => Sys2Proof.Machine.execCoreFirmwareLoad flash0 flash1 s
  | .coreRelease src k v => Sys2Proof.Machine.execCoreRelease src k v s
  | .rateWindowEnd counts tj vin p1ms p10ms moves => Sys2Proof.Machine.execRateWindowEnd counts tj vin p1ms p10ms moves s
  | .lockWindowEnd counts moves => Sys2Proof.Machine.execLockWindowEnd counts moves s
  | .thermalCapLift crit => Sys2Proof.Machine.execThermalCapLift crit s
  | .powerCapLift => Sys2Proof.Machine.execPowerCapLift s
  | .hardwareTrip => Sys2Proof.Machine.execHardwareTrip s
  | .vsetWrite src j v => Sys2Proof.Machine.execVsetWrite src j v s
  | .rctlWrite src j v => Sys2Proof.Machine.execRctlWrite src j v s
  | .thermWrite src v => Sys2Proof.Machine.execThermWrite src v s
  | .holdWrite src granary v => Sys2Proof.Machine.execHoldWrite src granary v s
  | .holdNoticeExpiry => Sys2Proof.Machine.execHoldNoticeExpiry s
  | .entryCommit j => Sys2Proof.Machine.execEntryCommit j s
  | .retentionReached j => Sys2Proof.Machine.execRetentionReached j s
  | .exitRestoreDone j => Sys2Proof.Machine.execExitRestoreDone j s
  | .gatedExitDone j => Sys2Proof.Machine.execGatedExitDone j s
  | .secsetWrite src v => Sys2Proof.Machine.execSecsetWrite src v s
  | .secondsLoad => Sys2Proof.Machine.execSecondsLoad s
  | .slew src v => Sys2Proof.Machine.execSlew src v s
  | .slewDone => Sys2Proof.Machine.execSlewDone s
  | .immediateStep src v => Sys2Proof.Machine.execImmediateStep src v s
  | .addendWrite src v => Sys2Proof.Machine.execAddendWrite src v s
  | .tbCtlWrite src v => Sys2Proof.Machine.execTbCtlWrite src v s
  | .refclkLoss => Sys2Proof.Machine.execRefclkLoss s
  | .ppsInEdge time rising => Sys2Proof.Machine.execPpsInEdge time rising s
  | .ppsLostExpiry => Sys2Proof.Machine.execPpsLostExpiry s
  | .ppsOutStart => Sys2Proof.Machine.execPpsOutStart s
  | .ppsOutEnd => Sys2Proof.Machine.execPpsOutEnd s
  | .compareOwnWrite src n v => Sys2Proof.Machine.execCompareOwnWrite src n v s
  | .compareTargetWrite src n v => Sys2Proof.Machine.execCompareTargetWrite src n v s
  | .compareCtlWrite src n v => Sys2Proof.Machine.execCompareCtlWrite src n v s
  | .compareFire n => Sys2Proof.Machine.execCompareFire n s
  | .lockstepMismatch => Sys2Proof.Machine.execLockstepMismatch s
  | .tallyEventEntry cpu => Sys2Proof.Machine.execTallyEventEntry cpu s
  | .tallyMov cpu d r => Sys2Proof.Machine.execTallyMov cpu d r s
  | .tallyAdd cpu d r => Sys2Proof.Machine.execTallyAdd cpu d r s
  | .tallySub cpu d r => Sys2Proof.Machine.execTallySub cpu d r s
  | .tallyCmp cpu d r => Sys2Proof.Machine.execTallyCmp cpu d r s
  | .tallyAnd cpu d r => Sys2Proof.Machine.execTallyAnd cpu d r s
  | .tallyOr cpu d r => Sys2Proof.Machine.execTallyOr cpu d r s
  | .tallyXor cpu d r => Sys2Proof.Machine.execTallyXor cpu d r s
  | .tallyTst cpu d r => Sys2Proof.Machine.execTallyTst cpu d r s
  | .tallyShl cpu d r => Sys2Proof.Machine.execTallyShl cpu d r s
  | .tallyShr cpu d r => Sys2Proof.Machine.execTallyShr cpu d r s
  | .tallySar cpu d r => Sys2Proof.Machine.execTallySar cpu d r s
  | .tallyMul cpu d r => Sys2Proof.Machine.execTallyMul cpu d r s
  | .tallyMulhu cpu d r => Sys2Proof.Machine.execTallyMulhu cpu d r s
  | .tallyAdc cpu d r => Sys2Proof.Machine.execTallyAdc cpu d r s
  | .tallySbc cpu d r => Sys2Proof.Machine.execTallySbc cpu d r s
  | .tallyClz cpu d r => Sys2Proof.Machine.execTallyClz cpu d r s
  | .tallyMovi cpu d imm6 => Sys2Proof.Machine.execTallyMovi cpu d imm6 s
  | .tallyAddi cpu d imm6 => Sys2Proof.Machine.execTallyAddi cpu d imm6 s
  | .tallyCmpi cpu d imm6 => Sys2Proof.Machine.execTallyCmpi cpu d imm6 s
  | .tallyAndi cpu d imm6 => Sys2Proof.Machine.execTallyAndi cpu d imm6 s
  | .ld cpu d b => Sys2Proof.Machine.execLd cpu d b s
  | .st cpu d b => Sys2Proof.Machine.execSt cpu d b s
  | .ldp cpu d b => Sys2Proof.Machine.execLdp cpu d b s
  | .stp cpu d b => Sys2Proof.Machine.execStp cpu d b s
  | .tallyPrefix cpu payload => Sys2Proof.Machine.execTallyPrefix cpu payload s
  | .tallyBranch cpu cond disp6 => Sys2Proof.Machine.execTallyBranch cpu cond disp6 s
  | .tallyJump cpu link disp9 => Sys2Proof.Machine.execTallyJump cpu link disp9 s
  | .tallyJr cpu r => Sys2Proof.Machine.execTallyJr cpu r s
  | .jlr cpu r => Sys2Proof.Machine.execJlr cpu r s
  | .reti cpu => Sys2Proof.Machine.execReti cpu s
  | .mfx cpu r => Sys2Proof.Machine.execMfx cpu r s
  | .mtx cpu r => Sys2Proof.Machine.execMtx cpu r s
  | .tallyWait cpu r => Sys2Proof.Machine.execTallyWait cpu r s
  | .tallyWaitWake cpu => Sys2Proof.Machine.execTallyWaitWake cpu s
  | .fence cpu => Sys2Proof.Machine.execFence cpu s
  | .mbqRead cpu => Sys2Proof.Machine.execMbqRead cpu s
  | .mailboxTake v => Sys2Proof.Machine.execMailboxTake v s
  | .mailboxComplete v => Sys2Proof.Machine.execMailboxComplete v s
  | .eventAck cpu v => Sys2Proof.Machine.execEventAck cpu v s
  | .ploadData v => Sys2Proof.Machine.execPloadData v s
  | .plockSet v => Sys2Proof.Machine.execPlockSet v s
  | .slotOwnWrite src m v => Sys2Proof.Machine.execSlotOwnWrite src m v s
  | .serviceDoorbell src m v => Sys2Proof.Machine.execServiceDoorbell src m v s
  | .serviceTimeout m => Sys2Proof.Machine.execServiceTimeout m s
  | .version m => Sys2Proof.Machine.execVersion m s
  | .setPoint m => Sys2Proof.Machine.execSetPoint m s
  | .retain m => Sys2Proof.Machine.execRetain m s
  | .gate m => Sys2Proof.Machine.execGate m s
  | .wake m => Sys2Proof.Machine.execWake m s
  | .standby m => Sys2Proof.Machine.execStandby m s
  | .pflogClear m => Sys2Proof.Machine.execPflogClear m s
  | .stackDown m => Sys2Proof.Machine.execStackDown m s
  | .stackUp m pass summary => Sys2Proof.Machine.execStackUp m pass summary s
  | .bankRetain m => Sys2Proof.Machine.execBankRetain m s
  | .bankWake m => Sys2Proof.Machine.execBankWake m s
  | .cocoonReset m flash0 flash1 trngOk => Sys2Proof.Machine.execCocoonReset m flash0 flash1 trngOk s
  | .loadExt m => Sys2Proof.Machine.execLoadExt m s
  | .unloadExt m => Sys2Proof.Machine.execUnloadExt m s
  | .extensionService m => Sys2Proof.Machine.execExtensionService m s
  | .badService m => Sys2Proof.Machine.execBadService m s
  | .extHandlerOverrun => Sys2Proof.Machine.execExtHandlerOverrun s
  | .mov a rd rs => Sys2Proof.Machine.execMov a rd rs s
  | .movOut a rd rs => Sys2Proof.Machine.execMovOut a rd rs s
  | .movIn a rd rs => Sys2Proof.Machine.execMovIn a rd rs s
  | .add a short w rd ra rb => Sys2Proof.Machine.execAdd a short w rd ra rb s
  | .sub a short w rd ra rb => Sys2Proof.Machine.execSub a short w rd ra rb s
  | .adc a short w rd ra rb => Sys2Proof.Machine.execAdc a short w rd ra rb s
  | .sbc a short w rd ra rb => Sys2Proof.Machine.execSbc a short w rd ra rb s
  | .cmp a short w ra rb => Sys2Proof.Machine.execCmp a short w ra rb s
  | .neg a short w rd rb => Sys2Proof.Machine.execNeg a short w rd rb s
  | .and a short rd ra rb => Sys2Proof.Machine.execAnd a short rd ra rb s
  | .or a short rd ra rb => Sys2Proof.Machine.execOr a short rd ra rb s
  | .xor a short rd ra rb => Sys2Proof.Machine.execXor a short rd ra rb s
  | .andn a short rd ra rb => Sys2Proof.Machine.execAndn a short rd ra rb s
  | .tst a short ra rb => Sys2Proof.Machine.execTst a short ra rb s
  | .not a short rd rb => Sys2Proof.Machine.execNot a short rd rb s
  | .shl a short w rd ra rb => Sys2Proof.Machine.execShl a short w rd ra rb s
  | .shr a short w rd ra rb => Sys2Proof.Machine.execShr a short w rd ra rb s
  | .sar a short w rd ra rb => Sys2Proof.Machine.execSar a short w rd ra rb s
  | .mul a short w rd ra rb => Sys2Proof.Machine.execMul a short w rd ra rb s
  | .mulhs a rd ra rb => Sys2Proof.Machine.execMulhs a rd ra rb s
  | .mulhu a rd ra rb => Sys2Proof.Machine.execMulhu a rd ra rb s
  | .div a w rd ra rb => Sys2Proof.Machine.execDiv a w rd ra rb s
  | .divu a w rd ra rb => Sys2Proof.Machine.execDivu a w rd ra rb s
  | .rem a w rd ra rb => Sys2Proof.Machine.execRem a w rd ra rb s
  | .remu a w rd ra rb => Sys2Proof.Machine.execRemu a w rd ra rb s
  | .clz a w rd ra => Sys2Proof.Machine.execClz a w rd ra s
  | .ctz a w rd ra => Sys2Proof.Machine.execCtz a w rd ra s
  | .popc a w rd ra => Sys2Proof.Machine.execPopc a w rd ra s
  | .rev a w rd ra => Sys2Proof.Machine.execRev a w rd ra s
  | .csel a cond rd ra rb => Sys2Proof.Machine.execCsel a cond rd ra rb s
  | .mffl a rd => Sys2Proof.Machine.execMffl a rd s
  | .mtfl a ra => Sys2Proof.Machine.execMtfl a ra s
  | .movi a short rd imm => Sys2Proof.Machine.execMovi a short rd imm s
  | .movp1 a rd imm => Sys2Proof.Machine.execMovp1 a rd imm s
  | .movp2 a rd imm => Sys2Proof.Machine.execMovp2 a rd imm s
  | .movp3 a rd imm => Sys2Proof.Machine.execMovp3 a rd imm s
  | .addi a short rd ra imm => Sys2Proof.Machine.execAddi a short rd ra imm s
  | .addi16 a rd imm => Sys2Proof.Machine.execAddi16 a rd imm s
  | .cmpi a short ra imm => Sys2Proof.Machine.execCmpi a short ra imm s
  | .andi a short rd ra imm => Sys2Proof.Machine.execAndi a short rd ra imm s
  | .ori a rd ra imm => Sys2Proof.Machine.execOri a rd ra imm s
  | .xori a rd ra imm => Sys2Proof.Machine.execXori a rd ra imm s
  | .shli a rd ra sh => Sys2Proof.Machine.execShli a rd ra sh s
  | .shri a rd ra sh => Sys2Proof.Machine.execShri a rd ra sh s
  | .sari a rd ra sh => Sys2Proof.Machine.execSari a rd ra sh s
  | .lea a rd ra imm => Sys2Proof.Machine.execLea a rd ra imm s
  | .muli a rd ra imm => Sys2Proof.Machine.execMuli a rd ra imm s
  | .adr a rd imm => Sys2Proof.Machine.execAdr a rd imm s
  | .ldpc a short rd imm => Sys2Proof.Machine.execLdpc a short rd imm s
  | .ldpcw a rd imm => Sys2Proof.Machine.execLdpcw a rd imm s
  | .fldpc a qd imm => Sys2Proof.Machine.execFldpc a qd imm s
  | .addsp a imm => Sys2Proof.Machine.execAddsp a imm s
  | .nop a => Sys2Proof.Machine.execNop a s
  | .ldbu a rt m => Sys2Proof.Machine.execLdbu a rt m s
  | .ldbs a rt m => Sys2Proof.Machine.execLdbs a rt m s
  | .ldhu a rt m => Sys2Proof.Machine.execLdhu a rt m s
  | .ldhs a rt m => Sys2Proof.Machine.execLdhs a rt m s
  | .ldwu a rt m => Sys2Proof.Machine.execLdwu a rt m s
  | .ldws a rt m => Sys2Proof.Machine.execLdws a rt m s
  | .ldd a rt m => Sys2Proof.Machine.execLdd a rt m s
  | .stb a rt m => Sys2Proof.Machine.execStb a rt m s
  | .sth a rt m => Sys2Proof.Machine.execSth a rt m s
  | .stw a rt m => Sys2Proof.Machine.execStw a rt m s
  | .std a rt m => Sys2Proof.Machine.execStd a rt m s
  | .flw a rt m => Sys2Proof.Machine.execFlw a rt m s
  | .fsw a rt m => Sys2Proof.Machine.execFsw a rt m s
  | .fld a rt m => Sys2Proof.Machine.execFld a rt m s
  | .fsd a rt m => Sys2Proof.Machine.execFsd a rt m s
  | .vld a rt m => Sys2Proof.Machine.execVld a rt m s
  | .vst a rt m => Sys2Proof.Machine.execVst a rt m s
  | .ll a rt rb => Sys2Proof.Machine.execLl a rt rb s
  | .sc a rt ri rb => Sys2Proof.Machine.execSc a rt ri rb s
  | .swp a rt ri rb => Sys2Proof.Machine.execSwp a rt ri rb s
  | .ldadd a rt ri rb => Sys2Proof.Machine.execLdadd a rt ri rb s
  | .ldand a rt ri rb => Sys2Proof.Machine.execLdand a rt ri rb s
  | .ldor a rt ri rb => Sys2Proof.Machine.execLdor a rt ri rb s
  | .bcc a short cond disp => Sys2Proof.Machine.execBcc a short cond disp s
  | .bccDelayed a cond annul disp slotShort => Sys2Proof.Machine.execBccDelayed a cond annul disp slotShort s
  | .jmp a disp => Sys2Proof.Machine.execJmp a disp s
  | .call a disp => Sys2Proof.Machine.execCall a disp s
  | .callr a ra => Sys2Proof.Machine.execCallr a ra s
  | .jr a short ra => Sys2Proof.Machine.execJr a short ra s
  | .ret a short => Sys2Proof.Machine.execRet a short s
  | .lbar a short => Sys2Proof.Machine.execLbar a short s
  | .sbar a short => Sys2Proof.Machine.execSbar a short s
  | .fbar a short => Sys2Proof.Machine.execFbar a short s
  | .trap a short n => Sys2Proof.Machine.execTrap a short n s
  | .eret a => Sys2Proof.Machine.execEret a s
  | .park a => Sys2Proof.Machine.execPark a s
  | .parkWake c => Sys2Proof.Machine.execParkWake c s
  | .mfs a rd csn => Sys2Proof.Machine.execMfs a rd csn s
  | .mts a csn ra => Sys2Proof.Machine.execMts a csn ra s
  | .winWrite c h v => Sys2Proof.Machine.execWinWrite c h v s
  | .wsaveWrite c v => Sys2Proof.Machine.execWsaveWrite c v s
  | .wctxWrite c v => Sys2Proof.Machine.execWctxWrite c v s
  | .evictCtx c v => Sys2Proof.Machine.execEvictCtx c v s
  | .discardCtx c v => Sys2Proof.Machine.execDiscardCtx c v s
  | .evictAll c v => Sys2Proof.Machine.execEvictAll c v s
  | .wengWriteFrame c v => Sys2Proof.Machine.execWengWriteFrame c v s
  | .wengReadFrame c v => Sys2Proof.Machine.execWengReadFrame c v s
  | .windowExchange c => Sys2Proof.Machine.execWindowExchange c s
  | .deferExpiry c => Sys2Proof.Machine.execDeferExpiry c s
  | .bpkeyWrite c v => Sys2Proof.Machine.execBpkeyWrite c v s
  | .bpkeyFlush c v => Sys2Proof.Machine.execBpkeyFlush c v s
  | .branchMispredict c => Sys2Proof.Machine.execBranchMispredict c s
  | .storePerform c ix => Sys2Proof.Machine.execStorePerform c ix s
  | .interruptAccept c => Sys2Proof.Machine.execInterruptAccept c s
  | .machineCheckEntry c => Sys2Proof.Machine.execMachineCheckEntry c s
  | .reservationHoldExpiry c => Sys2Proof.Machine.execReservationHoldExpiry c s
  | .translationWalk c ea acc speculative => Sys2Proof.Machine.execTranslationWalk c ea acc speculative s
  | .tlbiAll a broadcast ra => Sys2Proof.Machine.execTlbiAll a broadcast ra s
  | .tlbiGuest a broadcast ra => Sys2Proof.Machine.execTlbiGuest a broadcast ra s
  | .tlbiIpa a broadcast ra => Sys2Proof.Machine.execTlbiIpa a broadcast ra s
  | .tlbiHAll a broadcast ra => Sys2Proof.Machine.execTlbiHAll a broadcast ra s
  | .tlbiHVa a broadcast ra => Sys2Proof.Machine.execTlbiHVa a broadcast ra s
  | .tlbiSAll a broadcast ra => Sys2Proof.Machine.execTlbiSAll a broadcast ra s
  | .tlbiAsid a broadcast ra => Sys2Proof.Machine.execTlbiAsid a broadcast ra s
  | .tlbiVa a broadcast ra => Sys2Proof.Machine.execTlbiVa a broadcast ra s
  | .tlbiVaAllasid a broadcast ra => Sys2Proof.Machine.execTlbiVaAllasid a broadcast ra s
  | .tlbiDelivery c => Sys2Proof.Machine.execTlbiDelivery c s
  | .iInv a broadcast ra => Sys2Proof.Machine.execIInv a broadcast ra s
  | .iInvAll a ra => Sys2Proof.Machine.execIInvAll a ra s
  | .dInvL1 a ra => Sys2Proof.Machine.execDInvL1 a ra s
  | .cleanL2 a ra => Sys2Proof.Machine.execCleanL2 a ra s
  | .cinvL2 a ra => Sys2Proof.Machine.execCinvL2 a ra s
  | .invL2 a ra => Sys2Proof.Machine.execInvL2 a ra s
  | .cleanLlc a ra => Sys2Proof.Machine.execCleanLlc a ra s
  | .cinvLlc a ra => Sys2Proof.Machine.execCinvLlc a ra s
  | .invLlc a ra => Sys2Proof.Machine.execInvLlc a ra s
  | .dInvSw a ra => Sys2Proof.Machine.execDInvSw a ra s
  | .iInvSw a ra => Sys2Proof.Machine.execIInvSw a ra s
  | .cleanSwL2 a ra => Sys2Proof.Machine.execCleanSwL2 a ra s
  | .cinvSwL2 a ra => Sys2Proof.Machine.execCinvSwL2 a ra s
  | .invSwL2 a ra => Sys2Proof.Machine.execInvSwL2 a ra s
  | .cleanSwLlc a ra => Sys2Proof.Machine.execCleanSwLlc a ra s
  | .cinvSwLlc a ra => Sys2Proof.Machine.execCinvSwLlc a ra s
  | .invSwLlc a ra => Sys2Proof.Machine.execInvSwLlc a ra s
  | .dInvAll a ra => Sys2Proof.Machine.execDInvAll a ra s
  | .lineRequest src line kind victim => Sys2Proof.Machine.execLineRequest src line kind victim s
  | .prefetchRequest c l2 det => Sys2Proof.Machine.execPrefetchRequest c l2 det s
  | .llcOffer c line => Sys2Proof.Machine.execLlcOffer c line s
  | .l2Disable c v => Sys2Proof.Machine.execL2Disable c v s
  | .l2Enable c v => Sys2Proof.Machine.execL2Enable c v s
  | .l2SweepEnd c => Sys2Proof.Machine.execL2SweepEnd c s
  | .allocDisable src t v => Sys2Proof.Machine.execAllocDisable src t v s
  | .allocEnable src t v => Sys2Proof.Machine.execAllocEnable src t v s
  | .llcSweepEnd t => Sys2Proof.Machine.execLlcSweepEnd t s
  | .secflushGo src t v => Sys2Proof.Machine.execSecflushGo src t v s
  | .secflushDone t => Sys2Proof.Machine.execSecflushDone t s
  | .groupDefWrite src g v => Sys2Proof.Machine.execGroupDefWrite src g v s
  | .form src g v => Sys2Proof.Machine.execForm src g v s
  | .formCopyDone g => Sys2Proof.Machine.execFormCopyDone g s
  | .dissolve src g v => Sys2Proof.Machine.execDissolve src g v s
  | .groupAdmit src g v => Sys2Proof.Machine.execGroupAdmit src g v s
  | .digestArrival c => Sys2Proof.Machine.execDigestArrival c s
  | .dlimitExpiry g => Sys2Proof.Machine.execDlimitExpiry g s
  | .instarConfirm g => Sys2Proof.Machine.execInstarConfirm g s
  | .foldDrain g ix => Sys2Proof.Machine.execFoldDrain g ix s
  | .quarantineResync g => Sys2Proof.Machine.execQuarantineResync g s
  | .cutPoint g => Sys2Proof.Machine.execCutPoint g s
  | .externalOp g => Sys2Proof.Machine.execExternalOp g s
  | .sourceInputChange n => Sys2Proof.Machine.execSourceInputChange n s
  | .sourceEvent n => Sys2Proof.Machine.execSourceEvent n s
  | .claim src t => Sys2Proof.Machine.execClaim src t s
  | .complete src t v => Sys2Proof.Machine.execComplete src t v s
  | .targetCtlWrite src t v => Sys2Proof.Machine.execTargetCtlWrite src t v s
  | .sourceConfigWrite src n v => Sys2Proof.Machine.execSourceConfigWrite src n v s
  | .swiSet src v => Sys2Proof.Machine.execSwiSet src v s
  | .interleaveWrite src v => Sys2Proof.Machine.execInterleaveWrite src v s
  | .setstateTrain src p v => Sys2Proof.Machine.execSetstateTrain src p v s
  | .setstateRun src p v => Sys2Proof.Machine.execSetstateRun src p v s
  | .hbmRequest src line write data upsets => Sys2Proof.Machine.execHbmRequest src line write data upsets s
  | .pageTimeout p bank => Sys2Proof.Machine.execPageTimeout p bank s
  | .refreshDue p sid waiting => Sys2Proof.Machine.execRefreshDue p sid waiting s
  | .stackTempPoll st temp => Sys2Proof.Machine.execStackTempPoll st temp s
  | .rankIdle p sid => Sys2Proof.Machine.execRankIdle p sid s
  | .patrolScrubRead p upsets => Sys2Proof.Machine.execPatrolScrubRead p upsets s
  | .eccWriteback p => Sys2Proof.Machine.execEccWriteback p s
  | .hbmInjectionArm src p v => Sys2Proof.Machine.execHbmInjectionArm src p v s
  | .trainingRegisterWrite src addr v => Sys2Proof.Machine.execTrainingRegisterWrite src addr v s
  | .patternWrite src p v bad => Sys2Proof.Machine.execPatternWrite src p v bad s
  | .patternCompare src p v bad => Sys2Proof.Machine.execPatternCompare src p v bad s
  | .patternMisr src p v bad => Sys2Proof.Machine.execPatternMisr src p v bad s
  | .patternWriteCompare src p v bad => Sys2Proof.Machine.execPatternWriteCompare src p v bad s
  | .patternLoopback src p v bad => Sys2Proof.Machine.execPatternLoopback src p v bad s
  | .patternRunDone p => Sys2Proof.Machine.execPatternRunDone p s
  | .ieee1500Load src st v shiftOut => Sys2Proof.Machine.execIeee1500Load src st v shiftOut s
  | .ieee1500Continue src st v shiftOut => Sys2Proof.Machine.execIeee1500Continue src st v shiftOut s
  | .ieee1500Done st => Sys2Proof.Machine.execIeee1500Done st s
  | .rawCommand src st v => Sys2Proof.Machine.execRawCommand src st v s
  | .mirrorEnable src n v => Sys2Proof.Machine.execMirrorEnable src n v s
  | .mirrorDisable src n v => Sys2Proof.Machine.execMirrorDisable src n v s
  | .silveringDone n => Sys2Proof.Machine.execSilveringDone n s
  | .granaryAccess src addr size write data partner upset => Sys2Proof.Machine.execGranaryAccess src addr size write data partner upset s
  | .granaryClaim src b v => Sys2Proof.Machine.execGranaryClaim src b v s
  | .granaryRelease src b v => Sys2Proof.Machine.execGranaryRelease src b v s
  | .granaryShare src b v => Sys2Proof.Machine.execGranaryShare src b v s
  | .releaseComplete b => Sys2Proof.Machine.execReleaseComplete b s
  | .bankRetainCommit b => Sys2Proof.Machine.execBankRetainCommit b s
  | .bankExitComplete b => Sys2Proof.Machine.execBankExitComplete b s
  | .portCtlWrite src p v => Sys2Proof.Machine.execPortCtlWrite src p v s
  | .portEventClear src p v => Sys2Proof.Machine.execPortEventClear src p v s
  | .mmdAccess src p v => Sys2Proof.Machine.execMmdAccess src p v s
  | .mmdAccessDone p data => Sys2Proof.Machine.execMmdAccessDone p data s
  | .linkUp p rate reversed fecEff => Sys2Proof.Machine.execLinkUp p rate reversed fecEff s
  | .linkLoss p => Sys2Proof.Machine.execLinkLoss p s
  | .sqiRefresh p sqi => Sys2Proof.Machine.execSqiRefresh p sqi s
  | .lineOvervoltageTrip p => Sys2Proof.Machine.execLineOvervoltageTrip p s
  | .dcSenseSample p vp vn => Sys2Proof.Machine.execDcSenseSample p vp vn s
  | .faultQualified p => Sys2Proof.Machine.execFaultQualified p s
  | .reflectometryStart src p v => Sys2Proof.Machine.execReflectometryStart src p v s
  | .reflectometryDone p result dist => Sys2Proof.Machine.execReflectometryDone p result dist s
  | .frameReceive p chars x cutOff => Sys2Proof.Machine.execFrameReceive p chars x cutOff s
  | .txDone p => Sys2Proof.Machine.execTxDone p s
  | .gclCycleStart p => Sys2Proof.Machine.execGclCycleStart p s
  | .gclEntryExpiry p => Sys2Proof.Machine.execGclEntryExpiry p s
  | .streamConfigWrite src m ix v => Sys2Proof.Machine.execStreamConfigWrite src m ix v s
  | .frerResetTimeout m ix => Sys2Proof.Machine.execFrerResetTimeout m ix s
  | .svcRxFrame bytes fcsBad => Sys2Proof.Machine.execSvcRxFrame bytes fcsBad s
  | .svcTxFrame => Sys2Proof.Machine.execSvcTxFrame s
  | .mdioFrame src v dataIn => Sys2Proof.Machine.execMdioFrame src v dataIn s
  | .gpioWrite src v => Sys2Proof.Machine.execGpioWrite src v s
  | .gpioOset src v => Sys2Proof.Machine.execGpioOset src v s
  | .gpioOclr src v => Sys2Proof.Machine.execGpioOclr src v s
  | .gpioInputChange pin level => Sys2Proof.Machine.execGpioInputChange pin level s
  | .clearFaults => Sys2Proof.Machine.execClearFaults s
  | .statusWord => Sys2Proof.Machine.execStatusWord s
  | .readVin => Sys2Proof.Machine.execReadVin s
  | .readIin iin => Sys2Proof.Machine.execReadIin iin s
  | .readPin => Sys2Proof.Machine.execReadPin s
  | .readTemperature1 => Sys2Proof.Machine.execReadTemperature1 s
  | .mfrStandby v => Sys2Proof.Machine.execMfrStandby v s
  | .mfrWake v => Sys2Proof.Machine.execMfrWake v s
  | .extest din => Sys2Proof.Machine.execExtest din s
  | .idcode din => Sys2Proof.Machine.execIdcode din s
  | .samplePreload din => Sys2Proof.Machine.execSamplePreload din s
  | .bypass din => Sys2Proof.Machine.execBypass din s
  | .dbgStat din => Sys2Proof.Machine.execDbgStat din s
  | .dbgSap op addr data => Sys2Proof.Machine.execDbgSap op addr data s
  | .start src t v => Sys2Proof.Machine.execStart src t v s
  | .stop src t v => Sys2Proof.Machine.execStop src t v s
  | .wait a rd ra csn => Sys2Proof.Machine.execWait a rd ra csn s
  | .waitEvent t => Sys2Proof.Machine.execWaitEvent t s
  | .waitTimeout t => Sys2Proof.Machine.execWaitTimeout t s
  | .rxb a rd ra => Sys2Proof.Machine.execRxb a rd ra s
  | .rxts a rd ra => Sys2Proof.Machine.execRxts a rd ra s
  | .rxcnt a rd ra => Sys2Proof.Machine.execRxcnt a rd ra s
  | .txstart a rd ra => Sys2Proof.Machine.execTxstart a rd ra s
  | .txb a rd ra => Sys2Proof.Machine.execTxb a rd ra s
  | .txts a rd ra => Sys2Proof.Machine.execTxts a rd ra s
  | .rawtx a rd ra => Sys2Proof.Machine.execRawtx a rd ra s
  | .rawrx a rd ra => Sys2Proof.Machine.execRawrx a rd ra s
  | .prd a ix rd ra => Sys2Proof.Machine.execPrd a ix rd ra s
  | .pwr a ix rd ra => Sys2Proof.Machine.execPwr a ix rd ra s
  | .qadv a j rd ra => Sys2Proof.Machine.execQadv a j rd ra s
  | .qptr a j rd ra => Sys2Proof.Machine.execQptr a j rd ra s
  | .fmatch a rd ra => Sys2Proof.Machine.execFmatch a rd ra s
  | .fmadd a rd ra => Sys2Proof.Machine.execFmadd a rd ra s
  | .fmdel a rd ra => Sys2Proof.Machine.execFmdel a rd ra s
  | .signal a rd ra => Sys2Proof.Machine.execSignal a rd ra s
  | .poke a rd ra => Sys2Proof.Machine.execPoke a rd ra s
  | .setthr a rd ra => Sys2Proof.Machine.execSetthr a rd ra s
  | .wqmask a rd ra => Sys2Proof.Machine.execWqmask a rd ra s
  | .frer a rd ra => Sys2Proof.Machine.execFrer a rd ra s
  | .queueCfgWrite src q v => Sys2Proof.Machine.execQueueCfgWrite src q v s
  | .queueHostWrite src q v => Sys2Proof.Machine.execQueueHostWrite src q v s
  | .queuePtrWrite src q v => Sys2Proof.Machine.execQueuePtrWrite src q v s
  | .coalesceTimerExpiry q => Sys2Proof.Machine.execCoalesceTimerExpiry q s
  | .fmAdd src v => Sys2Proof.Machine.execFmAdd src v s
  | .fmDel src v => Sys2Proof.Machine.execFmDel src v s
  | .fmLookup src v => Sys2Proof.Machine.execFmLookup src v s
  | .dmaCtlWrite src d v => Sys2Proof.Machine.execDmaCtlWrite src d v s
  | .dmaRxFrame d bytes x cutOff => Sys2Proof.Machine.execDmaRxFrame d bytes x cutOff s
  | .dmaTxFrame d aborted => Sys2Proof.Machine.execDmaTxFrame d aborted s
  | .cocoonSlotOwnWrite src m v => Sys2Proof.Machine.execCocoonSlotOwnWrite src m v s
  | .cocoonDoorbell src m v => Sys2Proof.Machine.execCocoonDoorbell src m v s
  | .cocoonCallTimeout m => Sys2Proof.Machine.execCocoonCallTimeout m s
  | .messageWrite src m ix v => Sys2Proof.Machine.execMessageWrite src m ix v s
  | .cocoonMailboxTake v => Sys2Proof.Machine.execCocoonMailboxTake v s
  | .cocoonMailboxComplete v => Sys2Proof.Machine.execCocoonMailboxComplete v s
  | .cocoonVersion m => Sys2Proof.Machine.execCocoonVersion m s
  | .random m entropyFail => Sys2Proof.Machine.execRandom m entropyFail s
  | .hash m => Sys2Proof.Machine.execHash m s
  | .verify m => Sys2Proof.Machine.execVerify m s
  | .sign m entropyFail => Sys2Proof.Machine.execSign m entropyFail s
  | .seal m => Sys2Proof.Machine.execSeal m s
  | .cocoonOpen m => Sys2Proof.Machine.execCocoonOpen m s
  | .keyGen m entropyFail => Sys2Proof.Machine.execKeyGen m entropyFail s
  | .keyDel m => Sys2Proof.Machine.execKeyDel m s
  | .debugAuth m => Sys2Proof.Machine.execDebugAuth m s
  | .debugRevoke m => Sys2Proof.Machine.execDebugRevoke m s
  | .imageCheck m => Sys2Proof.Machine.execImageCheck m s
  | .cocoonStop => Sys2Proof.Machine.execCocoonStop s
  | .firewallRegionWrite src addr v => Sys2Proof.Machine.execFirewallRegionWrite src addr v s
  | .firewallSweepDone f => Sys2Proof.Machine.execFirewallSweepDone f s
  | .firewallCtlWrite src f v => Sys2Proof.Machine.execFirewallCtlWrite src f v s
  | .overrideNotice src v => Sys2Proof.Machine.execOverrideNotice src v s
  | .authWrite src v => Sys2Proof.Machine.execAuthWrite src v s
  | .traceBlockWrite c => Sys2Proof.Machine.execTraceBlockWrite c s
  | .sinkStart src v => Sys2Proof.Machine.execSinkStart src v s
  | .sinkStop src v => Sys2Proof.Machine.execSinkStop src v s
  | .sinkTrigger src v => Sys2Proof.Machine.execSinkTrigger src v s
  | .halt src c v => Sys2Proof.Machine.execHalt src c v s
  | .step src c v => Sys2Proof.Machine.execStep src c v s
  | .resume src c v => Sys2Proof.Machine.execResume src c v s
  | .debugDataAccess src c write v => Sys2Proof.Machine.execDebugDataAccess src c write v s
  | .spinnerHalt src t v => Sys2Proof.Machine.execSpinnerHalt src t v s
  | .spinnerStep src t v => Sys2Proof.Machine.execSpinnerStep src t v s
  | .spinnerResume src t v => Sys2Proof.Machine.execSpinnerResume src t v s
  | .spinnerDebugDataAccess src t write v => Sys2Proof.Machine.execSpinnerDebugDataAccess src t write v s
  | .snap src v => Sys2Proof.Machine.execSnap src v s
  | .freeze src v => Sys2Proof.Machine.execFreeze src v s
  | .snapshotTick => Sys2Proof.Machine.execSnapshotTick s
  | .snapshotDone => Sys2Proof.Machine.execSnapshotDone s
  | .coreReset src c fatal => Sys2Proof.Machine.execCoreReset src c fatal s
  | .islandReset src j fatal => Sys2Proof.Machine.execIslandReset src j fatal s
  | .moduleWarmReset src fatal => Sys2Proof.Machine.execModuleWarmReset src fatal s
  | .recordClear src u r v => Sys2Proof.Machine.execRecordClear src u r v s
  | .injectionArm src u v => Sys2Proof.Machine.execInjectionArm src u v s
  | .syntheticRecord src u v => Sys2Proof.Machine.execSyntheticRecord src u v s
  | .watchdogKick src v => Sys2Proof.Machine.execWatchdogKick src v s
  | .watchdogExpiry => Sys2Proof.Machine.execWatchdogExpiry s
  | .fadd a ty qd qa qb => Sys2Proof.Machine.execFadd a ty qd qa qb s
  | .fsub a ty qd qa qb => Sys2Proof.Machine.execFsub a ty qd qa qb s
  | .fmul a ty qd qa qb => Sys2Proof.Machine.execFmul a ty qd qa qb s
  | .fdiv a ty qd qa qb => Sys2Proof.Machine.execFdiv a ty qd qa qb s
  | .fsqrt a ty qd qa => Sys2Proof.Machine.execFsqrt a ty qd qa s
  | .fma a ty qd qa qb => Sys2Proof.Machine.execFma a ty qd qa qb s
  | .fmin a ty qd qa qb => Sys2Proof.Machine.execFmin a ty qd qa qb s
  | .fmax a ty qd qa qb => Sys2Proof.Machine.execFmax a ty qd qa qb s
  | .fabs a ty qd qa => Sys2Proof.Machine.execFabs a ty qd qa s
  | .fneg a ty qd qa => Sys2Proof.Machine.execFneg a ty qd qa s
  | .fcmp a ty qa qb => Sys2Proof.Machine.execFcmp a ty qa qb s
  | .vand a qd qa qb => Sys2Proof.Machine.execVand a qd qa qb s
  | .vor a qd qa qb => Sys2Proof.Machine.execVor a qd qa qb s
  | .vxor a qd qa qb => Sys2Proof.Machine.execVxor a qd qa qb s
  | .vshl a ty qd qa qb => Sys2Proof.Machine.execVshl a ty qd qa qb s
  | .vshr a ty qd qa qb => Sys2Proof.Machine.execVshr a ty qd qa qb s
  | .vsar a ty qd qa qb => Sys2Proof.Machine.execVsar a ty qd qa qb s
  | .vcmpeq a ty qd qa qb => Sys2Proof.Machine.execVcmpeq a ty qd qa qb s
  | .vcmpgt a ty qd qa qb => Sys2Proof.Machine.execVcmpgt a ty qd qa qb s
  | .vbcast a ty qd qa => Sys2Proof.Machine.execVbcast a ty qd qa s
  | .vsel a qd qa qb => Sys2Proof.Machine.execVsel a qd qa qb s
  | .fcvt a ty qd qa => Sys2Proof.Machine.execFcvt a ty qd qa s
  | .fcvti a ty rd qa => Sys2Proof.Machine.execFcvti a ty rd qa s
  | .icvtf a ty qd ra => Sys2Proof.Machine.execIcvtf a ty qd ra s
  | .fmvx a ty rd qa => Sys2Proof.Machine.execFmvx a ty rd qa s
  | .fmvq a ty qd ra => Sys2Proof.Machine.execFmvq a ty qd ra s
  | .vmov a qd qa => Sys2Proof.Machine.execVmov a qd qa s
  | .startThresholdRise => Sys2Proof.Machine.execStartThresholdRise s
  | .otherInputSwitchOpening => Sys2Proof.Machine.execOtherInputSwitchOpening s
  | .driverCurrentLimit p => Sys2Proof.Machine.execDriverCurrentLimit p s
  | .transmitFifoRunsEmpty p => Sys2Proof.Machine.execTransmitFifoRunsEmpty p s
  | .cocoonTick => Sys2Proof.Machine.execCocoonTick s
  | .illegalInstruction a short => Sys2Proof.Machine.execIllegalInstruction a short s

end Sys2Proof.Machine
end

