-- ==== Sys2Proof/WellFormed.lean ====
section
/-!
DEFINITION. Which commands are well formed: a ZIS instruction has an encoding with its operands (R147 to R160, R178,
R186), an address lies where its command's rule lets it lie, and lists have one entry for each unit they speak of.
-/

namespace Sys2Proof

/-! ## 16-bit forms (R144, R147 to R152) -/

/-- A 4-bit register field names x0 to x7 and v0 to v7. -/
def isMid (r : Reg5) : Bool := decide (8 ≤ r.toNat) && decide (r.toNat < 24)

/-- The registers that `mov (out)` writes and `mov (in)` reads: y and g (R148). -/
def isFar (r : Reg5) : Bool := !isMid r

/-- A number is the sign extension of its low `k` bits. -/
def fitsS {n : Nat} (v : BitVec n) (k : Nat) : Bool := (v.truncate k).signExtend n == v

/-- A G0 form: two addresses, no W. -/
def wfG0 (short w : Bool) (rd ra rb : Reg5) : Bool := !short || (!w && rd == ra && isMid rd && isMid rb)

/-- A G1 form: one register, 7 bits. -/
def wfG1 {n : Nat} (short : Bool) (rd ra : Reg5) (imm : BitVec n) : Bool := !short || (rd == ra && isMid rd && fitsS imm 7)

/-- A memory form of the sizes that LS12 and LSX carry; `size` is that of the 16-bit forms, 0 where there is none, and
`stack` says whether G3 has the operation too (R150, R156, R157). -/
def wfMem (size : Nat) (stack : Bool) (rt : Reg5) (m : MemMode) : Bool :=
  let sh := decide (size ≠ 0) && isMid rt
  match m with
  | .disp short b d => !short || (sh && ((isMid b && decide (d.toNat % size = 0) && decide (d.toNat / size < 8)) ||
      (stack && b == 30 && decide (d.toNat % 8 = 0) && decide (d.toNat ≤ 2040))))
  | .index _ _ _ => true
  | .postInc short b => !short || (sh && isMid b)
  | .preDec short b => !short || (sh && isMid b)

/-- LSX alone carries `vld` and `vst` (R157). -/
def wfMemX (m : MemMode) : Bool :=
  match m with
  | .disp _ _ _ => false
  | .index _ _ _ => true
  | .postInc short _ => !short
  | .preDec short _ => !short

/-! ## Types of the VF format (R186, R187) -/

/-- A float type, and a scalar float type. -/
def wfFloat (ty : VTy) : Bool := decide (ty.toNat < 4)
def wfScalar (ty : VTy) : Bool := decide (ty.toNat < 2)

/-! ## Addresses (R3, R19, R417) -/

/-- A line's first byte. -/
def wfLine (a : PA) : Bool := decide (a.toNat % 64 = 0)

/-- A register's address in CSR space. -/
def wfCsr (a : PA) : Bool := decide (0x00FE00000000 ≤ a.toNat) && decide (a.toNat < 0x00FF00000000) && decide (a.toNat % 8 = 0)

/-- An access of the Granary, of a size its masters use and aligned to it. -/
def wfGranary (a size : Nat) : Bool :=
  decide (0x00F000000000 ≤ a) && decide (a < 0x00F001000000) &&
  (size == 1 || size == 2 || size == 4 || size == 8 || size == 32) && decide (a % size = 0)

/-! ## Commands -/

/-- Whether a command is well formed. -/
def Instr.wf : Instr → Bool
  | .registerWrite _ addr _ => wfCsr addr
  | .xgateWrite _ addr _ => wfCsr addr
  | .landOwnershipWrite _ _ _ => true
  | .standbyRise _ => true
  | .powerOn _ => true
  | .inputReversal => true
  | .inputStopFall => true
  | .inputRecovery => true
  | .deglitchExpiry => true
  | .overvoltageOnset => true
  | .overvoltageFall => true
  | .overvoltageTimerExpiry => true
  | .pfw380usPoint => true
  | .storeBelow40v => true
  | .standbySupplyLoss => true
  | .holdupStoreFull => true
  | .resetNAssert _ => true
  | .resetNRelease => true
  | .cocoonBoot _ _ _ => true
  | .reeveImageVerify _ _ => true
  | .railBringUp _ => true
  | .hbmTraining _ => true
  | .coreFirmwareLoad _ _ => true
  | .coreRelease _ _ _ => true
  | .rateWindowEnd counts tj _ _ _ moves => decide (counts.length = 25) && decide (tj.length = 25) && decide (moves.length = 25)
  | .lockWindowEnd counts moves => decide (counts.length = 25) && decide (moves.length = 25)
  | .thermalCapLift _ => true
  | .powerCapLift => true
  | .hardwareTrip => true
  | .vsetWrite _ _ _ => true
  | .rctlWrite _ _ _ => true
  | .thermWrite _ _ => true
  | .holdWrite _ _ _ => true
  | .holdNoticeExpiry => true
  | .entryCommit _ => true
  | .retentionReached _ => true
  | .exitRestoreDone _ => true
  | .gatedExitDone _ => true
  | .secsetWrite _ _ => true
  | .secondsLoad => true
  | .slew _ _ => true
  | .slewDone => true
  | .immediateStep _ _ => true
  | .addendWrite _ _ => true
  | .tbCtlWrite _ _ => true
  | .refclkLoss => true
  | .ppsInEdge _ _ => true
  | .ppsLostExpiry => true
  | .ppsOutStart => true
  | .ppsOutEnd => true
  | .compareOwnWrite _ _ _ => true
  | .compareTargetWrite _ _ _ => true
  | .compareCtlWrite _ _ _ => true
  | .compareFire _ => true
  | .lockstepMismatch => true
  | .tallyEventEntry _ => true
  | .tallyMov _ _ _ => true
  | .tallyAdd _ _ _ => true
  | .tallySub _ _ _ => true
  | .tallyCmp _ _ _ => true
  | .tallyAnd _ _ _ => true
  | .tallyOr _ _ _ => true
  | .tallyXor _ _ _ => true
  | .tallyTst _ _ _ => true
  | .tallyShl _ _ _ => true
  | .tallyShr _ _ _ => true
  | .tallySar _ _ _ => true
  | .tallyMul _ _ _ => true
  | .tallyMulhu _ _ _ => true
  | .tallyAdc _ _ _ => true
  | .tallySbc _ _ _ => true
  | .tallyClz _ _ _ => true
  | .tallyMovi _ _ _ => true
  | .tallyAddi _ _ _ => true
  | .tallyCmpi _ _ _ => true
  | .tallyAndi _ _ _ => true
  | .ld _ _ _ => true
  | .st _ _ _ => true
  | .ldp _ _ _ => true
  | .stp _ _ _ => true
  | .tallyPrefix _ _ => true
  | .tallyBranch _ _ _ => true
  | .tallyJump _ _ _ => true
  | .tallyJr _ _ => true
  | .jlr _ _ => true
  | .reti _ => true
  | .mfx _ _ => true
  | .mtx _ _ => true
  | .tallyWait _ _ => true
  | .tallyWaitWake _ => true
  | .fence _ => true
  | .mbqRead _ => true
  | .mailboxTake _ => true
  | .mailboxComplete _ => true
  | .eventAck _ _ => true
  | .ploadData _ => true
  | .plockSet _ => true
  | .slotOwnWrite _ _ _ => true
  | .serviceDoorbell _ _ _ => true
  | .serviceTimeout _ => true
  | .version _ => true
  | .setPoint _ => true
  | .retain _ => true
  | .gate _ => true
  | .wake _ => true
  | .standby _ => true
  | .pflogClear _ => true
  | .stackDown _ => true
  | .stackUp _ _ _ => true
  | .bankRetain _ => true
  | .bankWake _ => true
  | .cocoonReset _ _ _ _ => true
  | .loadExt _ => true
  | .unloadExt _ => true
  | .extensionService _ => true
  | .badService _ => true
  | .extHandlerOverrun => true
  | .mov _ rd rs => isMid rd && isMid rs
  | .movOut _ rd rs => isFar rd && isMid rs
  | .movIn _ rd rs => isMid rd && isFar rs
  | .add _ short w rd ra rb => wfG0 short w rd ra rb
  | .sub _ short w rd ra rb => wfG0 short w rd ra rb
  | .adc _ short w rd ra rb => wfG0 short w rd ra rb
  | .sbc _ short w rd ra rb => wfG0 short w rd ra rb
  | .cmp _ short w ra rb => wfG0 short w ra ra rb
  | .neg _ short w rd rb => wfG0 short w rd rd rb
  | .and _ short rd ra rb => wfG0 short false rd ra rb
  | .or _ short rd ra rb => wfG0 short false rd ra rb
  | .xor _ short rd ra rb => wfG0 short false rd ra rb
  | .andn _ short rd ra rb => wfG0 short false rd ra rb
  | .tst _ short ra rb => wfG0 short false ra ra rb
  | .not _ short rd rb => wfG0 short false rd rd rb
  | .shl _ short w rd ra rb => wfG0 short w rd ra rb
  | .shr _ short w rd ra rb => wfG0 short w rd ra rb
  | .sar _ short w rd ra rb => wfG0 short w rd ra rb
  | .mul _ short w rd ra rb => wfG0 short w rd ra rb
  | .mulhs _ _ _ _ => true
  | .mulhu _ _ _ _ => true
  | .div _ _ _ _ _ => true
  | .divu _ _ _ _ _ => true
  | .rem _ _ _ _ _ => true
  | .remu _ _ _ _ _ => true
  | .clz _ _ _ _ => true
  | .ctz _ _ _ _ => true
  | .popc _ _ _ _ => true
  | .rev _ _ _ _ => true
  | .csel _ _ _ _ _ => true
  | .mffl _ _ => true
  | .mtfl _ _ => true
  | .movi _ short rd imm => wfG1 short rd rd imm
  | .movp1 _ _ _ => true
  | .movp2 _ _ _ => true
  | .movp3 _ _ _ => true
  | .addi _ short rd ra imm => wfG1 short rd ra imm
  | .addi16 _ _ _ => true
  | .cmpi _ short ra imm => wfG1 short ra ra imm
  | .andi _ short rd ra imm => wfG1 short rd ra imm
  | .ori _ _ _ _ => true
  | .xori _ _ _ _ => true
  | .shli _ _ _ _ => true
  | .shri _ _ _ _ => true
  | .sari _ _ _ _ => true
  | .lea _ _ _ _ => true
  | .muli _ _ _ _ => true
  | .adr _ _ _ => true
  | .ldpc _ short rd imm => !short || (isMid rd && decide (imm.toNat < 32))
  | .ldpcw _ _ _ => true
  | .fldpc _ _ _ => true
  | .addsp _ _ => true
  | .nop _ => true
  | .ldbu _ rt m => wfMem 0 false rt m
  | .ldbs _ rt m => wfMem 0 false rt m
  | .ldhu _ rt m => wfMem 0 false rt m
  | .ldhs _ rt m => wfMem 0 false rt m
  | .ldwu _ rt m => wfMem 0 false rt m
  | .ldws _ rt m => wfMem 4 false rt m
  | .ldd _ rt m => wfMem 8 true rt m
  | .stb _ rt m => wfMem 0 false rt m
  | .sth _ rt m => wfMem 0 false rt m
  | .stw _ rt m => wfMem 4 false rt m
  | .std _ rt m => wfMem 8 true rt m
  | .flw _ rt m => wfMem 0 false rt m
  | .fsw _ rt m => wfMem 0 false rt m
  | .fld _ rt m => wfMem 0 false rt m
  | .fsd _ rt m => wfMem 0 false rt m
  | .vld _ _ m => wfMemX m
  | .vst _ _ m => wfMemX m
  | .ll _ _ _ => true
  | .sc _ _ _ _ => true
  | .swp _ _ _ _ => true
  | .ldadd _ _ _ _ => true
  | .ldand _ _ _ _ => true
  | .ldor _ _ _ _ => true
  | .bcc _ short _ disp => !short || fitsS disp 9
  | .bccDelayed _ _ _ _ _ => true
  | .jmp _ _ => true
  | .call _ _ => true
  | .callr _ _ => true
  | .jr _ short ra => !short || isMid ra
  | .ret _ _ => true
  | .lbar _ _ => true
  | .sbar _ _ => true
  | .fbar _ _ => true
  | .trap _ _ _ => true
  | .eret _ => true
  | .park _ => true
  | .parkWake _ => true
  | .mfs _ _ _ => true
  | .mts _ _ _ => true
  | .winWrite _ _ _ => true
  | .wsaveWrite _ _ => true
  | .wctxWrite _ _ => true
  | .evictCtx _ _ => true
  | .discardCtx _ _ => true
  | .evictAll _ _ => true
  | .wengWriteFrame _ _ => true
  | .wengReadFrame _ _ => true
  | .windowExchange _ => true
  | .deferExpiry _ => true
  | .bpkeyWrite _ _ => true
  | .bpkeyFlush _ _ => true
  | .branchMispredict _ => true
  | .storePerform _ i => decide (i < 56)
  | .interruptAccept _ => true
  | .machineCheckEntry _ => true
  | .reservationHoldExpiry _ => true
  | .translationWalk _ _ _ _ => true
  | .tlbiAll _ _ _ => true
  | .tlbiGuest _ _ _ => true
  | .tlbiIpa _ _ _ => true
  | .tlbiHAll _ _ _ => true
  | .tlbiHVa _ _ _ => true
  | .tlbiSAll _ _ _ => true
  | .tlbiAsid _ _ _ => true
  | .tlbiVa _ _ _ => true
  | .tlbiVaAllasid _ _ _ => true
  | .tlbiDelivery _ => true
  | .iInv _ _ _ => true
  | .iInvAll _ _ => true
  | .dInvL1 _ _ => true
  | .cleanL2 _ _ => true
  | .cinvL2 _ _ => true
  | .invL2 _ _ => true
  | .cleanLlc _ _ => true
  | .cinvLlc _ _ => true
  | .invLlc _ _ => true
  | .dInvSw _ _ => true
  | .iInvSw _ _ => true
  | .cleanSwL2 _ _ => true
  | .cinvSwL2 _ _ => true
  | .invSwL2 _ _ => true
  | .cleanSwLlc _ _ => true
  | .cinvSwLlc _ _ => true
  | .invSwLlc _ _ => true
  | .dInvAll _ _ => true
  | .lineRequest _ line _ _ => wfLine line
  | .prefetchRequest _ l2 det => decide (det < if l2 then 16 else 8)
  | .llcOffer _ line => wfLine line
  | .l2Disable _ _ => true
  | .l2Enable _ _ => true
  | .l2SweepEnd _ => true
  | .allocDisable _ _ _ => true
  | .allocEnable _ _ _ => true
  | .llcSweepEnd _ => true
  | .secflushGo _ _ _ => true
  | .secflushDone _ => true
  | .groupDefWrite _ _ _ => true
  | .form _ _ _ => true
  | .formCopyDone _ => true
  | .dissolve _ _ _ => true
  | .groupAdmit _ _ _ => true
  | .digestArrival _ => true
  | .dlimitExpiry _ => true
  | .instarConfirm _ => true
  | .foldDrain _ i => decide (i < 8)
  | .quarantineResync _ => true
  | .cutPoint _ => true
  | .externalOp _ => true
  | .sourceInputChange _ => true
  | .sourceEvent _ => true
  | .claim _ _ => true
  | .complete _ _ _ => true
  | .targetCtlWrite _ _ _ => true
  | .sourceConfigWrite _ _ _ => true
  | .swiSet _ _ => true
  | .interleaveWrite _ _ => true
  | .setstateTrain _ _ _ => true
  | .setstateRun _ _ _ => true
  | .hbmRequest _ line _ _ _ => wfLine line
  | .pageTimeout _ _ => true
  | .refreshDue _ _ _ => true
  | .stackTempPoll _ _ => true
  | .rankIdle _ _ => true
  | .patrolScrubRead _ _ => true
  | .eccWriteback _ => true
  | .hbmInjectionArm _ _ _ => true
  | .trainingRegisterWrite _ addr _ => wfCsr addr
  | .patternWrite _ _ _ _ => true
  | .patternCompare _ _ _ _ => true
  | .patternMisr _ _ _ _ => true
  | .patternWriteCompare _ _ _ _ => true
  | .patternLoopback _ _ _ _ => true
  | .patternRunDone _ => true
  | .ieee1500Load _ _ _ _ => true
  | .ieee1500Continue _ _ _ _ => true
  | .ieee1500Done _ => true
  | .rawCommand _ _ _ => true
  | .mirrorEnable _ _ _ => true
  | .mirrorDisable _ _ _ => true
  | .silveringDone _ => true
  | .granaryAccess _ addr size _ _ partner _ => wfGranary addr.toNat size &&
      (partner.map (fun q => wfGranary q.addr.toNat q.size)).getD true
  | .granaryClaim _ _ _ => true
  | .granaryRelease _ _ _ => true
  | .granaryShare _ _ _ => true
  | .releaseComplete _ => true
  | .bankRetainCommit _ => true
  | .bankExitComplete _ => true
  | .portCtlWrite _ _ _ => true
  | .portEventClear _ _ _ => true
  | .mmdAccess _ _ _ => true
  | .mmdAccessDone _ _ => true
  | .linkUp _ _ _ _ => true
  | .linkLoss _ => true
  | .sqiRefresh _ _ => true
  | .lineOvervoltageTrip _ => true
  | .dcSenseSample _ _ _ => true
  | .faultQualified _ => true
  | .reflectometryStart _ _ _ => true
  | .reflectometryDone _ _ _ => true
  | .frameReceive _ _ _ _ => true
  | .txDone _ => true
  | .gclCycleStart _ => true
  | .gclEntryExpiry _ => true
  | .streamConfigWrite _ _ _ _ => true
  | .frerResetTimeout _ _ => true
  | .svcRxFrame _ _ => true
  | .svcTxFrame => true
  | .mdioFrame _ _ _ => true
  | .gpioWrite _ _ => true
  | .gpioOset _ _ => true
  | .gpioOclr _ _ => true
  | .gpioInputChange _ _ => true
  | .clearFaults => true
  | .statusWord => true
  | .readVin => true
  | .readIin _ => true
  | .readPin => true
  | .readTemperature1 => true
  | .mfrStandby _ => true
  | .mfrWake _ => true
  | .extest _ => true
  | .idcode _ => true
  | .samplePreload _ => true
  | .bypass _ => true
  | .dbgStat _ => true
  | .dbgSap _ _ _ => true
  | .start _ _ _ => true
  | .stop _ _ _ => true
  | .wait _ _ _ csn => decide (csn.toNat < 128)
  | .waitEvent _ => true
  | .waitTimeout _ => true
  | .rxb _ _ _ => true
  | .rxts _ _ _ => true
  | .rxcnt _ _ _ => true
  | .txstart _ _ _ => true
  | .txb _ _ _ => true
  | .txts _ _ _ => true
  | .rawtx _ _ _ => true
  | .rawrx _ _ _ => true
  | .prd _ _ _ _ => true
  | .pwr _ _ _ _ => true
  | .qadv _ _ _ _ => true
  | .qptr _ _ _ _ => true
  | .fmatch _ _ _ => true
  | .fmadd _ _ _ => true
  | .fmdel _ _ _ => true
  | .signal _ _ _ => true
  | .poke _ _ _ => true
  | .setthr _ _ _ => true
  | .wqmask _ _ _ => true
  | .frer _ _ _ => true
  | .queueCfgWrite _ _ _ => true
  | .queueHostWrite _ _ _ => true
  | .queuePtrWrite _ _ _ => true
  | .coalesceTimerExpiry _ => true
  | .fmAdd _ _ => true
  | .fmDel _ _ => true
  | .fmLookup _ _ => true
  | .dmaCtlWrite _ _ _ => true
  | .dmaRxFrame _ _ _ _ => true
  | .dmaTxFrame _ _ => true
  | .cocoonSlotOwnWrite _ _ _ => true
  | .cocoonDoorbell _ _ _ => true
  | .cocoonCallTimeout _ => true
  | .messageWrite _ _ _ _ => true
  | .cocoonMailboxTake _ => true
  | .cocoonMailboxComplete _ => true
  | .cocoonVersion _ => true
  | .random _ _ => true
  | .hash _ => true
  | .verify _ => true
  | .sign _ _ => true
  | .seal _ => true
  | .cocoonOpen _ => true
  | .keyGen _ _ => true
  | .keyDel _ => true
  | .debugAuth _ => true
  | .debugRevoke _ => true
  | .imageCheck _ => true
  | .cocoonStop => true
  | .firewallRegionWrite _ addr _ => wfCsr addr
  | .firewallSweepDone _ => true
  | .firewallCtlWrite _ _ _ => true
  | .overrideNotice _ _ => true
  | .authWrite _ _ => true
  | .traceBlockWrite _ => true
  | .sinkStart _ _ => true
  | .sinkStop _ _ => true
  | .sinkTrigger _ _ => true
  | .halt _ _ _ => true
  | .step _ _ _ => true
  | .resume _ _ _ => true
  | .debugDataAccess _ _ _ _ => true
  | .spinnerHalt _ _ _ => true
  | .spinnerStep _ _ _ => true
  | .spinnerResume _ _ _ => true
  | .spinnerDebugDataAccess _ _ _ _ => true
  | .snap _ _ => true
  | .freeze _ _ => true
  | .snapshotTick => true
  | .snapshotDone => true
  | .coreReset _ _ _ => true
  | .islandReset _ _ _ => true
  | .moduleWarmReset _ _ => true
  | .recordClear _ _ _ _ => true
  | .injectionArm _ _ _ => true
  | .syntheticRecord _ _ _ => true
  | .watchdogKick _ _ => true
  | .watchdogExpiry => true
  | .fadd _ _ _ _ _ => true
  | .fsub _ _ _ _ _ => true
  | .fmul _ _ _ _ _ => true
  | .fdiv _ ty _ _ _ => wfFloat ty
  | .fsqrt _ ty _ _ => wfFloat ty
  | .fma _ ty _ _ _ => wfFloat ty
  | .fmin _ _ _ _ _ => true
  | .fmax _ _ _ _ _ => true
  | .fabs _ ty _ _ => wfFloat ty
  | .fneg _ ty _ _ => wfFloat ty
  | .fcmp _ ty _ _ => wfScalar ty
  | .vand _ _ _ _ => true
  | .vor _ _ _ _ => true
  | .vxor _ _ _ _ => true
  | .vshl _ ty _ _ _ => !wfFloat ty
  | .vshr _ ty _ _ _ => !wfFloat ty
  | .vsar _ ty _ _ _ => !wfFloat ty
  | .vcmpeq _ _ _ _ _ => true
  | .vcmpgt _ _ _ _ _ => true
  | .vbcast _ _ _ _ => true
  | .vsel _ _ _ _ => true
  | .fcvt _ ty _ _ => wfScalar ty
  | .fcvti _ ty _ _ => wfScalar ty
  | .icvtf _ ty _ _ => wfScalar ty
  | .fmvx _ ty _ _ => wfScalar ty
  | .fmvq _ ty _ _ => wfScalar ty
  | .vmov _ _ _ => true
  | .startThresholdRise => true
  | .otherInputSwitchOpening => true
  | .driverCurrentLimit _ => true
  | .transmitFifoRunsEmpty _ => true
  | .cocoonTick => true
  | .illegalInstruction _ _ => true

end Sys2Proof
end

