-- ==== Sys2Proof/Safety.lean ====
section
/-!
DEFINITION. What the claims call sound: the forms that a state keeps, and a run that ends in no fault and no refusal.
-/

namespace Sys2Proof.Machine

/-- The memory is in its canonical form: addresses strictly rise, and no entry holds what an unlisted address reads as. -/
def State.memOk (s : State) : Prop := BMap.wf s.mem = true

/-- Every command that waits is well formed. -/
def State.queueOk (s : State) : Prop := s.pending.all Instr.wf = true

/-- A core is in one of the modes U, S and H (R238). -/
def Core.modeOk (k : Core) : Prop := k.arch.mode ≠ 3

/-- A step goes on: no fault, no refusal. -/
def State.goesOn (s : State) : Prop := ∃ t, step s = .next t

/-- A command ends in a next state of which `P` holds. -/
def State.does (s : State) (c : Instr) (P : State → Prop) : Prop := ∃ t, exec c s = .next t ∧ P t

/-- A core's state is a copy of `x`, but for its counters, which are those of `own` (R354, R368). -/
def CoreArch.isCopy (a x own : CoreArch) : Prop :=
  a.pc = x.pc ∧ a.mode = x.mode ∧ a.fl = x.fl ∧ a.rf = x.rf ∧ a.q = x.q ∧ a.tags = x.tags ∧ a.wsaveP = x.wsaveP ∧
  a.wctxP = x.wctxP ∧ a.deferN = x.deferN ∧ ∀ csn, a.cs 0 csn = if csCounter csn = true then own.cs 0 csn else x.cs 0 csn

/-- Every register of CSR space but those listed, by name and instance, reads as before. -/
def State.regsKept (s t : State) (l : List (Reg × Nat)) : Prop :=
  ∀ r i, i < 65536 → (r, i) ∉ l → t.csrGet r i = s.csrGet r i

/-- Nothing changes but the answer and the registers listed: memory, every core, every unit's own state stay. -/
def State.onlyRegs (s t : State) (l : List (Reg × Nat)) : Prop :=
  t = { s with csr := t.csr, resp := t.resp } ∧ s.regsKept t l

/-- Nothing changes but the answer, time (the bell's record) and the registers listed. -/
def State.onlyBell (s t : State) (l : List (Reg × Nat)) : Prop :=
  t = { s with csr := t.csr, resp := t.resp, bell := t.bell } ∧ s.regsKept t l

/-- Nothing of a core changes but which levels it still has to see fall before they can wake it (R252). -/
def State.coresWait (s t : State) : Prop := ∀ d, t.core d = { s.core d with lvlHeld := (t.core d).lvlHeld }

/-- Nothing changes but the answer, the registers listed, the interrupt stacks, and what parked cores wait for. -/
def State.onlyIrq (s t : State) (l : List (Reg × Nat)) : Prop :=
  t = { s with csr := t.csr, resp := t.resp, icStack := t.icStack, cores := t.cores } ∧ s.regsKept t l ∧ s.coresWait t

/-- No island is in retention or on its way there, so that no wake reaches one (R376). -/
def State.noSleeper (s : State) : Prop := ∀ j < 25, s.islState j ≠ 2 ∧ s.islState j ≠ 3

/-- The Reeve serves, in slot `m`, a call of the service `code` that has not expired; `h` says whether its doorbell came
from H mode or JTAG debug (R128, R129). -/
def State.called (s : State) (m code : Nat) (h : Bool) : Prop :=
  s.callState m = 2 ∧ s.serving m code = true ∧ (s.slot m).hmode = h

/-- A call has been completed with a status before its expiry (R130). -/
def State.answered (t : State) (m status : Nat) : Prop :=
  t.callState m = 3 ∧ t.fld Fld.RV_STAT_STATUS m = status ∧ (t.slot m).taken = false

/-- A Tally core's next instruction issues: its island is ON, it runs, it does not sleep, and its pc lies in populated
program space (R114, R516). -/
def State.tallyReady (s : State) (cpu : TallyCpu) : Prop :=
  s.tallyIssues cpu = true ∧ tallyPopulated cpu (s.tally cpu).pc = true

/-- X7, STEPS, has counted `n` steps more, modulo 2^32, and the other special registers are as before (R121, R122). -/
def Tally.counts (k k' : Tally) (n : BitVec 32) : Prop := ∀ q < 8, k'.x q = if q = 7 then k.x 7 + n else k.x q

/-- An instruction of a Tally core is done: `d` takes `v`, if it takes anything, the flags are `fl`, the pc moves on, the
prefixes are gone, STEPS counts `n` steps, and nothing else changes, in the core or outside it. -/
def State.tallyGives (s : State) (cpu : TallyCpu) (n : BitVec 32) (d : TReg) (v : Option (BitVec 32)) (fl : BitVec 4)
    (t : State) : Prop :=
  t = s.modTally cpu (fun _ => t.tally cpu) ∧
  t.tally cpu = { s.tally cpu with regs := (t.tally cpu).regs, xregs := (t.tally cpu).xregs, pc := (s.tally cpu).pc + 1,
                                   prefixN := 0, prefixE := 0 } ∧
  (∀ r : TReg, (t.tally cpu).t r = if r = d then v.getD ((s.tally cpu).t d) else (s.tally cpu).t r) ∧
  (t.tally cpu).x 0 = ((s.tally cpu).x 0 &&& 0xFFFFFFF0) ||| fl.zeroExtend 32 ∧
  ∀ q < 8, q ≠ 0 → (t.tally cpu).x q = if q = 7 then (s.tally cpu).x 7 + n else (s.tally cpu).x q

/-- A LINEAR11 word, `y` times two to the power `e`, reads as the largest value it can write that is not above num / den
(R459; the layout of LINEAR11 is PRESUMED). -/
def linearReads (w : BitVec 16) (num : Int) (den : Nat) : Prop :=
  let e := signedOf 5 (w.toNat / 2 ^ 11)
  let y := signedOf 11 (w.toNat % 2 ^ 11)
  if 0 ≤ e then y * 2 ^ e.toNat * den ≤ num ∧ num < (y + 1) * 2 ^ e.toNat * den
  else y * den ≤ num * 2 ^ (-e).toNat ∧ num * 2 ^ (-e).toNat < (y + 1) * den

/-! ## ZIS instructions -/

/-- The low 32 bits under W, all 64 otherwise (R180). -/
def wBits (w : Bool) : Nat := if w then 32 else 64

/-- A result at the width of the operation, sign-extended to 64 bits (R180). -/
def narrowed (w : Bool) (v : Int) : Word := BitVec.ofInt 64 (signedOf (wBits w) (encSigned (wBits w) v))

/-- An operand at the width of the operation, unsigned and signed. -/
def uOp (w : Bool) (x : Word) : Nat := x.toNat % 2 ^ wBits w
def sOp (w : Bool) (x : Word) : Int := signedOf (wBits w) x.toNat

/-- N and Z of a result at the width of the operation, with the C and V given (R161, R162). -/
def flagsOf (w : Bool) (r : Word) (c v : Bool) : BitVec 4 :=
  mkFlags (decide (2 ^ (wBits w - 1) ≤ uOp w r)) (uOp w r == 0) c v

/-- The flags of a sum: C the carry out, V where the exact signed sum is not the result (R162). -/
def flagsSum (w : Bool) (x y : Word) (cin : Bool) : BitVec 4 :=
  let r := narrowed w (x.toNat + y.toNat + cin.toNat)
  flagsOf w r (decide (2 ^ wBits w ≤ uOp w x + uOp w y + cin.toNat)) (decide (sOp w x + sOp w y + cin.toNat ≠ sOp w r))

/-- The flags of a difference: C where nothing is borrowed, V as for a sum (R162). -/
def flagsDiff (w : Bool) (x y : Word) (borrow : Bool) : BitVec 4 :=
  let r := narrowed w (x.toNat - y.toNat - borrow.toNat)
  flagsOf w r (decide (uOp w y + borrow.toNat ≤ uOp w x)) (decide (sOp w x - sOp w y - borrow.toNat ≠ sOp w r))

/-- What an instruction of an agent meets before its own work: its fetch, and then `m`, the exchange of the slots it
needs (R139, R206, R464), or, on a thread, the posted stores that are performed first (R465); `none` where that does not
end well. -/
def State.openedBy (s : State) (a : Agent) (len : Nat) (m : Z Unit) : Option State :=
  match a with
  | .core c =>
    match (do fetchCore c.val len; m : Z Unit).run ((s.traceBegin c.val).startReads c.val) with
    | .ok _ u => some u
    | .error _ _ => none
  | .thread t =>
    let u := s.threadSome t.val
    if ownImem t.val (u.thread t.val).pc.toNat len then some u else none

/-- A core issues its next instruction, of a length, in `s`; no debug event meets it, no full trace buffer holds it (R550),
and the core still runs in `u`. -/
def State.coreMeets (s : State) (c : CoreId) (len : Nat) (u : State) : Prop :=
  s.coreIssues c.val = true ∧ s.traceRoom c.val = true ∧ (s.core c.val).stepping = false ∧
  (u.core c.val).dbgHit = [] ∧ (u.core c.val).run = .running ∧ (u.core c.val).slot = (s.core c.val).slot ∧
  (u.core c.val).arch.csf CsFld.SSTAT_DEFER = (s.core c.val).arch.csf CsFld.SSTAT_DEFER ∧
  ((s.core c.val).skipCmp = true ∨ (s.core c.val).arch.cmpList 1 (s.core c.val).arch.pc len = [])

/-- An agent's next instruction, of a length and with the slots that `m` exchanges, finds its operands in `u`: the agent
issues, and no debug event meets the instruction. -/
def State.zisMeets (s : State) (a : Agent) (len : Nat) (m : Z Unit) (u : State) : Prop :=
  s.openedBy a len m = some u ∧
  match a with
  | .core c => s.coreMeets c len u
  | .thread t => s.threadIssues t.val = true ∧ s.brkHits t.val = false ∧ (u.thread t.val).run ≠ .stopped ∧
      (u.thread t.val).stepping = false ∧ (u.thread t.val).slot = (s.thread t.val).slot

/-- The agent's delay slot: the branch's address and where control goes after the slot. -/
def State.slotOf (s : State) : Agent → Option (BitVec 48 × Option (BitVec 48))
  | .core c => (s.core c.val).slot
  | .thread t => (s.thread t.val).slot

/-- The same for an instruction that stands in no delay slot and uses the registers given. -/
def State.zisReady (s : State) (a : Agent) (len : Nat) (rs : List Reg5) (u : State) : Prop :=
  s.zisMeets a len (rs.forM (useReg a)) u ∧ s.slotOf a = none

/-- The registers of an agent take the values listed, a write of g0 being discarded; every other register, of its window
and of every other, stays; a slot of the S ring whose register was written is DIRTY, and the other tags stay (R142,
R203). -/
def State.regsTake (u t : State) (a : Agent) (l : List (Reg5 × Word)) : Prop :=
  (∀ r : Reg5, t.regVal a r = if r = 0 then 0 else (l.lookup r).getD (u.regVal a r)) ∧
  match a with
  | .core c =>
    let x := (u.core c.val).arch
    let y := (t.core c.val).arch
    (∀ i, (∀ r : Reg5, r ≠ 0 → x.regAt r ≠ i) → FMap.get y.rf 0 i = FMap.get x.rf 0 i) ∧
    (∀ k, y.tag k = if l.any (fun p => decide (8 ≤ p.1.toNat) && x.mode != 2 && (winReg 12 (x.cur false) p.1).1 == k)
      then { x.tag k with st := .dirty } else x.tag k)
  | .thread n => ∀ i, (∀ r : Reg5, r ≠ 0 → (u.thread n.val).regAt r ≠ i) →
      FMap.get (t.thread n.val).rf 0 i = FMap.get (u.thread n.val).rf 0 i

/-- Core system registers but those listed, and but the performance counters, stay. -/
def CoreArch.sysKept (x y : CoreArch) (l : List Nat) : Prop :=
  ∀ n < 4096, n < 0x300 ∨ (0x307 < n ∧ n ≠ 0x311) → n ∉ l → y.cs 0 n = x.cs 0 n

/-- A reservation stands on the same granule, or on none; no hold begins (R332). -/
def resvKept (x y : Option Resv) : Prop :=
  y.map (·.granule) = x.map (·.granule) ∧ ∀ r, y = some r → r.hold = true → ∃ r', x = some r' ∧ r'.hold = true

/-- `n` instructions of a core retire, and nothing outside the core changes but the count of free values and, for a member
of a group, the checker's record of it; in the core, what instructions read and write, the predictor and the notes on what
was read ahead may change, the system registers but for those listed stay, and so do its caches, its TLBs, its store buffer
and the lines it has read ahead. -/
def State.coreRetires (u t : State) (c : CoreId) (n : Nat) (l : List Nat) : Prop :=
  t = { u.modCore c.val (fun k => { t.core c.val with
      run := (t.core c.val).run, sb := k.sb, itlb := k.itlb, dtlb := k.dtlb, tlb := k.tlb, wcache := k.wcache,
      tlbis := k.tlbis, tlbiWait := k.tlbiWait, tlbiSent := none, l1i := k.l1i, l1d := k.l1d, l1Bad := k.l1Bad, l2 := k.l2,
      early := k.early, clock := k.clock, det1 := k.det1, det2 := k.det2, mchecks := k.mchecks, halted := k.halted,
      stepping := k.stepping, stepInt := k.stepInt, romPark := k.romPark, lvlHeld := k.lvlHeld, woken := false,
      haltDue := k.haltDue, retired := k.retired + n, dbgHit := [], skipCmp := false, l1iBad := k.l1iBad, adMade := [],
      exchN := 0, frameSt := 0, llWait := none }) with
      groups := t.groups, free := t.free } ∧
  (u.core c.val).arch.sysKept (t.core c.val).arch l ∧
  (u.groupOf c.val = none → t.groups = u.groups ∧
    (t.core c.val).mem = { (u.core c.val).mem with count := (u.core c.val).mem.count + n })

/-- One instruction of an agent retires, and nothing changes but its pc, its fl, its registers, the system registers
listed, what counts it, and for a member of a group the checker's record of it. -/
def State.zisRetires (u t : State) (a : Agent) (l : List Nat) : Prop :=
  match a with
  | .core c =>
    u.coreRetires t c 1 l ∧
    resvKept (u.core c.val).resv (t.core c.val).resv ∧
    t.core c.val = { t.core c.val with
      run := (u.core c.val).run, slot := (u.core c.val).slot, ghr := (u.core c.val).ghr, ras := (u.core c.val).ras,
      btb := (u.core c.val).btb, ibp := (u.core c.val).ibp, dir := (u.core c.val).dir, brCkpts := (u.core c.val).brCkpts,
      brMiss := (u.core c.val).brMiss, trace := (u.core c.val).trace,
      arch := { (t.core c.val).arch with
        mode := (u.core c.val).arch.mode, wsaveP := (u.core c.val).arch.wsaveP, wctxP := (u.core c.val).arch.wctxP,
        deferN := (u.core c.val).arch.deferN + (u.core c.val).arch.csf CsFld.SSTAT_DEFER } }
  | .thread n =>
    t = u.modThread n.val (fun k => { k with pc := (t.thread n.val).pc, fl := (t.thread n.val).fl,
                                             rf := (t.thread n.val).rf, skipBrk := false, early := none,
                                             slots := k.slots + 1 })

/-- A branch of an agent is done: the pc is at the target, `n` instructions have retired, the registers and fl stay, the
outcome of a conditional branch has entered the global history, and nothing else changes but the core's trace and what its
predictor has learnt (R158, R221, R546). -/
def State.branches (u : State) (a : Agent) (n : Nat) (taken : Option Bool) (target : BitVec 48) (t : State) : Prop :=
  t.pcVal a = target ∧ t.flVal a = u.flVal a ∧ u.regsTake t a [] ∧
  match a with
  | .core c => u.coreRetires t c n [] ∧
      resvKept (u.core c.val).resv (t.core c.val).resv ∧
      t.core c.val = { t.core c.val with
        run := (u.core c.val).run, slot := none, ras := (u.core c.val).ras,
        ghr := (match taken with
          | none => (u.core c.val).ghr
          | some b => ((u.core c.val).ghr <<< 1) ||| (BitVec.ofBool b).zeroExtend 160),
        arch := { (u.core c.val).arch with
          pc := target, sys := (t.core c.val).arch.sys
          deferN := (u.core c.val).arch.deferN + n * (u.core c.val).arch.csf CsFld.SSTAT_DEFER } }
  | .thread i => t = u.modThread i.val (fun k => { k with pc := target, slot := none, skipBrk := false, early := none,
                                                          slots := k.slots + 1 })

/-- An instruction of a core that has come to `u` waits: nothing that it has made stays, its trace as little (R227). -/
def State.waits (s u : State) (c : CoreId) (t : State) : Prop :=
  let q := (s.traceBegin c.val).unmade u c.val
  t = { q with cores := t.cores } ∧ (∀ d, d ≠ c.val → t.core d = q.core d) ∧
  t.core c.val = { q.core c.val with trace := (s.core c.val).trace, llWait := none }

/-- The state once a core's retired stores, or a thread's posted ones, are performed (R317, R465). -/
def State.drained (u : State) : Agent → State
  | .core c => u.drainSb c.val
  | .thread t => u.threadRest t.val

/-- The state once nothing that a core has read ahead of its order serves a load any longer (R314, R316), or a thread's posted
stores are performed (R463). -/
def State.barred (u : State) : Agent → State
  | .core c => u.endEarly c.val
  | .thread t => u.threadRest t.val

/-- After the stores that `x` has performed and `u` has not, the agent's instruction goes on. -/
def State.calmAfter (u x : State) : Agent → Prop
  | .core c => (x.core c.val).run = .running ∧ (x.core c.val).slot = none ∧ (x.core c.val).dbgHit = [] ∧
      (x.core c.val).stepping = false ∧
      (x.core c.val).arch.csf CsFld.SSTAT_DEFER = (u.core c.val).arch.csf CsFld.SSTAT_DEFER
  | .thread t => (x.thread t.val).run ≠ .stopped ∧ (x.thread t.val).slot = none ∧ (x.thread t.val).stepping = false

/-- The slots of the trap window that an entry to S opens carry the current context (R206). -/
def trapSlots (c : CoreId) : Z Unit := do
  ensureWindow c.val ((((← get).core c.val).arch.cur false + 1) % 12)

/-- A core's next instruction, once `m` has followed its fetch, raises an exception to S or, with `h`, to H: what it has made
is undone (R227), no store waits for another core's hold (R247, R332), and in `u` the trap window that an entry to S opens
carries the current context (R206). -/
def State.zisRaises (s : State) (c : CoreId) (len : Nat) (m : Z Unit) (h : Bool) (u : State) : Prop :=
  s.slotOf (.core c) = none ∧
  ∃ p, s.openedBy (.core c) len m = some p ∧ ((s.traceBegin c.val).unmade p c.val).drainBlocked c.val = false ∧
    (if h then pure () else trapSlots c).run ((s.traceBegin c.val).unmade p c.val) = .ok () u ∧ s.coreMeets c len u

/-- A core's `trap` finds `u` so: its entry follows the instruction, whose fetch stands (R244). -/
def State.zisTraps (s : State) (c : CoreId) (len : Nat) (h : Bool) (u : State) : Prop :=
  s.zisMeets (.core c) len (if h then pure () else trapSlots c) u ∧ s.slotOf (.core c) = none ∧
  ∀ p, s.openedBy (.core c) len (pure ()) = some p → p.drainBlocked c.val = false

/-- A core has entered S or H (R241 to R244): what is saved, the enable, DEFER, the trap window, the mode and the pc; the
registers, fl and the other mode's registers stay. -/
def State.entered (u : State) (c : CoreId) (h : Bool) (x : Exc) (pc : BitVec 48) (t : State) : Prop :=
  let a := (u.core c.val).arch
  let b := (t.core c.val).arch
  b.mode = (if h then 2 else 1) ∧ (t.core c.val).slot = none ∧ (t.core c.val).resv = none ∧
  b.pc = BitVec.ofNat 48 ((if h then a.csf CsFld.HVBASE_BASE else a.csf CsFld.VBASE_BASE) * 4096 + 64 * x.vec) ∧
  b.csf CsFld.SSTAT_DEFER = 0 ∧ b.wsaveP = none ∧ b.wctxP = none ∧
  b.tw h = 1 ∧ b.cur h = (a.cur h + 1) % ringN h ∧ b.twp h = b.cur h ∧ b.floor h = a.floor h ∧
  b.cur (!h) = a.cur (!h) ∧ b.tw (!h) = a.tw (!h) ∧
  b.fl = a.fl ∧ b.rf = a.rf ∧ b.q = a.q ∧ b.tags = a.tags ∧
  (h = true → b.csf CsFld.HEPC_PC = pc.toNat / 2 ∧ b.csf CsFld.HADDR_ADDR = x.addr.toNat ∧
    b.csf CsFld.HCAUSE_VEC = x.vec ∧ b.csf CsFld.HCAUSE_DETAIL = x.detail ∧ b.csf CsFld.HCAUSE_TRAPNO = x.trapno ∧
    b.csf CsFld.HCAUSE_INT = bit x.int ∧ b.csf CsFld.HCAUSE_RIPV = bit x.ripv ∧ b.csf CsFld.HCAUSE_EIPV = bit x.eipv ∧
    b.csf CsFld.HSTAT_PM = a.mode.toNat ∧ b.csf CsFld.HSTAT_PIE = a.csf CsFld.HSTAT_HIE ∧ b.csf CsFld.HSTAT_HIE = 0 ∧
    b.csf CsFld.HSTAT_FL = a.fl.toNat ∧ b.csf CsFld.SEPC_PC = a.csf CsFld.SEPC_PC ∧ b.cs 0 0x012 = a.cs 0 0x012 ∧
    b.cs 0 0x013 = a.cs 0 0x013 ∧ b.csf CsFld.SSTAT_SIE = a.csf CsFld.SSTAT_SIE) ∧
  (h = false → b.csf CsFld.SEPC_PC = pc.toNat / 2 ∧ b.csf CsFld.SADDR_ADDR = x.addr.toNat ∧
    b.csf CsFld.SCAUSE_VEC = x.vec ∧ b.csf CsFld.SCAUSE_DETAIL = x.detail ∧ b.csf CsFld.SCAUSE_TRAPNO = x.trapno ∧
    b.csf CsFld.SCAUSE_INT = bit x.int ∧
    b.csf CsFld.SSTAT_PM = a.mode.toNat ∧ b.csf CsFld.SSTAT_PIE = a.csf CsFld.SSTAT_SIE ∧ b.csf CsFld.SSTAT_SIE = 0 ∧
    b.csf CsFld.SSTAT_FL = a.fl.toNat ∧ b.cs 0 0x020 = a.cs 0 0x020 ∧ b.cs 0 0x021 = a.cs 0 0x021 ∧
    b.cs 0 0x022 = a.cs 0 0x022 ∧ b.cs 0 0x023 = a.cs 0 0x023) ∧
  (∀ d, d ≠ c.val → (t.core d).arch = (u.core d).arch) ∧
  ((u.core c.val).sb = [] → (u.core c.val).adMade = [] → u.groupOf c.val = none → t = { u with cores := t.cores })

/-- A thread has faulted before its instruction: its posted stores performed, FAULT, the record of it, and the pc of the
instruction, or of the branch whose slot it is (R468). -/
def State.faulted (u : State) (n : ThreadId) (cause addr trapno : Nat) (t : State) : Prop :=
  (t.thread n.val).run = .fault ∧ t.fld Fld.SP_FAULT_CAUSE n.val = cause ∧
  t.fld Fld.SP_FAULT_PC n.val =
    ((((u.threadRest n.val).thread n.val).slot.map Prod.fst).getD ((u.threadRest n.val).thread n.val).pc).toNat / 2 ∧
  t.fld Fld.SP_FAULT_TRAPNO n.val = trapno ∧ (3 ≤ cause ∧ cause ≤ 7 → t.fld Fld.SP_FADDR_ADDR n.val = addr) ∧
  t.fld Fld.SP_THR_STATE n.val = 3 ∧ (t.thread n.val).slot = none ∧
  (t.thread n.val).rf = ((u.threadRest n.val).thread n.val).rf ∧
  (∀ m, m ≠ n.val → t.thread m = (u.threadRest n.val).thread m) ∧ t.mem = (u.threadRest n.val).mem

/-- An integer instruction is done: the registers listed take their values, fl is as given, the pc has moved on, and
nothing else has changed (R161, R179). -/
def State.zisGives (u : State) (a : Agent) (len : Nat) (l : List (Reg5 × Word)) (fl : BitVec 4) (t : State) : Prop :=
  t.pcVal a = u.pcVal a + BitVec.ofNat 48 len ∧ t.flVal a = fl ∧ u.regsTake t a l ∧ u.zisRetires t a [] ∧
  match a with
  | .core c => (t.core c.val).arch.q = (u.core c.val).arch.q
  | .thread _ => True

/-- A VF operation of a core is done: every lane of qd takes a result, the bits above the lanes are clear, the flags the
lanes raise are set in cs.FPCSR, the pc has moved on, and nothing else has changed (R186, R188, R189). -/
def State.fpGives (u : State) (c : CoreId) (ty : VTy) (qd : Reg5) (f : Nat → FpRes) (t : State) : Prop :=
  t.pcVal (.core c) = u.pcVal (.core c) + 4 ∧ t.flVal (.core c) = u.flVal (.core c) ∧ u.regsTake t (.core c) [] ∧
  u.zisRetires t (.core c) [1] ∧
  (∀ r : Reg5, r ≠ qd → t.qVal c r = u.qVal c r) ∧
  (∀ i < tyLanes ty, lane (t.qVal c qd) (tyWidth ty) i = (f i).1 % 2 ^ tyWidth ty) ∧
  (t.qVal c qd).toNat < 2 ^ (tyWidth ty * tyLanes ty) ∧
  (t.core c).arch.cs 0 1 = ((List.range (tyLanes ty)).foldl (fun w i => w ||| ((f i).2.zeroExtend 64 <<< 8))
    ((u.core c).arch.cs 0 1))

/-- A VF operation that works on all 256 bits of a register. -/
def State.qGives (u : State) (c : CoreId) (qd : Reg5) (v : QWord) (t : State) : Prop :=
  t.pcVal (.core c) = u.pcVal (.core c) + 4 ∧ t.flVal (.core c) = u.flVal (.core c) ∧ u.regsTake t (.core c) [] ∧
  u.zisRetires t (.core c) [] ∧ ∀ r : Reg5, t.qVal c r = if r = qd then v else u.qVal c r

/-- The value of a number in units of 2 to the power `k` lies where rounding by RM puts it: (−1)^neg × m × 2^e between
the multiples q and q + 1, in magnitude (R188). -/
def roundsWell (rm : Nat) (neg : Bool) (m d q r : Nat) : Prop :=
  (m % d = 0 → r = m / d) ∧ q = m / d ∧
  (m % d ≠ 0 →
    (rm = 0 → (2 * (m % d) < d → r = q) ∧ (d < 2 * (m % d) → r = q + 1) ∧ (2 * (m % d) = d → r % 2 = 0 ∧ (r = q ∨ r = q + 1))) ∧
    (rm = 1 → r = q) ∧ (rm = 2 → r = if neg then q else q + 1) ∧ (rm = 3 → r = if neg then q + 1 else q))

/-! ### Accesses to memory -/

/-- The registers that form an address, the address, and the base with its updated value (R169). -/
def memRegs : MemMode → List Reg5
  | .disp _ b _ => [b]
  | .index b i _ => [b, i]
  | .postInc _ b => [b]
  | .preDec _ b => [b]

def State.memAt (u : State) (a : Agent) (m : MemMode) (size : Nat) : Word :=
  match m with
  | .disp _ b d => u.regVal a b + BitVec.ofInt 64 d.toInt
  | .index b i k => u.regVal a b + u.regVal a i * BitVec.ofNat 64 (2 ^ k.toNat)
  | .postInc _ b => u.regVal a b
  | .preDec _ b => u.regVal a b - BitVec.ofNat 64 size

def State.memBase (u : State) (a : Agent) (m : MemMode) (size : Nat) : List (Reg5 × Word) :=
  match m with
  | .disp _ _ _ => []
  | .index _ _ _ => []
  | .postInc _ b => [(b, u.regVal a b + BitVec.ofNat 64 size)]
  | .preDec _ b => [(b, u.regVal a b - BitVec.ofNat 64 size)]

/-- The form is not one that R171 makes illegal for a load to `rt`: an update of g0, or of the destination. -/
def memFits (m : MemMode) (rt : Option Reg5) : Bool :=
  match m with
  | .disp _ _ _ => true
  | .index _ _ _ => true
  | .postInc _ b => b != 0 && rt != some b
  | .preDec _ b => b != 0 && rt != some b

/-- What an access of an agent reads at an address, and what it writes: every part translated and checked before the
first is performed (R170, R234, R464). -/
def agentReads (a : Agent) (size : Nat) (ea : Word) : Z Nat :=
  match a with
  | .core c => do pure (← coreReads c size ea (← coreLoadParts c size ea)).1
  | .thread t => threadReads t size ea

def agentWrites (a : Agent) (size v : Nat) (ea : Word) : Z Unit :=
  match a with
  | .core c => do coreWrites c size v ea (← coreStoreParts c size ea)
  | .thread t => threadWrites t size v ea

/-- The agent is a core outside any group, or a thread. -/
def State.lone (u : State) : Agent → Prop
  | .core c => u.groupOf c.val = none
  | .thread _ => True

/-- After the access, in `x`, its agent goes on, and no data comparator waits for it (R559). -/
def State.met (u x : State) (a : Agent) (kind : Nat) (ea : Word) (size : Nat) : Prop :=
  u.calmAfter x a ∧ x.lone a ∧
  match a with
  | .core c => (x.core c.val).arch.cmpList kind (ea.truncate 48) size = []
  | .thread _ => True

/-- A core loses the entries of its TLBs, walk cache and predictor that an invalidation names, and with `all` its direction
tables (R225, R275). -/
def Core.tlbLess (k : Core) (gone : TlbEntry → Bool) (table : WalkEntry → Bool) (old : Nat → Bool) (all : Bool) : Core :=
  { k with
    itlb := k.itlb.filter (fun e => !gone e), dtlb := k.dtlb.filter (fun e => !gone e), tlb := k.tlb.filter (fun e => !gone e),
    wcache := k.wcache.filter (fun e => !table e), ras := k.ras.filter (fun e => !old e.2),
    brCkpts := k.brCkpts.map (fun b => { b with ras := b.ras.filter (fun e => !old e.2) }),
    btb := k.btb.filter (fun e => !old e.ctx), ibp := k.ibp.filter (fun e => !old e.ctx), dir := if all then [] else k.dir }

/-- The registers have been read, in order (R314). -/
def State.noted (u : State) (a : Agent) (rs : List Reg5) : State := rs.foldl (fun s r => s.noteReg a r) u

/-- A load to a q register is done. -/
def State.qLoads (x : State) (c : CoreId) (len : Nat) (qd : Reg5) (v : Nat) (l : List (Reg5 × Word)) (t : State) : Prop :=
  t.pcVal (.core c) = x.pcVal (.core c) + BitVec.ofNat 48 len ∧ t.flVal (.core c) = x.flVal (.core c) ∧
  x.regsTake t (.core c) l ∧ x.zisRetires t (.core c) [] ∧
  ∀ r : Reg5, t.qVal c r = if r = qd then BitVec.ofNat 256 v else x.qVal c r

/-- A byte of memory as a core sees it: in its youngest store to it, or as every agent does (R315, R323). -/
def State.seenBy (w : State) (c a : Nat) : Byte :=
  match (w.core c).sb.reverse.find? (fun e => e.meets a 1) with
  | some e => BitVec.ofNat 8 (e.data.toNat / 256 ^ (a - e.addr))
  | none => w.peekByte a

/-- Where burst `k` of a pattern run lies in the stacks, and what its beat `b` holds there on DQ lane `l` (R402). -/
def State.runPlace (s : State) (p k : Nat) : Nat := p / 16 * 0x600000000 + pcaToSa p (s.runPca p k)
def State.runBit (s : State) (p k b l : Nat) : Bool := (BMap.readLE s.mem (s.runPlace p k + 8 * b) 8).testBit l

/-- A line of HBM that no cache holds and no injection meets, whose controller runs, whose firewall lets the request pass
and that no mirrored region covers (R392, R411, R415). -/
def State.plainLine (s : State) (pa : Nat) (q : FwReq) (write : Bool) : Prop :=
  s.l2Holders (pa / 64) = [] ∧ s.llcFind (pa / 64) = none ∧ s.hbmRun (s.hbmCtl pa) = true ∧
  s.flag Fld.MC_INJ_ARM (s.hbmCtl pa) = false ∧ s.fwPermits false (s.hbmCtl pa) pa q write = true ∧
  s.mirOf (s.hbmPlace pa).1 (s.hbmPlace pa).2 = none ∧ q.sec = false

/-- A byte that an access of `src` meets with no refusal, no error and no write allocation (R287, R424): in an HBM line that
is plain and holds no error, or in a Granary bank that is open to `src` and holds none. -/
def State.openByte (s : State) (src : Src) (write : Bool) (a : Nat) : Prop :=
  (isHbm a = true ∧ s.plainLine a (s.fwReq src true a) write ∧ s.rawPoison (s.hbmLoc (a / 64 * 64)) = 0 ∧
    s.soundLine (s.hbmLoc (a / 64 * 64)) = true ∧ (srcAllocates src = false ∨ write = false)) ∨
  (isGranary a = true ∧ s.islOpen 22 = true ∧ s.granOpen (granBank a) src write = true ∧ s.granBad = [] ∧
    s.flag Fld.ER_INJ_ARM 244 = false ∧
    s.fwPermits true (granBank a) a { src := some (srcId src), sec := s.accSecure src a } write = true)

/-- The `n` bytes at `a` that every agent sees, as a little-endian number. -/
def State.peekLE (s : State) (a n : Nat) : Nat := (List.range n).foldr (fun i v => (s.peekByte (a + i)).toNat + 256 * v) 0

/-- The Cocoon's firmware runs and serves, in mailbox `m`, a call of the service `code` that has not expired, from a caller
that is not secure (R524, R526). -/
def State.ckCalled (s : State) (m code : Nat) : Prop :=
  s.ckState m = 2 ∧ s.ckServing m code = true ∧ s.cocoon.run = .running ∧ (s.ckSlot m).sec = false

/-- A Cocoon call has been completed before its expiry, with a status and the reply's first words; the words after them
keep the request (R525). -/
def State.ckAnswered (s t : State) (m status : Nat) (ws : List Word) : Prop :=
  t.ckState m = 3 ∧ t.fld Fld.CK_STAT_STATUS m = status ∧ (t.ckSlot m).taken = false ∧
  ∀ i < 8, t.csrGet .CK_MSG (8 * m + i) = ws.getD i (s.csrGet .CK_MSG (8 * m + i))

/-- The bytes of a buffer outside the staging words, and whether the Cocoon, with NS = 1, may read or write them (R526). -/
def State.ckBytes (s : State) (pa n : Nat) : List Byte := (List.range n).map (fun k => s.peekByte (pa + k))
def State.ckMayUse (s : State) (write : Bool) (pa n : Nat) : Prop :=
  ∀ k < n, ({ s with capNs := true }).openByte .cocoon write (pa + k)

/-- A run of `n` steps goes on to its end. -/
def State.runsOn : Nat → State → Prop
  | 0, _ => True
  | n + 1, s => ∃ t, step s = .next t ∧ t.runsOn n

end Sys2Proof.Machine
end

