-- ==== Sys2Proof/Certificates/Slice0/Obligations.lean ====
section
/-!
DEFINITION. The statements for the provers: what the commands of every family do, what a step is, and what every step
keeps.
-/

open Sys2Proof Sys2Proof.Machine

/-- R97, R99, R100, R104, R105: what the writes to the time block's registers do, from a live source with island A open.
TB_SLEW and TB_ADDEND are performed for the Reeve whatever TB_XGATE holds, and for another source while it is OPEN. -/
def Obligations.BellRegisterWrites : Prop :=
  ∀ (s : State) (src : Src) (v : Word), s.srcLive src = true → s.islOpen 23 = true →
  s.does (.secsetWrite src v) (fun t =>
    t.fld Fld.TB_SECSET_SEC 0 = Fld.TB_SECSET_SEC.of v ∧ t.fld Fld.TB_SECSET_PENDING 0 = 1 ∧
    s.onlyRegs t [(.TB_SECSET, 0), (.TB_XGATE, 0)]) ∧
  s.does (.tbCtlWrite src v) (fun t =>
    t.fld Fld.TB_CTL_PPSIN_EN 0 = Fld.TB_CTL_PPSIN_EN.of v ∧ t.fld Fld.TB_CTL_PPS_POL 0 = Fld.TB_CTL_PPS_POL.of v ∧
    t.fld Fld.TB_CTL_REFSEL 0 = (if Fld.TB_CTL_REFSEL.of v ≤ 1 then Fld.TB_CTL_REFSEL.of v else s.fld Fld.TB_CTL_REFSEL 0) ∧
    t.fld Fld.TB_CTL_DISC 0 = (if Fld.TB_CTL_DISC.of v ≤ 1 then Fld.TB_CTL_DISC.of v else s.fld Fld.TB_CTL_DISC 0) ∧
    (Fld.TB_CTL_DISC.of v ≤ 1 → t.flag Fld.TB_STAT_XOVR 0 = false) ∧
    (Fld.TB_CTL_REFSEL.of v ≤ 1 → t.bell.onRefclk = (Fld.TB_CTL_REFSEL.of v == 1)) ∧
    t.csrGet .TB_ADDEND 0 = (if t.flag Fld.TB_STAT_HOLDOVER 0 = true ∧ t.flag Fld.TB_STAT_XOVR 0 = false then
        withBits (s.csrGet .TB_ADDEND 0) Fld.TB_ADDEND_ADDEND.hi Fld.TB_ADDEND_ADDEND.lo s.meanAddend
      else s.csrGet .TB_ADDEND 0) ∧
    t.bell.acc = s.bell.acc ∧ s.onlyBell t [(.TB_CTL, 0), (.TB_STAT, 0), (.TB_ADDEND, 0), (.TB_XGATE, 0)]) ∧
  (src = .reeve ∨ s.gateState .TB_ADDEND 0 = 2 →
    s.does (.addendWrite src v) (fun t =>
      t.fld Fld.TB_ADDEND_ADDEND 0 = min (max v.toNat 46107636812) 46126083556 ∧
      (src ≠ .reeve → t.flag Fld.TB_STAT_XOVR 0 = true) ∧
      s.onlyRegs t [(.TB_ADDEND, 0), (.TB_STAT, 0), (.TB_XGATE, 0)]) ∧
    s.does (.slew src v) (fun t =>
      t.bell.slewRem = signedOf 32 (Fld.TB_SLEW_AMOUNT.of v) * 2 ^ 32 ∧
      t.fld Fld.TB_SLEW_AMOUNT 0 = Fld.TB_SLEW_AMOUNT.of v ∧
      t.flag Fld.TB_STAT_SLEW_BUSY 0 = (Fld.TB_SLEW_AMOUNT.of v != 0) ∧ t.fld Fld.TB_SLEW_STATUS 0 = 0 ∧
      t.bell.acc = s.bell.acc ∧ s.onlyBell t [(.TB_SLEW, 0), (.TB_STAT, 0), (.TB_XGATE, 0)]) ∧
    (s.islState 21 ≠ 1 ∧ (∀ j, j < 25 → j ≠ 21 → s.fld Fld.PW_RCTL_MODE j ≠ 2) →
      s.does (.immediateStep src v) (fun t =>
        (t.bell.acc.toNat : Int) = ((s.bell.acc.toNat : Int) + signedOf 32 (Fld.TB_SLEW_AMOUNT.of v) * 2 ^ 32) % 2 ^ 112 ∧
        t.bell.slewRem = 0 ∧ t.fld Fld.TB_SLEW_AMOUNT 0 = 0 ∧ t.flag Fld.TB_STAT_SLEW_BUSY 0 = false ∧
        t.fld Fld.TB_NOW_HI_GEN 0 = (s.fld Fld.TB_NOW_HI_GEN 0 + 1) % 2 ^ 16 ∧ t.fld Fld.TB_SLEW_STATUS 0 = 0 ∧
        s.onlyBell t [(.TB_SLEW, 0), (.TB_STAT, 0), (.TB_NOW_HI, 0), (.TB_XGATE, 0)])) ∧
    (s.islState 21 = 1 →
      s.does (.immediateStep src v) (fun t =>
        t.fld Fld.TB_SLEW_STATUS 0 = 0x07 ∧ s.onlyRegs t [(.TB_SLEW, 0), (.TB_XGATE, 0)]))) ∧
  (src ≠ .reeve → s.gateState .TB_ADDEND 0 ≠ 2 →
    s.does (.addendWrite src v) (fun t =>
      t.flag Fld.TB_XGATE_DENIED 0 = true ∧ s.onlyRegs t [(.TB_XGATE, 0)]))

/-- R93, R97, R98, R101, R103, R106: what happens as bell time passes, each event named by its command, with TB_ADDEND
within the limits of R100.  The counter runs on to the event: that is the model's choice for a command that names an event
in time (assumption log 20); so is what counts as bell time since an edge (313) and the rounding of the mean (311). -/
def Obligations.BellEvents : Prop :=
  ∀ (s : State) (cycles : Nat) (part : BitVec 32) (rising : Bool), s.clockRuns = true →
  46107636812 ≤ s.fld Fld.TB_ADDEND_ADDEND 0 → s.fld Fld.TB_ADDEND_ADDEND 0 ≤ 46126083556 →
  (s.flag Fld.TB_SECSET_PENDING 0 = true → s.does .secondsLoad (fun t =>
    t.flag Fld.TB_SECSET_PENDING 0 = false ∧ t.bell.acc.toNat / 2 ^ 64 = s.fld Fld.TB_SECSET_SEC 0 ∧
    t.fld Fld.TB_NOW_HI_GEN 0 = (s.fld Fld.TB_NOW_HI_GEN 0 + 1) % 2 ^ 16 ∧
    s.onlyBell t [(.TB_SECSET, 0), (.TB_NOW_HI, 0), (.TB_SLEW, 0), (.TB_STAT, 0)])) ∧
  (s.bell.slewRem ≠ 0 → s.does .slewDone (fun t =>
    t.bell.slewRem = 0 ∧ t.fld Fld.TB_SLEW_AMOUNT 0 = 0 ∧ t.flag Fld.TB_STAT_SLEW_BUSY 0 = false ∧
    (s.flag Fld.TB_SECSET_PENDING 0 = false → t.fld Fld.TB_NOW_HI_GEN 0 = s.fld Fld.TB_NOW_HI_GEN 0) ∧
    s.onlyBell t [(.TB_SECSET, 0), (.TB_NOW_HI, 0), (.TB_SLEW, 0), (.TB_STAT, 0)])) ∧
  (s.bell.onRefclk = true → (∃ r < 4, s.recValid 249 r = false) → s.does .refclkLoss (fun t =>
    t.bell = { s.bell with onRefclk := false } ∧ t.flag Fld.TB_STAT_REF_LOST 0 = true ∧
    t.fld Fld.TB_CTL_REFSEL 0 = s.fld Fld.TB_CTL_REFSEL 0 ∧
    (∃ r < 4, t.recValid 249 r = true ∧ t.fld Fld.ER_STATUS_SEV (4 * 249 + r) = 0 ∧
      t.fld Fld.ER_STATUS_TYPE (4 * 249 + r) = 0x33))) ∧
  (s.flag Fld.TB_CTL_PPSIN_EN 0 = true → rising = !s.flag Fld.TB_CTL_PPS_POL 0 →
    ∀ u g, u = s.advance cycles → g = u.partGain part →
    (s.bell.ppsSeen = false ∨ 2 ^ 63 ≤ u.bell.ppsAge + g → s.does (.ppsInEdge ⟨cycles, part⟩ rising) (fun t =>
      t.fld Fld.TB_PPSCAP_FRAC 0 = (u.bell.acc.toNat + g) / 2 ^ 32 % 2 ^ 32 ∧
      t.fld Fld.TB_PPSCAP_SEC 0 = (if u.flag Fld.TB_SECSET_PENDING 0 = true ∧
          u.bell.acc.toNat / 2 ^ 64 < (u.bell.acc.toNat + g) / 2 ^ 64
        then u.fld Fld.TB_SECSET_SEC 0 else (u.bell.acc.toNat + g) / 2 ^ 64) % 2 ^ 16 ∧
      t.fld Fld.TB_PPSCAP_CNT 0 = (s.fld Fld.TB_PPSCAP_CNT 0 + 1) % 2 ^ 16 ∧ t.flag Fld.TB_STAT_PPS_LOST 0 = false ∧
      t.flag Fld.TB_STAT_HOLDOVER 0 = false ∧ t.csrGet .TB_ADDEND 0 = s.csrGet .TB_ADDEND 0 ∧
      t.bell.acc = u.bell.acc ∧ t.bell.ppsAge = -(g : Int) ∧ t.bell.ppsSeen = true ∧
      t.bell.addends = (s.addend :: s.bell.addends).take 16 ∧
      t.bell.slewRem = (if s.flag Fld.TB_STAT_HOLDOVER 0 ∧ s.flag Fld.TB_STAT_XOVR 0 = false then
        -(signedOf 32 ((u.bell.acc.toNat + g) / 2 ^ 32 % 2 ^ 32)) * 2 ^ 32 else u.bell.slewRem) ∧
      (s.flag Fld.TB_STAT_HOLDOVER 0 = true → s.flag Fld.TB_STAT_XOVR 0 = false → t.fld Fld.TB_SLEW_STATUS 0 = 0) ∧
      t.mem = s.mem)) ∧
    (s.bell.ppsSeen = true → u.bell.ppsAge + g < 2 ^ 63 → s.does (.ppsInEdge ⟨cycles, part⟩ rising) (fun t =>
      t.fld Fld.TB_STAT_REJ_CNT 0 = min (s.fld Fld.TB_STAT_REJ_CNT 0 + 1) 0xFFFF ∧
      t.csrGet .TB_PPSCAP 0 = s.csrGet .TB_PPSCAP 0 ∧ t.bell = u.bell))) ∧
  (s.flag Fld.TB_STAT_PPS_LOST 0 = false → s.does .ppsLostExpiry (fun t =>
    t.flag Fld.TB_STAT_PPS_LOST 0 = true ∧ t.flag Fld.TB_STAT_HOLDOVER 0 = (s.fld Fld.TB_CTL_DISC 0 == 1) ∧
    3 * 2 ^ 63 ≤ t.bell.ppsAge ∧
    t.csrGet .TB_ADDEND 0 = (if s.fld Fld.TB_CTL_DISC 0 = 1 ∧ s.flag Fld.TB_STAT_XOVR 0 = false then
        withBits (s.csrGet .TB_ADDEND 0) Fld.TB_ADDEND_ADDEND.hi Fld.TB_ADDEND_ADDEND.lo s.meanAddend
      else s.csrGet .TB_ADDEND 0) ∧
    s.onlyBell t [(.TB_SECSET, 0), (.TB_NOW_HI, 0), (.TB_SLEW, 0), (.TB_STAT, 0), (.TB_ADDEND, 0)])) ∧
  (s.fld Fld.BT_LOWN_FUNC 5 = 2 → s.pwr.past380 = false → s.bell.ppsOut = false → s.does .ppsOutStart (fun t =>
    t.bell.ppsOut = true ∧ (t.bell80.toNat + 2 ^ 32 - s.fld Fld.TB_PPSOUT_OFFSET 0) % 2 ^ 32 < 16 ∧
    s.onlyBell t [(.TB_SECSET, 0), (.TB_NOW_HI, 0), (.TB_SLEW, 0), (.TB_STAT, 0)])) ∧
  (s.bell.ppsOut = true → s.does .ppsOutEnd (fun t =>
    t.bell.ppsOut = false ∧
    (t.bell80.toNat + 2 ^ 33 - (s.fld Fld.TB_PPSOUT_OFFSET 0 + s.fld Fld.TB_PPSOUT_WIDTH 0 * 2 ^ 32 / 1000) % 2 ^ 32) % 2 ^ 32 < 16 ∧
    s.onlyBell t [(.TB_SECSET, 0), (.TB_NOW_HI, 0), (.TB_SLEW, 0), (.TB_STAT, 0)]))

/-- R107, R108, R110: the writes to a compare unit's registers, from a live source with island A open.  A firing that is due
in the cycle of the write comes first, on the old values: `w` is the state it leaves (R27).

R108, R109: an armed compare unit fires once its target is reached, counts the firing, delivers its event by its
route, and reloads or disarms. -/
def Obligations.CompareUnits : Prop :=
  (∀ (s w : State) (src : Src) (n : CmpId) (v : Word), s.srcLive src = true → s.islOpen 23 = true → w = s.cmpDue n.val →
  (Fld.TB_CMP_OWN_FORCE.of v = 0 → s.does (.compareOwnWrite src n v) (fun t =>
    w.onlyRegs t [(.TB_CMP_OWN, n.val), (.TB_CMP_CTL, n.val), (.TB_XGATE, 0)] ∧
    t.fld Fld.TB_CMP_OWN_LAST_SRC n.val = srcId src ∧
    (s.fld Fld.TB_CMP_OWN_CLAIM n.val = 0 → Fld.TB_CMP_OWN_CLAIM.of v = 1 →
      t.fld Fld.TB_CMP_OWN_CLAIM n.val = 1 ∧ t.fld Fld.TB_CMP_OWN_OWN_SRC n.val = srcId src ∧
      t.fld Fld.TB_CMP_OWN_LAST_STATUS n.val = 0x00) ∧
    (s.fld Fld.TB_CMP_OWN_CLAIM n.val = 1 → s.fld Fld.TB_CMP_OWN_OWN_SRC n.val = srcId src → Fld.TB_CMP_OWN_CLAIM.of v = 0 →
      t.fld Fld.TB_CMP_OWN_CLAIM n.val = 0 ∧ t.flag Fld.TB_CMP_CTL_EN n.val = false ∧
      t.fld Fld.TB_CMP_OWN_LAST_STATUS n.val = 0x00) ∧
    (s.fld Fld.TB_CMP_OWN_CLAIM n.val = 1 → s.fld Fld.TB_CMP_OWN_OWN_SRC n.val ≠ srcId src →
      t.fld Fld.TB_CMP_OWN_CLAIM n.val = 1 ∧ t.fld Fld.TB_CMP_OWN_OWN_SRC n.val = s.fld Fld.TB_CMP_OWN_OWN_SRC n.val ∧
      t.csrGet .TB_CMP_CTL n.val = w.csrGet .TB_CMP_CTL n.val ∧ t.fld Fld.TB_CMP_OWN_LAST_STATUS n.val = 0x02))) ∧
  (s.ownedBy .TB_CMP_OWN n.val src = true →
    s.does (.compareTargetWrite src n v) (fun t =>
      t.fld Fld.TB_CMP_TGT_SEC n.val = Fld.TB_CMP_TGT_SEC.of v ∧ t.fld Fld.TB_CMP_TGT_FRAC n.val = Fld.TB_CMP_TGT_FRAC.of v ∧
      t.flag Fld.TB_CMP_CTL_LATE n.val = (w.flag Fld.TB_CMP_CTL_LATE n.val ||
        (w.flag Fld.TB_CMP_CTL_EN n.val && decide ((w.ts48 + 2 ^ 48 - v.toNat % 2 ^ 48) % 2 ^ 48 < 2 ^ 47))) ∧
      t.bell = { w.bell with lateNow := t.bell.lateNow } ∧
      w.onlyBell t [(.TB_CMP_TGT, n.val), (.TB_CMP_CTL, n.val), (.TB_XGATE, 0)]) ∧
    s.does (.compareCtlWrite src n v) (fun t =>
      t.fld Fld.TB_CMP_CTL_EN n.val = Fld.TB_CMP_CTL_EN.of v ∧ t.fld Fld.TB_CMP_CTL_ROUTE n.val = Fld.TB_CMP_CTL_ROUTE.of v ∧
      t.fld Fld.TB_CMP_CTL_DEST n.val = Fld.TB_CMP_CTL_DEST.of v ∧
      t.fld Fld.TB_CMP_CTL_FIRES n.val = w.fld Fld.TB_CMP_CTL_FIRES n.val ∧
      (w.flag Fld.TB_CMP_CTL_EN n.val = false → Fld.TB_CMP_CTL_EN.of v = 1 → w.cmpReached n.val = true →
        t.flag Fld.TB_CMP_CTL_LATE n.val = true) ∧
      t.bell = { w.bell with lateNow := t.bell.lateNow } ∧
      w.onlyBell t [(.TB_CMP_CTL, n.val), (.TB_XGATE, 0)])) ∧
  (s.ownedBy .TB_CMP_OWN n.val src = false →
    s.does (.compareTargetWrite src n v) (fun t => w.onlyRegs t [(.TB_XGATE, 0)]) ∧
    s.does (.compareCtlWrite src n v) (fun t => w.onlyRegs t [(.TB_XGATE, 0)])) ∧
  (s.clockRuns = false ∨ s.flag Fld.TB_CMP_CTL_EN n.val = false ∨ s.cmpReached n.val = false → w = s) ∧
  (s.clockRuns = true → s.flag Fld.TB_CMP_CTL_EN n.val = true → s.cmpReached n.val = true →
    w.fld Fld.TB_CMP_CTL_FIRES n.val = (s.fld Fld.TB_CMP_CTL_FIRES n.val + 1) % 2 ^ 8 ∧
    (s.fld Fld.TB_CMP_CTL_ROUTE n.val = 1 → (FMap.get w.threads {} (s.fld Fld.TB_CMP_CTL_DEST n.val)).timer = true))) ∧
  (∀ (s : State) (n : CmpId), s.clockRuns = true →
  46107636812 ≤ s.fld Fld.TB_ADDEND_ADDEND 0 → s.fld Fld.TB_ADDEND_ADDEND 0 ≤ 46126083556 →
  s.flag Fld.TB_CMP_CTL_EN n.val = true → s.does (.compareFire n) (fun t =>
    t.fld Fld.TB_CMP_CTL_FIRES n.val = (s.fld Fld.TB_CMP_CTL_FIRES n.val + 1) % 2 ^ 8 ∧
    (s.cmpReached n.val = false → (t.ts48 + 2 ^ 48 - s.cmpTarget n.val) % 2 ^ 48 < 2 ^ 47) ∧
    (s.cmpReached n.val = true → n.val ∉ s.bell.lateNow → t.bell.acc = s.bell.acc) ∧
    (s.fld Fld.TB_CMP_PER_PERIOD n.val = 0 →
      t.flag Fld.TB_CMP_CTL_EN n.val = false ∧ t.csrGet .TB_CMP_TGT n.val = s.csrGet .TB_CMP_TGT n.val) ∧
    (s.fld Fld.TB_CMP_PER_PERIOD n.val ≠ 0 → t.flag Fld.TB_CMP_CTL_EN n.val = true ∧
      (t.csrGet .TB_CMP_TGT n.val).toNat = (s.cmpTarget n.val + s.fld Fld.TB_CMP_PER_PERIOD n.val) % 2 ^ 48) ∧
    (s.fld Fld.TB_CMP_CTL_ROUTE n.val = 1 → (FMap.get t.threads {} (s.fld Fld.TB_CMP_CTL_DEST n.val)).timer = true) ∧
    (s.fld Fld.TB_CMP_CTL_ROUTE n.val = 2 → FMap.get t.gclDue false (s.fld Fld.TB_CMP_CTL_DEST n.val) = true) ∧
    (s.fld Fld.TB_CMP_CTL_ROUTE n.val = 3 → t.flag Fld.IC_SRC_IN (8192 + n.val) = true) ∧ t.mem = s.mem))

/-- R49, R60, R65, R66, R80, R84, R628: what the writes to the islands' registers do, from a live source with island A open.
The Reeve's writes are performed whatever PW_XGATE holds; another source's while it is OPEN, and never for islands A and K.
A cap on the island, or a power-fail warning, limits the code that stands. -/
def Obligations.IslandRegisterWrites : Prop :=
  ∀ (s : State) (src : Src) (j : IslandId) (v : Word) (granary : Bool), s.srcLive src = true → s.islOpen 23 = true →
  (src = .reeve ∨ (s.gateState .PW_VSET j.val = 2 ∧ j.val ≠ 23 ∧ j.val ≠ 24) →
    s.does (.vsetWrite src j v) (fun t =>
      ((s.island j.val).capped = false → s.pfwFloor j.val = false →
        t.fld Fld.PW_VSET_VCODE j.val = min (max (Fld.PW_VSET_VCODE.of v) 0x6E) 0xBE ∧
        t.fld Fld.PW_VSET_VFRAC j.val = (if 0xBE ≤ Fld.PW_VSET_VCODE.of v then 0 else Fld.PW_VSET_VFRAC.of v)) ∧
      ((s.island j.val).capped = false → t.isl = s.isl) ∧
      (s.pfwFloor j.val = true → 150 * 16 ≤ t.code16 j.val) ∧
      ((s.island j.val).critCap = true → t.code16 j.val ≤ 150 * 16) ∧
      ((s.island j.val).boostFell = true → t.code16 j.val ≤ 170 * 16) ∧
      ((s.island j.val).capped = true → (t.island j.val).capFrom =
        min (max (min (max (Fld.PW_VSET_VCODE.of v) 0x6E) 0xBE * 16 + Fld.PW_VSET_VFRAC.of v) (0x6E * 16)) (0xBE * 16)) ∧
      (src ≠ .reeve → t.flag Fld.PW_ISTATE_XOVR j.val = true ∧ t.fld Fld.PW_ISTATE_POINT j.val = 0xFF) ∧
      (src = .reeve → t.csrGet .PW_ISTATE j.val = s.csrGet .PW_ISTATE j.val) ∧
      t = { s with csr := t.csr, resp := t.resp, isl := t.isl } ∧
      s.regsKept t [(.PW_VSET, j.val), (.PW_ISTATE, j.val), (.PW_XGATE, 0)]) ∧
    s.does (.rctlWrite src j v) (fun t =>
      t.fld Fld.PW_RCTL_RTARGET j.val = Fld.PW_RCTL_RTARGET.of v ∧
      t.fld Fld.PW_RCTL_MODE j.val =
        (if Fld.PW_RCTL_MODE.of v = 3 ∨ j.val = 21 then s.fld Fld.PW_RCTL_MODE j.val else Fld.PW_RCTL_MODE.of v) ∧
      (src ≠ .reeve → t.flag Fld.PW_ISTATE_XOVR j.val = true ∧ t.fld Fld.PW_ISTATE_POINT j.val = 0xFF) ∧
      (Fld.PW_RCTL_MODE.of v ≠ 3 → j.val ≠ 21 → t.pfwFloor j.val = true → 150 * 16 ≤ t.code16 j.val) ∧
      (s.pwr.failSeq = false → t.csrGet .PW_VSET j.val = s.csrGet .PW_VSET j.val) ∧
      t = { s with csr := t.csr, resp := t.resp, isl := t.isl } ∧
      s.regsKept t [(.PW_RCTL, j.val), (.PW_ISTATE, j.val), (.PW_RATE, j.val), (.PW_VSET, j.val), (.PW_XGATE, 0)])) ∧
  (src ≠ .reeve → j.val = 23 ∨ j.val = 24 →
    s.does (.vsetWrite src j v) (fun t => s.onlyRegs t [(.PW_XGATE, 0)]) ∧
    s.does (.rctlWrite src j v) (fun t => s.onlyRegs t [(.PW_XGATE, 0)])) ∧
  (src ≠ .reeve → s.gateState .PW_VSET j.val ≠ 2 → j.val ≠ 23 → j.val ≠ 24 →
    s.does (.vsetWrite src j v) (fun t => t.flag Fld.PW_XGATE_DENIED 0 = true ∧ s.onlyRegs t [(.PW_XGATE, 0)]) ∧
    s.does (.rctlWrite src j v) (fun t => t.flag Fld.PW_XGATE_DENIED 0 = true ∧ s.onlyRegs t [(.PW_XGATE, 0)])) ∧
  s.does (.thermWrite src v) (fun t =>
    (∃ w c : Nat,
      w = (if 85 ≤ Fld.PW_THERM_T_WARN.of v ∧ Fld.PW_THERM_T_WARN.of v ≤ 105 then Fld.PW_THERM_T_WARN.of v
        else s.fld Fld.PW_THERM_T_WARN 0) ∧
      c = (if 100 ≤ Fld.PW_THERM_T_CRIT.of v ∧ Fld.PW_THERM_T_CRIT.of v ≤ 108 ∧ s.gateState .PW_THERM 0 = 2 then
        Fld.PW_THERM_T_CRIT.of v else s.fld Fld.PW_THERM_T_CRIT 0) ∧
      t.fld Fld.PW_THERM_T_WARN 0 = (if w ≤ c then w else s.fld Fld.PW_THERM_T_WARN 0) ∧
      t.fld Fld.PW_THERM_T_CRIT 0 = (if w ≤ c then c else s.fld Fld.PW_THERM_T_CRIT 0)) ∧
    (s.fld Fld.PW_THERM_T_WARN 0 ≤ s.fld Fld.PW_THERM_T_CRIT 0 →
      t.fld Fld.PW_THERM_T_WARN 0 ≤ t.fld Fld.PW_THERM_T_CRIT 0) ∧
    (s.gateState .PW_THERM 0 ≠ 2 → t.flag Fld.PW_XGATE_DENIED 0 = true) ∧ s.onlyRegs t [(.PW_THERM, 0), (.PW_XGATE, 0)]) ∧
  State.reset.fld Fld.PW_THERM_T_WARN 0 = 100 ∧ State.reset.fld Fld.PW_THERM_T_CRIT 0 = 105 ∧
  (src ≠ .cocoon → s.does (.holdWrite src granary v) (fun t => s.onlyRegs t [(.PW_XGATE, 0)])) ∧
  (src = .cocoon →
    s.does (.holdWrite src false v) (fun t =>
      t.fld Fld.PW_HOLD_ISL_ISL 0 = Fld.PW_HOLD_ISL_ISL.of v ∧ t.fld Fld.PW_HOLD_ISL_STACK 0 = Fld.PW_HOLD_ISL_STACK.of v ∧
      (∀ k < 23, t.fld Fld.PW_ISTATE_HELD k = Fld.PW_HOLD_ISL_ISL.of v / 2 ^ k % 2) ∧
      (s.pwr.notice = none → j.val < 23 → Fld.PW_HOLD_ISL_ISL.of v / 2 ^ j.val % 2 = 1 → (s.island j.val).entry.isSome = true →
        (t.island j.val).entry = none ∧ t.islState j.val = 1 ∧ t.fld Fld.PW_ISTATE_LAST_ENTRY j.val = 3)) ∧
    s.does (.holdWrite src true v) (fun t => t.fld Fld.PW_HOLD_GR_BANK 0 = v.toNat))

/-- R42, R68, R73, R74, R84, R85, R88, R89, R133: the Reeve's services over islands answer a call from H mode.  What STANDBY
answers outside RUN is the model's choice (assumption log 308). -/
def Obligations.IslandServices : Prop :=
  ∀ (m : SlotId) (s : State),
  (s.called m.val 0x02 true → s.arg0 m.val ≤ 24 → 1 ≤ s.arg1 m.val → s.arg1 m.val ≤ 5 →
    (offersPoint (s.arg0 m.val) (s.arg1 m.val) = true → (s.arg1 m.val = 3 → s.overBudget (s.arg0 m.val) = false) →
      s.does (.setPoint m) (fun t =>
        t.answered m.val 0x00 ∧ t.fld Fld.PW_ISTATE_POINT (s.arg0 m.val) = s.arg1 m.val ∧
        t.flag Fld.PW_ISTATE_XOVR (s.arg0 m.val) = false ∧
        t.fld Fld.PW_RCTL_MODE (s.arg0 m.val) = [0, 0, 0, 0, 1, 2].getD (s.arg1 m.val) 0 ∧
        t.fld Fld.PW_RCTL_RTARGET (s.arg0 m.val) = [0, 0, 0, 0, 180000, 160000].getD (s.arg1 m.val) 0 ∧
        ((t.island (s.arg0 m.val)).capped = false →
          [0, 150, 170, 190, 150, 140].getD (s.arg1 m.val) 0 ≤ t.fld Fld.PW_VSET_VCODE (s.arg0 m.val)) ∧
        ((t.island (s.arg0 m.val)).critCap = true → t.code16 (s.arg0 m.val) ≤ 150 * 16) ∧
        ((t.island (s.arg0 m.val)).boostFell = true → t.code16 (s.arg0 m.val) ≤ 170 * 16) ∧
        t.flag Fld.PW_ISTATE_CAPPED (s.arg0 m.val) = (t.island (s.arg0 m.val)).capped ∧
        t.fld Fld.PW_VSET_VCODE (s.arg0 m.val) ≤ [0, 150, 170, 190, 190, 190].getD (s.arg1 m.val) 0 ∧ t.mem = s.mem)) ∧
    (offersPoint (s.arg0 m.val) (s.arg1 m.val) = false →
      s.does (.setPoint m) (fun t => t.answered m.val 0x07 ∧ t.csrGet .PW_ISTATE 0 = s.csrGet .PW_ISTATE 0)) ∧
    (s.arg0 m.val < 20 → s.arg1 m.val = 3 → s.overBudget (s.arg0 m.val) = true →
      s.does (.setPoint m) (fun t => t.answered m.val 0x12 ∧ t.csrGet .PW_ISTATE 0 = s.csrGet .PW_ISTATE 0))) ∧
  (s.called m.val 0x03 true →
    (s.entryAnswer (s.arg0 m.val) false = none → s.does (.retain m) (fun t =>
      t.islState (s.arg0 m.val) = 2 ∧ (t.island (s.arg0 m.val)).entry = some ⟨false, some m.val⟩ ∧ t.callState m.val = 2 ∧
      t.mem = s.mem)) ∧
    (s.arg0 m.val < 20 → s.islState (s.arg0 m.val) = 1 → s.islHeld (s.arg0 m.val) = true →
      s.does (.retain m) (fun t => t.answered m.val 0x05 ∧ t.islState (s.arg0 m.val) = 1)) ∧
    (s.arg0 m.val < 20 → s.islState (s.arg0 m.val) = 1 → s.islHeld (s.arg0 m.val) = false →
      (∃ c < 160, coreIsland c = s.arg0 m.val ∧ (s.core c).run ≠ .parked) →
      s.does (.retain m) (fun t => t.answered m.val 0x10 ∧ t.islState (s.arg0 m.val) = 1))) ∧
  (s.called m.val 0x04 true →
    (s.entryAnswer (s.arg0 m.val) true = none → s.does (.gate m) (fun t =>
      t.islState (s.arg0 m.val) = 2 ∧ (t.island (s.arg0 m.val)).entry = some ⟨true, some m.val⟩ ∧ t.callState m.val = 2 ∧
      t.mem = s.mem)) ∧
    (s.arg0 m.val = 20 ∨ s.arg0 m.val = 23 ∨ s.arg0 m.val = 24 → s.does (.gate m) (fun t => t.answered m.val 0x07))) ∧
  (s.callState m.val = 2 → s.serving m.val 0x05 = true → s.arg0 m.val < 23 → s.arg0 m.val ≠ 20 →
    (s.islState (s.arg0 m.val) = 1 → s.does (.wake m) (fun t => t.answered m.val 0x00)) ∧
    (s.islState (s.arg0 m.val) = 3 ∨ s.islState (s.arg0 m.val) = 5 → s.does (.wake m) (fun t =>
      t.islState (s.arg0 m.val) = 4 ∧ m.val ∈ (t.island (s.arg0 m.val)).wakers ∧
      (t.island (s.arg0 m.val)).coldExit = (s.islState (s.arg0 m.val) == 5) ∧ t.callState m.val = 2 ∧ t.mem = s.mem))) ∧
  (s.called m.val 0x06 true →
    (s.pwr.mode = .run → s.anyHeld = false → s.does (.standby m) (fun t =>
      t.answered m.val 0x00 ∧ t.pwr.mode = .standby ∧ t.pwr.phase = 4 ∧
      (∀ j < 23, t.islState j = 5 ∧ (t.island j).entry = none) ∧
      ∀ n < 20, t.fld Fld.BT_LOWN_FUNC n = s.fld Fld.BT_LOWN_FUNC n ∧
        t.fld Fld.BT_LOWN_OWN_SRC n = s.fld Fld.BT_LOWN_OWN_SRC n)) ∧
    (s.pwr.mode = .tripped → s.does (.standby m) (fun t => t.answered m.val 0x07 ∧ t.pwr = s.pwr)) ∧
    (s.pwr.mode = .start → s.does (.standby m) (fun t => t.answered m.val 0x01 ∧ t.pwr = s.pwr)) ∧
    (s.pwr.mode = .run → s.anyHeld = true → s.does (.standby m) (fun t => t.answered m.val 0x05 ∧ t.pwr = s.pwr))) ∧
  (s.called m.val 0x07 true → s.does (.pflogClear m) (fun t =>
    t.answered m.val 0x00 ∧ t.fld Fld.PW_PFLOG_PF_CNT 0 = 0 ∧ t.fld Fld.PW_PFLOG_OV_TRIP_CNT 0 = 0 ∧
    t.fld Fld.PW_PFLOG_OV_CNT 0 = 0 ∧ t.fld Fld.PW_PFLOG_DIP_CNT 0 = 0 ∧
    t.fld Fld.PW_PFLOG_LAST_CAUSE 0 = s.fld Fld.PW_PFLOG_LAST_CAUSE 0 ∧ t.mem = s.mem)) ∧
  (s.called m.val 0x02 false → s.does (.setPoint m) (fun t => t.answered m.val 0x07)) ∧
  (s.called m.val 0x03 false → s.does (.retain m) (fun t => t.answered m.val 0x07)) ∧
  (s.called m.val 0x04 false → s.does (.gate m) (fun t => t.answered m.val 0x07)) ∧
  (s.called m.val 0x06 false → s.does (.standby m) (fun t => t.answered m.val 0x07)) ∧
  (s.called m.val 0x07 false → s.does (.pflogClear m) (fun t => t.answered m.val 0x07))

/-- R72, R75, R77, R78: the steps of an island's entry and exit. -/
def Obligations.IslandEntryAndExit : Prop :=
  ∀ (j : IslandId) (m : SlotId) (gate : Bool) (s : State),
  ((s.island j.val).entry = some ⟨gate, some m.val⟩ → s.callState m.val = 2 → s.does (.entryCommit j) (fun t =>
    (t.island j.val).entry = none ∧ (t.island j.val).gating = gate ∧ t.islState j.val = s.islState j.val ∧
    t.fld Fld.PW_ISTATE_LAST_ENTRY j.val = 1 ∧ t.flag Fld.PW_ISTATE_LOCKED j.val = false ∧ t.answered m.val 0x00 ∧
    ∀ c < 160, j.val < 20 → coreIsland c = j.val → (t.core c).resv = none ∧ (t.core c).l2 = [])) ∧
  (s.islState j.val = 2 → (s.island j.val).entry = none →
    ((s.island j.val).gating = false → s.does (.retentionReached j) (fun t =>
      t.islState j.val = 3 ∧ s.onlyRegs t [(.PW_ISTATE, j.val)])) ∧
    ((s.island j.val).gating = true → s.does (.retentionReached j) (fun t =>
      t.islState j.val = (if (s.island j.val).wakeQueued then 4 else 5) ∧
      ∀ c < 160, j.val < 20 → coreIsland c = j.val → t.core c = {}))) ∧
  (s.islState j.val = 4 →
    ((s.island j.val).coldExit = false → s.does (.exitRestoreDone j) (fun t =>
      t.islState j.val = 1 ∧ (t.island j.val).wakers = [] ∧
      ∀ k ∈ (s.island j.val).wakers, s.callState k = 2 → t.callState k = 3 ∧ t.fld Fld.RV_STAT_STATUS k = 0x00)) ∧
    ((s.island j.val).coldExit = true → s.does (.gatedExitDone j) (fun t =>
      t.islState j.val = 1 ∧ (t.island j.val).wakers = [] ∧
      (∀ k ∈ (s.island j.val).wakers, s.callState k = 2 → t.callState k = 3 ∧ t.fld Fld.RV_STAT_STATUS k = 0x00) ∧
      ∀ c < 160, j.val < 20 → coreIsland c = j.val →
        (t.core c).run = .parked ∧ (t.core c).romPark = true ∧ (t.core c).arch.pc = 0x00FFFFF01000 ∧
        (t.core c).arch.mode = 2)))

/-- R61, R70, R83, R84, R85, R88, R627: the passes of regulation, the caps and their lifting, the trip, and the end of a
hold notice.  The counter runs on to the window's end: the model's choice (assumption log 20). -/
def Obligations.IslandPasses : Prop :=
  ∀ (s : State) (counts : List Nat) (tj moves : List Int) (vin p1ms p10ms : Nat) (j : IslandId),
  (s.clockRuns = true → s.islState 23 = 1 →
    s.does (.rateWindowEnd counts tj vin p1ms p10ms moves) (fun t =>
      t.fld Fld.PW_INSTAT_VIN 0 = vin % 2 ^ 16 ∧ t.pwr.p1ms = p1ms ∧ t.pwr.p10ms = p10ms ∧
      t.fld Fld.PW_TEMP_TJ j.val = encSigned 10 (tj.getD j.val 0) ∧
      (s.islOpen j.val = true → s.fld Fld.PW_RCTL_MODE j.val ≠ 2 →
        t.fld Fld.PW_RATE_RATE j.val = counts.getD j.val 0 % 2 ^ 20 ∧
        t.fld Fld.PW_RATE_WINDOWS j.val = (s.fld Fld.PW_RATE_WINDOWS j.val + 1) % 2 ^ 16) ∧
      (s.bell.cyc < 40000 → t.bell.cyc = 0) ∧ (s.pwr.mode = .tripped → t.pwr.mode = .tripped) ∧
      (s.pwr.mode ≠ .tripped → 4 * (s.fld Fld.PW_THERM_T_CRIT 0 : Int) ≤ tj.foldl max (-160) → j.val ≤ 20 ∨ j.val = 22 →
        s.fld Fld.PW_RCTL_MODE j.val ≠ 2 → t.code16 j.val ≤ 150 * 16 ∧ t.flag Fld.PW_ISTATE_CAPPED j.val = true)) ∧
    s.does (.lockWindowEnd counts moves) (fun t =>
      (46107636812 ≤ s.fld Fld.TB_ADDEND_ADDEND 0 → s.fld Fld.TB_ADDEND_ADDEND 0 ≤ 46126083556 →
        ∃ k ≤ 10000, (t.bell80.toNat + 2 ^ 32 - k * 2 ^ 32 / 10000) % 2 ^ 32 < 16) ∧
      (s.islOpen j.val = true → s.fld Fld.PW_RCTL_MODE j.val = 2 →
        t.fld Fld.PW_RATE_RATE j.val = counts.getD j.val 0 % 2 ^ 20 ∧
        t.fld Fld.PW_RATE_WINDOWS j.val = (s.fld Fld.PW_RATE_WINDOWS j.val + 1) % 2 ^ 16) ∧
      (s.fld Fld.PW_RCTL_MODE j.val ≠ 2 → t.csrGet .PW_VSET j.val = s.csrGet .PW_VSET j.val) ∧ t.mem = s.mem)) ∧
  (s.pwr.hottest ≤ 4 * (s.fld Fld.PW_THERM_T_CRIT 0 : Int) - 20 → s.does (.thermalCapLift true) (fun t =>
    (∀ k < 23, (t.island k).critCap = false) ∧
    (j.val < 23 → (s.island j.val).critCap = true → (s.island j.val).boostFell = false → (s.island j.val).powerCap = false →
      s.pfwFloor j.val = false → t.flag Fld.PW_ISTATE_CAPPED j.val = false ∧ t.code16 j.val = min (max (s.island j.val).capFrom 1760) 3040) ∧
    t.mem = s.mem)) ∧
  (s.pwr.hottest ≤ 4 * (s.fld Fld.PW_THERM_T_WARN 0 : Int) - 20 →
    s.does (.thermalCapLift false) (fun t => (∀ k < 23, (t.island k).boostFell = false) ∧ t.mem = s.mem)) ∧
  (4 * (s.fld Fld.PW_THERM_T_CRIT 0 : Int) - 20 < s.pwr.hottest → s.does (.thermalCapLift true) (fun t => t = s)) ∧
  (s.pwr.capEpisode = true → s.pwr.p10ms < 3400 → s.does .powerCapLift (fun t =>
    t = { s with pwr := { s.pwr with capEpisode := false, capLifting := true } })) ∧
  (s.pwr.standby = true → s.pwr.mode = .run ∨ s.pwr.mode = .standby ∨ s.pwr.mode = .start →
    s.does .hardwareTrip (fun t =>
      t.pwr.tripLatch = true ∧ t.pwr.thermtripLow = s.pwr.armed ∧ t.pwr.switchClosed = false ∧ t.pwr.failSeq = true ∧
      t.flag Fld.PW_INSTAT_PFW 0 = true ∧ t.fld Fld.PW_PFLOG_LAST_CAUSE 0 = 3 ∧
      t.fld Fld.PW_PFLOG_PF_CNT 0 = min (s.fld Fld.PW_PFLOG_PF_CNT 0 + 1) 255)) ∧
  (s.pwr.notice = some .powerFail → (∃ r < 4, s.recValid 250 r = false) → s.does .holdNoticeExpiry (fun t =>
    t.pwr.notice = none ∧ t.mem = s.mem ∧
    (∃ r < 4, t.recValid 250 r = true ∧ t.fld Fld.ER_STATUS_SEV (4 * 250 + r) = 2 ∧
      t.fld Fld.ER_STATUS_TYPE (4 * 250 + r) = 0x32))) ∧
  (s.pwr.notice = some .emergency →
    (s.pwr.mode ≠ .tripped → s.pwr.mode ≠ .off → s.does .holdNoticeExpiry (fun t =>
      t.pwr.notice = none ∧ t.pwr.mode = .standby ∧ ∀ k < 23, t.islState k = 5)) ∧
    (s.pwr.mode = .tripped → s.does .holdNoticeExpiry (fun t => t.pwr = { s.pwr with notice := none })))

/-- R44 to R50, R86, R89: the events of the 48 V input and its hold-up store.  That a trip latch outlasts the standby supply
is the model's reading of R86 (assumption log 306). -/
def Obligations.InputPowerEvents : Prop :=
  ∀ (s : State) (longLoss : Bool),
  s.does .inputReversal (fun t =>
    t.pwr.reversed = true ∧ t.pwr.mode = .off ∧ t.pwr.standby = false ∧ t.mem = [] ∧ t.cores = [] ∧
    t.csrGet .PW_PFLOG 0 = s.csrGet .PW_PFLOG 0) ∧
  (s.pwr.belowStop = false → s.does .inputStopFall (fun t =>
    t.pwr = { s.pwr with belowStop := true, inputBack := false, backWait := false,
                         deglitch := s.pwr.standby && !s.pwr.failSeq && s.pwr.mode != .off } ∧
    t = { s with pwr := t.pwr, pmbus := t.pmbus })) ∧
  (s.pwr.belowStop = true → s.does .inputRecovery (fun t =>
    t.pwr = { s.pwr with belowStop := false, deglitch := false } ∧
    t.fld Fld.PW_PFLOG_DIP_CNT 0 =
      (if s.pwr.deglitch then min (s.fld Fld.PW_PFLOG_DIP_CNT 0 + 1) 0xFFFF else s.fld Fld.PW_PFLOG_DIP_CNT 0) ∧
    t = { s with pwr := t.pwr, csr := t.csr } ∧ s.regsKept t [(.PW_PFLOG, 0)])) ∧
  (s.pwr.standby = true → s.pwr.failSeq = false →
    (s.pwr.deglitch = true → s.does .deglitchExpiry (fun t =>
      t.pwr.failSeq = true ∧ t.pwr.past380 = false ∧ t.pwr.deglitch = false ∧ t.pwr.pfwLow = s.pwr.armed ∧
      t.flag Fld.PW_INSTAT_PFW 0 = true ∧ t.fld Fld.PW_PFLOG_LAST_CAUSE 0 = 1 ∧
      t.fld Fld.PW_PFLOG_PF_CNT 0 = min (s.fld Fld.PW_PFLOG_PF_CNT 0 + 1) 255)) ∧
    (s.pwr.ovTimer = true → s.does .overvoltageTimerExpiry (fun t =>
      t.pwr.ovTimer = false ∧ t.pwr.switchClosed = false ∧ t.pwr.failSeq = true ∧
      t.fld Fld.PW_PFLOG_LAST_CAUSE 0 = 2 ∧
      t.fld Fld.PW_PFLOG_OV_TRIP_CNT 0 = min (s.fld Fld.PW_PFLOG_OV_TRIP_CNT 0 + 1) 255)) ∧
    (s.pwr.switchClosed = true → s.does .otherInputSwitchOpening (fun t =>
      t.pwr.switchClosed = false ∧ t.pwr.failSeq = true ∧ t.fld Fld.PW_PFLOG_LAST_CAUSE 0 = 4))) ∧
  s.does .overvoltageOnset (fun t =>
    t.pwr = { s.pwr with ovTimer := s.pwr.standby, inputBack := false, backWait := false } ∧
    t = { s with pwr := t.pwr, pmbus := t.pmbus }) ∧
  (s.pwr.ovTimer = true → s.does .overvoltageFall (fun t =>
    t.pwr.ovTimer = false ∧ t.pwr.inputBack = !s.pwr.belowStop ∧
    t.fld Fld.PW_PFLOG_OV_CNT 0 = min (s.fld Fld.PW_PFLOG_OV_CNT 0 + 1) 255 ∧
    (s.pwr.past380 = false ∨ s.pwr.tripLatch = true ∨ s.pwr.belowStop = true →
      t = { s with pwr := t.pwr, csr := t.csr } ∧ s.regsKept t [(.PW_PFLOG, 0)]))) ∧
  (s.pwr.past380 = true → s.pwr.tripLatch = false → s.pwr.belowStop = false → s.does .overvoltageFall (fun t =>
    t.pwr.mode = .off ∧ t.pwr.heldOff = true ∧ t.pwr.inputBack = true ∧ t.pwr.backWait = true ∧ t.cores = [] ∧ t.mem = [])) ∧
  (s.pwr.failSeq = true → s.pwr.past380 = false →
    (s.pwr.tripLatch = true → s.does .pfw380usPoint (fun t =>
      t.pwr.mode = .tripped ∧ t.pwr.past380 = true ∧ t.pwr.pwrOkHigh = false ∧ t.pwr.notice = none ∧
      ∀ j < 25, j ≠ 23 → t.islState j = 0)) ∧
    (s.pwr.tripLatch = false → s.pwr.inputBack = true → s.does .pfw380usPoint (fun t =>
      t.pwr.mode = .off ∧ t.pwr.heldOff = true ∧ t.pwr.backWait = true ∧ t.cores = [] ∧ t.mem = [] ∧
      t.csrGet .PW_PFLOG 0 = s.csrGet .PW_PFLOG 0)) ∧
    (s.pwr.tripLatch = false → s.pwr.inputBack = false → s.does .pfw380usPoint (fun t =>
      t.pwr = { s.pwr with past380 := true, pwrOkHigh := false } ∧ (∀ p < 256, t.flag Fld.PT_STAT_SW p = false) ∧
      t.svcRuns = false ∧ ∀ i, t.gpioPin i = t.ext.gpio.getLsbD i))) ∧
  (s.pwr.past380 = true → s.pwr.tripLatch = false →
    s.does .storeBelow40v (fun t =>
      t.pwr.mode = .off ∧ t.pwr.heldOff = true ∧ t.cores = [] ∧ t.mem = [] ∧
      t.csrGet .PW_PFLOG 0 = s.csrGet .PW_PFLOG 0) ∧
    s.does .startThresholdRise (fun t => t.pwr.mode = .off ∧ t.pwr.inputBack = true ∧ t.pwr.backWait = true)) ∧
  (s.pwr.past380 = false → s.pwr.mode ≠ .tripped ∨ s.pwr.standby = true → s.does .startThresholdRise (fun t =>
    t = { s with pwr := { s.pwr with inputBack := true, belowStop := false, reversed := false,
                                     backWait := s.pwr.mode == .off } })) ∧
  (s.pwr.mode = .tripped → s.pwr.tripLatch = true → s.pwr.standby = false → s.does .startThresholdRise (fun t =>
    t.pwr.mode = .tripped ∧ t.pwr.tripLatch = true ∧ t.pwr.standby = true ∧ t.pwr.thermtripLow = s.pwr.armed ∧
    t.pwr.switchClosed = s.pwr.switchClosed)) ∧
  (s.pwr.mode = .off ∨ s.pwr.mode = .tripped → s.does .standbySupplyLoss (fun t =>
    t.pwr.mode = s.pwr.mode ∧ t.pwr.tripLatch = s.pwr.tripLatch ∧ t.pwr.standby = false ∧ t.pwr.pfwLow = false ∧
    t.pwr.thermtripLow = false ∧ t.pwr.armed = s.pwr.armed ∧ t.cores = [] ∧ t.mem = [] ∧
    t.csrGet .PW_PFLOG 0 = s.csrGet .PW_PFLOG 0)) ∧
  (s.pwr.standby = true → s.does .holdupStoreFull (fun t => t = { s with pwr := { s.pwr with storeFull := true } })) ∧
  (s.pwr.backWait = true → s.pwr.inputBack = true → s.does (.powerOn longLoss) (fun t =>
    t.pwr.mode = .start ∧ t.pwr.phase = 1 ∧ t.pwr.switchClosed = true ∧ t.cores = [] ∧ t.mem = [] ∧ t.bell = {} ∧
    t.csrGet .PW_PFLOG 0 = (if longLoss then 0 else s.csrGet .PW_PFLOG 0)))

/-- R34, R38, R520 to R522, R588 to R591, R597: the phases of start-up, while RESET_N is high and no phase has failed.  The
firmware of phase 6 lands where the interleave of MC_ILV puts its addresses (R21), and a region of every HBM firewall stands over it
until core 0 is released (R522; that it is region 0 is the model's, assumption log 305; so is the first command of phase 2, 54). -/
def Obligations.StartUpPhases : Prop :=
  ∀ (s : State) (bootSel : BitVec 2) (flash0 flash1 : List Byte) (trngOk : Bool) (fail : Nat) (k : Fin 3) (v : Word),
  s.pwr.mode = .start → s.pwr.resetLow = false → s.pwr.failed = false →
  (s.pwr.phase = 1 → s.does (.standbyRise bootSel) (fun t =>
    t.pwr = { s.pwr with standby := true, bootSel := bootSel, phase := 2, wdog := true, romLands := true } ∧ t.islState 23 = 1 ∧
    t.csrGet .PW_VSET 23 = Reg.reset .PW_VSET 23 ∧
    t.reeve = { s.reeve with run := .running } ∧
    t.fld Fld.BT_STAT_BOOTSEL 0 = (if s.fuses.getLsbD 2884 then 0 else bootSel.toNat) ∧
    t.fld Fld.BT_LOWN_FUNC 0 = 1 ∧ t.fld Fld.BT_LOWN_OWN_SRC 0 = 0x201 ∧ t.mem = s.mem)) ∧
  (s.pwr.phase = 2 →
    (s.islState 24 ≠ 1 → s.does (.cocoonBoot flash0 flash1 trngOk) (fun t =>
      t.pwr = s.pwr ∧ t.islState 24 = 1 ∧ t.csrGet .PW_VSET 24 = Reg.reset .PW_VSET 24 ∧ t.fld Fld.CK_CSTAT_STATE 0 = 1 ∧
      t.cocoon = {} ∧ t.keys = [] ∧ t.mem = s.mem)) ∧
    (s.islState 24 = 1 → s.fld Fld.BT_STAT_BOOTSEL 0 ≠ 3 → trngOk = true → ∀ b ∈ s.findImage 1 flash0 flash1,
      s.does (.cocoonBoot flash0 flash1 trngOk) (fun t =>
        t.pwr = { s.pwr with phase := 3 } ∧ t.islState 24 = 1 ∧ t.fld Fld.CK_CSTAT_STATE 0 = 2 ∧
        t.cocoon.run = .running ∧ t.cocoon.pc = BitVec.ofNat 16 (imgEntry b) ∧ t.keys = Config.fusedKeys ∧
        t.cocoonVer = BitVec.ofNat 32 (imgVersion b) ∧ t.mem = s.mem)) ∧
    (s.islState 24 = 1 → s.fld Fld.BT_STAT_BOOTSEL 0 ≠ 3 → trngOk = false ∨ s.findImage 1 flash0 flash1 = none →
      s.does (.cocoonBoot flash0 flash1 trngOk) (fun t =>
        t.pwr = { s.pwr with failed := true } ∧ t.fld Fld.CK_CSTAT_STATE 0 = 3 ∧ t.blown = s.blown ∧ t.mem = s.mem)) ∧
    (s.islState 24 = 1 → s.fld Fld.BT_STAT_BOOTSEL 0 = 3 → s.does (.cocoonBoot flash0 flash1 trngOk) (fun t =>
        t.pwr = { s.pwr with failed := true } ∧
        t.blown = (match s.enrolRecord flash0 with | some b => s.blown ||| enrolBits b | none => s.blown) ∧
        t.fld Fld.CK_CSTAT_STATE 0 = (if (s.enrolRecord flash0).isSome then 2 else 3) ∧ t.mem = s.mem))) ∧
  (s.pwr.phase = 3 →
    (∀ b ∈ s.findImage 2 flash0 flash1, s.does (.reeveImageVerify flash0 flash1) (fun t =>
      t.pwr = { s.pwr with phase := 4 } ∧ t.reeve.pc = BitVec.ofNat 16 (imgEntry b) ∧ t.cocoon.staged = b ∧
      (s.reeve.plock = false → ∀ i < imgPlen b,
        FMap.get t.reeve.prog 0 (0x8000 + i) = BitVec.ofNat 14 (bytesAt b (64 + 2 * i) 2)) ∧
      t.svc.reeveVer = BitVec.ofNat 32 (imgVersion b) ∧ t.mem = s.mem ∧ t.csr = s.csr)) ∧
    (s.findImage 2 flash0 flash1 = none → s.does (.reeveImageVerify flash0 flash1) (fun t =>
      t = { s with pwr := { s.pwr with failed := true } }))) ∧
  (s.pwr.phase = 4 → s.pwr.storeFull = true →
    s.does (.railBringUp 0) (fun t =>
      t.pwr = { s.pwr with phase := 5, pwrOkHigh := !s.pwr.past380, armed := true, romLands := false,
                           thermtripLow := s.pwr.emergency || s.pwr.tripLatch } ∧
      (∀ j < 23, t.islState j = 1 ∧ t.csrGet .PW_VSET j = Reg.reset .PW_VSET j) ∧
      t.flag Fld.PW_ISTATE_LOCKED 21 = true ∧ t.fld Fld.BT_STAT_PHASE 0 = 5 ∧
      t.fld Fld.BT_VER_REEVE 0 = s.svc.reeveVer.toNat ∧
      (s.pwr.romLands = true → t.fld Fld.BT_LOWN_FUNC 0 = 1 ∧ t.fld Fld.BT_LOWN_OWN_SRC 0 = 0x200) ∧
      (∀ n < 20, (n = 0 → s.pwr.romLands = false) → s.fld Fld.BT_LOWN_FUNC n ≠ 0 ∨ (n ≠ 0 ∧ n ≠ 1 ∧ n ≠ 19) →
        t.csrGet .BT_LOWN n = s.csrGet .BT_LOWN n) ∧
      (∀ n < 20, n = 0 ∨ n = 1 ∨ n = 19 → s.fld Fld.BT_LOWN_FUNC n = 0 →
        t.fld Fld.BT_LOWN_FUNC n = 1 ∧ t.fld Fld.BT_LOWN_OWN_SRC n = 0x200) ∧ t.mem = s.mem) ∧
    (fail ≠ 0 → s.does (.railBringUp fail) (fun t =>
      t.pwr = { s.pwr with failed := true } ∧ t.fld Fld.BT_STAT_FAIL 0 = fail % 256))) ∧
  (s.pwr.phase = 5 →
    s.does (.hbmTraining 0) (fun t =>
      t.pwr = { s.pwr with phase := 6 } ∧ t.fld Fld.BT_STAT_PHASE 0 = 6 ∧ ∀ p < 64, t.fld Fld.MC_PCSTAT_STATE p = 2) ∧
    ∀ (bad : BitVec 4) (i : Nat), i < 4 → bad.getLsbD i = true → (∀ h < i, bad.getLsbD h = false) →
      s.does (.hbmTraining bad) (fun t => t.pwr = { s.pwr with failed := true } ∧ t.fld Fld.BT_STAT_FAIL 0 = 0x50 + i)) ∧
  (s.pwr.phase = 6 →
    (∀ b ∈ s.findImage 3 flash0 flash1, s.llc = [] → s.cores = [] → s.fwPend = [] →
      s.does (.coreFirmwareLoad flash0 flash1) (fun t =>
      t.pwr = { s.pwr with phase := 7, fwGuard := (if imgDlen b = 0 then s.pwr.fwGuard else s.fwGuardOld) } ∧
      t.fld Fld.BT_STAT_PHASE 0 = 7 ∧
      (∀ p < 64, imgDlen b ≠ 0 → s.flag Fld.CK_FWCTL_LOCK p = false →
        t.flag Fld.CK_FWA_EN (16 * p) = true ∧ t.flag Fld.CK_FWA_NR (16 * p) = true ∧ t.flag Fld.CK_FWA_NW (16 * p) = false ∧
        t.fld Fld.CK_FWA_BASE (16 * p) = imgLoad b / 4096 % 2 ^ 36 ∧ t.fld Fld.CK_FWB_SMASK (16 * p) = 0 ∧
        t.fld Fld.CK_FWB_LIMIT (16 * p) = (imgLoad b + imgDlen b - 1) / 4096 % 2 ^ 36) ∧
      t.fld Fld.BT_ENTRY_ENTRY 0 = imgEntry b % 2 ^ 48 ∧ t.fld Fld.BT_VER_CORE 0 = imgVersion b % 2 ^ 32 ∧
      t.mem = (s.placeBytes (imgLoad b) (slice b 64 (imgDlen b))).mem ∧
      (∀ x, slice b 64 (imgDlen b) = [x] → BMap.wf s.mem = true → BMap.get t.mem (s.hbmLoc (imgLoad b)) = x))) ∧
    (s.findImage 3 flash0 flash1 = none → s.does (.coreFirmwareLoad flash0 flash1) (fun t =>
      t.pwr = { s.pwr with failed := true } ∧ t.fld Fld.BT_STAT_FAIL 0 = 0x60))) ∧
  (s.pwr.phase = 7 → s.srcLive .reeve = true → s.unitUp .BT_CREL = true →
    s.pwr.fwGuard = [] ∨ (s.llc = [] ∧ s.cores = [] ∧ s.fwPend = []) → s.does (.coreRelease .reeve k v) (fun t =>
    t.csrGet .BT_CREL k.val = s.csrGet .BT_CREL k.val ||| v ∧
    (∀ i < 64, 64 * k.val + i < 160 → v.getLsbD i = true → (s.csrGet .BT_CREL k.val).getLsbD i = false →
      s.islState (coreIsland (64 * k.val + i)) = 1 →
      (t.core (64 * k.val + i)).run = (if 64 * k.val + i = 0 then .running else .parked) ∧
      (64 * k.val + i = 0 → (t.core 0).arch.pc = BitVec.ofNat 48 (s.fld Fld.BT_ENTRY_ENTRY 0))) ∧
    ((∀ c < 160, (t.coreReleased c || t.islState (coreIsland c) != 1) = true) →
      t.pwr.mode = .run ∧ t.fld Fld.BT_STAT_PHASE 0 = 8) ∧
    (t.coreReleased 0 = true → s.cocoon.run = .running → t.pwr.fwGuard = []) ∧
    (t.coreReleased 0 = false ∨ s.cocoon.run = .stopped → t.pwr.fwGuard = s.pwr.fwGuard) ∧ t.mem = s.mem))

/-- R86, R584, R585, R587, R588: the resets, and what each leaves. -/
def Obligations.ResetCommands : Prop :=
  ∀ (s : State) (src : Src) (c : CoreId) (j : IslandId) (hottest : Int),
  (s.pwr.standby = true → s.pwr.mode ≠ .off →
    (s.pwr.tripLatch = false → s.pwr.emergency = false → s.pwr.failSeq = false →
      s.does (.resetNAssert hottest) (fun t =>
        t.pwr.mode = .start ∧ t.pwr.phase = (if s.pwr.mode = .standby then 4 else 1) ∧ t.pwr.resetLow = true ∧
        t.bell = {} ∧ t.cores = [] ∧ t.mem = [] ∧ t.fld Fld.BT_STAT_CAUSE 0 = 1 ∧ t.pending = s.pending ∧
        (∀ f < 65, t.flag Fld.CK_FWCTL_LOCK f = false) ∧ (∀ f < 64, t.flag Fld.CK_GFWCTL_LOCK f = false) ∧
        t.blown = s.blown ∧ t.fld Fld.CK_CSTAT_RESETS 0 = s.fld Fld.CK_CSTAT_RESETS 0)) ∧
    (s.pwr.tripLatch = false → s.pwr.emergency = true → hottest < 360 → s.does (.resetNAssert hottest) (fun t =>
      t.pwr.mode = .start ∧ t.pwr.phase = 4 ∧ t.pwr.thermtripLow = false ∧ t.pwr.emergency = false)) ∧
    (s.pwr.tripLatch = true → hottest < 360 → s.does (.resetNAssert hottest) (fun t =>
      t.pwr.mode = .start ∧ t.pwr.phase = 1 ∧ t.pwr.tripLatch = false ∧ t.pwr.thermtripLow = false)) ∧
    (s.pwr.tripLatch = true ∨ s.pwr.emergency = true → 360 ≤ hottest → s.does (.resetNAssert hottest) (fun t => t = s))) ∧
  s.does .resetNRelease (fun t => t = { s with pwr := { s.pwr with resetLow := false } }) ∧
  (s.srcLive src = true → s.unitUp .BT_RST = true →
    (s.srcSys src = true →
      (s.groupOf c.val = none → s.does (.coreReset src c false) (fun t =>
        t.fld Fld.BT_RST_LAST_STATUS 0 = 0x00 ∧ t.fld Fld.BT_RST_LAST_SRC 0 = srcId src ∧
        (t.core c.val).run = .parked ∧ (t.core c.val).romPark = true ∧ (t.core c.val).arch = { pc := 0x00FFFFF01000 } ∧
        (t.core c.val).sb = [] ∧ (t.core c.val).l2 = [])) ∧
      (∀ g < 80, s.groupOf c.val = some g → s.fld Fld.CG_STAT_SIZE_EFF g = 3 → (∃ i < 3, s.groupMember g i = c.val ∧
          s.fld Fld.CG_STAT_ACTIVE g / 2 ^ i % 2 = 1 ∧ ∀ k < 3, k ≠ i → s.groupMember g k ≠ c.val) →
        s.does (.coreReset src c false) (fun t =>
          t.fld Fld.BT_RST_LAST_STATUS 0 = 0x00 ∧ t.fld Fld.CG_STAT_SIZE_EFF g = 2 ∧ t.flag Fld.CG_CORE_IN c.val = false ∧
          (t.core c.val).run = .parked ∧ (t.core c.val).arch = { pc := 0x00FFFFF01000 })) ∧
      (j.val < 20 → s.islHeld j.val = false → s.islState j.val = 1 →
        (∀ k < 160, coreIsland k = j.val → s.groupOf k = none) → s.does (.islandReset src j false) (fun t =>
        t.fld Fld.BT_RST_LAST_STATUS 0 = 0x00 ∧
        ∀ k < 160, coreIsland k = j.val → (t.core k).run = .parked ∧ (t.core k).arch = { pc := 0x00FFFFF01000 })) ∧
      (j.val = 21 → s.islHeld 21 = false → s.islState 21 = 1 → s.does (.islandReset src j false) (fun t =>
        t.fld Fld.BT_RST_LAST_STATUS 0 = 0x00 ∧ t.threads = [] ∧ t.mem = s.mem ∧ t.cores = s.cores)) ∧
      (j.val < 20 → s.islHeld j.val = true → s.does (.islandReset src j false) (fun t =>
        t.fld Fld.BT_RST_LAST_STATUS 0 = 0x05 ∧ s.onlyRegs t [(.BT_RST, 0)])) ∧
      (j.val = 20 ∨ j.val = 23 ∨ j.val = 24 → s.does (.islandReset src j false) (fun t =>
        t.fld Fld.BT_RST_LAST_STATUS 0 = 0x07 ∧ s.onlyRegs t [(.BT_RST, 0)])) ∧
      (s.pwr.tripLatch = true ∨ s.pwr.emergency = true → s.does (.moduleWarmReset src false) (fun t =>
        t.pwr = s.pwr ∧ s.onlyRegs t [(.BT_RST, 0)])) ∧
      (s.pwr.tripLatch = false → s.pwr.emergency = false → s.does (.moduleWarmReset src false) (fun t =>
        t.pwr.mode = .start ∧ t.pwr.phase = 1 ∧ t.bell.acc = s.bell.acc ∧ t.cores = [] ∧ t.threads = [] ∧
        t.fld Fld.BT_STAT_WARM_CNT 0 = min (s.fld Fld.BT_STAT_WARM_CNT 0 + 1) 255 ∧ t.fld Fld.BT_STAT_CAUSE 0 = 2 ∧
        t.csrGet .PW_PFLOG 0 = s.csrGet .PW_PFLOG 0 ∧ t.fld Fld.CK_CSTAT_RESETS 0 = s.fld Fld.CK_CSTAT_RESETS 0 ∧
        t.csrGet .ER_STATUS c.val = s.csrGet .ER_STATUS c.val ∧
        t.granBad = s.granBad ∧ t.mem = BMap.dropIf s.mem isHbm))) ∧
    (s.srcSys src = false →
      s.does (.coreReset src c false) (fun t =>
        t.fld Fld.BT_RST_LAST_STATUS 0 = 0x07 ∧ s.onlyRegs t [(.BT_RST, 0)]) ∧
      s.does (.moduleWarmReset src false) (fun t =>
        t.fld Fld.BT_RST_LAST_STATUS 0 = 0x07 ∧ s.onlyRegs t [(.BT_RST, 0)]))) ∧
  (s.srcLive .reeve = true →
    (s.groupOf c.val = none → s.does (.coreReset .reeve c true) (fun t =>
      (t.core c.val).run = .parked ∧ (t.core c.val).sb = [])) ∧
    (j.val = 21 → s.does (.islandReset .reeve j true) (fun t => t.threads = [] ∧ t.mem = s.mem)) ∧
    (s.pwr.tripLatch = false → s.pwr.emergency = false →
      s.does (.moduleWarmReset .reeve true) (fun t => t.pwr.phase = 1 ∧ t.fld Fld.BT_STAT_CAUSE 0 = 6)) ∧
    (s.pwr.tripLatch = true ∨ s.pwr.emergency = true → s.does (.moduleWarmReset .reeve true) (fun t => t = s)))

/-- R39, R41, R131, R133 to R136, R523, R540: the services that load and reset firmware, a command a stage (the model's choice,
assumption logs 54 and 343), and the ownership of lands. -/
def Obligations.FirmwareServicesAndLands : Prop :=
  ∀ (m : SlotId) (s : State) (src : Src) (n : LandId) (v : Word) (flash0 flash1 : List Byte) (trngOk : Bool),
  (s.callState m.val = 2 → s.serving m.val 0x01 = true → s.does (.version m) (fun t =>
    t.answered m.val 0x00 ∧
    (t.csrGet .RV_RES0 m.val).toNat = s.svc.reeveVer.toNat + (s.svc.ext.getD 0).toNat * 2 ^ 32 ∧ t.mem = s.mem)) ∧
  (s.called m.val 0x0D false → s.does (.loadExt m) (fun t => t.answered m.val 0x07)) ∧
  (s.called m.val 0x0D true → (s.slot m.val).second = true → s.does (.loadExt m) (fun t => t.answered m.val 0x01)) ∧
  (s.called m.val 0x0D true → (s.slot m.val).second = false →
    (s.ckState 15 = 1 ∨ s.ckState 15 = 2 → s.does (.loadExt m) (fun t => t = s)) ∧
    (s.ckState 15 ≠ 1 → s.ckState 15 ≠ 2 →
      (s.svc.extCall = false → s.fld Fld.CK_OWN_CLAIM 15 = 0 ∨ s.fld Fld.CK_OWN_OWN_SRC 15 = 0x200 → s.does (.loadExt m) (fun t =>
        t.svc = { s.svc with extCall := true } ∧ t.callState m.val = 2 ∧ t.ckState 15 = 1 ∧ t.fld Fld.CK_CMD_CODE 15 = 0x0C ∧
        t.fld Fld.CK_CMD_TMO 15 = 4520 ∧ t.fld Fld.CK_OWN_CLAIM 15 = 1 ∧ t.fld Fld.CK_OWN_OWN_SRC 15 = 0x200 ∧
        t.csrGet .CK_MSG 120 = 1 ∧ t.csrGet .CK_MSG 121 = s.csrGet .RV_ARG0 m.val ∧
        t.csrGet .CK_MSG 122 = s.csrGet .RV_ARG1 m.val ∧ t.mem = s.mem)) ∧
      (s.svc.extCall = true →
        (s.fld Fld.CK_STAT_STATUS 15 = 0 → s.does (.loadExt m) (fun t =>
          t.answered m.val 0x00 ∧ t.csrGet .RV_RES0 m.val = s.csrGet .CK_MSG 120 ∧
          t.svc.ext = some ((s.csrGet .CK_MSG 120).truncate 32) ∧ t.svc.extCall = false ∧ t.mem = s.mem)) ∧
        (s.fld Fld.CK_STAT_STATUS 15 = 4 → s.does (.loadExt m) (fun t =>
          t.answered m.val 0x04 ∧ t.svc.ext = s.svc.ext ∧ t.svc.extCall = false ∧ t.mem = s.mem)) ∧
        (s.fld Fld.CK_STAT_STATUS 15 = 6 → s.does (.loadExt m) (fun t =>
          (t.answered m.val 0x04 ∨ t.answered m.val 0x15) ∧ t.svc.ext = s.svc.ext ∧ t.svc.extCall = false)) ∧
        (s.fld Fld.CK_STAT_STATUS 15 ≠ 0 → s.fld Fld.CK_STAT_STATUS 15 ≠ 4 → s.fld Fld.CK_STAT_STATUS 15 ≠ 6 →
          s.does (.loadExt m) (fun t =>
            t.answered m.val 0x15 ∧ t.svc.ext = s.svc.ext ∧ t.svc.long ≠ some m.val ∧ t.mem = s.mem))))) ∧
  (s.called m.val 0x0E true → s.does (.unloadExt m) (fun t => t.answered m.val 0x00 ∧ t.svc.ext = none ∧ t.mem = s.mem)) ∧
  ((s.slot m.val).taken = true → 0x80 ≤ (s.slot m.val).code → (s.slot m.val).code ≤ 0xFF → s.svc.ext.isSome = true →
    s.extHandler (s.slot m.val).code ≠ 0 → s.does (.extensionService m) (fun t =>
      t.reeve.pc = BitVec.ofNat 16 (s.extHandler (s.slot m.val).code) ∧ t.reeve.t 0 = BitVec.ofNat 32 m.val ∧
      t.reeve.x 0 = s.reeve.x 0 ||| 0x10 ∧ t.svc.extSlot = some m.val ∧ t.csr = s.csr ∧ t.mem = s.mem)) ∧
  (s.callState m.val = 2 → (s.slot m.val).taken = true →
    (0x80 ≤ (s.slot m.val).code → (s.slot m.val).code ≤ 0xFF → s.svc.ext = none →
      s.does (.extensionService m) (fun t => t.answered m.val 0x08)) ∧
    (0x0F ≤ (s.slot m.val).code → (s.slot m.val).code ≤ 0x7F →
      s.does (.badService m) (fun t => t.answered m.val 0x08 ∧ t.mem = s.mem))) ∧
  (s.svc.extSlot = some m.val → s.callState m.val = 2 → s.does .extHandlerOverrun (fun t =>
    t.answered m.val 0x16 ∧ t.svc.ext = none ∧ t.svc.extSlot = none ∧ t.mem = s.mem)) ∧
  (s.called m.val 0x0C true → (s.slot m.val).second = true →
    s.does (.cocoonReset m flash0 flash1 trngOk) (fun t => t.answered m.val 0x01 ∧ t.cocoon = s.cocoon)) ∧
  (s.called m.val 0x0C true → (s.slot m.val).second = false →
    (s.svc.ckReset = 0 → s.does (.cocoonReset m flash0 flash1 trngOk) (fun t =>
      t.svc.ckReset = 1 ∧ t.fld Fld.CK_CSTAT_STATE 0 = 0 ∧
      t.fld Fld.CK_CSTAT_RESETS 0 = min (s.fld Fld.CK_CSTAT_RESETS 0 + 1) 255 ∧ t.cocoon.run = .stopped ∧
      t.cocoon.sram = [] ∧ t.cocoon.prog = [] ∧ t.cocoon.mbq = [] ∧ t.keys = [] ∧
      (s.llc = [] → t.callState m.val = 2 ∧ (∀ l < 80, t.flag Fld.MC_LLC_SECFLUSH_DONE l = true) ∧
        ∀ k < 16, (s.ckState k = 1 → t.ckState k = 4 ∧ t.fld Fld.CK_STAT_STATUS k = 4) ∧
          (s.ckState k = 2 → t.ckState k = 4 ∧ t.fld Fld.CK_STAT_STATUS k = 6)))) ∧
    (s.svc.ckReset = 1 → s.does (.cocoonReset m flash0 flash1 trngOk) (fun t =>
      t.fld Fld.CK_CSTAT_STATE 0 = 1 ∧ t = { s with csr := t.csr, svc := { s.svc with ckReset := 2 } } ∧
      s.regsKept t [(.CK_CSTAT, 0)])) ∧
    (2 ≤ s.svc.ckReset →
      (∀ b ∈ s.findImage 1 flash0 flash1, trngOk = true → s.does (.cocoonReset m flash0 flash1 trngOk) (fun t =>
        t.answered m.val 0x00 ∧ t.svc.ckReset = 0 ∧ t.fld Fld.CK_CSTAT_STATE 0 = 2 ∧ t.cocoon.run = .running ∧
        t.cocoon.pc = BitVec.ofNat 16 (imgEntry b) ∧ t.cocoonVer = BitVec.ofNat 32 (imgVersion b) ∧
        t.keys = Config.fusedKeys ∧ t.cocoon.mbq = s.cocoon.mbq ∧ t.mem = s.mem)) ∧
      (trngOk = false ∨ s.findImage 1 flash0 flash1 = none → s.does (.cocoonReset m flash0 flash1 trngOk) (fun t =>
        t.answered m.val 0x00 ∧ t.svc.ckReset = 0 ∧ t.fld Fld.CK_CSTAT_STATE 0 = 3 ∧ t.cocoon = s.cocoon ∧ t.mem = s.mem)))) ∧
  (s.called m.val 0x0C false → s.does (.cocoonReset m flash0 flash1 trngOk) (fun t =>
    t.answered m.val 0x07 ∧ t.cocoon = s.cocoon)) ∧
  (s.srcLive src = true → s.unitUp .BT_LOWN = true → s.lownSecure n.val = true → src ≠ .cocoon →
    s.does (.landOwnershipWrite src n v) (fun t =>
      t.fld Fld.BT_LOWN_FUNC n.val = s.fld Fld.BT_LOWN_FUNC n.val ∧
      t.fld Fld.BT_LOWN_OWN_SRC n.val = s.fld Fld.BT_LOWN_OWN_SRC n.val ∧
      t.fld Fld.BT_LOWN_LAST_STATUS n.val = 0x07 ∧ t.fld Fld.BT_LOWN_LAST_SRC n.val = srcId src)) ∧
  (∀ f own : Nat, s.srcLive src = true → s.unitUp .BT_LOWN = true → s.lownSecure n.val = false ∨ src = .cocoon →
    f = Fld.BT_LOWN_FUNC.of v → own = s.fld Fld.BT_LOWN_OWN_SRC n.val → s.does (.landOwnershipWrite src n v) (fun t =>
    t.fld Fld.BT_LOWN_LAST_SRC n.val = srcId src ∧ t.mem = s.mem ∧ t.cores = s.cores ∧
    (¬ (f ≤ 1 ∨ (f = 2 ∧ (n.val = 5 ∨ n.val = 17))) ∨ (Fld.BT_LOWN_FORCE.of v = 1 ∧ src ≠ .reeve) →
      t.fld Fld.BT_LOWN_FUNC n.val = s.fld Fld.BT_LOWN_FUNC n.val ∧ t.fld Fld.BT_LOWN_OWN_SRC n.val = own ∧
      t.fld Fld.BT_LOWN_LAST_STATUS n.val = 0x07) ∧
    (f ≤ 1 ∨ (f = 2 ∧ (n.val = 5 ∨ n.val = 17)) →
      (Fld.BT_LOWN_FORCE.of v = 1 → src = .reeve →
        t.fld Fld.BT_LOWN_FUNC n.val = f ∧ t.fld Fld.BT_LOWN_OWN_SRC n.val = 0x200 ∧
        t.fld Fld.BT_LOWN_LAST_STATUS n.val = 0x00) ∧
      (Fld.BT_LOWN_FORCE.of v = 0 →
        (s.fld Fld.BT_LOWN_FUNC n.val = 0 → f ≠ 0 →
          t.fld Fld.BT_LOWN_FUNC n.val = f ∧ t.fld Fld.BT_LOWN_OWN_SRC n.val = srcId src ∧
          t.fld Fld.BT_LOWN_LAST_STATUS n.val = 0x00) ∧
        (s.fld Fld.BT_LOWN_FUNC n.val = 0 → f = 0 →
          t.fld Fld.BT_LOWN_FUNC n.val = 0 ∧ t.fld Fld.BT_LOWN_OWN_SRC n.val = own ∧
          t.fld Fld.BT_LOWN_LAST_STATUS n.val = 0x00) ∧
        (s.fld Fld.BT_LOWN_FUNC n.val ≠ 0 → own = srcId src →
          t.fld Fld.BT_LOWN_FUNC n.val = f ∧ t.fld Fld.BT_LOWN_OWN_SRC n.val = own ∧
          t.fld Fld.BT_LOWN_LAST_STATUS n.val = 0x00) ∧
        (s.fld Fld.BT_LOWN_FUNC n.val ≠ 0 → own ≠ srcId src →
          t.fld Fld.BT_LOWN_FUNC n.val = s.fld Fld.BT_LOWN_FUNC n.val ∧ t.fld Fld.BT_LOWN_OWN_SRC n.val = own ∧
          t.fld Fld.BT_LOWN_LAST_STATUS n.val = 0x02)))))

/-- R117, R119: the ALU register operations of a Tally core: the result, every flag, and the frame.

R117, R119: the ALU immediate operations of a Tally core: the immediate is the concatenation of the prefixes'
payloads with IMM6, sign-extended but for `andi`. -/
def Obligations.TallyAluOperations : Prop :=
  (∀ (s : State) (cpu : TallyCpu) (d r : TReg) (a b : BitVec 32) (n z c v : Bool),
  s.tallyReady cpu → (s.tally cpu).prefixN = 0 → a = (s.tally cpu).t d → b = (s.tally cpu).t r →
  (s.tally cpu).flags = mkFlags n z c v →
  s.does (.tallyMov cpu d r) (s.tallyGives cpu 1 d (some b) (mkFlags n z c v)) ∧
  s.does (.tallyAdd cpu d r) (s.tallyGives cpu 1 d (some (a + b)) (mkFlags (a + b).msb (a + b == 0)
    (decide (2 ^ 32 ≤ a.toNat + b.toNat)) (a.toInt + b.toInt != (a + b).toInt))) ∧
  s.does (.tallySub cpu d r) (s.tallyGives cpu 1 d (some (a - b)) (mkFlags (a - b).msb (a == b)
    (decide (b.toNat ≤ a.toNat)) (a.toInt - b.toInt != (a - b).toInt))) ∧
  s.does (.tallyCmp cpu d r) (s.tallyGives cpu 1 d none (mkFlags (a - b).msb (a == b)
    (decide (b.toNat ≤ a.toNat)) (a.toInt - b.toInt != (a - b).toInt))) ∧
  s.does (.tallyAnd cpu d r) (s.tallyGives cpu 1 d (some (a &&& b)) (mkFlags (a &&& b).msb (a &&& b == 0) c v)) ∧
  s.does (.tallyOr cpu d r) (s.tallyGives cpu 1 d (some (a ||| b)) (mkFlags (a ||| b).msb (a ||| b == 0) c v)) ∧
  s.does (.tallyXor cpu d r) (s.tallyGives cpu 1 d (some (a ^^^ b)) (mkFlags (a ^^^ b).msb (a ^^^ b == 0) c v)) ∧
  s.does (.tallyTst cpu d r) (s.tallyGives cpu 1 d none (mkFlags (a &&& b).msb (a &&& b == 0) c v)) ∧
  s.does (.tallyShl cpu d r) (s.tallyGives cpu 1 d (some (a <<< (b.toNat % 32)))
    (mkFlags (a <<< (b.toNat % 32)).msb (a <<< (b.toNat % 32) == 0)
      (if b.toNat % 32 = 0 then c else a.getLsbD (32 - b.toNat % 32)) v)) ∧
  s.does (.tallyShr cpu d r) (s.tallyGives cpu 1 d (some (a >>> (b.toNat % 32)))
    (mkFlags (a >>> (b.toNat % 32)).msb (a >>> (b.toNat % 32) == 0)
      (if b.toNat % 32 = 0 then c else a.getLsbD (b.toNat % 32 - 1)) v)) ∧
  s.does (.tallySar cpu d r) (s.tallyGives cpu 1 d (some (a.sshiftRight (b.toNat % 32)))
    (mkFlags a.msb (a.sshiftRight (b.toNat % 32) == 0)
      (if b.toNat % 32 = 0 then c else a.getLsbD (b.toNat % 32 - 1)) v)) ∧
  s.does (.tallyMul cpu d r) (s.tallyGives cpu 3 d (some (a * b)) (mkFlags (a * b).msb (a * b == 0) c v)) ∧
  s.does (.tallyMulhu cpu d r) (s.tallyGives cpu 3 d (some (BitVec.ofNat 32 (a.toNat * b.toNat / 2 ^ 32)))
    (mkFlags (decide (2 ^ 63 ≤ a.toNat * b.toNat)) (decide (a.toNat * b.toNat < 2 ^ 32)) c v)) ∧
  s.does (.tallyAdc cpu d r) (s.tallyGives cpu 1 d (some (a + b + (BitVec.ofBool c).zeroExtend 32))
    (mkFlags (a + b + (BitVec.ofBool c).zeroExtend 32).msb (a + b + (BitVec.ofBool c).zeroExtend 32 == 0)
      (decide (2 ^ 32 ≤ a.toNat + b.toNat + c.toNat))
      (a.toInt + b.toInt + c.toNat != (a + b + (BitVec.ofBool c).zeroExtend 32).toInt))) ∧
  s.does (.tallySbc cpu d r) (s.tallyGives cpu 1 d (some (a - b - (BitVec.ofBool (!c)).zeroExtend 32))
    (mkFlags (a - b - (BitVec.ofBool (!c)).zeroExtend 32).msb (a - b - (BitVec.ofBool (!c)).zeroExtend 32 == 0)
      (decide (b.toNat + (!c).toNat ≤ a.toNat))
      (a.toInt - b.toInt - (!c).toNat != (a - b - (BitVec.ofBool (!c)).zeroExtend 32).toInt))) ∧
  s.does (.tallyClz cpu d r) (fun t => ∃ k ≤ 32, s.tallyGives cpu 1 d (some (BitVec.ofNat 32 k)) (mkFlags n (k == 0) c v) t ∧
    (∀ i < 32, 31 < i + k → b.getLsbD i = false) ∧ (k < 32 → b.getLsbD (31 - k) = true))) ∧
  (∀ (s : State) (cpu : TallyCpu) (d : TReg) (imm6 : BitVec 6) (a b u : BitVec 32) (n z c v : Bool),
  s.tallyReady cpu → (s.tally cpu).prefixN ≤ 3 → a = (s.tally cpu).t d →
  b = BitVec.ofInt 32 (signedOf (12 * (s.tally cpu).prefixN + 6) ((s.tally cpu).prefixE.toNat * 64 + imm6.toNat)) →
  u = BitVec.ofNat 32 ((s.tally cpu).prefixE.toNat * 64 + imm6.toNat) → (s.tally cpu).flags = mkFlags n z c v →
  s.does (.tallyMovi cpu d imm6) (s.tallyGives cpu 1 d (some b) (mkFlags n z c v)) ∧
  s.does (.tallyAddi cpu d imm6) (s.tallyGives cpu 1 d (some (a + b)) (mkFlags (a + b).msb (a + b == 0)
    (decide (2 ^ 32 ≤ a.toNat + b.toNat)) (a.toInt + b.toInt != (a + b).toInt))) ∧
  s.does (.tallyCmpi cpu d imm6) (s.tallyGives cpu 1 d none (mkFlags (a - b).msb (a == b)
    (decide (b.toNat ≤ a.toNat)) (a.toInt - b.toInt != (a - b).toInt))) ∧
  s.does (.tallyAndi cpu d imm6) (s.tallyGives cpu 1 d (some (a &&& u)) (mkFlags (a &&& u).msb (a &&& u == 0) c v)))

/-- R114, R117, R118, R123: the loads and stores of a Tally core in its data SRAM, where no error has struck, and the
data fault of a misaligned access. -/
def Obligations.TallyMemory : Prop :=
  ∀ (s : State) (cpu : TallyCpu) (d b : TReg) (p : BitVec 32), s.tallyReady cpu → (s.tally cpu).prefixN ≤ 3 →
  s.flag Fld.ER_INJ_ARM (if cpu = .reeve then 251 else 252) = false →
  (p = (s.tally cpu).t b + BitVec.ofInt 32
      (if (s.tally cpu).prefixN = 0 then 0 else signedOf (12 * (s.tally cpu).prefixN) (s.tally cpu).prefixE.toNat * 4) →
    (p.toNat < (if cpu = .reeve then 0x20000 else 0x80000) → p.toNat % 4 = 0 → FMap.get (s.tally cpu).sramBad 0 (p.toNat / 4) = 0 →
      s.does (.ld cpu d b) (s.tallyGives cpu 2 d (some (FMap.get (s.tally cpu).sram 0 (p.toNat / 4))) (s.tally cpu).flags) ∧
      s.does (.st cpu d b) (fun t => (s.tally cpu).counts (t.tally cpu) 2 ∧
        t = s.modTally cpu (fun k => { k with sram := FMap.set k.sram (p.toNat / 4) (k.t d),
                                              sramBad := FMap.set k.sramBad (p.toNat / 4) 0,
                                              pc := k.pc + 1, prefixN := 0, prefixE := 0, xregs := (t.tally cpu).xregs }))) ∧
    (p.toNat % 4 ≠ 0 → ((s.tally cpu).x 0).getLsbD 4 = true → s.svc.extSlot = none →
      s.does (.ld cpu d b) (fun t =>
        (t.tally cpu).x 1 = (s.tally cpu).firstPc.zeroExtend 32 ∧ (t.tally cpu).x 2 = 2 ∧ (t.tally cpu).x 3 = p ∧
        ((t.tally cpu).x 0).getLsbD 4 = false ∧ ((t.tally cpu).x 0).getLsbD 5 = true ∧
        (t.tally cpu).pc = (if ((s.tally cpu).x 0).getLsbD 6 = true then 0x8008 else 0x0008) ∧
        (t.tally cpu).regs = (s.tally cpu).regs ∧ t = s.modTally cpu (fun _ => t.tally cpu)))) ∧
  (p = (s.tally cpu).t b + BitVec.ofInt 32
      (if (s.tally cpu).prefixN = 0 then 0 else signedOf (12 * (s.tally cpu).prefixN) (s.tally cpu).prefixE.toNat * 8) →
    p.toNat + 4 < (if cpu = .reeve then 0x20000 else 0x80000) → p.toNat % 8 = 0 → d.toNat % 2 = 0 →
    FMap.get (s.tally cpu).sramBad 0 (p.toNat / 4) = 0 → FMap.get (s.tally cpu).sramBad 0 (p.toNat / 4 + 1) = 0 →
    s.does (.ldp cpu d b) (fun t =>
      (t.tally cpu).t d = FMap.get (s.tally cpu).sram 0 (p.toNat / 4) ∧
      (t.tally cpu).t (d + 1) = FMap.get (s.tally cpu).sram 0 (p.toNat / 4 + 1) ∧
      (∀ r : TReg, r ≠ d → r ≠ d + 1 → (t.tally cpu).t r = (s.tally cpu).t r) ∧ (s.tally cpu).counts (t.tally cpu) 2 ∧
      t = s.modTally cpu (fun k => { k with regs := (t.tally cpu).regs, pc := k.pc + 1, prefixN := 0, prefixE := 0,
                                            xregs := (t.tally cpu).xregs })) ∧
    s.does (.stp cpu d b) (fun t =>
      FMap.get (t.tally cpu).sram 0 (p.toNat / 4) = (s.tally cpu).t d ∧
      FMap.get (t.tally cpu).sram 0 (p.toNat / 4 + 1) = (s.tally cpu).t (d + 1) ∧
      (∀ w, w ≠ p.toNat / 4 → w ≠ p.toNat / 4 + 1 →
        FMap.get (t.tally cpu).sram 0 w = FMap.get (s.tally cpu).sram 0 w) ∧ (s.tally cpu).counts (t.tally cpu) 2 ∧
      t = s.modTally cpu (fun k => { k with sram := (t.tally cpu).sram, sramBad := (t.tally cpu).sramBad,
                                            pc := k.pc + 1, prefixN := 0, prefixE := 0, xregs := (t.tally cpu).xregs })))

/-- R116, R117, R121: the command that every Tally word spells, format by format, and the words that spell none (that a
system word with bits [5:4] set spells none is DEDUCED, assumption log 316).

R119 to R123: prefixes, branches, jumps, and the system operations of a Tally core, with the steps each takes. -/
def Obligations.TallyControl : Prop :=
  (∀ (cpu : TallyCpu) (d r : TReg) (imm6 : BitVec 6) (disp9 : BitVec 9) (cond : Cond) (payload : BitVec 12) (op : BitVec 4),
    decodeTally cpu (0b00#2 ++ op ++ d ++ r) = some ([.tallyMov cpu d r, .tallyAdd cpu d r, .tallySub cpu d r,
      .tallyCmp cpu d r, .tallyAnd cpu d r, .tallyOr cpu d r, .tallyXor cpu d r, .tallyTst cpu d r, .tallyShl cpu d r,
      .tallyShr cpu d r, .tallySar cpu d r, .tallyMul cpu d r, .tallyMulhu cpu d r, .tallyAdc cpu d r, .tallySbc cpu d r,
      .tallyClz cpu d r].getD op.toNat (.tallyMov cpu d r)) ∧
    decodeTally cpu (0b0100#4 ++ imm6 ++ d) = some (.tallyMovi cpu d imm6) ∧
    decodeTally cpu (0b0101#4 ++ imm6 ++ d) = some (.tallyAddi cpu d imm6) ∧
    decodeTally cpu (0b0110#4 ++ imm6 ++ d) = some (.tallyCmpi cpu d imm6) ∧
    decodeTally cpu (0b0111#4 ++ imm6 ++ d) = some (.tallyAndi cpu d imm6) ∧
    decodeTally cpu (0b100000#6 ++ d ++ r) = some (.ld cpu d r) ∧
    decodeTally cpu (0b100001#6 ++ d ++ r) = some (.st cpu d r) ∧
    decodeTally cpu (0b100010#6 ++ d ++ r) = some (.ldp cpu d r) ∧
    decodeTally cpu (0b100011#6 ++ d ++ r) = some (.stp cpu d r) ∧
    decodeTally cpu (0b1001#4 ++ cond ++ imm6) = some (.tallyBranch cpu cond imm6) ∧
    decodeTally cpu (0b10100#5 ++ disp9) = some (.tallyJump cpu false disp9) ∧
    decodeTally cpu (0b10101#5 ++ disp9) = some (.tallyJump cpu true disp9) ∧
    decodeTally cpu (0b1011#4 ++ op ++ 0b00#2 ++ r) = ([.tallyJr cpu r, .jlr cpu r, .reti cpu, .mfx cpu r,
      .mtx cpu r, .tallyWait cpu r, .fence cpu] : List Instr)[op.toNat]? ∧
    decodeTally cpu (0b11#2 ++ payload) = some (.tallyPrefix cpu payload) ∧
    (imm6.extractLsb' 0 2 ≠ 0 → decodeTally cpu (0b1011#4 ++ imm6 ++ r) = none)) ∧
  (∀ (s : State) (cpu : TallyCpu) (payload : BitVec 12) (cond : Cond) (disp6 : BitVec 6) (disp9 : BitVec 9) (link : Bool)
    (r : TReg) (k : Tally), s.tallyReady cpu → k = s.tally cpu →
  (k.prefixN < 3 → s.does (.tallyPrefix cpu payload) (fun t => k.counts (t.tally cpu) 1 ∧
    t = s.modTally cpu (fun k => { k with prefixN := k.prefixN + 1, prefixE := k.prefixE * 4096 + payload.zeroExtend 36,
                                          prefixPc := k.firstPc, pc := k.pc + 1, xregs := (t.tally cpu).xregs }))) ∧
  (k.prefixN = 3 → (k.x 0).getLsbD 4 = true → s.svc.extSlot = none → s.does (.tallyPrefix cpu payload) (fun t =>
    (t.tally cpu).x 1 = k.prefixPc.zeroExtend 32 ∧ (t.tally cpu).x 2 = 1 ∧
    (t.tally cpu).pc = (if (k.x 0).getLsbD 6 = true then 0x8004 else 0x0004) ∧ (t.tally cpu).prefixN = 0)) ∧
  (k.prefixN ≠ 0 → (k.x 0).getLsbD 4 = true → s.svc.extSlot = none → s.does (.tallyMov cpu r r) (fun t =>
    (t.tally cpu).x 1 = k.prefixPc.zeroExtend 32 ∧ (t.tally cpu).x 2 = 1 ∧ (t.tally cpu).regs = k.regs ∧
    (t.tally cpu).pc = (if (k.x 0).getLsbD 6 = true then 0x8004 else 0x0004) ∧ (t.tally cpu).prefixN = 0)) ∧
  (∀ n z c v : Bool,
    condHolds 0 (mkFlags n z c v) = z ∧ condHolds 1 (mkFlags n z c v) = !z ∧
    condHolds 2 (mkFlags n z c v) = c ∧ condHolds 3 (mkFlags n z c v) = !c ∧
    condHolds 4 (mkFlags n z c v) = n ∧ condHolds 5 (mkFlags n z c v) = !n ∧
    condHolds 6 (mkFlags n z c v) = v ∧ condHolds 7 (mkFlags n z c v) = !v ∧
    condHolds 8 (mkFlags n z c v) = (c && !z) ∧ condHolds 9 (mkFlags n z c v) = (!c || z) ∧
    condHolds 10 (mkFlags n z c v) = (n == v) ∧ condHolds 11 (mkFlags n z c v) = (n != v) ∧
    condHolds 12 (mkFlags n z c v) = (!z && n == v) ∧ condHolds 13 (mkFlags n z c v) = (z || n != v) ∧
    condHolds 14 (mkFlags n z c v) = true ∧ condHolds 15 (mkFlags n z c v) = false) ∧
  s.does (.tallyBranch cpu cond disp6) (fun t =>
    (t.tally cpu).pc = (if condHolds cond k.flags = true then
        k.pc + 1 + BitVec.ofInt 16 (signedOf (12 * k.prefixN + 6) (k.prefixE.toNat * 64 + disp6.toNat))
      else k.pc + 1) ∧
    k.counts (t.tally cpu) (if condHolds cond k.flags = true then 3 else 1) ∧
    t = s.modTally cpu (fun k => { k with prefixN := 0, prefixE := 0, pc := (t.tally cpu).pc,
                                          xregs := (t.tally cpu).xregs })) ∧
  s.does (.tallyJump cpu link disp9) (fun t =>
    (t.tally cpu).pc = k.pc + 1 + BitVec.ofInt 16 (signedOf (12 * k.prefixN + 9) (k.prefixE.toNat * 512 + disp9.toNat)) ∧
    (t.tally cpu).t 15 = (if link then (k.pc + 1).zeroExtend 32 else k.t 15) ∧
    (∀ q : TReg, q ≠ 15 → (t.tally cpu).t q = k.t q) ∧ k.counts (t.tally cpu) 3 ∧
    t = s.modTally cpu (fun k => { k with prefixN := 0, prefixE := 0, pc := (t.tally cpu).pc, regs := (t.tally cpu).regs,
                                          xregs := (t.tally cpu).xregs })) ∧
  (k.prefixN = 0 →
    s.does (.tallyJr cpu r) (fun t => k.counts (t.tally cpu) 3 ∧
      t = s.modTally cpu (fun k => { k with pc := (k.t r).truncate 16, xregs := (t.tally cpu).xregs })) ∧
    s.does (.jlr cpu r) (fun t =>
      (t.tally cpu).pc = (k.t r).truncate 16 ∧ (t.tally cpu).t 15 = (k.pc + 1).zeroExtend 32 ∧
      (∀ q : TReg, q ≠ 15 → (t.tally cpu).t q = k.t q) ∧ k.counts (t.tally cpu) 3 ∧
      t = s.modTally cpu (fun k => { k with pc := (t.tally cpu).pc, regs := (t.tally cpu).regs,
                                            xregs := (t.tally cpu).xregs })) ∧
    s.does (.reti cpu) (fun t =>
      (t.tally cpu).pc = (k.x 1).truncate 16 ∧ ((t.tally cpu).x 0).getLsbD 4 = (k.x 0).getLsbD 5 ∧
      (∀ i < 32, i ≠ 4 → ((t.tally cpu).x 0).getLsbD i = (k.x 0).getLsbD i) ∧ (t.tally cpu).regs = k.regs ∧
      (∀ q < 8, q ≠ 0 → (t.tally cpu).x q = if q = 7 then k.x 7 + 3 else k.x q) ∧
      t = s.modTally cpu (fun k => { k with pc := (t.tally cpu).pc, xregs := (t.tally cpu).xregs })) ∧
    s.does (.fence cpu) (fun t => k.counts (t.tally cpu) 1 ∧
      t = s.modTally cpu (fun k => { k with pc := k.pc + 1, prefixN := 0, prefixE := 0, xregs := (t.tally cpu).xregs })) ∧
    (s.tallyEvents cpu &&& k.t r ≠ 0 → s.does (.tallyWait cpu r) (fun t => k.counts (t.tally cpu) 1 ∧
      t = s.modTally cpu (fun k => { k with pc := k.pc + 1, prefixN := 0, prefixE := 0, xregs := (t.tally cpu).xregs }))) ∧
    (s.tallyEvents cpu &&& k.t r = 0 → s.does (.tallyWait cpu r) (fun t => k.counts (t.tally cpu) 1 ∧
      t = s.modTally cpu (fun k => { k with waiting := some (k.t r), xregs := (t.tally cpu).xregs }))) ∧
    (s.tallyEvents cpu &&& k.x 6 ≠ 0 → (k.x 0).getLsbD 4 = true → s.does (.tallyEventEntry cpu) (fun t =>
      (t.tally cpu).x 1 = k.pc.zeroExtend 32 ∧ (t.tally cpu).x 2 = 3 ∧ ((t.tally cpu).x 0).getLsbD 4 = false ∧
      ((t.tally cpu).x 0).getLsbD 5 = true ∧ (t.tally cpu).pc = (if (k.x 0).getLsbD 6 = true then 0x800C else 0x000C) ∧
      (t.tally cpu).regs = k.regs ∧ t = s.modTally cpu (fun _ => t.tally cpu)))) ∧
  (k.prefixN ≤ 3 → k.xnum ≤ 7 →
    s.does (.mfx cpu r) (s.tallyGives cpu 1 r
      (some (if k.xnum = 5 then s.tallyEvents cpu else if k.xnum = 7 then k.x 7 + 1 else k.x k.xnum)) k.flags) ∧
    s.does (.mtx cpu r) (fun t =>
      (t.tally cpu).x k.xnum = [k.t r &&& 0x7F, k.t r &&& 0xFFFF, k.x 2, k.x 3, k.t r &&& 0x1FFFF, k.x 5, k.t r &&& 0xFF,
        k.x 7 + 1].getD k.xnum 0 ∧
      (∀ q < 8, q ≠ k.xnum → (t.tally cpu).x q = if q = 7 then k.x 7 + 1 else k.x q) ∧ (t.tally cpu).regs = k.regs ∧
      t = s.modTally cpu (fun k => { k with pc := k.pc + 1, prefixN := 0, prefixE := 0, xregs := (t.tally cpu).xregs }))) ∧
  (k.prefixN ≤ 3 → 7 < k.xnum → (k.x 0).getLsbD 4 = true → s.svc.extSlot = none →
    (s.does (.mfx cpu r) (fun t => (t.tally cpu).x 1 = k.firstPc.zeroExtend 32 ∧ (t.tally cpu).x 2 = 1 ∧
      (t.tally cpu).regs = k.regs) ∧
    s.does (.mtx cpu r) (fun t => (t.tally cpu).x 1 = k.firstPc.zeroExtend 32 ∧ (t.tally cpu).x 2 = 1 ∧
      (t.tally cpu).regs = k.regs))))

/-- R113, R115, R121, R124 to R130, R516, R519: the Tally cores' waits, stops, events, program loading and mailboxes. -/
def Obligations.TallyMailboxes : Prop :=
  ∀ (m : SlotId) (s : State) (cpu : TallyCpu) (v : BitVec 32) (k : Tally), k = s.tally cpu →
  (∀ w ∈ k.waiting, s.tallyEvents cpu &&& w ≠ 0 → s.does (.tallyWaitWake cpu) (fun t =>
    (∀ q < 7, (t.tally cpu).x q = k.x q) ∧
    t = { s.modTally cpu (fun k => { k with waiting := none, pc := k.pc + 1, xregs := (t.tally cpu).xregs }) with
      free := t.free })) ∧
  (s.reeve.run = .running → s.islState 23 = 1 → s.pwr.tripLatch = false → s.pwr.emergency = false →
    s.does .lockstepMismatch (fun t => t.fld Fld.BT_STAT_CAUSE 0 = 3 ∧ t.pwr.mode = .start ∧ t.pwr.phase = 1 ∧ t.bell.acc = s.bell.acc ∧
    ∀ j < 25, t.csrGet .PW_VSET j = s.csrGet .PW_VSET j)) ∧
  (s.reeve.run = .running → s.islState 23 = 1 → s.pwr.tripLatch = true ∨ s.pwr.emergency = true →
    s.does .lockstepMismatch (fun t => t.reeve.run = .stopped ∧ t.pwr = s.pwr)) ∧
  (s.cocoon.run = .running → s.islState 24 = 1 → s.does .cocoonStop (fun t =>
    t.cocoon.run = .stopped ∧ t.fld Fld.CK_CSTAT_STATE 0 = 4 ∧ t.mem = s.mem)) ∧
  (s.clockRuns = true → s.islState 24 = 1 → s.does .cocoonTick (fun t =>
    t.cocoon.x 5 = s.cocoon.x 5 ||| 0x20 ∧ t = { s with cocoon := { s.cocoon with xregs := t.cocoon.xregs } })) ∧
  (s.tallyIssues cpu = true →
    (∀ e ∈ k.mbq.head?, s.does (.mbqRead cpu) (fun t =>
      t.resp = { err := false, val := (BitVec.ofNat 32 (2 ^ 31 + e.2.1 * 2 ^ 16 + bit e.2.2.1 * 2 ^ 15 +
        (if cpu = .cocoon then bit e.2.2.2 * 2 ^ 14 else 0) + e.1)).zeroExtend 256 } ∧
      t = { s.modTally cpu (fun k => { k with mbq := k.mbq.tail, readQ := k.readQ.filter (· != e.1) ++ [e.1] }) with
        resp := t.resp })) ∧
    (k.mbq = [] → s.does (.mbqRead cpu) (fun t => t = { s with resp := { err := false, val := 0 } })) ∧
    s.does (.eventAck cpu v) (fun t =>
      (t.tally cpu).x 5 = k.x 5 &&& ~~~ v ∧ t = s.modTally cpu (fun k => { k with xregs := (t.tally cpu).xregs }))) ∧
  (s.tallyIssues .reeve = true →
    s.does (.ploadData v) (fun t =>
      (0x8000 ≤ s.reeve.ploadAddr.toNat → s.reeve.plock = false ∨ 0xE000 ≤ s.reeve.ploadAddr.toNat →
        FMap.get t.reeve.prog 0 s.reeve.ploadAddr.toNat = v.truncate 14) ∧
      (s.reeve.ploadAddr.toNat < 0x8000 ∨ (s.reeve.plock = true ∧ s.reeve.ploadAddr.toNat < 0xE000) →
        t.reeve.prog = s.reeve.prog) ∧
      t = { s with reeve := { s.reeve with prog := t.reeve.prog, ploadAddr := s.reeve.ploadAddr + 1 } }) ∧
    s.does (.plockSet v) (fun t => t = { s with reeve := { s.reeve with plock := s.reeve.plock || v.getLsbD 0 } }) ∧
    (v.toNat % 32 = m.val → s.callState m.val = 1 → s.nextCall ≠ some m.val → s.does (.mailboxTake v) (fun t => t = s)) ∧
    (v.toNat % 32 = m.val → s.callState m.val = 1 → s.nextCall = some m.val → s.does (.mailboxTake v) (fun t =>
      t.callState m.val = 2 ∧ (t.slot m.val).taken = true ∧ (t.slot m.val).code = s.fld Fld.RV_CMD_CODE m.val ∧
      ((t.slot m.val).second = true ↔ s.longCall m.val = true ∧ s.svc.long ≠ none) ∧ t.reeve.mbres = true ∧ s.regsKept t [(.RV_STAT, m.val)] ∧ t.mem = s.mem)) ∧
    (v.toNat % 32 = m.val → s.callState m.val = 4 → s.does (.mailboxTake v) (fun t =>
      t.callState m.val = 4 ∧ t.reeve.mbres = false ∧ t.csr = s.csr)) ∧
    (v.toNat % 32 = m.val → s.callState m.val = 2 → s.does (.mailboxComplete v) (fun t =>
      t.answered m.val (v.toNat / 256 % 256) ∧ t.csrGet .RV_RES0 m.val = (s.slot m.val).res0 ∧
      t.csrGet .RV_RES1 m.val = (s.slot m.val).res1 ∧ t.reeve.mbres = true ∧
      s.regsKept t [(.RV_STAT, m.val), (.RV_RES0, m.val), (.RV_RES1, m.val)] ∧ t.mem = s.mem)) ∧
    (v.toNat % 32 = m.val → s.callState m.val = 4 → (s.slot m.val).taken = true → s.does (.mailboxComplete v) (fun t =>
      t.callState m.val = 4 ∧ t.reeve.mbres = false ∧
      t.fld Fld.RV_STAT_LATE_CNT m.val = min (s.fld Fld.RV_STAT_LATE_CNT m.val + 1) 255 ∧
      s.regsKept t [(.RV_STAT, m.val)]))) ∧
  (s.tallyIssues .cocoon = true → v.toNat % 16 = m.val →
    (s.ckState m.val = 1 → s.does (.cocoonMailboxTake v) (fun t =>
      t.ckState m.val = 2 ∧ (t.ckSlot m.val).taken = true ∧ (t.ckSlot m.val).code = s.fld Fld.CK_CMD_CODE m.val ∧
      t.cocoon.mbres = true ∧ s.regsKept t [(.CK_STAT, m.val)])) ∧
    (s.ckState m.val = 2 → s.does (.cocoonMailboxComplete v) (fun t =>
      t.ckState m.val = 3 ∧ t.fld Fld.CK_STAT_STATUS m.val = v.toNat / 256 % 256 ∧ (t.ckSlot m.val).taken = false ∧
      (∀ i < 8, t.csrGet .CK_MSG (8 * m.val + i) =
        FMap.get (s.ckSlot m.val).reply (s.csrGet .CK_MSG (8 * m.val + i)) i) ∧ t.cocoon.mbres = true ∧ t.mem = s.mem)))

/-- R107, R127 to R130: the requester's side of a Reeve mailbox slot. -/
def Obligations.MailboxSlots : Prop :=
  ∀ (m : SlotId) (s : State) (src : Src) (v : Word),
  (s.srcLive src = true → s.unitUp .RV_OWN = true →
    (Fld.RV_OWN_FORCE.of v = 0 → s.does (.slotOwnWrite src m v) (fun t =>
      s.onlyRegs t [(.RV_OWN, m.val)] ∧ t.fld Fld.RV_OWN_LAST_SRC m.val = srcId src ∧
      (s.fld Fld.RV_OWN_CLAIM m.val = 0 → Fld.RV_OWN_CLAIM.of v = 1 →
        t.fld Fld.RV_OWN_CLAIM m.val = 1 ∧ t.fld Fld.RV_OWN_OWN_SRC m.val = srcId src ∧ t.fld Fld.RV_OWN_LAST_STATUS m.val = 0) ∧
      (Fld.RV_OWN_CLAIM.of v = 0 → s.callState m.val = 1 ∨ s.callState m.val = 2 →
        t.fld Fld.RV_OWN_CLAIM m.val = s.fld Fld.RV_OWN_CLAIM m.val ∧ t.fld Fld.RV_OWN_LAST_STATUS m.val = 0x01) ∧
      (s.fld Fld.RV_OWN_CLAIM m.val = 1 → s.fld Fld.RV_OWN_OWN_SRC m.val ≠ srcId src → Fld.RV_OWN_CLAIM.of v = 1 →
        t.fld Fld.RV_OWN_OWN_SRC m.val = s.fld Fld.RV_OWN_OWN_SRC m.val ∧ t.fld Fld.RV_OWN_LAST_STATUS m.val = 0x02))) ∧
    (s.ownedBy .RV_OWN m.val src = true →
      (s.callState m.val ≠ 1 → s.callState m.val ≠ 2 → s.does (.serviceDoorbell src m v) (fun t =>
        t.callState m.val = 1 ∧ t.fld Fld.RV_CMD_CODE m.val = Fld.RV_CMD_CODE.of v ∧
        t.fld Fld.RV_CMD_TMO m.val = Fld.RV_CMD_TMO.of v ∧
        t.fld Fld.RV_STAT_SEQ m.val = (s.fld Fld.RV_STAT_SEQ m.val + 1) % 256 ∧
        t.reeve.mbq = s.reeve.mbq ++ [(m.val, Fld.RV_CMD_CODE.of v, s.srcIsH src || src == .jtag, s.srcSecure src)] ∧
        t.reeve.x 5 = (if src = .cocoon then s.reeve.x 5 ||| 0x40 else s.reeve.x 5) ∧
        s.regsKept t [(.RV_STAT, m.val), (.RV_CMD, m.val)] ∧ t.mem = s.mem)) ∧
      (s.callState m.val = 1 ∨ s.callState m.val = 2 → s.does (.serviceDoorbell src m v) (fun t =>
        t.flag Fld.RV_STAT_WR_BUSY m.val = true ∧ t.callState m.val = s.callState m.val ∧
        s.onlyRegs t [(.RV_STAT, m.val)]))) ∧
    (s.ownedBy .RV_OWN m.val src = false → s.does (.serviceDoorbell src m v) (fun t => s.onlyRegs t []))) ∧
  (s.clockRuns = true →
    (s.callState m.val = 1 → s.does (.serviceTimeout m) (fun t =>
      t.callState m.val = 4 ∧ t.fld Fld.RV_STAT_STATUS m.val = 0x04 ∧ s.onlyRegs t [(.RV_STAT, m.val)])) ∧
    (s.callState m.val = 2 → s.does (.serviceTimeout m) (fun t =>
      t.callState m.val = 4 ∧ t.fld Fld.RV_STAT_STATUS m.val = 0x06 ∧ s.onlyRegs t [(.RV_STAT, m.val)])))

/-- R602, R604, R606, R613 to R618: error records, injection and the watchdog. -/
def Obligations.ErrorCommands : Prop :=
  ∀ (s : State) (src : Src) (u : UnitId) (r : RecId) (v : Word), s.srcLive src = true → s.islOpen 23 = true →
  (s.srcSys src = true → u.val ≠ 252 →
    (s.recValid u.val r.val = true → Fld.ER_STATUS_COUNT.of v = s.fld Fld.ER_STATUS_COUNT (4 * u.val + r.val) →
      s.does (.recordClear src u r v) (fun t =>
        t.recValid u.val r.val = false ∧ t.csrGet .ER_STATUS (4 * u.val + r.val) = 0 ∧
        t.csrGet .ER_ADDR (4 * u.val + r.val) = 0 ∧ t.csrGet .ER_TFIRST (4 * u.val + r.val) = 0 ∧
        t.csrGet .ER_TLAST (4 * u.val + r.val) = 0 ∧ t.fld Fld.ER_UCTL_VALID u.val / 2 ^ r.val % 2 = 0 ∧
        (∀ q < 4, q ≠ r.val → t.csrGet .ER_STATUS (4 * u.val + q) = s.csrGet .ER_STATUS (4 * u.val + q)) ∧
        s.onlyRegs t ([(.ER_STATUS, 4 * u.val + r.val), (.ER_ADDR, 4 * u.val + r.val), (.ER_TFIRST, 4 * u.val + r.val),
          (.ER_TLAST, 4 * u.val + r.val), (.ER_UCTL, u.val), (.ER_XGATE, u.val)] ++
          (List.range 12).map (fun k => (.ER_DATA, 12 * (4 * u.val + r.val) + k))))) ∧
    (Fld.ER_STATUS_COUNT.of v ≠ s.fld Fld.ER_STATUS_COUNT (4 * u.val + r.val) →
      s.does (.recordClear src u r v) (fun t => s.onlyRegs t [(.ER_XGATE, u.val)])) ∧
    (s.gateState .ER_INJ u.val = 2 → Fld.ER_INJ_CLASS.of v ≠ 3 → u.val < 240 →
      s.does (.injectionArm src u v) (fun t =>
        t.flag Fld.ER_INJ_ARM u.val = true ∧ t.fld Fld.ER_INJ_CLASS u.val = Fld.ER_INJ_CLASS.of v ∧
        t.fld Fld.ER_INJ_WHERE u.val = Fld.ER_INJ_WHERE.of v ∧ t.fld Fld.ER_INJ_ONREAD u.val = Fld.ER_INJ_ONREAD.of v ∧
        s.onlyRegs t [(.ER_INJ, u.val), (.ER_XGATE, u.val)])) ∧
    (s.gateState .ER_INJ u.val ≠ 2 → s.does (.injectionArm src u v) (fun t =>
        t.flag Fld.ER_XGATE_DENIED u.val = true ∧ s.onlyRegs t [(.ER_XGATE, u.val)])) ∧
    (s.gateState .ER_INJ u.val = 2 → (∀ q < 4, s.recValid u.val q = false) →
      s.does (.syntheticRecord src u v) (fun t =>
        t.flag Fld.ER_INJ_ARM u.val = false ∧ t.recValid u.val 0 = true ∧
        t.fld Fld.ER_STATUS_TYPE (4 * u.val) = Fld.ER_INJ_TYPE.of v ∧
        t.fld Fld.ER_STATUS_SEV (4 * u.val) = min (Fld.ER_INJ_SEV.of v) 2 ∧ t.flag Fld.ER_STATUS_INJ (4 * u.val) = true ∧
        t.fld Fld.ER_STATUS_COUNT (4 * u.val) = 1 ∧ t.fld Fld.ER_TFIRST_TS (4 * u.val) = s.ts48 ∧
        (2 ≤ Fld.ER_INJ_SEV.of v → (t.reeve.x 5).getLsbD 7 = true ∧
          (u.val < 160 → (t.core u.val).mchecks.length = (s.core u.val).mchecks.length + 1)) ∧ t.mem = s.mem))) ∧
  (s.srcSys src = false → s.does (.recordClear src u r v) (fun t => u.val ≠ 252 → s.onlyRegs t [(.ER_XGATE, u.val)])) ∧
  (src = .reeve →
    s.does (.watchdogKick src v) (fun t =>
      t.fld Fld.ER_WDOG_PERIOD 0 = min (max (Fld.ER_WDOG_PERIOD.of v) 1) 1000 ∧
      (s.fld Fld.ER_WDOG_STAGE 0 = 1 → t.fld Fld.ER_WDOG_STAGE 0 = 0 ∧
        t.fld Fld.ER_WDOG_LATE_CNT 0 = min (s.fld Fld.ER_WDOG_LATE_CNT 0 + 1) 255) ∧
      t.fld Fld.ER_WDOG_EXP_CNT 0 = s.fld Fld.ER_WDOG_EXP_CNT 0 ∧ s.onlyRegs t [(.ER_WDOG, 0), (.ER_XGATE, 250)])) ∧
  (src ≠ .reeve → s.does (.watchdogKick src v) (fun t => s.onlyRegs t [(.ER_XGATE, 250)])) ∧
  (s.pwr.wdog = true →
    (s.fld Fld.ER_WDOG_STAGE 0 = 0 → s.does .watchdogExpiry (fun t =>
      t.fld Fld.ER_WDOG_STAGE 0 = 1 ∧ t.fld Fld.ER_WDOG_EXP_CNT 0 = min (s.fld Fld.ER_WDOG_EXP_CNT 0 + 1) 255 ∧
      (t.reeve.x 5).getLsbD 7 = true ∧ t.pwr = s.pwr ∧ t.mem = s.mem)) ∧
    (s.fld Fld.ER_WDOG_STAGE 0 = 1 → s.pwr.tripLatch = false → s.pwr.emergency = false → s.does .watchdogExpiry (fun t =>
      t.fld Fld.BT_STAT_CAUSE 0 = 4 ∧ t.pwr.mode = .start ∧ t.pwr.phase = 1 ∧
      t.fld Fld.BT_STAT_WARM_CNT 0 = min (s.fld Fld.BT_STAT_WARM_CNT 0 + 1) 255)) ∧
    (s.fld Fld.ER_WDOG_STAGE 0 = 1 → s.pwr.tripLatch = true ∨ s.pwr.emergency = true → s.does .watchdogExpiry (fun t =>
      t.fld Fld.ER_WDOG_STAGE 0 = 2 ∧ t.pwr = s.pwr)))

/-- R577 to R581: freezing and snapshots of the performance counters. -/
def Obligations.SnapshotCommands : Prop :=
  ∀ (s : State) (src : Src) (v : Word) (c : CoreId) (i : Fin 8) (k : Fin 320),
  (s.srcLive src = true → s.unitUp .PM_GCTL = true →
    (s.pmMay src = true → s.flag Fld.PM_GSTAT_BUSY 0 = false →
      s.does (.snap src v) (fun t =>
        t.fld Fld.PM_GSTAT_LAST_STATUS 0 = 0 ∧ t.flag Fld.PM_GSTAT_BUSY 0 = true ∧ t.pmSnap = true ∧
        t.fld Fld.PM_GCTL_FREEZE 0 = Fld.PM_GCTL_FREEZE.of v ∧ t.fld Fld.PM_GSNAPTS_TS 0 = s.ts48 ∧
        (s.islState (coreIsland c.val) = 1 →
          (t.csrGet .PM_CSNAP (8 * c.val + i.val)).toNat = (s.core c.val).arch.csf CsFld.PMC_COUNT i.val ∧
          t.flag Fld.PM_CSTAT_VALID c.val = true ∧
          t.fld Fld.PM_CSTAT_SEQ c.val = (s.fld Fld.PM_GSTAT_SEQ 0 + 1) % 2 ^ 16) ∧
        (s.islState (coreIsland c.val) ≠ 1 → t.flag Fld.PM_CSTAT_VALID c.val = false ∧
          t.csrGet .PM_CSNAP (8 * c.val + i.val) = s.csrGet .PM_CSNAP (8 * c.val + i.val)) ∧
        t.csrGet .PM_LSNAP k.val = s.csrGet .PM_LCNT k.val ∧ t.csrGet .PM_HSNAP k.val = s.csrGet .PM_HCNT k.val ∧
        t = { s with csr := t.csr, resp := t.resp, pmSnap := true }) ∧
      (Fld.PM_GCTL_FREEZE.of v ≠ s.fld Fld.PM_GCTL_FREEZE 0 → s.does (.freeze src v) (fun t =>
        t.fld Fld.PM_GCTL_FREEZE 0 = Fld.PM_GCTL_FREEZE.of v ∧ t.flag Fld.PM_GSTAT_BUSY 0 = true ∧
        s.onlyRegs t [(.PM_GCTL, 0), (.PM_GSTAT, 0)])) ∧
      (Fld.PM_GCTL_FREEZE.of v = s.fld Fld.PM_GCTL_FREEZE 0 → s.does (.freeze src v) (fun t =>
        t.flag Fld.PM_GSTAT_BUSY 0 = false ∧ t.fld Fld.PM_GCTL_TICK 0 = Fld.PM_GCTL_TICK.of v ∧
        s.onlyRegs t [(.PM_GCTL, 0), (.PM_GSTAT, 0)]))) ∧
    (s.pmMay src = true → s.flag Fld.PM_GSTAT_BUSY 0 = true → s.does (.snap src v) (fun t =>
      t.fld Fld.PM_GSTAT_LAST_STATUS 0 = 1 ∧ s.onlyRegs t [(.PM_GSTAT, 0)])) ∧
    (s.pmMay src = true → s.flag Fld.PM_GSTAT_BUSY 0 = true → Fld.PM_GCTL_FREEZE.of v ≠ s.fld Fld.PM_GCTL_FREEZE 0 →
      s.does (.freeze src v) (fun t => t.fld Fld.PM_GSTAT_LAST_STATUS 0 = 1 ∧ s.onlyRegs t [(.PM_GSTAT, 0)])) ∧
    (s.pmMay src = false → s.does (.snap src v) (fun t =>
      t.fld Fld.PM_GSTAT_LAST_STATUS 0 = 7 ∧ s.onlyRegs t [(.PM_GSTAT, 0)]))) ∧
  (s.fld Fld.PM_GCTL_TICK 0 ≠ 0 → s.clockRuns = true → s.islOpen 20 = true →
    (s.flag Fld.PM_GSTAT_BUSY 0 = false → s.does .snapshotTick (fun t =>
      t.flag Fld.PM_GSTAT_BUSY 0 = true ∧ t.pmSnap = true ∧ t.fld Fld.PM_GSNAPTS_TS 0 = s.toTick.ts48 ∧
      t.csrGet .PM_LSNAP k.val = s.csrGet .PM_LCNT k.val ∧ t = { s.toTick with csr := t.csr, pmSnap := true })) ∧
    (s.flag Fld.PM_GSTAT_BUSY 0 = true → s.does .snapshotTick (fun t =>
      t.fld Fld.PM_GSTAT_MISSED 0 = min (s.fld Fld.PM_GSTAT_MISSED 0 + 1) 127 ∧ s.toTick.onlyRegs t [(.PM_GSTAT, 0)]))) ∧
  (s.flag Fld.PM_GSTAT_BUSY 0 = true → s.does .snapshotDone (fun t =>
    t.flag Fld.PM_GSTAT_BUSY 0 = false ∧ t.pmSnap = false ∧
    t.fld Fld.PM_GSTAT_SEQ 0 = (if s.pmSnap then (s.fld Fld.PM_GSTAT_SEQ 0 + 1) % 2 ^ 16 else s.fld Fld.PM_GSTAT_SEQ 0) ∧
    s.regsKept t [(.PM_GSTAT, 0)] ∧ t = { s with csr := t.csr, pmSnap := false }))

/-- R549, R553 to R556: the trace sink's control, and a block that reaches it.  That a TRIG write outside RUN starts no capture is the
model's reading (assumption log 340). -/
def Obligations.TraceSinkCommands : Prop :=
  ∀ (s : State) (src : Src) (v : Word) (c : CoreId),
  (s.srcLive src = true → s.unitUp .TR_SINK_CTL = true → s.sinkAccepts src = true →
    (s.sinkOn = false → s.sinkBad (Fld.TR_SINK_CTL_KIND.of v) (Fld.TR_SINK_CTL_SIZE.of v) = false →
      s.does (.sinkStart src v) (fun t =>
        t.fld Fld.TR_SINK_STAT_STATE 0 = 1 ∧ t.fld Fld.TR_SINK_STAT_WPTR 0 = 0 ∧ t.flag Fld.TR_SINK_STAT_WRAP 0 = false ∧
        t.flag Fld.TR_SINK_CTL_EN 0 = true ∧ t.fld Fld.TR_SINK_CTL_KIND 0 = Fld.TR_SINK_CTL_KIND.of v ∧
        t.fld Fld.TR_SINK_CTL_SIZE 0 = Fld.TR_SINK_CTL_SIZE.of v ∧ t.fld Fld.TR_SINK_CTL_POST 0 = Fld.TR_SINK_CTL_POST.of v ∧
        t.fld Fld.TR_SINK_CTL_SYNCP 0 = max (Fld.TR_SINK_CTL_SYNCP.of v) 1 ∧ t.fld Fld.TR_SINK_STAT_LAST_STATUS 0 = 0 ∧
        (∀ d, t.core d = { s.core d with trace := { (s.core d).trace with on := false } }) ∧
        t = { s with csr := t.csr, resp := t.resp, cores := t.cores } ∧
        s.regsKept t [(.TR_SINK_CTL, 0), (.TR_SINK_STAT, 0)])) ∧
    (s.sinkOn = false → s.sinkBad (Fld.TR_SINK_CTL_KIND.of v) (Fld.TR_SINK_CTL_SIZE.of v) = true →
      s.does (.sinkStart src v) (fun t =>
        t.fld Fld.TR_SINK_STAT_LAST_STATUS 0 = 7 ∧ t.fld Fld.TR_SINK_STAT_STATE 0 = s.fld Fld.TR_SINK_STAT_STATE 0 ∧
        s.onlyRegs t [(.TR_SINK_STAT, 0)])) ∧
    (s.sinkOn = true → Fld.TR_SINK_CTL_KIND.of v ≠ s.fld Fld.TR_SINK_CTL_KIND 0 → s.does (.sinkStop src v) (fun t =>
        t.fld Fld.TR_SINK_STAT_LAST_STATUS 0 = 1 ∧ s.onlyRegs t [(.TR_SINK_STAT, 0)])) ∧
    (Fld.TR_SINK_CTL_KIND.of v = s.fld Fld.TR_SINK_CTL_KIND 0 → Fld.TR_SINK_CTL_SIZE.of v = s.fld Fld.TR_SINK_CTL_SIZE 0 →
      s.does (.sinkStop src v) (fun t =>
        t.fld Fld.TR_SINK_STAT_STATE 0 = 0 ∧ t.flag Fld.TR_SINK_CTL_EN 0 = false ∧ t.fld Fld.TR_SINK_STAT_LAST_STATUS 0 = 0 ∧
        s.onlyRegs t [(.TR_SINK_CTL, 0), (.TR_SINK_STAT, 0)]) ∧
      (s.fld Fld.TR_SINK_STAT_STATE 0 = 1 → s.flag Fld.TR_SINK_CTL_EN 0 = true → s.does (.sinkTrigger src v) (fun t =>
        t.fld Fld.TR_SINK_STAT_STATE 0 = (if Fld.TR_SINK_CTL_POST.of v = 0 then 3 else 2) ∧
        t.sinkPost = Fld.TR_SINK_CTL_POST.of v ∧ t.fld Fld.TR_SINK_STAT_WPTR 0 = s.fld Fld.TR_SINK_STAT_WPTR 0 ∧
        t = { s with csr := t.csr, resp := t.resp, sinkPost := t.sinkPost })) ∧
      (s.fld Fld.TR_SINK_STAT_STATE 0 ≠ 1 → s.flag Fld.TR_SINK_CTL_EN 0 = true → s.does (.sinkTrigger src v) (fun t =>
        t.fld Fld.TR_SINK_STAT_STATE 0 = s.fld Fld.TR_SINK_STAT_STATE 0 ∧ t.flag Fld.TR_SINK_CTL_EN 0 = true ∧
        s.onlyRegs t [(.TR_SINK_CTL, 0), (.TR_SINK_STAT, 0)])))) ∧
  ((s.core c.val).trace.closed ≠ [] →
    s.does (.traceBlockWrite c) (fun t => (t.core c.val).trace.closed = (s.core c.val).trace.closed.tail) ∧
    (s.sinkOn = false → s.does (.traceBlockWrite c) (fun t =>
      t.fld Fld.TR_SINK_STAT_DROPPED 0 = min (s.fld Fld.TR_SINK_STAT_DROPPED 0 + 1) (2 ^ 24 - 1) ∧
      s.regsKept t [(.TR_SINK_STAT, 0)] ∧ t.mem = s.mem)) ∧
    (s.sinkOn = true → s.fld Fld.TR_SINK_CTL_KIND 0 = 3 → s.does (.traceBlockWrite c) (fun t =>
      t.fld Fld.TR_SINK_STAT_WPTR 0 = (s.fld Fld.TR_SINK_STAT_WPTR 0 + 1) % 2 ^ 26 ∧
      (s.fld Fld.TR_SINK_STAT_STATE 0 = 2 → t.fld Fld.TR_SINK_STAT_STATE 0 = (if s.sinkPost ≤ 1 then 3 else 2) ∧
        t.sinkPost = s.sinkPost - 1) ∧ t.mem = s.mem)))

/-- R542, R560 to R563: the debug authorisation, and halting, stepping, resuming and reading a core that is in no group.

R560, R566: halting, stepping, resuming and reading a Spinner thread. -/
def Obligations.DebugCommands : Prop :=
  (∀ (s : State) (src : Src) (c : CoreId) (v : Word), s.srcLive src = true → s.unitUp .TR_DBG = true →
  (src = .cocoon → s.does (.authWrite src v) (fun t =>
    t.fld Fld.TR_AUTH_HALT 0 = Fld.TR_AUTH_HALT.of v ∧ t.fld Fld.TR_AUTH_SYS 0 = Fld.TR_AUTH_SYS.of v ∧
    t.fld Fld.TR_AUTH_TRACE_S 0 = Fld.TR_AUTH_TRACE_S.of v ∧ t.fld Fld.TR_AUTH_TRACE_H 0 = Fld.TR_AUTH_TRACE_H.of v ∧
    (Fld.TR_AUTH_HALT.of v = 1 → s.onlyRegs t [(.TR_AUTH, 0)]))) ∧
  (src ≠ .cocoon → s.does (.authWrite src v) (fun t => s.onlyRegs t [])) ∧
  (s.dbgMay src = true → s.groupOf c.val = none → s.forming c.val = true → (s.core c.val).halted = false →
    s.haltShut c.val = false → s.does (.halt src c v) (fun t =>
      t.core c.val = { s.core c.val with haltDue := true } ∧ t.fld Fld.TR_DBG_LAST_STATUS c.val = 0 ∧
      s.regsKept t [(.TR_DBG, c.val)] ∧ t = { s with csr := t.csr, resp := t.resp, cores := t.cores })) ∧
  (s.dbgMay src = true → s.groupOf c.val = none → s.forming c.val = false →
    ((s.core c.val).run = .running → (s.core c.val).halted = false → s.islOpen (coreIsland c.val) = true →
      s.does (.halt src c v) (fun t =>
        (t.core c.val).halted = true ∧ (t.core c.val).slot = none ∧ (t.core c.val).resv = none ∧
        (t.core c.val).arch = { ((s.drainSb c.val).core c.val).arch with
          pc := (((s.drainSb c.val).core c.val).slot.map Prod.fst).getD ((s.drainSb c.val).core c.val).arch.pc } ∧
        t.flag Fld.TR_DBG_HALTED c.val = true ∧ t.fld Fld.TR_DBG_HCAUSE c.val = 1 ∧
        t.fld Fld.TR_DBG_LAST_STATUS c.val = 0 ∧ t.mem = (s.drainSb c.val).mem)) ∧
    ((s.core c.val).run = .parked → (s.core c.val).halted = false → s.islState (coreIsland c.val) = 3 →
      s.does (.halt src c v) (fun t =>
        s.regsKept t [(.TR_DBG, c.val), (.PW_ISTATE, coreIsland c.val)] ∧ t.islState (coreIsland c.val) = 4 ∧
        t.core c.val = { s.core c.val with haltDue := true } ∧ t.fld Fld.TR_DBG_LAST_STATUS c.val = 0 ∧
        t = { s with csr := t.csr, resp := t.resp, cores := t.cores })) ∧
    ((s.core c.val).halted = false → s.islState (coreIsland c.val) = 5 → s.does (.halt src c v) (fun t =>
      t.fld Fld.TR_DBG_LAST_STATUS c.val = 1 ∧ s.onlyRegs t [(.TR_DBG, c.val)])) ∧
    ((s.core c.val).halted = true → (s.core c.val).stepping = false → (s.core c.val).mchecks = [] →
      s.does (.step src c v) (fun t =>
        (t.core c.val) = { s.core c.val with halted := true, stepping := true, skipCmp := true,
                                             stepInt := Fld.TR_DBG_STEPINT.of v == 1 } ∧
        t.flag Fld.TR_DBG_HALTED c.val = false ∧ t.fld Fld.TR_DBG_LAST_STATUS c.val = 0 ∧
        s.regsKept t [(.TR_DBG, c.val)] ∧ t = { s with csr := t.csr, resp := t.resp, cores := t.cores }) ∧
      s.does (.resume src c v) (fun t =>
        (t.core c.val) = { s.core c.val with halted := false, stepping := false, skipCmp := true, stepInt := false } ∧
        t.flag Fld.TR_DBG_HALTED c.val = false ∧ t.fld Fld.TR_DBG_HCAUSE c.val = 0 ∧
        t.fld Fld.TR_DBG_LAST_STATUS c.val = 0 ∧
        s.regsKept t [(.TR_DBG, c.val)] ∧ t = { s with csr := t.csr, resp := t.resp, cores := t.cores })) ∧
    (s.coreHalted c.val = false →
      s.does (.step src c v) (fun t => t.fld Fld.TR_DBG_LAST_STATUS c.val = 1 ∧ s.onlyRegs t [(.TR_DBG, c.val)]) ∧
      s.does (.resume src c v) (fun t => t.fld Fld.TR_DBG_LAST_STATUS c.val = 1 ∧ s.onlyRegs t [(.TR_DBG, c.val)]) ∧
      s.does (.debugDataAccess src c true v) (fun t =>
        t.fld Fld.TR_DBG_LAST_STATUS c.val = 1 ∧ s.onlyRegs t [(.TR_DBG, c.val)])) ∧
    (s.coreHalted c.val = true → s.fld Fld.TR_DSEL_CLASS c.val = 3 →
      s.does (.debugDataAccess src c true v) (fun t =>
        (t.core c.val) = { s.core c.val with arch := { (s.core c.val).arch with pc := v.truncate 48 &&& ~~~ 1 } } ∧
        t.fld Fld.TR_DBG_LAST_STATUS c.val = 0 ∧ s.regsKept t [(.TR_DBG, c.val)] ∧ t.mem = s.mem) ∧
      s.does (.debugDataAccess src c false v) (fun t =>
        t.resp = { err := false, val := (s.core c.val).arch.pc.zeroExtend 256 } ∧ s.onlyRegs t [(.TR_DBG, c.val)])) ∧
    (s.coreHalted c.val = true → s.fld Fld.TR_DSEL_CLASS c.val = 4 →
      s.does (.debugDataAccess src c true v) (fun t =>
        (t.core c.val) = { s.core c.val with arch := { (s.core c.val).arch with fl := v.truncate 4 } } ∧
        t.fld Fld.TR_DBG_LAST_STATUS c.val = 0 ∧ s.regsKept t [(.TR_DBG, c.val)] ∧ t.mem = s.mem)) ∧
    (s.coreHalted c.val = true → s.fld Fld.TR_DSEL_CLASS c.val = 0 → s.fld Fld.TR_DSEL_NUM c.val < 8 →
      s.does (.debugDataAccess src c true v) (fun t =>
        t.regVal (.core c) (BitVec.ofNat 5 (s.fld Fld.TR_DSEL_NUM c.val)) = (if s.fld Fld.TR_DSEL_NUM c.val = 0 then 0 else v) ∧
        (∀ r < 8, r ≠ s.fld Fld.TR_DSEL_NUM c.val →
          t.regVal (.core c) (BitVec.ofNat 5 r) = s.regVal (.core c) (BitVec.ofNat 5 r)) ∧
        t.fld Fld.TR_DBG_LAST_STATUS c.val = 0 ∧ t.mem = s.mem))) ∧
  (s.dbgMay src = false →
    s.does (.halt src c v) (fun t => t.fld Fld.TR_DBG_LAST_STATUS c.val = 7 ∧ s.onlyRegs t [(.TR_DBG, c.val)]) ∧
    s.does (.step src c v) (fun t => t.fld Fld.TR_DBG_LAST_STATUS c.val = 7 ∧ s.onlyRegs t [(.TR_DBG, c.val)]) ∧
    s.does (.resume src c v) (fun t => t.fld Fld.TR_DBG_LAST_STATUS c.val = 7 ∧ s.onlyRegs t [(.TR_DBG, c.val)]) ∧
    s.does (.debugDataAccess src c true v) (fun t =>
      t.fld Fld.TR_DBG_LAST_STATUS c.val = 7 ∧ s.onlyRegs t [(.TR_DBG, c.val)]))) ∧
  (∀ (s : State) (src : Src) (t : ThreadId) (v : Word), s.srcLive src = true → s.unitUp .TR_SDBG = true →
  (s.sdbgMay t.val src = true →
    ((s.thread t.val).run = .run ∨ (s.thread t.val).run = .wait ∨
        ((s.thread t.val).run = .halted ∧ (s.thread t.val).stepping = true) → s.does (.spinnerHalt src t v) (fun u =>
      (u.thread t.val).run = .halted ∧ (u.thread t.val).rf = ((s.threadRest t.val).thread t.val).rf ∧
      (u.thread t.val).slot = none ∧ u.flag Fld.TR_SDBG_HALTED t.val = true ∧
      u.fld Fld.TR_SDBG_HCAUSE t.val = 1 ∧ u.fld Fld.TR_SDBG_LAST_STATUS t.val = 0 ∧
      u.mem = (s.threadRest t.val).mem ∧ u.cores = (s.threadRest t.val).cores)) ∧
    ((s.thread t.val).run = .halted → (s.thread t.val).stepping = false →
      s.does (.spinnerStep src t v) (fun u =>
        u.thread t.val = { s.thread t.val with run := .halted, stepping := true, skipBrk := true } ∧
        u.flag Fld.TR_SDBG_HALTED t.val = false ∧ u.fld Fld.TR_SDBG_LAST_STATUS t.val = 0 ∧
        s.regsKept u [(.TR_SDBG, t.val), (.SP_THR, t.val)] ∧
        u = { s with csr := u.csr, resp := u.resp, threads := u.threads }) ∧
      s.does (.spinnerResume src t v) (fun u =>
        u.thread t.val = { s.thread t.val with run := .run, stepping := false, skipBrk := true } ∧
        u.flag Fld.TR_SDBG_HALTED t.val = false ∧ u.fld Fld.TR_SDBG_LAST_STATUS t.val = 0 ∧
        s.regsKept u [(.TR_SDBG, t.val), (.SP_THR, t.val)] ∧
        u = { s with csr := u.csr, resp := u.resp, threads := u.threads })) ∧
    (s.threadHalted t.val = false →
      s.does (.spinnerStep src t v) (fun u => u.fld Fld.TR_SDBG_LAST_STATUS t.val = 1 ∧ s.onlyRegs u [(.TR_SDBG, t.val)]) ∧
      s.does (.spinnerResume src t v) (fun u => u.fld Fld.TR_SDBG_LAST_STATUS t.val = 1 ∧ s.onlyRegs u [(.TR_SDBG, t.val)]) ∧
      s.does (.spinnerDebugDataAccess src t true v) (fun u =>
        u.fld Fld.TR_SDBG_LAST_STATUS t.val = 1 ∧ s.onlyRegs u [(.TR_SDBG, t.val)])) ∧
    (s.threadHalted t.val = true →
      (s.fld Fld.TR_SDSEL_CLASS t.val = 3 → s.does (.spinnerDebugDataAccess src t true v) (fun u =>
        u.thread t.val = { s.thread t.val with pc := v.truncate 48 &&& ~~~ 1 } ∧ u.fld Fld.TR_SDBG_LAST_STATUS t.val = 0 ∧
        s.regsKept u [(.TR_SDBG, t.val)] ∧ u.mem = s.mem)) ∧
      (s.fld Fld.TR_SDSEL_CLASS t.val = 0 → s.does (.spinnerDebugDataAccess src t true v) (fun u =>
        u.regVal (.thread t) (BitVec.ofNat 5 (s.fld Fld.TR_SDSEL_NUM t.val)) = (if s.fld Fld.TR_SDSEL_NUM t.val = 0 then 0 else v) ∧
        u.fld Fld.TR_SDBG_LAST_STATUS t.val = 0 ∧ s.regsKept u [(.TR_SDBG, t.val)] ∧ u.mem = s.mem) ∧
        s.does (.spinnerDebugDataAccess src t false v) (fun u =>
          u.resp = { err := false, val := (s.regVal (.thread t) (BitVec.ofNat 5 (s.fld Fld.TR_SDSEL_NUM t.val))).zeroExtend 256 } ∧
          s.onlyRegs u [(.TR_SDBG, t.val)])))) ∧
  (s.sdbgMay t.val src = false →
    s.does (.spinnerHalt src t v) (fun u => u.fld Fld.TR_SDBG_LAST_STATUS t.val = 7 ∧ s.onlyRegs u [(.TR_SDBG, t.val)]) ∧
    s.does (.spinnerDebugDataAccess src t true v) (fun u =>
      u.fld Fld.TR_SDBG_LAST_STATUS t.val = 7 ∧ s.onlyRegs u [(.TR_SDBG, t.val)])))

/-- R459: the commands of the management port; it answers on standby power from phase 4 on.

R458, R567, R568: the instructions of the TAP, while the standby supply feeds it. -/
def Obligations.ManagementPortAndTap : Prop :=
  (∀ (s : State) (iin : Nat) (v : PecByte), iin ≤ 1023 * 2 ^ 15 * 1000 → s.pwr.p10ms ≤ 1023 * 2 ^ 15 * 10 →
    s.pwr.hottest.natAbs ≤ 1023 * 2 ^ 15 * 4 →
  (s.mgmtUp = true →
    s.does .clearFaults (fun t => t = { s with pmbus := 0, resp := {} }) ∧
    s.does .statusWord (fun t => t = { s with resp := t.resp } ∧ t.resp.err = false ∧ t.resp.val.truncate 16 = s.pmbus ∧
      (t.resp.val >>> 16).truncate 8 = pecOf [0x94, 0x79, 0x95, s.pmbus.truncate 8, (s.pmbus >>> 8).truncate 8]) ∧
    s.does .readVin (fun t => t = { s with resp := t.resp } ∧ t.resp.err = false ∧
      linearReads (t.resp.val.truncate 16) (s.fld Fld.PW_INSTAT_VIN 0) 100) ∧
    s.does (.readIin iin) (fun t => t = { s with resp := t.resp } ∧ t.resp.err = false ∧
      linearReads (t.resp.val.truncate 16) iin 1000) ∧
    s.does .readPin (fun t => t = { s with resp := t.resp } ∧ t.resp.err = false ∧
      linearReads (t.resp.val.truncate 16) s.pwr.p10ms 10) ∧
    s.does .readTemperature1 (fun t => t = { s with resp := t.resp } ∧ t.resp.err = false ∧
      linearReads (t.resp.val.truncate 16) s.pwr.hottest 4) ∧
    (pecGood v 0xD0 = false → s.does (.mfrStandby v) (fun t => t = { s with resp := { err := true, val := 0 } })) ∧
    (pecGood v 0xD1 = false → s.does (.mfrWake v) (fun t => t = { s with resp := { err := true, val := 0 } })) ∧
    (v.data ≠ 0xA5 → (pecGood v 0xD0 = true → s.does (.mfrStandby v) (fun t => t = { s with resp := {} })) ∧
      (pecGood v 0xD1 = true → s.does (.mfrWake v) (fun t => t = { s with resp := {} }))) ∧
    (v.data = 0xA5 → pecGood v 0xD0 = true →
      (s.anyHeld = false → s.pwr.mode = .run → s.does (.mfrStandby v) (fun t =>
        t.pwr.mode = .standby ∧ t.pwr.phase = 4 ∧ ∀ j < 23, t.islState j = 5)) ∧
      (s.anyHeld = false → s.pwr.mode ≠ .run → s.does (.mfrStandby v) (fun t => t = { s with resp := {} })) ∧
      (s.anyHeld = true → s.does (.mfrStandby v) (fun t =>
        t.resp.err = true ∧ t = { s with resp := t.resp, pmbus := t.pmbus }))) ∧
    (v.data = 0xA5 → pecGood v 0xD1 = true →
      (s.pwr.emergency = false → s.pwr.mode = .standby → s.does (.mfrWake v) (fun t =>
        t.pwr = { s.pwr with mode := .start, phase := 4, failed := false } ∧ t.fld Fld.BT_STAT_CAUSE 0 = 5 ∧
        s.regsKept t [(.BT_STAT, 0)] ∧ t.mem = s.mem)) ∧
      (s.pwr.emergency = true → s.does (.mfrWake v) (fun t =>
        t.resp.err = true ∧ t = { s with resp := t.resp, pmbus := t.pmbus })) ∧
      (s.pwr.emergency = false → s.pwr.mode ≠ .standby → s.does (.mfrWake v) (fun t => t = { s with resp := {} })))) ∧
  (s.mgmtUp = true → s.pwr.standby = true ∧ 4 ≤ s.pwr.phase ∧ s.pwr.resetLow = false) ∧
  (s.mgmtUp = false → ∀ i ∈ [Instr.clearFaults, .statusWord, .readVin, .readIin iin, .readPin, .readTemperature1,
    .mfrStandby v, .mfrWake v], s.does i (fun t => t = { s with resp := { err := true, val := 0 } }))) ∧
  (∀ (s : State) (din : BitVec 256) (op : BitVec 2) (addr : PA) (data : Word) (K : State → State → Prop), s.pwr.standby = true →
  K = (fun u t => t = { u with csr := t.csr } ∧ u.regsKept t [(.PT_GPIO, 0)] ∧ (s.tap.extest = false → t.csr = u.csr)) →
  s.does (.extest din) (fun t =>
    t = { s with tap := { s.tap with ir := 0x00, extest := true, boundary := din }, csr := t.csr, resp := t.resp,
                 free := s.free + 1 } ∧
    t.resp.err = false ∧ t.resp.val.getLsbD (Config.scanIn 7).val = s.gpioPin 7 ∧ s.regsKept t [(.PT_GPIO, 0)] ∧
    ∀ i, t.gpioPin i = (if din.getLsbD (Config.scanEnable i) = true ∧ s.pwr.past380 = false then din.getLsbD (Config.scanOut i)
      else s.ext.gpio.getLsbD i)) ∧
  s.does (.samplePreload din) (fun t =>
    K { s with tap := { s.tap with ir := 0x02, extest := false, boundary := din }, resp := t.resp, free := s.free + 1 } t ∧
    t.resp.err = false ∧ t.resp.val.getLsbD (Config.scanIn 7).val = s.gpioPin 7) ∧
  s.does (.idcode din)
    (K { s with tap := { s.tap with ir := 0x01, extest := false }, resp := { val := 0x17160ABF } }) ∧
  s.does (.bypass din)
    (K { s with tap := { s.tap with ir := 0xFF, extest := false }, resp := { val := din <<< 1 } }) ∧
  s.does (.dbgStat din) (fun t =>
    K { s with tap := { s.tap with ir := 0x11, extest := false }, resp := t.resp } t ∧ t.resp.err = false ∧
    t.resp.val.toNat % 16 = bitsOf (s.csrGet .TR_AUTH 0) 3 0 ∧
    t.resp.val.getLsbD 4 = s.anyHalted ∧ t.resp.val.getLsbD 5 = (s.fld Fld.CK_CSTAT_STATE 0 == 2)) ∧
  (op = 0 ∨ op = 3 → s.does (.dbgSap op addr data)
    (K { s with tap := { s.tap with ir := 0x10, extest := false }, resp := { val := s.tap.dr } })) ∧
  (op = 1 ∨ op = 2 → s.flag Fld.TR_AUTH_SYS 0 = false → sapReaches (op == 2) addr.toNat = false →
    s.does (.dbgSap op addr data)
      (K { s with tap := { s.tap with ir := 0x10, extest := false, dr := sapWord data addr.toNat 3 },
                  resp := { val := sapWord data addr.toNat 3 } })) ∧
  (s.islOpen 20 = true → s.does (.dbgSap 1 (BitVec.ofNat 48 (Reg.base .TR_AUTH)) data)
    (K { s with tap := { s.tap with ir := 0x10, extest := false,
                                    dr := sapWord (s.csrGet .TR_AUTH 0) (Reg.base .TR_AUTH) 0 },
                resp := { val := sapWord (s.csrGet .TR_AUTH 0) (Reg.base .TR_AUTH) 0 } }))) ∧
  (∀ (s : State) (din : BitVec 256) (op : BitVec 2) (addr : PA) (data : Word), s.pwr.standby = false →
    ∀ i ∈ [Instr.extest din, .samplePreload din, .idcode din, .bypass din, .dbgStat din, .dbgSap op addr data],
      s.does i (fun t => t = s))

/-- R3 to R6, R9 to R11, R13, R20, R22, R79: a write of a register by its address: the accesses that are not performed, the
expert state of the unit, what each access code lets a write change, and that a register's own command is the write at
its address. -/
def Obligations.CsrWrites : Prop :=
  ∀ (s : State) (src : Src) (addr : PA) (v : Word) (r g : Reg) (i k : Nat) (f : Fld) (p : PcId) (t : IcTarget) (q : QueueId)
    (n : CmpId),
  s.srcLive src = true →
  (addr.toNat % 8 ≠ 0 → s.does (.registerWrite src addr v) (fun u => u = { s with resp := { val := 0, err := true } })) ∧
  (addr.toNat % 8 = 0 → Reg.decode addr.toNat = none → s.does (.registerWrite src addr v) (fun u =>
    u = { s with resp := { val := 0, err := !(isCsr addr.toNat && csrMapped addr.toNat) } })) ∧
  (addr.toNat % 8 = 0 → Reg.decode addr.toNat = some (r, i) →
    (s.islOpen r.island = false → s.does (.registerWrite src addr v) (fun u => u = { s with resp := { val := 0, err := true } })) ∧
    (s.islOpen r.island = true →
      (r.isGate = true → s.gateRefuses r i src = true → s.does (.xgateWrite src addr v) (fun u =>
        u.resp.err = false ∧ s.onlyRegs u [(r, i)] ∧ bitsOf (u.csrGet r i) 18 18 = bitsOf (s.csrGet r i) 18 18 ∧
        bitsOf (u.csrGet r i) 17 16 = (if bitsOf (s.csrGet r i) 17 16 = 1 then 0 else bitsOf (s.csrGet r i) 17 16))) ∧
      (r.isGate = true → s.gateRefuses r i src = false →
        s.does (.xgateWrite src addr v) (fun u =>
          u.resp.err = false ∧ s.onlyRegs u ((r, i) :: (if r = .MC_XGATE then [(.MC_PCSTAT, i), (.MC_STK, i - 64)] else [])) ∧
          bitsOf (u.csrGet r i) 18 18 = (if bitsOf v 18 18 = 1 then 0 else bitsOf (s.csrGet r i) 18 18) ∧
          (bitsOf (s.csrGet r i) 17 16 = 0 → bitsOf (u.csrGet r i) 17 16 = (if bitsOf v 15 0 = 0x5170 then 1 else 0)) ∧
          (bitsOf (s.csrGet r i) 17 16 = 1 → bitsOf (u.csrGet r i) 17 16 =
            (if bitsOf v 15 0 = 0xE7A1 then 2 else if bitsOf v 15 0 = 0x5170 then 1 else 0)) ∧
          (bitsOf (s.csrGet r i) 17 16 = 2 → bitsOf (u.csrGet r i) 17 16 = 0))) ∧
      (r.isGate = false → r.gate i = some (g, k) →
        (bitsOf (s.csrGet g k) 17 16 = 1 → src ≠ .reeve → s.does (.registerWrite src addr v) (fun u =>
          bitsOf (u.csrGet g k) 17 16 = 0))) ∧
      (r.window = 1 → r = .TB_NOW_LO ∨ r = .TB_NOW_HI ∨ r = .TB_PPSCAP →
        s.does (.registerWrite src addr v) (fun u => u.csrGet r i = s.csrGet r i)) ∧
      (r = .PW_ISTATE → s.does (.registerWrite src addr v) (fun u =>
        u.resp.err = false ∧ s.onlyRegs u [(r, i), (.PW_XGATE, 0)] ∧
        (f ∈ r.fields → f.acc = .ro → u.fld f i = s.fld f i) ∧
        u.fld Fld.PW_ISTATE_LOCK_LOST i = (if Fld.PW_ISTATE_LOCK_LOST.of v = 1 then 0 else s.fld Fld.PW_ISTATE_LOCK_LOST i))) ∧
      (r = .MC_PATD → mcTrainer src = true → r.gate i = some (g, k) →
        (bitsOf (s.csrGet g k) 17 16 = 2 → s.does (.registerWrite src addr v) (fun u => u.csrGet r i = v ∧
          bitsOf (u.csrGet g k) 17 16 = 2)) ∧
        (bitsOf (s.csrGet g k) 17 16 ≠ 2 → s.does (.registerWrite src addr v) (fun u => u.csrGet r i = s.csrGet r i ∧
          bitsOf (u.csrGet g k) 18 18 = 1))))) ∧
  (Reg.decode addr.toNat = some (.TB_CMP_TGT, n.val) → s.does (.registerWrite src addr v) (fun u =>
    s.does (.compareTargetWrite src n v) (fun w => w = u))) ∧
  (Reg.decode addr.toNat = some (.IC_TCTL, t.val) → s.does (.registerWrite src addr v) (fun u =>
    s.does (.targetCtlWrite src t v) (fun w => w = u))) ∧
  (Reg.decode addr.toNat = some (.QE_CFG, q.val) → s.does (.registerWrite src addr v) (fun u =>
    s.does (.queueCfgWrite src q v) (fun w => w = u))) ∧
  (Reg.decode addr.toNat = some (.MC_PCCTL, p.val) → Fld.MC_PCCTL_SETSTATE.of v = 2 →
    s.does (.registerWrite src addr v) (fun u => s.does (.setstateRun src p v) (fun w => w = u)))

/-- R391 to R393, R397 to R399, R401, R404, R405, R409, R410: an HBM controller and its stack: states, refused writes, open
rows, refresh, temperature, power-down, scrub, and the IEEE 1500 port. -/
def Obligations.HbmControllers : Prop :=
  ∀ (s : State) (src : Src) (p : PcId) (k : StackId) (sid : Fin 3) (bank : Fin 48) (v out : Word) (addr : PA) (r : Reg)
    (i n g loc most nx : Nat) (temp : Int) (w : List Nat),
  n = FMap.get (s.hctl p.val).postponed 0 sid.val → nx = FMap.get (s.hctl p.val).refNext 0 sid.val →
  most = (if s.flag Fld.MC_STK_REFMODE (p.val / 16) = true then 128 else 8) → s.memOk →
  (s.islOpen 20 = true → s.srcLive src = true →
    (mcTrainer src = true → bitsOf (s.csrGet .MC_XGATE p.val) 17 16 = 2 →
      (s.fld Fld.MC_PCSTAT_STATE p.val ≠ 0 →
        s.does (.setstateTrain src p v) (fun u => u.fld Fld.MC_PCSTAT_STATE p.val = 1 ∧
          (s.fld Fld.MC_PCSTAT_STATE p.val ≠ 1 → (u.hctl p.val).openRow = []) ∧
          u.fld Fld.MC_PCSTAT_LAST_STATUS p.val = 0 ∧ u.mem = s.mem ∧
          s.regsKept u ([(.MC_PCSTAT, p.val), (.MC_PCCTL, p.val)] ++ (List.range 8).flatMap (fun k => [(.PM_HSEL, 8 * p.val + k), (.PM_HCNT, 8 * p.val + k)]))) ∧
        s.does (.setstateRun src p v) (fun u => u.fld Fld.MC_PCSTAT_STATE p.val = 2 ∧
          u.fld Fld.MC_PCCTL_PAGE_TMO p.val = Fld.MC_PCCTL_PAGE_TMO.of v ∧
          (s.fld Fld.MC_PCSTAT_STATE p.val = 2 → (u.hctl p.val).openRow = (s.hctl p.val).openRow) ∧
          u.fld Fld.MC_PCSTAT_LAST_STATUS p.val = 0 ∧ u.mem = s.mem ∧
          s.regsKept u ([(.MC_PCSTAT, p.val), (.MC_PCCTL, p.val)] ++ (List.range 8).flatMap (fun k => [(.PM_HSEL, 8 * p.val + k), (.PM_HCNT, 8 * p.val + k)])))) ∧
      (s.fld Fld.MC_PCSTAT_STATE p.val = 0 → s.does (.setstateRun src p v) (fun u =>
        u.fld Fld.MC_PCSTAT_STATE p.val = 0 ∧ u.fld Fld.MC_PCSTAT_LAST_STATUS p.val = 1 ∧ s.onlyRegs u [(.MC_PCSTAT, p.val)])) ∧
      s.does (.hbmInjectionArm src p v) (fun u =>
        u.fld Fld.MC_INJ_ARM p.val = Fld.MC_INJ_ARM.of v ∧ u.fld Fld.MC_INJ_ONREAD p.val = Fld.MC_INJ_ONREAD.of v ∧
        u.fld Fld.MC_INJ_SYMA p.val = Fld.MC_INJ_SYMA.of v ∧ u.fld Fld.MC_INJ_SYMB p.val = Fld.MC_INJ_SYMB.of v ∧
        u.fld Fld.MC_INJ_MASKA p.val = Fld.MC_INJ_MASKA.of v ∧ u.fld Fld.MC_INJ_MASKB p.val = Fld.MC_INJ_MASKB.of v ∧
        s.onlyRegs u [(.MC_INJ, p.val), (.MC_PCSTAT, p.val)])) ∧
    (mcTrainer src = false →
      s.does (.setstateTrain src p v) (fun u => u.fld Fld.MC_PCSTAT_STATE p.val = s.fld Fld.MC_PCSTAT_STATE p.val ∧
        u.fld Fld.MC_PCSTAT_LAST_STATUS p.val = 7) ∧
      s.does (.hbmInjectionArm src p v) (fun u => u.csrGet .MC_INJ p.val = s.csrGet .MC_INJ p.val)) ∧
    (s.srcSys src = true ∨ src = .cocoon →
      ((∀ q < 64, s.fld Fld.MC_PCSTAT_STATE q ≠ 2) → s.does (.interleaveWrite src v) (fun u =>
        u.fld Fld.MC_ILV_MODE 0 = Fld.MC_ILV_MODE.of v ∧ u.fld Fld.MC_ILV_LAST_STATUS 0 = 0 ∧
        s.onlyRegs u [(.MC_ILV, 0), (.MC_XGATE, 68)])) ∧
      (s.fld Fld.MC_PCSTAT_STATE p.val = 2 → s.does (.interleaveWrite src v) (fun u =>
        u.fld Fld.MC_ILV_MODE 0 = s.fld Fld.MC_ILV_MODE 0 ∧ u.fld Fld.MC_ILV_LAST_STATUS 0 = 1 ∧
        s.onlyRegs u [(.MC_ILV, 0), (.MC_XGATE, 68)]))) ∧
    (s.srcSys src = false → src ≠ .cocoon → s.does (.interleaveWrite src v) (fun u => s.onlyRegs u [(.MC_XGATE, 68)])) ∧
    (mcTrainer src = true → Reg.decode addr.toNat = some (r, i) → r.gate i = some (.MC_XGATE, g) →
      bitsOf (s.csrGet .MC_XGATE g) 17 16 = 2 →
      (r = .MC_LDLY → s.fld Fld.MC_PCSTAT_STATE (16 * (i / 1280) + i / 80 % 16) = 1 →
        s.does (.trainingRegisterWrite src addr v) (fun u =>
          u.fld Fld.MC_LDLY_RDLY i = Fld.MC_LDLY_RDLY.of v ∧ u.fld Fld.MC_LDLY_WDLY i = Fld.MC_LDLY_WDLY.of v ∧
          u.fld Fld.MC_STK_LAST_STATUS (i / 1280) = 0 ∧ s.onlyRegs u [(.MC_LDLY, i), (.MC_STK, i / 1280)])) ∧
      (r = .MC_LDLY → s.fld Fld.MC_PCSTAT_STATE (16 * (i / 1280) + i / 80 % 16) ≠ 1 →
        s.does (.trainingRegisterWrite src addr v) (fun u =>
          u.fld Fld.MC_STK_LAST_STATUS (i / 1280) = 1 ∧ s.onlyRegs u [(.MC_STK, i / 1280)])) ∧
      (r = .MC_TIM0 → (∃ q < 16, s.fld Fld.MC_PCSTAT_STATE (16 * i + q) ≠ 1) →
        s.does (.trainingRegisterWrite src addr v) (fun u =>
          u.fld Fld.MC_STK_LAST_STATUS i = 1 ∧ s.onlyRegs u [(.MC_STK, i)])) ∧
      (r = .MC_TIM0 → (∀ q < 16, s.fld Fld.MC_PCSTAT_STATE (16 * i + q) = 1) →
        s.does (.trainingRegisterWrite src addr v) (fun u => u.csrGet .MC_TIM0 i = v ∧
          u.fld Fld.MC_STK_LAST_STATUS i = 0 ∧ s.onlyRegs u [(.MC_STK, i), (.MC_TIM0, i)]))) ∧
    (mcTrainer src = true → bitsOf (s.csrGet .MC_XGATE (64 + k.val)) 17 16 = 2 →
      (s.flag Fld.MC_1500_BUSY k.val = false → (∀ q < 16, s.fld Fld.MC_PCSTAT_STATE (16 * k.val + q) = 1) →
        s.does (.ieee1500Load src k v out) (fun u =>
          u.flag Fld.MC_1500_BUSY k.val = true ∧ u.fld Fld.MC_1500_CONT k.val = 0 ∧
          u.fld Fld.MC_1500_LEN k.val = clampNat 1 64 (Fld.MC_1500_LEN.of v) ∧
          (∀ b < 64, (u.csrGet .MC_1500D k.val).getLsbD b =
            (if b < clampNat 1 64 (Fld.MC_1500_LEN.of v) then out.getLsbD b else (s.csrGet .MC_1500D k.val).getLsbD b)) ∧
          (u.stackPort k.val).instr = some (v.extractLsb' 40 8, v.extractLsb' 36 4) ∧
          (u.stackPort k.val).dr = (List.range (clampNat 1 64 (Fld.MC_1500_LEN.of v))).map (fun b =>
            (s.csrGet .MC_1500D k.val).getLsbD b) ∧
          u = { s with csr := u.csr, resp := u.resp, stkPort := u.stkPort } ∧
          (∀ j, j ≠ k.val → u.stackPort j = s.stackPort j) ∧
          s.regsKept u [(.MC_1500, k.val), (.MC_1500D, k.val), (.MC_STK, k.val)]) ∧
        s.does (.ieee1500Continue src k v out) (fun u =>
          u.flag Fld.MC_1500_BUSY k.val = true ∧ u.fld Fld.MC_1500_CONT k.val = 1 ∧
          u.fld Fld.MC_1500_INSTR k.val = Fld.MC_1500_INSTR.of v ∧
          (Fld.MC_1500_LEN.of v = 64 → u.csrGet .MC_1500D k.val = out) ∧
          (u.stackPort k.val).instr = (s.stackPort k.val).instr ∧
          (u.stackPort k.val).dr = (s.stackPort k.val).dr ++
            (List.range (clampNat 1 64 (Fld.MC_1500_LEN.of v))).map (fun b => (s.csrGet .MC_1500D k.val).getLsbD b) ∧
          u = { s with csr := u.csr, resp := u.resp, stkPort := u.stkPort } ∧
          (∀ j, j ≠ k.val → u.stackPort j = s.stackPort j) ∧
          s.regsKept u [(.MC_1500, k.val), (.MC_1500D, k.val), (.MC_STK, k.val)])) ∧
      (w = [16 * k.val + 2 * (Fld.MC_RAWCMD_CH.of v % 8), 16 * k.val + 2 * (Fld.MC_RAWCMD_CH.of v % 8) + 1] →
        ((∀ q ∈ w, s.fld Fld.MC_PCSTAT_STATE q = 1) → s.does (.rawCommand src k v) (fun u =>
          u.fld Fld.MC_RAWCMD_BITS k.val = Fld.MC_RAWCMD_BITS.of v ∧ u.fld Fld.MC_RAWCMD_CH k.val = Fld.MC_RAWCMD_CH.of v ∧
          u.fld Fld.MC_RAWCMD_BUS k.val = Fld.MC_RAWCMD_BUS.of v ∧ u.fld Fld.MC_STK_LAST_STATUS k.val = 0 ∧
          (Fld.MC_RAWCMD_GO.of v = 1 → Fld.MC_RAWCMD_CH.of v < 8 →
            FMap.get (u.stackPort k.val).raw none (Fld.MC_RAWCMD_CH.of v) = (if Fld.MC_RAWCMD_BUS.of v = 1
              then some (true, [v.extractLsb' 0 8, v.extractLsb' 8 8])
              else some (false, [(v.extractLsb' 0 6).zeroExtend 8, (v.extractLsb' 6 6).zeroExtend 8,
                (v.extractLsb' 12 6).zeroExtend 8, (v.extractLsb' 18 6).zeroExtend 8]))) ∧
          (Fld.MC_RAWCMD_GO.of v = 0 ∨ 8 ≤ Fld.MC_RAWCMD_CH.of v → u.stkPort = s.stkPort) ∧
          u = { s with csr := u.csr, resp := u.resp, stkPort := u.stkPort } ∧
          s.regsKept u [(.MC_RAWCMD, k.val), (.MC_STK, k.val)])) ∧
        ((∃ q ∈ w, s.fld Fld.MC_PCSTAT_STATE q ≠ 1) → s.does (.rawCommand src k v) (fun u =>
          u.fld Fld.MC_STK_LAST_STATUS k.val = 1 ∧ s.onlyRegs u [(.MC_STK, k.val)]))))) ∧
  s.does (.ieee1500Done k) (fun u => u.flag Fld.MC_1500_BUSY k.val = false ∧ s.onlyRegs u [(.MC_1500, k.val)]) ∧
  s.does (.pageTimeout p bank) (fun u =>
    (∀ b < 48, FMap.get (u.hctl p.val).openRow 0 b = (if b = bank.val then 0 else FMap.get (s.hctl p.val).openRow 0 b)) ∧
    u = { s with hbmc := u.hbmc }) ∧
  (s.fld Fld.MC_PCSTAT_STATE p.val ≠ 0 →
    ((s.hctl p.val).queue ≠ [] → n < most → s.does (.refreshDue p sid true) (fun u =>
      FMap.get (u.hctl p.val).postponed 0 sid.val = n + 1 ∧
      (u.hctl p.val).openRow = (s.hctl p.val).openRow ∧ u = { s with hbmc := u.hbmc })) ∧
    ((s.hctl p.val).queue ≠ [] → n = most → s.does (.refreshDue p sid true) (fun u =>
      FMap.get (u.hctl p.val).postponed 0 sid.val = most ∧ u.mem = s.mem ∧
      (∀ b < 48, FMap.get (u.hctl p.val).openRow 0 b =
        (if (most = 8 ∧ b / 16 = sid.val) ∨ (most = 128 ∧ b = 16 * sid.val + nx % 16) then 0
         else FMap.get (s.hctl p.val).openRow 0 b)) ∧
      (most = 128 → FMap.get (u.hctl p.val).refNext 0 sid.val = (nx + 1) % 16))) ∧
    (∀ wait : Bool, wait = false ∨ (s.hctl p.val).queue = [] → s.does (.refreshDue p sid wait) (fun u =>
      FMap.get (u.hctl p.val).postponed 0 sid.val = 0 ∧ u.mem = s.mem ∧
      (∀ b < 48, FMap.get (u.hctl p.val).openRow 0 b =
        (if (most = 8 ∧ b / 16 = sid.val) ∨ (most = 128 ∧ ∃ m ≤ n, b = 16 * sid.val + (nx + m) % 16) then 0
         else FMap.get (s.hctl p.val).openRow 0 b)) ∧
      (most = 128 → FMap.get (u.hctl p.val).refNext 0 sid.val = (nx + n + 1) % 16)))) ∧
  (s.flag Fld.MC_STK_PWR k.val = true → s.flag Fld.MC_1500_BUSY k.val = false → -128 ≤ temp → temp < 128 →
    s.does (.stackTempPoll k temp) (fun u =>
      signedOf 8 (u.fld Fld.MC_STK_TEMP k.val) = temp ∧
      u.fld Fld.MC_STK_REFSCALE k.val = (if temp < 85 then 0 else if temp ≤ 94 then 1 else 2) ∧
      (95 ≤ temp → s.fld Fld.MC_STK_REFSCALE k.val ≠ 2 → (∃ r < 4, s.recValid (240 + k.val) r = false) →
        ∃ r < 4, u.recValid (240 + k.val) r = true ∧ u.fld Fld.ER_STATUS_SEV (4 * (240 + k.val) + r) = 0 ∧
          u.fld Fld.ER_STATUS_TYPE (4 * (240 + k.val) + r) = 0x15) ∧
      (temp < 95 ∨ s.fld Fld.MC_STK_REFSCALE k.val = 2 → s.onlyRegs u [(.MC_STK, k.val)]))) ∧
  (∀ x ∈ (s.hctl p.val).choices,
    (s.hctl p.val).queue[x.1]? = some x.2 ∧
    (16 ≤ x.2.passed → ∀ j < x.1, ∀ y, (s.hctl p.val).queue[j]? = some y → y.bank = x.2.bank → y.passed < 16) ∧
    (x.2.passed < 16 →
      (∀ j < x.1, ∀ y, (s.hctl p.val).queue[j]? = some y → y.loc ≠ x.2.loc) ∧
      (x.2.write = true → (s.hctl p.val).drain = true ∨ ∀ y ∈ (s.hctl p.val).ready, y.2.write = true) ∧
      (x.2.write = false → (s.hctl p.val).drain = false ∨ ∀ y ∈ (s.hctl p.val).ready, y.2.write = false) ∧
      (∀ y ∈ (s.hctl p.val).queue, y.bank = x.2.bank → y.passed < 16) ∧
      (∀ y ∈ (s.hctl p.val).ready, y.2.bank = x.2.bank → (s.hctl p.val).isHit x.2 = false →
        (s.hctl p.val).isHit y.2 = false)) ∧
    ((s.hctl p.val).isHit x.2 = false → ∀ y ∈ (s.hctl p.val).choices, (s.hctl p.val).isHit y.2 = false → y = x)) ∧
  (s.fld Fld.MC_PCSTAT_STATE p.val = 2 →
    (∀ x ∈ (s.hctl p.val).queue, x.bank / 16 = sid.val → s.does (.rankIdle p sid) (fun u => u = s)) ∧
    ((∀ x ∈ (s.hctl p.val).queue, x.bank / 16 ≠ sid.val) → s.does (.rankIdle p sid) (fun u =>
      (u.fld Fld.MC_PCSTAT_SIDIDLE p.val).testBit sid.val = true ∧
      (∀ b < 48, FMap.get (u.hctl p.val).openRow 0 b = (if b / 16 = sid.val then 0 else FMap.get (s.hctl p.val).openRow 0 b)) ∧
      (s.fld Fld.MC_PCSTAT_SIDIDLE p.val ||| 2 ^ sid.val = 7 → s.fld Fld.MC_PCSTAT_SIDIDLE (p.val ^^^ 1) = 7 →
        u.flag Fld.MC_PCSTAT_PD p.val = true ∧ u.flag Fld.MC_PCSTAT_PD (p.val ^^^ 1) = true) ∧
      u = { s with csr := u.csr, hbmc := u.hbmc } ∧ s.regsKept u [(.MC_PCSTAT, p.val), (.MC_PCSTAT, p.val ^^^ 1)])) ∧
    ((s.hctl p.val).wb = loc :: w → s.does (.eccWriteback p) (fun u =>
      (u.hctl p.val).wb = w ∧ u.burstAt loc = ((s.burstAt loc).1, 0) ∧ u.rawPoison loc = s.rawPoison loc ∧
      (∀ x, x < loc ∨ loc + 32 ≤ x → BMap.get u.mem x = BMap.get s.mem x) ∧
      (∀ x, x / 32 ≠ loc / 32 → FMap.get u.hbmSym 0 (x / 32) = FMap.get s.hbmSym 0 (x / 32)))) ∧
    (s.flag Fld.MC_SCRUB_EN p.val = true → (s.hctl p.val).scrub < pcLines →
      loc = p.val / 16 * 0x600000000 + pcaToSa p.val (64 * (s.hctl p.val).scrub) → s.rawPoison loc = 0 →
      s.soundLine loc = true →
      s.does (.patrolScrubRead p []) (fun u => (u.hctl p.val).scrub = ((s.hctl p.val).scrub + 1) % pcLines ∧
        u.mem = s.mem ∧ u.hbmBad = s.hbmBad ∧ u.csrGet .MC_ECC p.val = s.csrGet .MC_ECC p.val) ∧
      s.does (.patrolScrubRead p [1]) (fun u => loc ∈ (u.hctl p.val).wb ∧
        u.fld Fld.MC_ECC_CE_CNT p.val = min (s.fld Fld.MC_ECC_CE_CNT p.val + 1) (2 ^ 24 - 1) ∧ u.mem = s.mem) ∧
      s.does (.patrolScrubRead p [0, 0x11]) (fun u => u.rawPoison loc = 2 ∧ u.rawLine loc = s.rawLine loc ∧
        u.fld Fld.MC_ECC_UE_CNT p.val = min (s.fld Fld.MC_ECC_UE_CNT p.val + 1) (2 ^ 16 - 1) ∧
        u.fld Fld.MC_ECC_PSN_CNT p.val = min (s.fld Fld.MC_ECC_PSN_CNT p.val + 1) (2 ^ 8 - 1))))

/-- R402, R403: the pattern generator: which bursts a run covers, what each pattern puts on a lane, the compare, the MISR
and the loopback. -/
def Obligations.PatternGenerator : Prop :=
  ∀ (s : State) (src : Src) (p : PcId) (v : Word) (bad : BitVec 80) (j b l n pat a : Nat),
  n = (if Fld.MC_PGEN_COUNT.of v = 0 then 1 else Fld.MC_PGEN_COUNT.of v) → pat = Fld.MC_PGEN_PATTERN.of v → pat < 4 →
  s.memOk →
  s.patBit p.val 0 b l = decide (b % 2 = 1) ∧ s.patBit p.val 2 b l = decide (l = b % 80) ∧
  s.patBit p.val 3 b l = (s.csrGet .MC_PATD p.val).getLsbD (l % 64) ∧
  (l < 80 → s.patBit p.val 1 0 l = (l + 1).testBit 14 ∧
    prbsAt (l + 1) (b + 1) = 2 * (prbsAt (l + 1) b) % 2 ^ 15 + ((prbsAt (l + 1) b).testBit 14 != (prbsAt (l + 1) b).testBit 13).toNat) ∧
  (pcaSid (s.runPca p.val 0) = s.fld Fld.MC_PGADDR_SID p.val ∧ pcaRow (s.runPca p.val 0) = s.fld Fld.MC_PGADDR_ROW p.val ∧
    pcaBank (s.runPca p.val 0) = s.fld Fld.MC_PGADDR_BANK p.val ∧ s.runPca p.val 0 / 32 % 32 = s.fld Fld.MC_PGADDR_COL p.val) ∧
  (s.islOpen 20 = true → s.srcLive src = true → mcTrainer src = true → bitsOf (s.csrGet .MC_XGATE p.val) 17 16 = 2 →
    (s.fld Fld.MC_PCSTAT_STATE p.val ≠ 1 → s.does (.patternWrite src p v bad) (fun u =>
      u.fld Fld.MC_PCSTAT_LAST_STATUS p.val = 1 ∧ s.onlyRegs u [(.MC_PCSTAT, p.val)])) ∧
    (s.fld Fld.MC_PCSTAT_STATE p.val = 1 →
      s.does (.patternWrite src p v bad) (fun u =>
        u.flag Fld.MC_PCSTAT_DONE p.val = false ∧ u.csrGet .MC_MISR p.val = 0 ∧ u.csrGet .MC_MISRX p.val = 0 ∧
        u.fld Fld.MC_PGEN_COUNT p.val = n ∧
        (s.fld Fld.MC_PGADDR_SID p.val < 3 → j < n → b < 4 → l < 64 →
          u.runBit p.val j b l = s.patBit p.val pat (4 * j + b) l) ∧
        (s.fld Fld.MC_PGADDR_SID p.val = 3 → u.mem = s.mem) ∧
        ((∀ m < n, a < s.runPlace p.val m ∨ s.runPlace p.val m + 32 ≤ a) → BMap.get u.mem a = BMap.get s.mem a) ∧
        s.regsKept u [(.MC_PCSTAT, p.val), (.MC_PGEN, p.val), (.MC_MISR, p.val), (.MC_MISRX, p.val)]) ∧
      s.does (.patternCompare src p v bad) (fun u =>
        u.mem = s.mem ∧ u.flag Fld.MC_PCSTAT_DONE p.val = false ∧
        (s.fld Fld.MC_PGADDR_SID p.val < 3 → (∀ m < n, FMap.get s.hbmSym 0 (s.runPlace p.val m / 32) = 0) →
          l < 64 → (u.csrGet .MC_LERR p.val).getLsbD l = ((s.csrGet .MC_LERR p.val).getLsbD l ||
          (List.range n).any (fun m => (List.range 4).any (fun c =>
            (s.runBit p.val m c l != bad.getLsbD l) != s.patBit p.val pat (4 * m + c) l))))) ∧
      s.does (.patternMisr src p v bad) (fun u =>
        u.mem = s.mem ∧ (s.fld Fld.MC_PGADDR_SID p.val < 3 → (∀ m < n, FMap.get s.hbmSym 0 (s.runPlace p.val m / 32) = 0) →
          u.csrGet .MC_MISR p.val = (List.range (4 * n)).foldl (fun (m : Word) c => (m <<< 1) ^^^ (if m.msb then 0x1B else 0) ^^^
            (BitVec.ofNat 64 (BMap.readLE s.mem (s.runPlace p.val (c / 4) + 8 * (c % 4)) 8) ^^^ bad.truncate 64)) 0)) ∧
      (s.fld Fld.MC_PGADDR_SID p.val < 3 → s.does (.patternWriteCompare src p v bad) (fun u =>
        (j < n → b < 4 → l < 64 → u.runBit p.val j b l = s.patBit p.val pat (4 * j + b) l) ∧
        (l < 64 → (u.csrGet .MC_LERR p.val).getLsbD l = ((s.csrGet .MC_LERR p.val).getLsbD l || bad.getLsbD l)) ∧
        (l < 16 → (u.csrGet .MC_LERRX p.val).getLsbD l = ((s.csrGet .MC_LERRX p.val).getLsbD l || bad.getLsbD (64 + l))))) ∧
      s.does (.patternLoopback src p v bad) (fun u =>
        u.mem = s.mem ∧ u.flag Fld.MC_PCSTAT_DONE p.val = false ∧
        (l < 64 → (u.csrGet .MC_LERR p.val).getLsbD l = ((s.csrGet .MC_LERR p.val).getLsbD l || bad.getLsbD l)) ∧
        (l < 16 → (u.csrGet .MC_LERRX p.val).getLsbD l = ((s.csrGet .MC_LERRX p.val).getLsbD l || bad.getLsbD (64 + l)))))) ∧
  s.does (.patternRunDone p) (fun u => u.flag Fld.MC_PCSTAT_DONE p.val = true ∧ s.onlyRegs u [(.MC_PCSTAT, p.val)])

/-- R390, R392, R400, R406 to R412, R414: a request of a line reads and writes the line's place in the stacks, with the
outcomes of a read; mirrored regions; and the services that take a stack down and up. -/
def Obligations.HbmRequestsAndStacks : Prop :=
  ∀ (s : State) (src : Src) (pa : PA) (d : BitVec 512) (l : LlcLine) (v summary : Word) (m : SlotId) (n : MirId)
    (q : FwReq) (loc p k a : Nat),
  q = s.fwReq src true pa.toNat → loc = s.hbmLoc pa.toNat → p = s.hbmCtl pa.toNat → k = s.arg0 m.val →
  s.memOk →
  (s.srcLive src = true → pa.toNat % 64 = 0 → pa.toNat < 4 * 0x600000000 →
    (s.fld Fld.MC_ILV_MODE 0 = 0 → loc = pa.toNat / 4096 % 4 * 0x600000000 + pa.toNat / 16384 * 4096 + pa.toNat % 4096) ∧
    (s.fld Fld.MC_ILV_MODE 0 = 1 → loc = pa.toNat) ∧
    (s.plainLine pa.toNat q false → s.soundLine loc = true →
      s.does (.hbmRequest src pa false d []) (fun u =>
        u.resp = { val := (s.rawLine loc).truncate 256, err := false } ∧ u.mem = s.mem ∧ u.hbmBad = s.hbmBad) ∧
      (s.hbmForwards p loc = true → s.does (.hbmRequest src pa false d [0x11]) (fun u =>
        u.resp = { val := (s.rawLine loc).truncate 256, err := false } ∧ u.mem = s.mem ∧
        u.csrGet .MC_ECC p = s.csrGet .MC_ECC p)) ∧
      (s.rawPoison loc = 0 → s.hbmForwards p loc = false →
        s.does (.hbmRequest src pa false d [1]) (fun u =>
          u.resp = { val := (s.rawLine loc).truncate 256, err := false } ∧ u.mem = s.mem ∧
          u.fld Fld.MC_ECC_CE_CNT p = min (s.fld Fld.MC_ECC_CE_CNT p + 1) (2 ^ 24 - 1) ∧
          u.fld Fld.MC_ECC_UE_CNT p = s.fld Fld.MC_ECC_UE_CNT p ∧
          (s.flag Fld.MC_SCRUB_DEMAND p = true → loc ∈ (u.hctl p).wb)) ∧
        s.does (.hbmRequest src pa false d [0x11]) (fun u =>
          u.mem = s.mem ∧ u.fld Fld.MC_ECC_CE_CNT p = s.fld Fld.MC_ECC_CE_CNT p ∧
          u.fld Fld.MC_ECC_UE_CNT p = min (s.fld Fld.MC_ECC_UE_CNT p + 1) (2 ^ 16 - 1)))) ∧
    (s.plainLine pa.toNat q true → srcAllocates src = false →
      s.does (.hbmRequest src pa true d []) (fun u =>
        u.resp.err = false ∧ u.rawLine loc = d ∧ u.rawPoison loc = 0 ∧ u.soundLine loc = true ∧
        (a / 64 ≠ loc / 64 → BMap.get u.mem a = BMap.get s.mem a ∧ u.rawPoison a = s.rawPoison a))) ∧
    (s.l2Holders (pa.toNat / 64) = [] → s.llcFind (pa.toNat / 64) = none → q.sec = false → s.hbmRun p = false →
      s.does (.hbmRequest src pa false d []) (fun u => u.resp.err = true ∧ u.mem = s.mem) ∧
      (srcAllocates src = false → s.does (.hbmRequest src pa true d []) (fun u => u.resp.err = true ∧ u.mem = s.mem))) ∧
    (s.l2Holders (pa.toNat / 64) = [] → s.llcFind (pa.toNat / 64) = some l → l.sec = false → l.err = none → q.sec = false →
      s.flag Fld.ER_INJ_ARM (160 + homeSlice (pa.toNat / 64)) = false →
      s.does (.hbmRequest src pa false d []) (fun u => u.resp = { val := l.data.truncate 256, err := false } ∧ u.mem = s.mem))) ∧
  (s.srcLive src = true → s.islOpen 20 = true → s.srcSys src = true →
    s.does (.mirrorEnable src n v) (fun u => u.flag Fld.MC_MIR_EN n.val = true ∧
      u.fld Fld.MC_MIR_STATE n.val = (if s.flag Fld.MC_MIR_EN n.val = true then s.fld Fld.MC_MIR_STATE n.val else 1) ∧
      u.fld Fld.MC_MIR_BASE n.val = Fld.MC_MIR_BASE.of v ∧ u.fld Fld.MC_MIR_LIMIT n.val = Fld.MC_MIR_LIMIT.of v ∧
      u.fld Fld.MC_MIR_PAIR n.val = Fld.MC_MIR_PAIR.of v ∧ u.fld Fld.MC_MIR_PRI n.val = Fld.MC_MIR_PRI.of v ∧
      u.mem = s.mem ∧ s.onlyRegs u [(.MC_MIR, n.val), (.MC_XGATE, 68)]) ∧
    s.does (.mirrorDisable src n v) (fun u => u.flag Fld.MC_MIR_EN n.val = false ∧
      (s.flag Fld.MC_MIR_EN n.val = true → u.fld Fld.MC_MIR_STATE n.val = 0) ∧ u.mem = s.mem ∧
      s.onlyRegs u [(.MC_MIR, n.val), (.MC_XGATE, 68)])) ∧
  (s.fld Fld.MC_MIR_STATE n.val = 1 → s.does (.silveringDone n) (fun u => u.fld Fld.MC_MIR_STATE n.val = 2 ∧
    (s.fld Fld.MC_MIR_BASE n.val * 2 ^ 24 ≤ a → a < (s.fld Fld.MC_MIR_LIMIT n.val + 1) * 2 ^ 24 → a < 0x600000000 →
      s.hbmRun (hbmCtlOf (s.mirPri n.val) a) = true → s.hbmRun (hbmCtlOf (s.mirAlt n.val) a) = true →
      s.soundLine (s.mirPri n.val * 0x600000000 + a / 64 * 64) = true →
      u.burstBad (s.mirAlt n.val * 0x600000000 + a) = s.burstBad (s.mirPri n.val * 0x600000000 + a) ∧
      BMap.get u.mem (s.mirAlt n.val * 0x600000000 + a) = BMap.get s.mem (s.mirPri n.val * 0x600000000 + a) ∧
      BMap.get u.mem (s.mirPri n.val * 0x600000000 + a) = BMap.get s.mem (s.mirPri n.val * 0x600000000 + a)))) ∧
  (s.called m.val 0x08 true →
    (3 < k → s.does (.stackDown m) (fun u => u.answered m.val 9 ∧ u.mem = s.mem)) ∧
    (k < 4 → bitsOf (s.csrGet .PW_HOLD_ISL 0) (25 + k) (25 + k) = 1 → s.does (.stackDown m) (fun u => u.answered m.val 5 ∧ u.mem = s.mem)) ∧
    (k < 4 → s.fld Fld.PW_HOLD_ISL_STACK 0 = 0 →
      (s.flag Fld.MC_MIR_EN n.val = true → s.fld Fld.MC_MIR_PAIR n.val = k / 2 →
        s.does (.stackDown m) (fun u => u.answered m.val 1 ∧ u.mem = s.mem)) ∧
      (s.svc.long ≠ none → s.does (.stackDown m) (fun u => u.answered m.val 1 ∧ u.mem = s.mem)) ∧
      ((∀ j < 8, s.flag Fld.MC_MIR_EN j = false) → s.svc.long = none → s.does (.stackDown m) (fun u => u.answered m.val 0 ∧
        u.flag Fld.MC_STK_PWR k = false ∧
        (s.flag Fld.MC_STK_PWR k = true → ∀ j < 16, u.fld Fld.MC_PCSTAT_STATE (16 * k + j) = 0) ∧
        (s.flag Fld.MC_STK_PWR k = true → a < 0x600000000 → BMap.get u.mem (k * 0x600000000 + a) = 0) ∧
        (a / 0x600000000 ≠ k → BMap.get u.mem a = BMap.get s.mem a))))) ∧
  (s.called m.val 0x09 true → k < 4 → (s.slot m.val).second = true →
    ∀ pass, s.does (.stackUp m pass summary) (fun u => u.answered m.val 1 ∧ u.mem = s.mem)) ∧
  (s.called m.val 0x09 true → k < 4 → (s.slot m.val).second = false →
    s.does (.stackUp m true summary) (fun u => u.answered m.val 0 ∧ u.flag Fld.MC_STK_PWR k = true ∧
      (∀ j < 16, u.fld Fld.MC_PCSTAT_STATE (16 * k + j) = 2 ∧ u.fld Fld.MC_PCCTL_SETSTATE (16 * k + j) = 2 ∧
        u.fld Fld.MC_PGEN_PATTERN (16 * k + j) = 3 ∧ u.csrGet .MC_PATD (16 * k + j) = 0) ∧
      bitsOf (u.csrGet .RV_RES0 m.val) 63 28 = 0 ∧
      (a < 0x600000000 → BMap.get u.mem (k * 0x600000000 + a) = 0 ∧ u.rawPoison (k * 0x600000000 + a) = 0) ∧
      (a / 0x600000000 ≠ k → BMap.get u.mem a = BMap.get s.mem a)) ∧
    s.does (.stackUp m false summary) (fun u => u.flag Fld.MC_STK_PWR k = false ∧
      u.fld Fld.RV_STAT_STATUS m.val = 0x14 ∧ (a / 0x600000000 ≠ k → BMap.get u.mem a = BMap.get s.mem a)))

/-- R417, R420, R422 to R426, R428 to R430, R432: the Granary: accesses and collisions, claims, releases and shares, and the
retention of a bank. -/
def Obligations.GranaryBanks : Prop :=
  ∀ (s : State) (src : Src) (pa : PA) (d e : BitVec 256) (b : BankId) (v : Word) (m : SlotId) (t : ThreadId) (c : CoreId)
    (n own a k : Nat) (sec : Bool),
  s.memOk → b.val = granBank pa.toNat → own = s.fld Fld.GR_BANK_OWNER b.val → sec = s.accSecure src pa.toNat → k = s.arg0 m.val →
  (n = 1 ∨ n = 2 ∨ n = 4 ∨ n = 8 ∨ n = 32 → s.srcLive src = true → isGranary pa.toNat = true → pa.toNat % n = 0 →
    s.islOpen 22 = true → s.flag Fld.ER_INJ_ARM 244 = false →
    (s.fwPermits true b.val pa.toNat { src := some (srcId src), sec := sec } true = true →
     s.fwPermits true b.val pa.toNat { src := some (srcId src), sec := sec } false = true →
      (s.fld Fld.GR_BANK_PSTATE b.val = 0 → s.fld Fld.GR_BANK_STATE b.val = 1 ∨ s.fld Fld.GR_BANK_STATE b.val = 2 →
        (s.ownerMember own src = true ∨ (own ≠ 0x201 ∧ s.fld Fld.GR_BANK_SHARE b.val = 2) ∨ (src = .jtag ∧ own ≠ 0x201) →
          ((n = 8 ∨ n = 32) ∨ FMap.get s.granBad 0 (pa.toNat / 8 * 8) = 0 →
          s.does (.granaryAccess src pa n true d none 0) (fun u => u.resp.err = false ∧
            BMap.get u.mem a = (if pa.toNat ≤ a ∧ a < pa.toNat + n then BitVec.ofNat 8 (d.toNat / 256 ^ (a - pa.toNat))
              else BMap.get s.mem a) ∧
            u = { s with mem := u.mem, granBad := u.granBad, resp := u.resp })) ∧
          (isPortB src = false → s.srcLive (.thread t) = true → pa.toNat % 8 = 0 → s.granBad = [] → n ≤ 8 →
            s.granCheck (.thread t) (s.accSecure (.thread t) pa.toNat) pa.toNat false = (0, s) →
            s.does (.granaryAccess src pa n true d (some ⟨.thread t, pa, 8, false, e, none, none⟩) 0) (fun u =>
              u.resp.err = false ∧ u.resp.err2 = false ∧ u.resp.busy = decide (n = 8) ∧
              u.resp.val2 = BitVec.ofNat 256 (BMap.readLE u.mem pa.toNat 8) ∧
              (a < 8 → BMap.get u.mem (pa.toNat + a) =
                (if a < n then BitVec.ofNat 8 (d.toNat / 256 ^ a) else BMap.get s.mem (pa.toNat + a))) ∧
              u.fld Fld.GR_CONF_BUSY_CNT (160 + t.val) = (if n = 8
                then min (s.fld Fld.GR_CONF_BUSY_CNT (160 + t.val) + 1) (2 ^ 20 - 1) else s.fld Fld.GR_CONF_BUSY_CNT (160 + t.val)) ∧
              u.fld Fld.GR_CONF_WAIT_CNT (160 + t.val) = (if n = 8 then s.fld Fld.GR_CONF_WAIT_CNT (160 + t.val)
                else min (s.fld Fld.GR_CONF_WAIT_CNT (160 + t.val) + 1) (2 ^ 20 - 1))))) ∧
        (s.ownerMember own src = true ∨ (own ≠ 0x201 ∧ s.fld Fld.GR_BANK_SHARE b.val ∈ [1, 2]) →
          s.granBad = [] → s.does (.granaryAccess src pa n false d none 0) (fun u =>
            u.resp = { val := BitVec.ofNat 256 (BMap.readLE s.mem pa.toNat n), err := false } ∧ u = { s with resp := u.resp }) ∧
          (isPortB src = false → s.srcLive (.thread t) = true → pa.toNat % 8 = 0 →
            s.granCheck (.thread t) (s.accSecure (.thread t) pa.toNat) pa.toNat true = (0, s) →
            s.does (.granaryAccess src pa n false d (some ⟨.thread t, pa, 8, true, e, none, none⟩) 0) (fun u =>
              u.resp.err = false ∧ u.resp.err2 = false ∧ u.resp.busy = true ∧
              u.resp.val.toNat / 2 ^ 64 = BMap.readLE s.mem pa.toNat n / 2 ^ 64 ∧
              (a < 8 → BMap.get u.mem (pa.toNat + a) = BitVec.ofNat 8 (e.toNat / 256 ^ a)) ∧
              (src = .core c → u.fld Fld.GR_CONF_HIT_CNT c.val = min (s.fld Fld.GR_CONF_HIT_CNT c.val + 1) (2 ^ 20 - 1)) ∧
              u.fld Fld.GR_CONF_BUSY_CNT (160 + t.val) = min (s.fld Fld.GR_CONF_BUSY_CNT (160 + t.val) + 1) (2 ^ 20 - 1))))) ∧
      (s.fld Fld.GR_BANK_PSTATE b.val = 2 ∨ s.fld Fld.GR_BANK_STATE b.val = 0 ∨
        (s.ownerMember own src = false ∧ s.fld Fld.GR_BANK_SHARE b.val = 0 ∧ src ≠ .jtag) →
        s.does (.granaryAccess src pa n true d none 0) (fun u => u = { s with resp := { val := 0, err := true } })))) ∧
  (s.islOpen Reg.GR_CMD.island = true → s.srcLive src = true →
    (∀ P : Nat → State → Prop, P = (fun st u => u.fld Fld.GR_BANK_LAST_STATUS b.val = st ∧
        u.fld Fld.GR_BANK_LAST_SRC b.val = srcId src ∧ s.onlyRegs u [(.GR_BANK, b.val)]) →
      (ownerValid (Fld.GR_CMD_CODE.of v) = false → s.does (.granaryClaim src b v) (fun u => P 7 u ∧
        u.fld Fld.GR_BANK_OWNER b.val = own ∧ u.fld Fld.GR_BANK_STATE b.val = s.fld Fld.GR_BANK_STATE b.val)) ∧
      (ownerValid (Fld.GR_CMD_CODE.of v) = true → Fld.GR_CMD_FORCE.of v = 1 → src = .reeve → own ≠ 0x201 →
        s.does (.granaryClaim src b v) (fun u => P 0 u ∧ u.fld Fld.GR_BANK_OWNER b.val = Fld.GR_CMD_CODE.of v ∧
          u.fld Fld.GR_BANK_STATE b.val = 1)) ∧
      (ownerValid (Fld.GR_CMD_CODE.of v) = true → Fld.GR_CMD_FORCE.of v = 1 → src ≠ .reeve ∨ own = 0x201 →
        s.does (.granaryClaim src b v) (fun u => P 7 u ∧ u.fld Fld.GR_BANK_OWNER b.val = own ∧
          u.fld Fld.GR_BANK_STATE b.val = s.fld Fld.GR_BANK_STATE b.val)) ∧
      (ownerValid (Fld.GR_CMD_CODE.of v) = true → Fld.GR_CMD_FORCE.of v = 0 →
        (s.fld Fld.GR_BANK_STATE b.val = 0 →
          s.fld Fld.GR_BANK_NEXT b.val = 0xFFF ∨ s.fld Fld.GR_BANK_NEXT b.val = Fld.GR_CMD_CODE.of v →
          Fld.GR_CMD_CODE.of v ≠ 0x201 ∨ src = .cocoon →
          s.ownerMember (Fld.GR_CMD_CODE.of v) src = true ∨ s.srcSys src = true →
          s.does (.granaryClaim src b v) (fun u => P 0 u ∧ u.fld Fld.GR_BANK_OWNER b.val = Fld.GR_CMD_CODE.of v ∧
            u.fld Fld.GR_BANK_STATE b.val = 1 ∧ u.fld Fld.GR_BANK_SHARE b.val =
              (if Fld.GR_CMD_SHARE.of v = 3 ∨ Fld.GR_CMD_CODE.of v = 0x201 then 0 else Fld.GR_CMD_SHARE.of v))) ∧
        (s.fld Fld.GR_BANK_STATE b.val ≠ 0 → s.does (.granaryClaim src b v) (fun u => P 2 u ∧
          u.fld Fld.GR_BANK_OWNER b.val = own ∧ u.fld Fld.GR_BANK_STATE b.val = s.fld Fld.GR_BANK_STATE b.val))) ∧
      (s.fld Fld.GR_BANK_STATE b.val = 1 → s.ownerMember own src = true ∨ (own ≠ 0x201 ∧ s.srcSys src = true) →
        (ownerValid (Fld.GR_CMD_CODE.of v) = true ∨ Fld.GR_CMD_CODE.of v = 0xFFF →
          s.does (.granaryRelease src b v) (fun u => P 0 u ∧ u.fld Fld.GR_BANK_NEXT b.val = Fld.GR_CMD_CODE.of v ∧
            u.fld Fld.GR_BANK_STATE b.val = 2 ∧ u.fld Fld.GR_BANK_OWNER b.val = own)) ∧
        s.does (.granaryShare src b v) (fun u => P 0 u ∧ u.fld Fld.GR_BANK_SHARE b.val =
            (if Fld.GR_CMD_SHARE.of v = 3 ∨ own = 0x201 then 0 else Fld.GR_CMD_SHARE.of v) ∧
          u.fld Fld.GR_BANK_OWNER b.val = own ∧ u.fld Fld.GR_BANK_STATE b.val = 1)) ∧
      (s.fld Fld.GR_BANK_STATE b.val ≠ 1 → s.does (.granaryRelease src b v) (P 7) ∧ s.does (.granaryShare src b v) (P 7)))) ∧
  (s.fld Fld.GR_BANK_STATE b.val = 2 → s.does (.releaseComplete b) (fun u => u.fld Fld.GR_BANK_STATE b.val = 0 ∧
    u.fld Fld.GR_BANK_NEXT b.val = s.fld Fld.GR_BANK_NEXT b.val ∧ s.onlyRegs u [(.GR_BANK, b.val)])) ∧
  (s.called m.val 0x0A true → k < 64 → s.csrGet .PW_HOLD_GR 0 = 0 →
    (s.fld Fld.GR_BANK_OWNER k ∈ [0x200, 0x201] →
      s.does (.bankRetain m) (fun u => u.answered m.val 7 ∧ u.csrGet .GR_BANK k = s.csrGet .GR_BANK k)) ∧
    (s.fld Fld.GR_BANK_OWNER k ∉ [0x200, 0x201] →
      (s.fld Fld.GR_BANK_PSTATE k = 0 → s.does (.bankRetain m) (fun u => u.fld Fld.GR_BANK_PSTATE k = 1 ∧
        u.fld Fld.GR_BANK_STATE k = (if s.fld Fld.GR_BANK_STATE k = 2 then 0 else s.fld Fld.GR_BANK_STATE k) ∧
        (k, true, m.val) ∈ u.granWait ∧ u.mem = s.mem)) ∧
      (s.fld Fld.GR_BANK_PSTATE k = 2 → s.does (.bankRetain m) (fun u => u.answered m.val 0 ∧
        u.csrGet .GR_BANK k = s.csrGet .GR_BANK k)))) ∧
  (s.called m.val 0x0A true → k < 64 → (s.fld Fld.PW_HOLD_GR_BANK 0).testBit k = true →
    s.does (.bankRetain m) (fun u => u.answered m.val 5 ∧ u.csrGet .GR_BANK k = s.csrGet .GR_BANK k)) ∧
  (s.called m.val 0x0A true → 63 < k → s.does (.bankRetain m) (fun u => u.answered m.val 9)) ∧
  (s.called m.val 0x0B true → k < 64 →
    (s.fld Fld.GR_BANK_PSTATE k = 0 → s.does (.bankWake m) (fun u => u.answered m.val 0 ∧
      u.csrGet .GR_BANK k = s.csrGet .GR_BANK k)) ∧
    (s.fld Fld.GR_BANK_PSTATE k = 2 → s.does (.bankWake m) (fun u => u.fld Fld.GR_BANK_PSTATE k = 3 ∧
      (k, false, m.val) ∈ u.granWait))) ∧
  (s.fld Fld.GR_BANK_PSTATE b.val = 1 → s.callState m.val = 2 → s.granWait = [(b.val, true, m.val)] →
    s.does (.bankRetainCommit b) (fun u => u.fld Fld.GR_BANK_PSTATE b.val = 2 ∧ u.answered m.val 0 ∧ u.mem = s.mem ∧
      u.fld Fld.GR_BANK_OWNER b.val = own ∧ u.fld Fld.GR_BANK_SHARE b.val = s.fld Fld.GR_BANK_SHARE b.val)) ∧
  (s.fld Fld.GR_BANK_PSTATE b.val = 3 → s.callState m.val = 2 → s.granWait = [(b.val, false, m.val)] →
    s.does (.bankExitComplete b) (fun u => u.fld Fld.GR_BANK_PSTATE b.val = 0 ∧ u.answered m.val 0 ∧ u.mem = s.mem))

/-- R282, R283, R288, R292, R294, R296, R297, R332: a core's request of a line: what its L2 and the other L2s hold after it,
that no agent reads another value for it, and what an evicted line leaves. -/
def Obligations.LineRequests : Prop :=
  ∀ (s : State) (c d : CoreId) (line : PA) (kind : LineKind) (victim n k i : Nat) (v : LineData) (x : L2Line) (o : Stride)
    (l2 : Bool) (src : Src),
  n = line.toNat / 64 → s.memOk → v = s.hbmLine (s.hbmLoc (64 * n)) → isHbm (64 * n) = true →
  (s.srcLive (.core c) = true →
    (s.heldAgainst n (some c.val) = true → s.does (.lineRequest (.core c) line kind victim) (fun u => u = s)) ∧
    (s.heldAgainst n (some c.val) = false → (s.core c.val).l2State = 1 → s.flag Fld.ER_INJ_ARM c.val = false →
      s.flag Fld.ER_INJ_ARM (160 + homeSlice n) = false → (s.dirEntries (homeSlice n) (dirIndex n)).length < 12 →
      (s.plainLine (64 * n) (coreReq c.val) false → s.sharers n = [] →
        ((s.core c.val).l1d.all (fun e => e.1 != n) = true → s.does (.lineRequest (.core c) line .load victim) (fun u =>
          (u.l2Find c.val n).map (fun l => (l.st, l.data)) = some (.e, v) ∧
          (s.soundLine (s.hbmLoc (64 * n)) = true → k < 64 → u.peekByte (64 * n + k) = s.peekByte (64 * n + k)) ∧
          ((s.core c.val).arch.csf CsFld.L1CTL_DEN = 1 → (u.core c.val).l1d.any (fun e => e.1 == n) = true))) ∧
        s.does (.lineRequest (.core c) line .store victim) (fun u =>
          (u.l2Find c.val n).map (fun l => (l.st, l.data)) = some (.e, v) ∧
          (s.soundLine (s.hbmLoc (64 * n)) = true → k < 64 → u.peekByte (64 * n + k) = s.peekByte (64 * n + k))) ∧
        s.does (.lineRequest (.core c) line .fetch victim) (fun u =>
          (u.core c.val).l2 = (s.core c.val).l2 ∧ u.mem = s.mem ∧ u.llc = s.llc ∧
          ((s.core c.val).arch.csf CsFld.L1CTL_IEN = 1 → (u.core c.val).l1i.any (fun e => e.1 == n) = true))) ∧
      (s.l2Find c.val n = none → c ≠ d → s.l2Holders n = [d.val] → s.l2Find d.val n = some x → x.err = none →
        s.shadowLine n = false → s.flag Fld.ER_INJ_ARM d.val = false →
        ((s.core c.val).l1d.all (fun e => e.1 != n) = true → s.does (.lineRequest (.core c) line .load victim) (fun u =>
          (u.l2Find c.val n).map (fun l => (l.st, l.data)) = some (.s, x.data) ∧
          (u.l2Find d.val n).map (fun l => (l.st, l.data)) = some (.s, x.data) ∧
          (k < 64 → u.peekByte (64 * n + k) = s.peekByte (64 * n + k)))) ∧
        s.does (.lineRequest (.core c) line .store victim) (fun u =>
          (u.l2Find c.val n).map (fun l => (l.st, l.data)) = some (.e, x.data) ∧ u.l2Find d.val n = none ∧
          (k < 64 → u.peekByte (64 * n + k) = s.peekByte (64 * n + k)))) ∧
      (s.l2Find c.val n = some x → x.err = none → s.does (.lineRequest (.core c) line .load victim) (fun u =>
        u.l2Find c.val n = some x ∧ u.mem = s.mem ∧ u.llc = s.llc)) ∧
      (o = (s.core c.val).det2.headD o → (s.core c.val).det2 ≠ [] → (s.core c.val).arch.csf CsFld.PFCTL_L2_DIST = 1 →
        (n : Int) = o.last + o.step → n / 64 = o.last / 64 → 2 ≤ o.conf →
        (s.core c.val).arch.csf CsFld.PFCTL_L2_EN = 1 → s.plainLine (64 * n) { coreReq c.val with cls := 1 } false → s.sharers n = [] → s.readsFull n = false →
        s.does (.prefetchRequest c true 0) (fun u => (u.l2Find c.val n).map (fun l => (l.st, l.data)) = some (.e, v) ∧
          (∀ y ∈ (u.core c.val).l1d, y ∈ (s.core c.val).l1d) ∧ (u.core c.val).arch.pc = (s.core c.val).arch.pc)))) ∧
  (s.srcLive src = true → (∀ e, src ≠ .core e) → s.heldAgainst n none = false → s.plainLine (64 * n) (s.fwReq src true (64 * n)) false →
    s.does (.lineRequest src (BitVec.ofNat 48 (64 * n)) kind victim) (fun u =>
      u.resp = { val := v.truncate 256, err := false } ∧ u.mem = s.mem ∧ u.llc = s.llc)) ∧
  (l2 = true ∧ (s.core c.val).arch.csf CsFld.PFCTL_L2_EN = 0 ∨ l2 = false ∧ (s.core c.val).arch.csf CsFld.PFCTL_L1_EN = 0 →
    s.does (.prefetchRequest c l2 i) (fun u => u = s)) ∧
  (s.l2Find c.val n = some x → s.islOpen (coreIsland c.val) = true → s.heldAgainst n none = false → x.line = n →
    x.err = none → s.flag Fld.ER_INJ_ARM c.val = false →
    s.does (.llcOffer c line) (fun u =>
      u.l2Find c.val n = none ∧ (u.core c.val).l1d.all (fun e => e.1 != n) = true ∧
      (x.st = .m → s.flag Fld.MC_LLC_CTL_ALLOC_EN (homeSlice n) = true →
        (u.llcFind n).map (fun l => (l.dirty, l.data)) = some (true, x.data)) ∧
      (x.st ≠ .m → s.fld Fld.MC_LLC_CTL_OFFER (homeSlice n) = 1 → u.llc = s.llc ∧ u.mem = s.mem) ∧
      (x.st ≠ .m → s.fld Fld.MC_LLC_CTL_OFFER (homeSlice n) = 2 → s.flag Fld.MC_LLC_CTL_ALLOC_EN (homeSlice n) = true →
        s.llcFind n = none → (u.llcFind n).map (fun l => (l.dirty, l.data)) = some (false, x.data))))

/-- R227, R268, R270, R304 to R306, R308 to R310, R322, R332: turning an L2 and a slice on and off, the sweeps and the secure
flush, the performing of a store, and a walk of the page tables by itself. -/
def Obligations.CacheControlsAndStores : Prop :=
  ∀ (s w : State) (c d : CoreId) (t : LlcId) (src : Src) (v ea : Word) (acc : Access) (spec : Bool) (e : SbEntry)
    (x : XOk) (te : Option TlbEntry) (err : XErr) (l : L2Line) (i a n : Nat),
  s.memOk →
  (s.islOpen (coreIsland c.val) = true → (s.core c.val).run = .running → (s.core c.val).arch.mode = 2 →
    (bitsOf v 1 1 = (s.core c.val).arch.csf CsFld.L2CTL_MODE ∨ (s.core c.val).arch.csf CsFld.L2CTL_STATE = 0 →
      s.does (.l2Disable c v) (fun u =>
        (u.core c.val).arch.csf CsFld.L2CTL_EN = 0 ∧ (u.core c.val).arch.csf CsFld.L2CTL_MODE = bitsOf v 1 1 ∧
        (u.core c.val).arch.csf CsFld.L2CTL_STATE =
          (if (s.core c.val).arch.csf CsFld.L2CTL_STATE = 1 then 2 else (s.core c.val).arch.csf CsFld.L2CTL_STATE) ∧
        (u.core c.val).arch.csf CsFld.L2CTL_LAST_STATUS = 0 ∧ (u.core c.val).l2 = (s.core c.val).l2 ∧
        u = { s with cores := u.cores }) ∧
      s.does (.l2Enable c v) (fun u =>
        (u.core c.val).arch.csf CsFld.L2CTL_EN = 1 ∧ (u.core c.val).arch.csf CsFld.L2CTL_STATE = 1 ∧
        (u.core c.val).arch.csf CsFld.L2CTL_LAST = (if (s.core c.val).arch.csf CsFld.L2CTL_STATE = 2 then 2
          else (s.core c.val).arch.csf CsFld.L2CTL_LAST) ∧ (u.core c.val).l2 = (s.core c.val).l2 ∧
        u = { s with cores := u.cores })) ∧
    (bitsOf v 1 1 ≠ (s.core c.val).arch.csf CsFld.L2CTL_MODE → (s.core c.val).arch.csf CsFld.L2CTL_STATE ≠ 0 →
      s.does (.l2Enable c v) (fun u => (u.core c.val).arch.csf CsFld.L2CTL_LAST_STATUS = 1 ∧
        (u.core c.val).arch.csf CsFld.L2CTL_STATE = (s.core c.val).arch.csf CsFld.L2CTL_STATE))) ∧
  ((s.core c.val).l2State = 2 → s.does (.l2SweepEnd c) (fun u =>
    (u.core c.val).l2 = [] ∧ (u.core c.val).l1d = [] ∧ (u.core c.val).arch.csf CsFld.L2CTL_STATE = 0 ∧
    (u.core c.val).arch.csf CsFld.L2CTL_LAST = 1 ∧ (d ≠ c → (u.core d.val).l2 = (s.core d.val).l2) ∧
    ((s.core c.val).l2.all (fun y => y.st != .m) = true → u.mem = s.mem ∧ u.llc = s.llc))) ∧
  (s.srcLive src = true → s.islOpen Reg.MC_LLC_CTL.island = true →
    (s.srcSys src = true →
      (Fld.MC_LLC_CTL_MODE.of v = s.fld Fld.MC_LLC_CTL_MODE t.val →
        s.does (.allocDisable src t v) (fun u => u.flag Fld.MC_LLC_CTL_ALLOC_EN t.val = false ∧
          u.fld Fld.MC_LLC_STAT_STATE t.val =
            (if s.fld Fld.MC_LLC_STAT_STATE t.val = 1 then 2 else s.fld Fld.MC_LLC_STAT_STATE t.val) ∧
          u.fld Fld.MC_LLC_CTL_OFFER t.val =
            (if Fld.MC_LLC_CTL_OFFER.of v = 3 then s.fld Fld.MC_LLC_CTL_OFFER t.val else Fld.MC_LLC_CTL_OFFER.of v) ∧
          u.fld Fld.MC_LLC_STAT_LAST_STATUS t.val = 0 ∧ s.onlyRegs u [(.MC_LLC_CTL, t.val), (.MC_LLC_STAT, t.val)]) ∧
        s.does (.allocEnable src t v) (fun u => u.flag Fld.MC_LLC_CTL_ALLOC_EN t.val = true ∧
          u.fld Fld.MC_LLC_STAT_STATE t.val = 1 ∧
          (s.fld Fld.MC_LLC_STAT_STATE t.val = 2 → u.fld Fld.MC_LLC_STAT_LAST t.val = 2) ∧
          s.onlyRegs u [(.MC_LLC_CTL, t.val), (.MC_LLC_STAT, t.val)])) ∧
      (Fld.MC_LLC_CTL_MODE.of v ≠ s.fld Fld.MC_LLC_CTL_MODE t.val → s.fld Fld.MC_LLC_STAT_STATE t.val ≠ 0 →
        s.does (.allocEnable src t v) (fun u => u.fld Fld.MC_LLC_STAT_LAST_STATUS t.val = 1 ∧
          s.onlyRegs u [(.MC_LLC_STAT, t.val)]))) ∧
    (s.srcSys src = false → s.does (.allocDisable src t v) (fun u => s.onlyRegs u [])) ∧
    (src = .cocoon → s.does (.secflushGo src t v) (fun u => u.flag Fld.MC_LLC_SECFLUSH_DONE t.val = false ∧
      s.onlyRegs u [(.MC_LLC_SECFLUSH, t.val)])) ∧
    (src ≠ .cocoon → s.does (.secflushGo src t v) (fun u => s.onlyRegs u []))) ∧
  ((∀ y ∈ s.llcOf t.val, homeSlice y.line = t.val) → s.fld Fld.MC_LLC_STAT_STATE t.val = 2 → s.does (.llcSweepEnd t) (fun u =>
    u.llcOf t.val = [] ∧ u.fld Fld.MC_LLC_STAT_STATE t.val = 0 ∧ u.fld Fld.MC_LLC_STAT_LAST t.val = 1 ∧
    (∀ j, j ≠ t.val → u.llcOf j = s.llcOf j) ∧ ((s.llcOf t.val).all (fun y => !y.dirty) = true → u.mem = s.mem))) ∧
  ((∀ y ∈ s.llcOf t.val, homeSlice y.line = t.val) → ((s.llcOf t.val).map (fun y => y.line)).Nodup →
    s.flag Fld.MC_LLC_SECFLUSH_DONE t.val = false → s.does (.secflushDone t) (fun u =>
    u.llcOf t.val = (s.llcOf t.val).filter (fun y => !y.sec) ∧ u.flag Fld.MC_LLC_SECFLUSH_DONE t.val = true)) ∧
  ((s.core c.val).sb[i]? = some e → e.kind = 0 → isHbm e.addr = true → e.addr % 64 + e.size ≤ 64 → e.size ≤ 32 →
    n = e.addr / 64 →
    s.islOpen (coreIsland c.val) = true → sbReady (s.core c.val).sb i = true →
    (s.heldAgainst n (some c.val) = true → s.does (.storePerform c i) (fun u => u = s)) ∧
    (s.heldAgainst n (some c.val) = false → (s.core c.val).l2State = 1 → s.flag Fld.ER_INJ_ARM c.val = false →
      s.l2Holders n = [c.val] → s.l2Find c.val n = some l →
      (e.words = [] → s.does (.storePerform c i) (fun u =>
        (u.core c.val).sb = (s.core c.val).sb.eraseIdx i ∧ (u.l2Find c.val n).map (fun y => y.st) = some .m ∧
        (a < 64 → u.peekByte (64 * n + a) = (if e.addr ≤ 64 * n + a ∧ 64 * n + a < e.addr + e.size
          then BitVec.ofNat 8 (e.data.toNat / 256 ^ (64 * n + a - e.addr)) else s.peekByte (64 * n + a))) ∧
        (a / 64 ≠ n → u.peekByte a = s.peekByte a) ∧ u.mem = s.mem ∧ (s.llcFind n = none → u.llc = s.llc))) ∧
      (2 ≤ e.words.length → (∀ o ∈ e.words, o % 8 = 0 ∧ o < 32) → e.addr % 32 = 0 → s.does (.storePerform c i) (fun u =>
        ∃ o ∈ e.words, (u.core c.val).sb = (s.core c.val).sb.set i { e with words := e.words.erase o } ∧
        (a < 64 → u.peekByte (64 * n + a) = (if e.addr + o ≤ 64 * n + a ∧ 64 * n + a < e.addr + o + 8
          then BitVec.ofNat 8 (e.data.toNat / 256 ^ (64 * n + a - e.addr)) else s.peekByte (64 * n + a))) ∧
        (a / 64 ≠ n → u.peekByte a = s.peekByte a) ∧ u.mem = s.mem ∧ (s.llcFind n = none → u.llc = s.llc))))) ∧
  (sbReady (s.core c.val).sb i = false → s.does (.storePerform c i) (fun u => u = s)) ∧
  (s.islOpen (coreIsland c.val) = false ∨ (spec = true ∧ (s.core c.val).arch.csf CsFld.SPECCTL_NOSPEC_TW = 1) →
    s.does (.translationWalk c ea acc spec) (fun u => u = s)) ∧
  (s.islOpen (coreIsland c.val) = true → (s.core c.val).run = .running →
    spec = false ∨ (s.core c.val).arch.csf CsFld.SPECCTL_NOSPEC_TW = 0 →
    (s.xWalk c.val ea acc false = (.ok (x, te), w) → s.does (.translationWalk c ea acc spec) (fun u =>
      (∀ y ∈ te, x.upds = [] → (u.core c.val).tlb.head? = some y ∧
        (acc = .fetch → (u.core c.val).itlb.head? = some y ∧ (u.core c.val).dtlb = (w.core c.val).dtlb) ∧
        (acc ≠ .fetch → (u.core c.val).dtlb.head? = some y ∧ (u.core c.val).itlb = (w.core c.val).itlb)) ∧ (x.upds ≠ [] → (u.core c.val).tlb = (w.core c.val).tlb) ∧
      (u.core c.val).arch.pc = (s.core c.val).arch.pc ∧ (u.core c.val).arch.mode = (s.core c.val).arch.mode ∧
      u.mem = w.mem ∧ u.csr = w.csr)) ∧
    (s.xWalk c.val ea acc false = (.error err, w) → s.does (.translationWalk c ea acc spec) (fun u => u = w ∧
      (u.core c.val).arch.pc = (s.core c.val).arch.pc ∧ (u.core c.val).arch.mode = (s.core c.val).arch.mode)))

/-- R334, R336 to R341: the group table: its definition, and FORM, DISSOLVE and ADMIT with their conditions in order; a core
that a FORM or an ADMIT still copying has named is refused like a member (DESIGN CHOICE, assumption log 325). -/
def Obligations.GroupTable : Prop :=
  ∀ (s : State) (src : Src) (g : GroupId) (v : Word) (c : CoreId) (n i : Nat) (l : List Nat),
  n = s.fld Fld.CG_DEF_SIZE g.val → l = s.groupActive g.val →
  (s.committed c.val = true ↔ s.flag Fld.CG_CORE_IN c.val = true ∨
    ∃ k < 80, (s.fld Fld.CG_STAT_STATE k = 1 ∧ c.val ∈ s.defMembers k) ∨ (s.group k).joining = some c.val) ∧
  (s.islOpen 20 = true → s.srcLive src = true →
    (∀ P : Nat → State → Prop, P = (fun st u => u.fld Fld.CG_STAT_LAST_STATUS g.val = st ∧
        u.fld Fld.CG_STAT_LAST_SRC g.val = srcId src) →
      (s.srcSys src = false → s.does (.groupDefWrite src g v) (fun u => P 7 u ∧ u.csrGet .CG_DEF g.val = s.csrGet .CG_DEF g.val) ∧
        s.does (.form src g v) (fun u => P 7 u ∧ s.onlyRegs u [(.CG_STAT, g.val), (.CG_XGATE, 0)]) ∧
        s.does (.dissolve src g v) (fun u => P 7 u ∧ s.onlyRegs u [(.CG_STAT, g.val), (.CG_XGATE, 0)]) ∧
        s.does (.groupAdmit src g v) (fun u => P 7 u ∧ s.onlyRegs u [(.CG_STAT, g.val), (.CG_XGATE, 0)])) ∧
      (s.srcSys src = true →
        (s.fld Fld.CG_STAT_STATE g.val ≠ 0 →
          s.does (.groupDefWrite src g v) (fun u => P 1 u ∧ s.onlyRegs u [(.CG_STAT, g.val), (.CG_XGATE, 0)]) ∧
          s.does (.form src g v) (fun u => P 1 u ∧ s.onlyRegs u [(.CG_STAT, g.val), (.CG_XGATE, 0)])) ∧
        (s.fld Fld.CG_STAT_STATE g.val = 0 →
          s.does (.groupDefWrite src g v) (fun u => P 0 u ∧
            u.fld Fld.CG_DEF_M0 g.val = Fld.CG_DEF_M0.of v ∧ u.fld Fld.CG_DEF_M1 g.val = Fld.CG_DEF_M1.of v ∧
            u.fld Fld.CG_DEF_M2 g.val = Fld.CG_DEF_M2.of v ∧ u.fld Fld.CG_DEF_SIZE g.val = Fld.CG_DEF_SIZE.of v ∧
            u.fld Fld.CG_DEF_PRIMARY g.val = Fld.CG_DEF_PRIMARY.of v ∧ u.fld Fld.CG_DEF_HOME g.val = Fld.CG_DEF_HOME.of v ∧
            u.fld Fld.CG_DEF_ILIMIT g.val = max 64 (min 4096 (Fld.CG_DEF_ILIMIT.of v)) ∧
            s.onlyRegs u [(.CG_STAT, g.val), (.CG_DEF, g.val), (.CG_XGATE, 0)]) ∧
          s.does (.dissolve src g v) (fun u => P 9 u ∧ s.onlyRegs u [(.CG_STAT, g.val), (.CG_XGATE, 0)]) ∧
          (n ≠ 2 → n ≠ 3 → s.does (.form src g v) (fun u => P 9 u ∧ s.onlyRegs u [(.CG_STAT, g.val), (.CG_XGATE, 0)])) ∧
          (n = 2 ∨ n = 3 → (s.defMembers g.val).Nodup → (∀ m ∈ s.defMembers g.val, m < 160) →
            s.fld Fld.CG_DEF_PRIMARY g.val < n → s.fld Fld.CG_DEF_HOME g.val = 0x7F →
            ((∃ m ∈ s.defMembers g.val, s.committed m = true) → s.does (.form src g v) (P 0x11)) ∧
            ((∀ m ∈ s.defMembers g.val, s.committed m = false) →
              ((∃ m ∈ s.defMembers g.val, (s.core m).run ≠ .parked) → s.does (.form src g v) (P 0x10)) ∧
              ((∀ m ∈ s.defMembers g.val, (s.core m).run = .parked ∧ s.islState (coreIsland m) = 1) →
                s.does (.form src g v) (fun u => P 0 u ∧ u.fld Fld.CG_STAT_STATE g.val = 1 ∧
                  u.fld Fld.CG_STAT_ACTIVE g.val = 2 ^ n - 1 ∧ u.fld Fld.CG_STAT_SIZE_EFF g.val = n ∧
                  u.fld Fld.CG_STAT_PRIM g.val = s.fld Fld.CG_DEF_PRIMARY g.val ∧ u.fld Fld.CG_STAT_QUAR g.val = 0 ∧
                  u.fld Fld.CG_STAT_HOME_EFF g.val = s.groupMember g.val (s.fld Fld.CG_DEF_PRIMARY g.val) / 2 ∧
                  u.csrGet .CG_INSTAR g.val = 0 ∧ u.csrGet .CG_EVT g.val = 0 ∧ u.cores = s.cores ∧ u.mem = s.mem))))) ∧
        (s.fld Fld.CG_STAT_STATE g.val = 1 → s.does (.dissolve src g v) (P 1)) ∧
        (s.fld Fld.CG_STAT_STATE g.val = 3 → s.does (.dissolve src g v) (P 0x10)) ∧
        (s.fld Fld.CG_STAT_STATE g.val = 2 → s.does (.dissolve src g v) (fun u => P 0 u ∧
          u.fld Fld.CG_STAT_STATE g.val = 0 ∧ u.fld Fld.CG_STAT_ACTIVE g.val = 0 ∧
          ∀ m ∈ l, u.csrGet .CG_CORE m = 0 ∧ (u.core m).run = .parked)) ∧
        (c.val = Fld.CG_CMD_CORE.of v → s.fld Fld.CG_STAT_SIZE_EFF g.val = 2 → (s.group g.val).joining = none →
          s.fld Fld.CG_STAT_STATE g.val = 2 ∨ s.fld Fld.CG_STAT_STATE g.val = 3 →
          (s.committed c.val = true → s.does (.groupAdmit src g v) (P 0x11)) ∧
          (s.committed c.val = false →
            ((s.core c.val).run ≠ .parked → s.does (.groupAdmit src g v) (P 0x10)) ∧
            ((s.core c.val).run = .parked → s.islState (coreIsland c.val) = 1 →
              (s.fld Fld.CG_STAT_STATE g.val = 3 → s.does (.groupAdmit src g v) (fun u => P 0 u ∧
                (u.group g.val).cut = true ∧ (u.group g.val).joining = some c.val ∧ u.cores = s.cores)) ∧
              (s.fld Fld.CG_STAT_STATE g.val = 2 →
                (s.group g.val).late ≠ [] ∨ (∃ m ∈ s.groupRunning g.val, (s.core m).mem.closedN.isSome = true) →
                s.does (.groupAdmit src g v) (fun u => P 0 u ∧ (u.group g.val).joining = some c.val ∧ u.cores = s.cores)) ∧
              (s.fld Fld.CG_STAT_STATE g.val = 2 → s.fld Fld.CG_STAT_ACTIVE g.val = 3 → s.fld Fld.CG_STAT_QUAR g.val = 0 →
                s.groupMember g.val 0 ≠ c.val → s.groupMember g.val 1 ≠ c.val → (s.group g.val).late = [] →
                (∀ m ∈ s.groupRunning g.val, (s.core m).mem.closedN = none ∧ (s.core m).mem.full = false ∧ (s.core m).mem.count = 0) →
                s.does (.groupAdmit src g v) (fun u => P 0 u ∧ u.fld Fld.CG_STAT_SIZE_EFF g.val = 3 ∧
                  u.fld Fld.CG_STAT_ACTIVE g.val = 7 ∧ u.fld Fld.CG_DEF_M2 g.val = c.val ∧
                  u.flag Fld.CG_CORE_IN c.val = true ∧ u.fld Fld.CG_CORE_GROUP c.val = g.val ∧
                  (u.core c.val).arch.isCopy (s.core (s.groupPrimary g.val)).arch (s.core c.val).arch)))))))) ∧
  (s.fld Fld.CG_STAT_STATE g.val = 1 → s.fld Fld.CG_STAT_QUAR g.val = 0 → l.Nodup →
    s.does (.formCopyDone g) (fun u => u.fld Fld.CG_STAT_STATE g.val = 2 ∧
      (i ∈ s.memberIdx g.val →
        (u.core (s.groupMember g.val i)).arch.isCopy (s.core (s.groupPrimary g.val)).arch (s.core (s.groupMember g.val i)).arch ∧
        (u.core (s.groupMember g.val i)).mem.openF = [] ∧ (u.core (s.groupMember g.val i)).mem.instar = 0 ∧
        u.flag Fld.CG_CORE_IN (s.groupMember g.val i) = true ∧ u.fld Fld.CG_CORE_GROUP (s.groupMember g.val i) = g.val ∧
        u.fld Fld.CG_CORE_ROLE (s.groupMember g.val i) = (if s.fld Fld.CG_STAT_PRIM g.val = i then 1 else 2)) ∧
      u.mem = s.mem))

/-- R343, R344, R348, R349, R354 to R363: digests and verdicts of a running group: agreement confirms an instar, a
disagreement rolls back once and then fails a pair, a triple quarantines the minority; the drain of the fold, the state
copy, the cut and the external operation. -/
def Obligations.GroupVerdicts : Prop :=
  ∀ (s w : State) (g : GroupId) (c a b e : CoreId) (d : Digest) (x : Group) (v z : BitVec 64) (n i : Nat) (y : Ckpt)
    (o : ExtOp) (r : ExtOut) (f : FoldEntry) (l2 : L2Line) (rt : Reg5),
  x = s.group g.val → n = x.next →
  ((∀ k < g.val, (s.group k).sent.any (fun d => d.core == c.val) = false) → x.sent.find? (fun d => d.core == c.val) = some d →
    (d.dead = true ∨ x.expired.contains (d.core, d.instar) = true → s.does (.digestArrival c) (fun u =>
      u.fld Fld.CG_EVT_LATE g.val = min (s.fld Fld.CG_EVT_LATE g.val + 1) (2 ^ 16 - 1) ∧
      u.group g.val = { x with sent := x.sent.erase d })) ∧
    (d.dead = false → x.expired.contains (d.core, d.instar) = false → x.late = [] → s.does (.digestArrival c) (fun u =>
      u = s.modGroup g.val (fun _ => { x with sent := x.sent.erase d, arrived := x.arrived ++ [d] })))) ∧
  (s.fld Fld.CG_STAT_STATE g.val ≠ 3 → s.does (.instarConfirm g) (fun u => u = s) ∧
    (s.fld Fld.CG_STAT_STATE g.val ≠ 2 → s.does (.dlimitExpiry g) (fun u => u = s)) ∧
    (s.fld Fld.CG_STAT_STATE g.val ≠ 2 ∨ x.halt = none ∨ x.cut = false → s.does (.cutPoint g) (fun u => u = s)) ∧
    (s.fld Fld.CG_STAT_STATE g.val ≠ 2 → s.does (.quarantineResync g) (fun u => u = s))) ∧
  (s.fld Fld.CG_STAT_STATE g.val = 2 → x.halt = some c.val → x.cut = true → x.late = [] →
    (∀ m ∈ s.groupRunning g.val, (s.core m).mem.hold = false ∧ (s.core m).mem.full = false ∧ (s.core m).mem.closedN = none) →
    c.val ∈ s.groupRunning g.val → (s.groupRunning g.val).Nodup → s.does (.cutPoint g) (fun u =>
      (u.group g.val).halt = none ∧ u.fld Fld.CG_STAT_STATE g.val = 3 ∧ u.fld Fld.TR_DBG_HCAUSE c.val = x.cause % 8 ∧
      ∀ m ∈ s.groupRunning g.val, (u.core m).halted = true ∧ u.flag Fld.TR_DBG_HALTED m = true)) ∧
  (s.fld Fld.CG_STAT_STATE g.val = 3 → a ≠ b → s.groupRunning g.val = [a.val, b.val] →
    (x.late = [] → x.expired = [] → x.arrived = [{ core := a.val, instar := n, value := some v }] →
      s.does (.instarConfirm g) (fun u => u = s) ∧
      s.does (.dlimitExpiry g) (fun u => (u.group g.val).expired = [(b.val, n)] ∧ u.csr = s.csr ∧ u.cores = s.cores)) ∧
    (x.expired = [] → x.arrived = [{ core := a.val, instar := n, value := some v }, { core := b.val, instar := n, value := some z }] →
      s.groupPrimary g.val ∈ [a.val, b.val] →
      (v = z → x.halt = none → s.does (.instarConfirm g) (fun u => (u.group g.val).next = n + 1 ∧ (u.group g.val).arrived = [] ∧
        u.fld Fld.CG_INSTAR_COUNT g.val = (s.fld Fld.CG_INSTAR_COUNT g.val + 1) % 2 ^ 48 ∧
        u.fld Fld.CG_STAT_PRIM g.val = s.fld Fld.CG_STAT_PRIM g.val ∧ u.mem = s.mem)) ∧
      (v ≠ z → x.retry ≠ some n → s.does (.instarConfirm g) (fun u =>
        u.fld Fld.CG_EVT_ROLLBACKS g.val = min (s.fld Fld.CG_EVT_ROLLBACKS g.val + 1) (2 ^ 16 - 1) ∧
        (u.group g.val).retry = some n ∧ (u.group g.val).next = n ∧ (u.group g.val).arrived = [] ∧
        ((s.core a.val).mem.ckpts.find? (fun k => k.instar == n) = some y → s.ckptOf g.val a.val n = some y →
          (u.core a.val).arch.isCopy y.arch ((s.pmCore a.val 0x21 1).core a.val).arch ∧ (u.core a.val).mem.instar = n ∧ (u.core a.val).mem.openF = []) ∧ u.mem = s.mem)) ∧
      (v ≠ z → x.retry = some n → s.fld Fld.CG_STAT_SIZE_EFF g.val = 2 → s.groupActive g.val = [a.val, b.val] →
        s.closedOk g.val (s.groupPrimary g.val) = false →
        s.does (.instarConfirm g) (fun u => u.fld Fld.CG_STAT_STATE g.val = 4 ∧ u.fld Fld.CG_STAT_FAIL_CAUSE g.val = 1 ∧
          u.csrGet .CG_CORE a.val = 0 ∧ u.csrGet .CG_CORE b.val = 0 ∧ (u.core a.val).mchecks ≠ [] ∧
          (u.core b.val).mchecks ≠ [])))) ∧
  (s.fld Fld.CG_STAT_STATE g.val = 3 → [a, b, e].Nodup → s.groupRunning g.val = [a.val, b.val, e.val] →
    s.fld Fld.CG_STAT_ACTIVE g.val = 7 → s.fld Fld.CG_STAT_QUAR g.val = 0 → x.expired = [] → x.fresh = [] → v ≠ z →
    x.halt = none → (s.core e.val).mem.closedN.any (fun k => decide (k < n)) = false →
    x.arrived = [{ core := a.val, instar := n, value := some v }, { core := b.val, instar := n, value := some v }, { core := e.val, instar := n, value := some z }] →
    s.does (.instarConfirm g) (fun u => (u.group g.val).next = n + 1 ∧ u.fld Fld.CG_STAT_QUAR g.val = 4 ∧
      u.fld Fld.CG_EVT_QUARANTINES g.val = min (s.fld Fld.CG_EVT_QUARANTINES g.val + 1) (2 ^ 16 - 1) ∧
      u.groupRunning g.val = [a.val, b.val] ∧ u.groupPrimary g.val ∈ [a.val, b.val] ∧
      (u.core e.val).mem.openF = [] ∧ (u.core e.val).mem.closedF = [] ∧ u.mem = s.mem)) ∧
  (s.groupPrimary g.val = a.val → s.groupOf a.val = some g.val → (s.core a.val).mem.closedF[i]? = some f →
    (s.closedOk g.val a.val = false ∨ foldReady (s.core a.val).mem.closedF i = false →
      s.does (.foldDrain g i) (fun u => u = s)) ∧
    (s.closedOk g.val a.val = true → foldReady (s.core a.val).mem.closedF i = true → s.islOpen (coreIsland a.val) = true →
      s.heldAgainst f.line (some a.val) = false → isHbm (f.line * 64) = true → f.nc = false →
      (s.core a.val).l2State = 1 → s.flag Fld.ER_INJ_ARM a.val = false → s.l2Holders f.line = [a.val] →
      s.l2Find a.val f.line = some l2 → 2 ≤ (s.core a.val).mem.closedF.length →
      s.does (.foldDrain g i) (fun u =>
        (u.core a.val).mem.closedF = (s.core a.val).mem.closedF.eraseIdx i ∧
        (u.l2Find a.val f.line).map (fun k => (k.st, k.data)) = some (.m, mergeBytes l2.data f.data f.mask 64) ∧
        u.mem = s.mem ∧ u.groups = s.groups))) ∧
  (s.fld Fld.CG_STAT_STATE g.val = 3 →
    (s.atResync g.val = false → s.does (.quarantineResync g) (fun u => u = s)) ∧
    (s.atResync g.val = true → x.joining = none → (s.groupActive g.val).Nodup → s.groupPrimary g.val = a.val →
      s.does (.quarantineResync g) (fun u => u.fld Fld.CG_STAT_QUAR g.val = 0 ∧ (u.group g.val).resync = none ∧
        (i ∈ s.memberIdx g.val → i ∉ s.runIdx g.val → s.groupMember g.val i ≠ a.val →
          (u.core (s.groupMember g.val i)).arch.isCopy (s.core a.val).arch (s.core (s.groupMember g.val i)).arch ∧
          s.groupMember g.val i ∈ (u.group g.val).fresh) ∧ u.mem = s.mem)) ∧
    (x.cut = false ∨ s.atCut g.val = false → s.does (.cutPoint g) (fun u => u = s)) ∧
    (s.traceStalls (s.groupPrimary g.val) = true → s.does (.cutPoint g) (fun u => u = s)) ∧
    (x.cut = true → s.atCut g.val = true → s.traceStalls (s.groupPrimary g.val) = false → x.mc = false → x.irq = false →
      x.joining = none → x.halt = none → (s.groupRunning g.val).Nodup → (∀ m ∈ s.groupRunning g.val, s.groupOf m = some g.val) →
      s.does (.cutPoint g) (fun u => (u.group g.val).cut = false ∧ u.mem = s.mem ∧
        ∀ m ∈ s.groupRunning g.val, (s.core m).mem.count ≠ 0 → (s.core m).slot = none →
          (u.group g.val).sent.any (fun k => k.core == m && k.instar == (s.core m).mem.instar) = true))) ∧
  (s.groupPrimary g.val = a.val →
    ((s.core a.val).mem.ext = none → s.does (.externalOp g) (fun u => u = s)) ∧
    ((s.core a.val).mem.ext = some o →
      (s.extReady g.val = false → s.does (.externalOp g) (fun u => u = s)) ∧
      (s.extReady g.val = true → s.extPerform g a.val o = (r, w) → w.groupRunning g.val = s.groupRunning g.val →
        (s.groupRunning g.val).Nodup → (∀ m ∈ s.groupRunning g.val, m < 160) →
        (r = .notYet → s.does (.externalOp g) (fun u => u = w)) ∧
        (r = .done i → c.val ∈ s.groupRunning g.val → s.does (.externalOp g) (fun u =>
          (u.core c.val).mem.ext = none ∧ (u.core c.val).mem.instar = (w.core c.val).mem.instar + 1 ∧
          (u.core c.val).mem.hold = false ∧
          (o.kind = 3 → o.dest = some rt → rt ≠ 0 → o.base = none → u.regVal (.core c) rt = BitVec.ofNat 64 i) ∧
          u.mem = w.mem)))))

/-- R148, R161, R162, R179, R180: the moves, the sums, differences and logical operations of three registers, and the
moves of fl: the result, every flag, and the frame, on a core and on a thread.

R149, R152, R154, R155, R161, R175: the operations with an immediate. -/
def Obligations.IntegerArithmetic : Prop :=
  (∀ (s u : State) (a : Agent) (short w : Bool) (cond : Cond) (rd ra rb : Reg5) (x y : Word) (n z c v : Bool) (len : Nat),
  len = (if short then 2 else 4) → x = u.regVal a ra → y = u.regVal a rb → u.flVal a = mkFlags n z c v →
  (s.zisReady a 2 [ra, rd] u →
    s.does (.mov a rd ra) (u.zisGives a 2 [(rd, x)] (mkFlags n z c v)) ∧
    s.does (.movOut a rd ra) (u.zisGives a 2 [(rd, x)] (mkFlags n z c v)) ∧
    s.does (.movIn a rd ra) (u.zisGives a 2 [(rd, x)] (mkFlags n z c v))) ∧
  (s.zisReady a len [ra, rb, rd] u →
    s.does (.add a short w rd ra rb) (u.zisGives a len [(rd, narrowed w (x.toNat + y.toNat))] (flagsSum w x y false)) ∧
    s.does (.sub a short w rd ra rb) (u.zisGives a len [(rd, narrowed w (x.toNat - y.toNat))] (flagsDiff w x y false)) ∧
    s.does (.adc a short w rd ra rb) (u.zisGives a len [(rd, narrowed w (x.toNat + y.toNat + c.toNat))] (flagsSum w x y c)) ∧
    s.does (.sbc a short w rd ra rb)
      (u.zisGives a len [(rd, narrowed w (x.toNat - y.toNat - (!c).toNat))] (flagsDiff w x y (!c))) ∧
    s.does (.and a short rd ra rb) (u.zisGives a len [(rd, x &&& y)] (flagsOf false (x &&& y) c v)) ∧
    s.does (.or a short rd ra rb) (u.zisGives a len [(rd, x ||| y)] (flagsOf false (x ||| y) c v)) ∧
    s.does (.xor a short rd ra rb) (u.zisGives a len [(rd, x ^^^ y)] (flagsOf false (x ^^^ y) c v)) ∧
    s.does (.andn a short rd ra rb) (u.zisGives a len [(rd, x &&& ~~~ y)] (flagsOf false (x &&& ~~~ y) c v))) ∧
  (s.zisReady a 4 [ra, rb, rd] u →
    s.does (.csel a cond rd ra rb)
      (u.zisGives a 4 [(rd, if condHolds cond (mkFlags n z c v) = true then x else y)] (mkFlags n z c v))) ∧
  (s.zisReady a len [ra, rb] u →
    s.does (.cmp a short w ra rb) (u.zisGives a len [] (flagsDiff w x y false)) ∧
    s.does (.tst a short ra rb) (u.zisGives a len [] (flagsOf false (x &&& y) c v))) ∧
  (s.zisReady a len [rb, rd] u →
    s.does (.neg a short w rd rb) (u.zisGives a len [(rd, narrowed w (-(y.toNat : Int)))] (flagsDiff w 0 y false)) ∧
    s.does (.not a short rd rb) (u.zisGives a len [(rd, ~~~ y)] (flagsOf false (~~~ y) c v))) ∧
  (s.zisReady a 4 [rd] u →
    s.does (.mffl a rd) (u.zisGives a 4 [(rd, (mkFlags n z c v).zeroExtend 64)] (mkFlags n z c v))) ∧
  (s.zisReady a 4 [ra] u → s.does (.mtfl a ra) (u.zisGives a 4 [] (x.truncate 4)))) ∧
  (∀ (s u : State) (a : Agent) (short : Bool) (rd ra : Reg5) (imm : BitVec 12) (imm16 : BitVec 16) (imm9 : BitVec 9)
    (x y i : Word) (n z c v : Bool) (len : Nat),
  len = (if short then 2 else 4) → x = u.regVal a ra → y = u.regVal a rd → u.flVal a = mkFlags n z c v →
  i = BitVec.ofInt 64 (signedOf (if short then 7 else 12) imm.toNat) →
  (s.zisReady a len [ra, rd] u →
    s.does (.addi a short rd ra imm) (u.zisGives a len [(rd, x + i)] (flagsSum false x i false)) ∧
    s.does (.andi a short rd ra imm) (u.zisGives a len [(rd, x &&& i)] (flagsOf false (x &&& i) c v))) ∧
  (s.zisReady a len [ra] u → s.does (.cmpi a short ra imm) (u.zisGives a len [] (flagsDiff false x i false))) ∧
  (short = false → s.zisReady a 4 [ra, rd] u →
    s.does (.ori a rd ra imm) (u.zisGives a 4 [(rd, x ||| i)] (flagsOf false (x ||| i) c v)) ∧
    s.does (.xori a rd ra imm) (u.zisGives a 4 [(rd, x ^^^ i)] (flagsOf false (x ^^^ i) c v)) ∧
    s.does (.lea a rd ra imm) (u.zisGives a 4 [(rd, x + i)] (mkFlags n z c v)) ∧
    s.does (.muli a rd ra imm) (u.zisGives a 4 [(rd, x * i)] (mkFlags n z c v))) ∧
  (s.zisReady a len [rd] u → s.does (.movi a short rd imm16)
    (u.zisGives a len [(rd, BitVec.ofInt 64 (signedOf (if short then 7 else 16) imm16.toNat))] (mkFlags n z c v))) ∧
  (s.zisReady a 4 [rd] u →
    s.does (.movp1 a rd imm16)
      (u.zisGives a 4 [(rd, y.extractLsb' 32 32 ++ imm16 ++ y.extractLsb' 0 16)] (mkFlags n z c v)) ∧
    s.does (.movp2 a rd imm16)
      (u.zisGives a 4 [(rd, y.extractLsb' 48 16 ++ imm16 ++ y.extractLsb' 0 32)] (mkFlags n z c v)) ∧
    s.does (.movp3 a rd imm16) (u.zisGives a 4 [(rd, imm16 ++ y.extractLsb' 0 48)] (mkFlags n z c v)) ∧
    s.does (.addi16 a rd imm16)
      (u.zisGives a 4 [(rd, y + imm16.signExtend 64)] (flagsSum false y (imm16.signExtend 64) false)) ∧
    s.does (.adr a rd imm16)
      (u.zisGives a 4 [(rd, u.pcWord a + BitVec.ofInt 64 (2 * signedOf 16 imm16.toNat))] (mkFlags n z c v))) ∧
  (s.zisReady a 2 [30] u → s.does (.addsp a imm9)
    (u.zisGives a 2 [(30, u.regVal a 30 + BitVec.ofInt 64 (8 * signedOf 9 imm9.toNat))] (mkFlags n z c v))) ∧
  (s.zisReady a 2 [] u → s.does (.nop a) (u.zisGives a 2 [] (mkFlags n z c v))))

/-- R161, R162, R179 to R181: shifts, multiplication, division with its corner cases, and the bit counts. -/
def Obligations.IntegerShiftsAndProducts : Prop :=
  ∀ (s u : State) (a : Agent) (short w : Bool) (rd ra rb : Reg5) (x y : Word) (n z c v : Bool) (len : Nat) (sh : BitVec 6),
  len = (if short then 2 else 4) → x = u.regVal a ra → y = u.regVal a rb → u.flVal a = mkFlags n z c v →
  (s.zisReady a len [ra, rb, rd] u →
    (∀ k, k = y.toNat % wBits w →
      s.does (.shl a short w rd ra rb) (u.zisGives a len [(rd, narrowed w (x.toNat * 2 ^ k))]
        (flagsOf w (narrowed w (x.toNat * 2 ^ k)) (if k = 0 then c else x.getLsbD (wBits w - k)) v)) ∧
      s.does (.shr a short w rd ra rb) (u.zisGives a len [(rd, narrowed w (uOp w x / 2 ^ k : Nat))]
        (flagsOf w (narrowed w (uOp w x / 2 ^ k : Nat)) (if k = 0 then c else x.getLsbD (k - 1)) v)) ∧
      s.does (.sar a short w rd ra rb) (u.zisGives a len [(rd, narrowed w (sOp w x / 2 ^ k))]
        (flagsOf w (narrowed w (sOp w x / 2 ^ k)) (if k = 0 then c else x.getLsbD (k - 1)) v))) ∧
    s.does (.mul a short w rd ra rb) (u.zisGives a len [(rd, narrowed w (x.toNat * y.toNat))] (mkFlags n z c v))) ∧
  (s.zisReady a 4 [ra, rb, rd] u →
    s.does (.mulhs a rd ra rb) (u.zisGives a 4 [(rd, BitVec.ofInt 64 (x.toInt * y.toInt / 2 ^ 64))] (mkFlags n z c v)) ∧
    s.does (.mulhu a rd ra rb) (u.zisGives a 4 [(rd, BitVec.ofNat 64 (x.toNat * y.toNat / 2 ^ 64))] (mkFlags n z c v)) ∧
    s.does (.div a w rd ra rb)
      (u.zisGives a 4 [(rd, if uOp w y = 0 then -1 else narrowed w ((sOp w x).tdiv (sOp w y)))] (mkFlags n z c v)) ∧
    s.does (.divu a w rd ra rb)
      (u.zisGives a 4 [(rd, if uOp w y = 0 then -1 else narrowed w (uOp w x / uOp w y : Nat))] (mkFlags n z c v)) ∧
    s.does (.rem a w rd ra rb)
      (u.zisGives a 4 [(rd, if uOp w y = 0 then narrowed w x.toNat else narrowed w ((sOp w x).tmod (sOp w y)))]
        (mkFlags n z c v)) ∧
    s.does (.remu a w rd ra rb)
      (u.zisGives a 4 [(rd, if uOp w y = 0 then narrowed w x.toNat else narrowed w (uOp w x % uOp w y : Nat))]
        (mkFlags n z c v))) ∧
  (s.zisReady a 4 [ra, rd] u →
    (∀ k, k = sh.toNat →
      s.does (.shli a rd ra sh) (u.zisGives a 4 [(rd, x <<< k)]
        (flagsOf false (x <<< k) (if k = 0 then c else x.getLsbD (64 - k)) v)) ∧
      s.does (.shri a rd ra sh) (u.zisGives a 4 [(rd, x >>> k)]
        (flagsOf false (x >>> k) (if k = 0 then c else x.getLsbD (k - 1)) v)) ∧
      s.does (.sari a rd ra sh) (u.zisGives a 4 [(rd, BitVec.ofInt 64 (x.toInt / 2 ^ k))]
        (flagsOf false (BitVec.ofInt 64 (x.toInt / 2 ^ k)) (if k = 0 then c else x.getLsbD (k - 1)) v))) ∧
    s.does (.clz a w rd ra) (fun t => ∃ k ≤ wBits w, u.zisGives a 4 [(rd, BitVec.ofNat 64 k)] (mkFlags n z c v) t ∧
      (∀ i < wBits w, wBits w ≤ i + k → x.getLsbD i = false) ∧ (k < wBits w → x.getLsbD (wBits w - 1 - k) = true)) ∧
    s.does (.ctz a w rd ra) (fun t => ∃ k ≤ wBits w, u.zisGives a 4 [(rd, BitVec.ofNat 64 k)] (mkFlags n z c v) t ∧
      (∀ i < k, x.getLsbD i = false) ∧ (k < wBits w → x.getLsbD k = true)) ∧
    s.does (.popc a w rd ra) (u.zisGives a 4
      [(rd, BitVec.ofNat 64 ((List.range (wBits w)).filter (fun i => x.getLsbD i)).length)] (mkFlags n z c v)) ∧
    s.does (.rev a w rd ra) (u.zisGives a 4
      [(rd, narrowed w ((List.range (wBits w / 8)).foldl (fun r i => r * 256 + x.toNat / 2 ^ (8 * i) % 256) 0 : Nat))]
      (mkFlags n z c v)))

/-- R160, R164, R186 to R189: the arithmetic and the comparisons of the VF format, lane by lane, with the sticky flags:
on float lanes what the format's operation gives of the unpacked operands, on integer lanes the plain result. -/
def Obligations.VectorArithmetic : Prop :=
  ∀ (s u : State) (c : CoreId) (ty : VTy) (qd qa qb : Reg5) (f : Fmt) (env : FpEnv) (w : Nat) (X Y D : Nat → Nat)
    (A B C : Nat → Fv),
  s.zisReady (.core c) 4 [] u → w = (if ty.toNat < 4 then (if ty.toNat % 2 = 0 then 32 else 64) else 8 * 2 ^ (ty.toNat - 4)) →
  f = (if ty.toNat % 2 = 0 then b32 else b64) →
  env = ⟨(u.core c).arch.csf CsFld.FPCSR_RM, (u.core c).arch.csf CsFld.FPCSR_FZ == 1⟩ →
  X = lane (u.qVal c qa) w → Y = lane (u.qVal c qb) w → D = lane (u.qVal c qd) w →
  A = (fun i => f.unpack env.fz (X i)) → B = (fun i => f.unpack env.fz (Y i)) → C = (fun i => f.unpack env.fz (D i)) →
  (ty.toNat < 4 →
    s.does (.fadd (.core c) ty qd qa qb) (u.fpGives c ty qd (fun i => f.add env (A i) (B i))) ∧
    s.does (.fsub (.core c) ty qd qa qb) (u.fpGives c ty qd (fun i => f.add env (A i) (B i).neg)) ∧
    s.does (.fmul (.core c) ty qd qa qb) (u.fpGives c ty qd (fun i => f.mul env (A i) (B i))) ∧
    s.does (.fdiv (.core c) ty qd qa qb) (u.fpGives c ty qd (fun i => f.div env (A i) (B i))) ∧
    s.does (.fsqrt (.core c) ty qd qa) (u.fpGives c ty qd (fun i => f.sqrt env (A i))) ∧
    s.does (.fma (.core c) ty qd qa qb) (u.fpGives c ty qd (fun i => f.fma env (C i) (A i) (B i))) ∧
    s.does (.fmin (.core c) ty qd qa qb) (u.fpGives c ty qd (fun i => f.minMax env false (X i) (Y i))) ∧
    s.does (.fmax (.core c) ty qd qa qb) (u.fpGives c ty qd (fun i => f.minMax env true (X i) (Y i))) ∧
    s.does (.fabs (.core c) ty qd qa) (u.fpGives c ty qd (fun i => (X i % 2 ^ (w - 1), 0))) ∧
    s.does (.fneg (.core c) ty qd qa) (u.fpGives c ty qd (fun i => (X i + 2 ^ (w - 1), 0))) ∧
    s.does (.vcmpeq (.core c) ty qd qa qb) (u.fpGives c ty qd (fun i =>
      (if fpOrder (A i) (B i) = .equal then 2 ^ w - 1 else 0, if (A i).isSnan || (B i).isSnan then 16 else 0))) ∧
    s.does (.vcmpgt (.core c) ty qd qa qb) (u.fpGives c ty qd (fun i =>
      (if fpOrder (A i) (B i) = .greater then 2 ^ w - 1 else 0, if (A i).isSnan || (B i).isSnan then 16 else 0)))) ∧
  (4 ≤ ty.toNat →
    s.does (.fadd (.core c) ty qd qa qb) (u.fpGives c ty qd (fun i => (X i + Y i, 0))) ∧
    s.does (.fsub (.core c) ty qd qa qb) (u.fpGives c ty qd (fun i => (X i + (2 ^ w - Y i), 0))) ∧
    s.does (.fmul (.core c) ty qd qa qb) (u.fpGives c ty qd (fun i => (X i * Y i, 0))) ∧
    s.does (.fmin (.core c) ty qd qa qb) (u.fpGives c ty qd (fun i =>
      (if signedOf w (X i) ≤ signedOf w (Y i) then X i else Y i, 0))) ∧
    s.does (.fmax (.core c) ty qd qa qb) (u.fpGives c ty qd (fun i =>
      (if signedOf w (X i) ≤ signedOf w (Y i) then Y i else X i, 0))) ∧
    s.does (.vshl (.core c) ty qd qa qb) (u.fpGives c ty qd (fun i => (X i * 2 ^ (Y 0 % w), 0))) ∧
    s.does (.vshr (.core c) ty qd qa qb) (u.fpGives c ty qd (fun i => (X i / 2 ^ (Y 0 % w), 0))) ∧
    s.does (.vsar (.core c) ty qd qa qb) (u.fpGives c ty qd (fun i =>
      (encSigned w (signedOf w (X i) / 2 ^ (Y 0 % w)), 0))) ∧
    s.does (.vcmpeq (.core c) ty qd qa qb) (u.fpGives c ty qd (fun i => (if X i = Y i then 2 ^ w - 1 else 0, 0))) ∧
    s.does (.vcmpgt (.core c) ty qd qa qb) (u.fpGives c ty qd (fun i =>
      (if signedOf w (Y i) < signedOf w (X i) then 2 ^ w - 1 else 0, 0)))) ∧
  s.does (.vbcast (.core c) ty qd qa) (u.fpGives c ty qd (fun _ => (X 0, 0)))

/-- R146, R160, R164, R187, R189: the scalar compare, the conversions and moves, and the operations on whole registers. -/
def Obligations.VectorMovesAndConversions : Prop :=
  ∀ (s u : State) (c : CoreId) (ty : VTy) (qd qa qb rd ra : Reg5) (f g : Fmt) (env : FpEnv) (x y : Nat) (a b h : Fv),
  f = (if ty.toNat % 2 = 0 then b32 else b64) → g = (if ty.toNat % 2 = 0 then b64 else b32) →
  env = ⟨(u.core c).arch.csf CsFld.FPCSR_RM, (u.core c).arch.csf CsFld.FPCSR_FZ == 1⟩ →
  x = (u.qVal c qa).toNat → y = (u.qVal c qb).toNat →
  a = f.unpack env.fz (x % 2 ^ f.w) → b = f.unpack env.fz (y % 2 ^ f.w) → h = g.unpack env.fz (x % 2 ^ g.w) →
  (s.zisReady (.core c) 4 [] u →
    (ty.toNat < 2 →
      s.does (.fcmp (.core c) ty qa qb) (fun t =>
        t.flVal (.core c) = (match fpOrder a b with
          | .equal => 0b0110
          | .less => 0b1000
          | .greater => 0b0010
          | .unordered => 0b0001) ∧
        t.pcVal (.core c) = u.pcVal (.core c) + 4 ∧ u.regsTake t (.core c) [] ∧ u.zisRetires t (.core c) [1] ∧
        (∀ r : Reg5, t.qVal c r = u.qVal c r) ∧
        (t.core c).arch.cs 0 1 = (if a.isSnan || b.isSnan then (u.core c).arch.cs 0 1 ||| 0x1000 else (u.core c).arch.cs 0 1)) ∧
      s.does (.fcvt (.core c) ty qd qa) (u.fpGives c ty qd (fun _ => f.convert env h))) ∧
    s.does (.vand (.core c) qd qa qb) (u.qGives c qd (u.qVal c qa &&& u.qVal c qb)) ∧
    s.does (.vor (.core c) qd qa qb) (u.qGives c qd (u.qVal c qa ||| u.qVal c qb)) ∧
    s.does (.vxor (.core c) qd qa qb) (u.qGives c qd (u.qVal c qa ^^^ u.qVal c qb)) ∧
    s.does (.vsel (.core c) qd qa qb)
      (u.qGives c qd ((u.qVal c qd &&& u.qVal c qa) ||| (~~~ u.qVal c qd &&& u.qVal c qb))) ∧
    s.does (.vmov (.core c) qd qa) (u.qGives c qd (u.qVal c qa))) ∧
  (ty.toNat < 2 → s.zisReady (.core c) 4 [rd] u →
    s.does (.fcvti (.core c) ty rd qa) (fun t =>
      t.pcVal (.core c) = u.pcVal (.core c) + 4 ∧ t.flVal (.core c) = u.flVal (.core c) ∧
      u.regsTake t (.core c) [(rd, (fpToInt a).1)] ∧ u.zisRetires t (.core c) [1] ∧
      (∀ r : Reg5, t.qVal c r = u.qVal c r) ∧
      (t.core c).arch.cs 0 1 = (u.core c).arch.cs 0 1 ||| ((fpToInt a).2.zeroExtend 64 <<< 8)) ∧
    s.does (.fmvx (.core c) ty rd qa) (u.zisGives (.core c) 4
      [(rd, BitVec.ofInt 64 (signedOf f.w (x % 2 ^ f.w)))] (u.flVal (.core c)))) ∧
  (ty.toNat < 2 → s.zisReady (.core c) 4 [ra] u →
    s.does (.icvtf (.core c) ty qd ra) (u.fpGives c ty qd (fun _ => f.roundInt env (u.regVal (.core c) ra).toInt 0 false)) ∧
    s.does (.fmvq (.core c) ty qd ra) (u.qGives c qd (BitVec.ofNat 256 ((u.regVal (.core c) ra).toNat % 2 ^ f.w))))

/-- R189: an exact result (−1)^neg × m × 2^e, neither too large for the format nor below its normal range, is rounded once
as RM says, to one of the two neighbouring numbers of the format; NX is raised where it is not exact, and the sign stays. -/
def Obligations.RoundingIsCorrect : Prop :=
  ∀ (f : Fmt) (env : FpEnv) (neg : Bool) (m : Nat) (e : Int) (n d q : Nat), f = b32 ∨ f = b64 → m ≠ 0 → env.rm < 4 →
  f.emin ≤ e + m.log2 → e + m.log2 < f.bias → n = m * 2 ^ (f.mw - m.log2) → d = 2 ^ (m.log2 - f.mw) → q = n / d →
  (∃ r ∈ [q, q + 1], roundsWell env.rm neg n d q r ∧
    f.unpack false (f.round env neg m e).1 =
      (if r = 2 ^ f.p then .fin neg (2 ^ f.mw) (e + m.log2 - f.mw + 1) else .fin neg r (e + m.log2 - f.mw)) ∧
    (f.round env neg m e).2 = (if n % d = 0 then 0 else 1))

/-- R151, R158, R163, R165 to R167, R175: branches, delayed branches, and the slot that completes one.

R143, R184, R192, R196, R203, R206, R222, R462: a call writes the link to y7, which is x7 of the window it rotates to;
a return reads x7 and rotates back; and where the ring has no window for it, overflow and underflow. -/
def Obligations.BranchesCallsAndReturns : Prop :=
  (∀ (s u : State) (a : Agent) (short annul slotShort : Bool) (cond : Cond) (d18 : BitVec 18) (d24 : BitVec 24) (ra : Reg5)
    (len : Nat) (taken : Bool) (target b : BitVec 48) (tgt : Option (BitVec 48)),
  len = (if short then 2 else 4) → taken = condHolds cond (u.flVal a) →
  (target = u.pcVal a + BitVec.ofInt 48 (2 * signedOf (if short then 9 else 18) d18.toNat) →
    (s.zisReady a len [] u →
      s.does (.bcc a short cond d18)
        (u.branches a 1 (some taken) (if taken = true then target else u.pcVal a + BitVec.ofNat 48 len))) ∧
    (short = false → s.zisReady a 4 [] u →
      (taken = true ∨ annul = false →
        s.does (.bccDelayed a cond annul d18 slotShort) (fun t =>
          t.slotOf a = some (u.pcVal a, if taken = true then some target else none) ∧ t.pcVal a = u.pcVal a + 4 ∧
          match a with
            | .core c => resvKept (u.core c.val).resv (t.core c.val).resv ∧
              t = u.modCore c.val (fun k => { k with
                slot := t.slotOf a, brCkpts := [k.brCkpt], rdTime := (t.core c.val).rdTime, resv := (t.core c.val).resv,
                arch := { k.arch with pc := k.arch.pc + 4 } })
            | .thread n =>
              t = u.modThread n.val (fun k => { k with slot := t.slotOf a, pc := k.pc + 4, skipBrk := false, early := none,
                                                       slots := k.slots + 1 }))) ∧
      (taken = false → annul = true →
        s.does (.bccDelayed a cond annul d18 slotShort)
          (u.branches a 1 (some false) (u.pcVal a + (if slotShort = true then 6 else 8)))))) ∧
  (s.zisMeets a 2 (pure ()) u → s.slotOf a = some (b, tgt) →
    s.does (.nop a) (u.branches a 2 (some tgt.isSome) (tgt.getD (u.pcVal a + 2)))) ∧
  (s.zisReady a 4 [] u →
    s.does (.jmp a d24) (u.branches a 1 none (u.pcVal a + BitVec.ofInt 48 (2 * signedOf 24 d24.toNat)))) ∧
  (s.zisReady a len [ra] u →
    s.does (.jr a short ra) (u.branches a 1 none (BitVec.ofNat 48 ((u.regVal a ra).toNat / 2 * 2))))) ∧
  (∀ (s u : State) (c : CoreId) (n : ThreadId) (d24 : BitVec 24) (ra : Reg5) (short : Bool) (len : Nat) (h : Bool)
    (x : CoreArch) (k : Thread) (link : Word) (rel : BitVec 48),
  len = (if short then 2 else 4) → x = (u.core c.val).arch → h = (x.mode == 2) → k = u.thread n.val →
  (link = u.pcWord (.core c) + 4 → rel = u.pcVal (.core c) + BitVec.ofInt 48 (2 * signedOf 24 d24.toNat) →
    s.slotOf (.core c) = none →
    (1 ≤ x.room h →
      s.zisMeets (.core c) 4
        (if h then pure () else ensureSlots c.val [x.cur h, (x.cur h + 1) % 12, (x.cur h + 2) % 12]) u →
      (∀ P : BitVec 48 → State → Prop, P = (fun target t =>
        let y := (t.core c.val).arch
        u.coreRetires t c 1 [if h then 0x028 else 0x018] ∧ y.pc = target ∧ y.fl = x.fl ∧ y.mode = x.mode ∧ y.q = x.q ∧
        y.cur h = (x.cur h + 1) % ringN h ∧ y.tw h = x.tw h ∧ y.twp h = x.twp h ∧ y.floor h = x.floor h ∧
        y.room h = x.room h - 1 ∧ t.regVal (.core c) 15 = link ∧
        (∀ i, FMap.get y.rf 0 i = if i = x.regAt 31 then link else FMap.get x.rf 0 i) ∧
        (t.core c.val).ras = ((link.truncate 48, x.context) :: (u.core c.val).ras).take 16) →
        s.does (.call (.core c) d24) (P rel) ∧
        s.does (.callr (.core c) ra) (P (BitVec.ofNat 48 ((u.regVal (.core c) ra).toNat / 2 * 2))))) ∧
    ((x.room h = 0 → x.tw h = 0 → h = false → s.zisRaises c 4 (pure ()) false u →
        s.does (.call (.core c) d24) (u.entered c false { vec := 0x0A } x.pc) ∧
        s.does (.callr (.core c) ra) (u.entered c false { vec := 0x0A } x.pc)) ∧
      (x.room h = 0 → x.tw h = 1 → h = false → x.tw true = 0 → s.zisRaises c 4 (pure ()) true u →
        s.does (.call (.core c) d24) (fun t => u.entered c true { vec := 0x0C, detail := 2 } x.pc t ∧
          (t.core c.val).arch.csf CsFld.WIN_DFC = 2) ∧
        s.does (.callr (.core c) ra) (fun t => u.entered c true { vec := 0x0C, detail := 2 } x.pc t ∧
          (t.core c.val).arch.csf CsFld.WIN_DFC = 2)))) ∧
  (s.slotOf (.core c) = none →
    (1 ≤ x.span h → ¬ (x.tw h = 1 ∧ x.cur h = x.twp h) →
      s.zisMeets (.core c) len
        (if h then pure () else ensureSlots c.val [(x.cur h + 11) % 12, x.cur h, (x.cur h + 1) % 12]) u →
      s.does (.ret (.core c) short) (fun t =>
        let y := (t.core c.val).arch
        u.coreRetires t c 1 [if h then 0x028 else 0x018] ∧
        y.pc = BitVec.ofNat 48 ((u.regVal (.core c) 15).toNat / 2 * 2) ∧ y.fl = x.fl ∧ y.mode = x.mode ∧ y.q = x.q ∧
        y.cur h = (x.cur h + ringN h - 1) % ringN h ∧ y.tw h = x.tw h ∧ y.twp h = x.twp h ∧ y.floor h = x.floor h ∧
        y.span h = x.span h - 1 ∧ y.rf = x.rf ∧ y.tags = x.tags ∧ (t.core c.val).ras = (u.core c.val).ras.drop 1)) ∧
    (x.span h = 0 → x.tw h = 0 → h = false → s.zisRaises c len (pure ()) false u →
      s.does (.ret (.core c) short) (u.entered c false { vec := 0x0B } x.pc)) ∧
    (x.tw h = 1 → x.cur h = x.twp h ∨ x.span h = 0 → h = false → x.tw true = 0 → s.zisRaises c len (pure ()) true u →
      s.does (.ret (.core c) short) (fun t => u.entered c true { vec := 0x0C, detail := 3 } x.pc t ∧
        (t.core c.val).arch.csf CsFld.WIN_DFC = 3))) ∧
  (link = u.pcWord (.thread n) + 4 → rel = k.pc + BitVec.ofInt 48 (2 * signedOf 24 d24.toNat) →
    s.zisReady (.thread n) 4 [] u →
    (k.depth < 6 →
      (∀ P : BitVec 48 → State → Prop, P = (fun target t =>
        t.regVal (.thread n) 15 = link ∧
        t = u.modThread n.val (fun k => { k with rf := FMap.set k.rf (k.regAt 31) link, cur := (k.cur + 1) % 8,
                                                 depth := k.depth + 1, pc := target, skipBrk := false,
                                                 early := none, slots := k.slots + 1 })) →
        s.does (.call (.thread n) d24) (P rel) ∧
        s.does (.callr (.thread n) ra) (P (BitVec.ofNat 48 ((u.regVal (.thread n) ra).toNat / 2 * 2))))) ∧
    (6 ≤ k.depth → s.does (.call (.thread n) d24) (u.faulted n 8 0 0))) ∧
  (s.zisReady (.thread n) len [] u →
    (1 ≤ k.depth → s.does (.ret (.thread n) short) (fun t =>
      t = u.modThread n.val (fun k => { k with cur := (k.cur + 7) % 8, depth := k.depth - 1, skipBrk := false, early := none,
                                               slots := k.slots + 1,
                                               pc := BitVec.ofNat 48 ((u.regVal (.thread n) 15).toNat / 2 * 2) }))) ∧
    (k.depth = 0 → s.does (.ret (.thread n) short) (u.faulted n 9 0 0))))

/-- R146, R159, R200, R238, R242 to R248, R252, R316, R317, R463, R468: barriers, traps, the illegal-instruction exception,
and the return from an exception. -/
def Obligations.BarriersAndTraps : Prop :=
  ∀ (s u : State) (a : Agent) (c : CoreId) (i : ThreadId) (cpu : TallyCpu) (short : Bool) (n : BitVec 8) (len : Nat) (ty : VTy)
    (q : Reg5) (x : CoreArch) (k : Tally),
  len = (if short then 2 else 4) → x = (u.core c.val).arch → k = s.tally cpu →
  (s.zisReady a len [] u →
    (u.calmAfter (u.barred a) a → s.does (.lbar a short) ((u.barred a).zisGives a len [] (u.flVal a))) ∧
    (∀ d, a = .core d → u.drainBlocked d.val = true →
      s.does (.sbar a short) (s.waits u d) ∧ s.does (.fbar a short) (s.waits u d)) ∧
    ((∀ d, a = .core d → u.drainBlocked d.val = false) → u.calmAfter (u.drained a) a →
      s.does (.sbar a short) (fun t => (u.drained a).zisGives a len [] ((u.drained a).flVal a) t ∧
        (∀ d, a = .core d → (t.core d.val).sb = [])) ∧
      ((∀ d, a = .core d → (u.drained a).groupOf d.val = none) → u.calmAfter ((u.drained a).barred a) a →
        s.does (.fbar a short) (fun t => ((u.drained a).barred a).zisGives a len [] ((u.drained a).flVal a) t ∧
          (∀ d, a = .core d → (t.core d.val).sb = []))))) ∧
  (x.mode = 0 → x.tw false = 0 → s.zisTraps c len false u → s.does (.trap (.core c) short n)
    (u.entered c false { vec := 0x0E, trapno := n.toNat } (x.pc + BitVec.ofNat 48 len))) ∧
  (x.mode ≠ 0 → x.tw true = 0 → s.zisTraps c len true u → s.does (.trap (.core c) short n)
    (u.entered c true { vec := 0x0E, trapno := n.toNat } (x.pc + BitVec.ofNat 48 len))) ∧
  (s.slotOf (.core c) = none →
    (x.mode = 0 → x.tw false = 0 → s.zisRaises c len (pure ()) false u →
      s.does (.illegalInstruction (.zis (.core c)) short) (u.entered c false { vec := 0x01 } x.pc) ∧
      (short = false → s.does (.eret (.core c)) (u.entered c false { vec := 0x02 } x.pc) ∧
        s.does (.park (.core c)) (u.entered c false { vec := 0x02 } x.pc) ∧
        (4 ≤ ty.toNat → s.does (.fdiv (.core c) ty q q q) (u.entered c false { vec := 0x01 } x.pc)))) ∧
    (x.mode = 2 → x.tw true = 0 → s.zisRaises c len (pure ()) true u →
      s.does (.illegalInstruction (.zis (.core c)) short) (u.entered c true { vec := 0x01 } x.pc)) ∧
    (x.mode = 0 → x.tw false = 1 → x.tw true = 0 → s.zisRaises c len (pure ()) true u →
      s.does (.trap (.core c) short n) (fun t => u.entered c true { vec := 0x0C, detail := 1 } x.pc t ∧
        (t.core c.val).arch.csf CsFld.WIN_DFC = 1)) ∧
    (u.groupOf c.val = none → short = false →
      (∀ h, h = (x.mode == 2) → x.mode = 1 ∨ x.mode = 2 → x.tw h = 1 → x.cur h = x.twp h →
        s.zisMeets (.core c) 4 (if h then pure () else ensureWindow c.val ((x.cur h + ringN h - 1) % ringN h)) u →
        s.does (.eret (.core c)) (fun t =>
          let y := (t.core c.val).arch
          y.pc = BitVec.ofNat 48 (2 * x.csf (if h then CsFld.HEPC_PC else CsFld.SEPC_PC)) ∧
          y.mode.toNat = x.csf (if h then CsFld.HSTAT_PM else CsFld.SSTAT_PM) ∧
          y.fl.toNat = x.csf (if h then CsFld.HSTAT_FL else CsFld.SSTAT_FL) ∧
          (h = true → y.csf CsFld.HSTAT_HIE = x.csf CsFld.HSTAT_PIE ∧ y.cs 0 0x018 = x.cs 0 0x018 ∧
            y.csf CsFld.SSTAT_SIE = x.csf CsFld.SSTAT_SIE) ∧
          (h = false → y.csf CsFld.SSTAT_SIE = x.csf CsFld.SSTAT_PIE ∧ y.cs 0 0x028 = x.cs 0 0x028 ∧
            y.cs 0 0x020 = x.cs 0 0x020) ∧
          y.csf CsFld.SSTAT_DEFER = 0 ∧ y.tw h = 0 ∧ y.cur h = (x.cur h + ringN h - 1) % ringN h ∧ y.floor h = x.floor h ∧
          y.rf = x.rf ∧ y.q = x.q ∧ y.tags = x.tags ∧ (t.core c.val).resv = none ∧
          (t.core c.val).ras = (u.core c.val).ras.drop 1 ∧ (u.endEarly c.val).coreRetires t c 1 [0x010, 0x018, 0x020, 0x028])) ∧
      (∀ w, w = (u.drainSb c.val).endEarly c.val → x.mode ≠ 0 → s.zisReady (.core c) 4 [] u → u.drainBlocked c.val = false →
        u.calmAfter w (.core c) → w.groupOf c.val = none →
        s.does (.park (.core c)) (fun t =>
          (t.core c.val).run = (if (w.core c.val).woken = true then .running else .parked) ∧
          ((w.core c.val).woken = false → ∀ l < 2, l ∈ (t.core c.val).lvlHeld ↔ w.coreLevel c.val l = true) ∧
          (t.core c.val).arch.pc = (w.core c.val).arch.pc + 4 ∧ (t.core c.val).sb = [] ∧ w.regsTake t (.core c) [] ∧
          w.coreRetires (t.modCore c.val (fun k => { k with lvlHeld := (w.core c.val).lvlHeld })) c 1 [])))) ∧
  (s.zisReady (.thread i) len [] u →
    s.does (.trap (.thread i) short n) (u.faulted i 10 0 n.toNat) ∧
    s.does (.illegalInstruction (.zis (.thread i)) short) (u.faulted i 1 0 0) ∧
    (short = false → s.does (.eret (.thread i)) (u.faulted i 1 0 0) ∧ s.does (.park (.thread i)) (u.faulted i 1 0 0) ∧
      s.does (.fadd (.thread i) ty q q q) (u.faulted i 1 0 0))) ∧
  (s.tallyReady cpu → (k.x 0).getLsbD 4 = true → s.svc.extSlot = none →
    s.does (.illegalInstruction (.tally cpu) short) (fun t =>
      (t.tally cpu).x 1 = k.firstPc.zeroExtend 32 ∧ (t.tally cpu).x 2 = 1 ∧ ((t.tally cpu).x 0).getLsbD 4 = false ∧
      ((t.tally cpu).x 0).getLsbD 5 = true ∧ (t.tally cpu).prefixN = 0 ∧ (t.tally cpu).regs = k.regs ∧
      (t.tally cpu).pc = (if (k.x 0).getLsbD 6 = true then 0x8004 else 0x0004) ∧ t = s.modTally cpu (fun _ => t.tally cpu)))

/-- R193, R195, R205, R209, R211, R223, R238 to R240, R304, R463: `mfs` and `mts`: the value of every register that may be
read, the fields a write changes, the privileged and the illegal registers, and a thread's own identity. -/
def Obligations.SystemRegisterMoves : Prop :=
  ∀ (s u : State) (c : CoreId) (i : ThreadId) (rd ra : Reg5) (csn : BitVec 12) (n m : Nat) (x : CoreArch) (v : Word),
  n = csn.toNat → x = (u.core c.val).arch → v = u.regVal (.core c) ra → s.slotOf (.core c) = none →
  (mfsMode (x.csf CsFld.PMCTL_UREAD == 1) n = some m →
    (m ≤ x.mode.toNat → s.zisReady (.core c) 4 [rd] u →
      ∀ w, w = (if n = 0x281 then u.l2Sweep c.val else u) → u.groupOf c.val = none → w.groupOf c.val = none →
        u.calmAfter w (.core c) →
      s.does (.mfs (.core c) rd csn) (w.zisGives (.core c) 4
        [(rd, if n = 0 then BitVec.ofNat 64 ((w.core c.val).arch.mode.toNat * 256 + c.val)
              else if n = 0x281 then
                withBits ((w.core c.val).arch.cs c.val n) 47 32 ((w.core c.val).l2.filter (fun l => l.st == .m)).length
              else if n = 0x310 then withBits ((w.core c.val).arch.cs c.val n) 1 1 (w.fld Fld.PM_GCTL_FREEZE 0)
              else (w.core c.val).arch.cs c.val n)] (w.flVal (.core c)))) ∧
    (x.mode.toNat < m → x.tw (x.mode == 1 && m == 2) = 0 → s.zisRaises c 4 (pure ()) (x.mode == 1 && m == 2) u →
      s.does (.mfs (.core c) rd csn)
        (u.entered c (x.mode == 1 && m == 2) { vec := 0x02, detail := n } x.pc))) ∧
  (x.tw (x.mode == 2) = 0 → s.zisRaises c 4 (pure ()) (x.mode == 2) u →
    (mfsMode (x.csf CsFld.PMCTL_UREAD == 1) n = none →
      s.does (.mfs (.core c) rd csn) (u.entered c (x.mode == 2) { vec := 0x01 } x.pc)) ∧
    (mtsMode n = none → s.does (.mts (.core c) csn ra) (u.entered c (x.mode == 2) { vec := 0x01 } x.pc))) ∧
  (mtsMode n = some m →
    (n = 0 ∨ m ≤ x.mode.toNat → u.groupOf c.val = none → s.zisReady (.core c) 4 [ra] u →
      (∀ w, (csWrite c.val x.mode.toNat n v).run u = .ok () w → u.calmAfter w (.core c) → w.groupOf c.val = none →
        s.does (.mts (.core c) csn ra) (fun t =>
          t.pcVal (.core c) = (w.core c.val).arch.pc + 4 ∧ (t.core c.val).arch.rf = (w.core c.val).arch.rf ∧
          (t.core c.val).arch.mode = (w.core c.val).arch.mode ∧ (t.core c.val).arch.fl = (w.core c.val).arch.fl ∧
          (t.core c.val).arch.wsaveP = (w.core c.val).arch.wsaveP ∧ (t.core c.val).arch.wctxP = (w.core c.val).arch.wctxP ∧
          (t.core c.val).arch.tags = (w.core c.val).arch.tags ∧ w.coreRetires t c 1 [])) ∧
      (n = 0 → s.does (.mts (.core c) csn ra) (fun t =>
        (u.barred (.core c)).zisGives (.core c) 4 [] x.fl t ∨ (u.core c.val).trace.on = true)) ∧
      (n ∈ [0x001, 0x010, 0x011, 0x012, 0x013, 0x014, 0x01D, 0x021, 0x022, 0x023, 0x024, 0x200, 0x201, 0x208, 0x209, 0x210,
            0x211, 0x218, 0x282, 0x300, 0x301, 0x302, 0x303, 0x304, 0x305, 0x306, 0x307] →
        s.does (.mts (.core c) csn ra) (fun t =>
          let y := (t.core c.val).arch
          y.pc = x.pc + 4 ∧ y.rf = x.rf ∧ y.tags = x.tags ∧ y.mode = x.mode ∧ y.fl = x.fl ∧
          (∀ f ∈ csFields n, bitsOf (y.cs 0 n) f.hi f.lo =
            (if f.acc = .ro then bitsOf (x.cs 0 n) f.hi f.lo
             else if f.acc = .rw then
               (if n = 0x282 ∧ (f.lo = 4 ∨ f.lo = 8) then max 1 (bitsOf v f.hi f.lo) else bitsOf v f.hi f.lo)
             else bitsOf (y.cs 0 n) f.hi f.lo)) ∧
          x.sysKept y [n]))) ∧
    (∀ y : Word, (∀ p ∈ s.openedBy (.core c) 4 (useReg (.core c) ra), p.regVal (.core c) ra = y) →
      n ≠ 0 → x.mode.toNat < m → (n = 0x018 ∨ n = 0x028 → winOk (n == 0x028) y = true) → x.tw (x.mode == 1 && m == 2) = 0 →
      s.zisRaises c 4 (useReg (.core c) ra) (x.mode == 1 && m == 2) u →
      s.does (.mts (.core c) csn ra)
        (u.entered c (x.mode == 1 && m == 2) { vec := 0x02, detail := n } x.pc)) ∧
    (∀ y : Word, (∀ p ∈ s.openedBy (.core c) 4 (useReg (.core c) ra), p.regVal (.core c) ra = y) →
      n = 0x018 ∨ n = 0x028 → winOk (n == 0x028) y = false → x.tw (x.mode == 2) = 0 →
      s.zisRaises c 4 (useReg (.core c) ra) (x.mode == 2) u →
      s.does (.mts (.core c) csn ra) (u.entered c (x.mode == 2) { vec := 0x01 } x.pc))) ∧
  (s.zisReady (.thread i) 4 [] u →
    (n = 0 → s.does (.mfs (.thread i) rd csn)
      (u.zisGives (.thread i) 4 [(rd, BitVec.ofNat 64 (0x300 + i.val))] (u.flVal (.thread i)))) ∧
    (n = 0x40 → s.does (.mfs (.thread i) rd csn) (fun t => ∃ k : Word,
      t.regVal (.thread i) rd = (if rd = 0 then 0 else (u.thread i.val).slots + k) ∧
      t.pcVal (.thread i) = u.pcVal (.thread i) + 4 ∧
      t = { u.modThread i.val (fun y => { y with pc := y.pc + 4, rf := (t.thread i.val).rf, skipBrk := false, early := none,
                                                 slots := y.slots + k + 1 }) with free := t.free })) ∧
    (n ≠ 0 → n ≠ 0x40 → s.does (.mfs (.thread i) rd csn) (u.faulted i 1 0 0)) ∧
    s.does (.mts (.thread i) csn ra) (u.faulted i 1 0 0))

/-- R193 to R195, R203 to R211, R223, R250: the window registers, the lazy save of the S ring, and the predictor's key. -/
def Obligations.WindowRegisters : Prop :=
  ∀ (s e : State) (c : CoreId) (h : Bool) (v : Word) (x : CoreArch) (k n : Nat),
  x = (s.core c.val).arch → e = s.endEarly c.val → s.islOpen (coreIsland c.val) = true → (s.core c.val).run = .running →
  (s.drainBlocked c.val = false →
    (∀ P : Bool → Nat → State → Prop, P = (fun m d => s.entered c m { vec := 0x02, detail := d } (s.core c.val).savedPc) →
      (x.mode = 0 → x.tw false = 0 → (trapSlots c).run s = .ok () s →
        s.does (.wsaveWrite c v) (P false 0x019) ∧ s.does (.wctxWrite c v) (P false 0x01A) ∧
        s.does (.evictCtx c v) (P false 0x01B) ∧ s.does (.discardCtx c v) (P false 0x01B) ∧
        s.does (.evictAll c v) (P false 0x01B) ∧ s.does (.bpkeyWrite c v) (P false 0x01C) ∧
        s.does (.bpkeyFlush c v) (P false 0x01C)) ∧
      (x.mode = 1 → x.tw true = 0 →
        (winOk true v = true → s.does (.winWrite c true v) (P true 0x028)) ∧
        s.does (.wengWriteFrame c v) (P true 0x029) ∧ s.does (.wengReadFrame c v) (P true 0x029))) ∧
    (winOk h v = false → x.tw (x.mode == 2) = 0 → x.mode = 2 ∨ (trapSlots c).run s = .ok () s →
      s.does (.winWrite c h v) (s.entered c (x.mode == 2) { vec := 0x01 } (s.core c.val).savedPc))) ∧
  (x.mode ≠ 0 →
  (n = ringN h → h = false ∨ x.mode = 2 →
    (bitsOf v 3 0 < n → bitsOf v 11 8 < n → bitsOf v 19 16 < n →
      (bitsOf v 3 0 + n - bitsOf v 11 8) % n ≤ n - 3 + bitsOf v 12 12 →
      s.does (.winWrite c h v) (fun t =>
        let y := (t.core c.val).arch
        y.cur h = bitsOf v 3 0 ∧ y.floor h = bitsOf v 11 8 ∧ y.tw h = bitsOf v 12 12 ∧ y.twp h = bitsOf v 19 16 ∧
        bitsOf (y.cs 0 (if h then 0x028 else 0x018)) 7 4 =
          n - 3 + bitsOf v 12 12 - (bitsOf v 3 0 + n - bitsOf v 11 8) % n ∧
        (h = true → x.sysKept y [0x028] ∧ y.wsaveP = x.wsaveP ∧ y.wctxP = x.wctxP) ∧
        (h = false → y.csf CsFld.WIN_DFC = 0 ∧ y.csf CsFld.SSTAT_DEFER = 0 ∧ y.wsaveP = none ∧ y.wctxP = none ∧
          y.csf CsFld.WCTX_CTX = (match x.wctxP with
            | some w => bitsOf w CsFld.WCTX_CTX.hi CsFld.WCTX_CTX.lo
            | none => x.csf CsFld.WCTX_CTX) ∧
          y.csf CsFld.WSAVE_ADDR = (match x.wsaveP with
            | some w => bitsOf w CsFld.WSAVE_ADDR.hi CsFld.WSAVE_ADDR.lo
            | none => x.csf CsFld.WSAVE_ADDR) ∧
          y.csf CsFld.WSAVE_V = (match x.wsaveP with
            | some w => bitsOf w CsFld.WSAVE_V.hi CsFld.WSAVE_V.lo
            | none => x.csf CsFld.WSAVE_V) ∧ x.sysKept y [0x010, 0x018, 0x019, 0x01A]) ∧
        y.pc = x.pc ∧ y.rf = x.rf ∧ y.tags = x.tags ∧ y.mode = x.mode ∧
        t = e.modCore c.val (fun k => { k with arch := y, trace := (t.core c.val).trace }))) ∧
    (winOk h v = true ↔ bitsOf v 3 0 < n ∧ bitsOf v 11 8 < n ∧ bitsOf v 19 16 < n ∧
      (bitsOf v 3 0 + n - bitsOf v 11 8) % n ≤ n - 3 + bitsOf v 12 12)) ∧
  s.does (.wsaveWrite c v) (fun t =>
    t = e.modCore c.val (fun k => { k with arch := { k.arch with wsaveP := some v }, trace := (t.core c.val).trace })) ∧
  s.does (.wctxWrite c v) (fun t =>
    t = e.modCore c.val (fun k => { k with arch := { k.arch with wctxP := some v }, trace := (t.core c.val).trace })) ∧
  s.does (.discardCtx c v) (fun t =>
    let y := (t.core c.val).arch
    (∀ j < 12, y.tag j = if (x.tag j).st ≠ .empty ∧ (x.tag j).ctx.toNat = bitsOf v 31 16 then {} else x.tag j) ∧
    y.csf CsFld.WFLUSH_COUNT = 0 ∧ y.rf = x.rf ∧ x.sysKept y [0x01B] ∧
    t = e.modCore c.val (fun k => { k with arch := { k.arch with tags := y.tags, sys := y.sys },
                                           trace := (t.core c.val).trace })) ∧
  (s.groupOf c.val = none → x.csf CsFld.G2CTL_EN = 0 → s.pwr.failSeq = false → (s.core c.val).sb = [] → k < 12 →
    (∀ (p : Nat → Prop) (i : Instr), (i = .evictCtx c v ∧ p = (fun j => (x.tag j).st ≠ .empty ∧ (x.tag j).ctx.toNat = bitsOf v 31 16)) ∨
        (i = .evictAll c v ∧ p = (fun _ => True)) →
      s.does i (fun t =>
        let y := (t.core c.val).arch
        (¬ p k → y.tag k = x.tag k) ∧
        (p k → y.tag k = {} ∨ (y.tag k = x.tag k ∧ (x.tag k).st = .dirty ∧ (x.tag k).valid = true)) ∧
        y.rf = x.rf ∧ x.sysKept y [0x01B] ∧ y.csf CsFld.WFLUSH_COUNT ≤ 12 ∧
        ((∀ j < 12, (x.tag j).st ≠ .dirty ∨ (x.tag j).valid = false) → y.csf CsFld.WFLUSH_COUNT = 0 ∧
          t.mem = s.mem ∧ (t.core c.val).sb = []) ∧
        (p k → (x.tag k).st = .dirty → (x.tag k).valid = true → (∀ j < 12, j ≠ k → (x.tag j).st ≠ .dirty) →
          (e.frameReach c.val ((x.tag k).frameAt k)).1 = true → y.tag k = {} ∧ y.csf CsFld.WFLUSH_COUNT = 1 ∧
          (t.core c.val).sb = [0, 4, 8, 12].map (fun q =>
            { kind := bit (!isHbm ((x.tag k).frameAt k + 8 * q)), addr := (x.tag k).frameAt k + 8 * q, size := 32,
              data := BitVec.ofNat 256 (x.slotQuad k q), half := 0, words := [0, 8, 16, 24] }))))) ∧
  (x.mode = 2 → s.groupOf c.val = none → k = bitsOf v 3 0 → k < 12 → n = bitsOf v 47 7 * 128 →
    ((e.frameReach c.val n).1 = true → (s.core c.val).sb = [] → s.pwr.failSeq = false →
      s.does (.wengWriteFrame c v) (fun t =>
        (t.core c.val).sb = [0, 4, 8, 12].map (fun q =>
          { kind := bit (!isHbm (n + 8 * q)), addr := n + 8 * q, size := 32, data := BitVec.ofNat 256 (x.slotQuad k q),
            half := 0, words := [0, 8, 16, 24] }) ∧
        (t.core c.val).arch.tags = x.tags ∧ (t.core c.val).arch.rf = x.rf)) ∧
    (s.pwr.failSeq = true → s.does (.wengWriteFrame c v) (fun t => t = e)) ∧
    (∀ f u, (engineRead c.val n).run e = .ok f u →
      s.does (.wengReadFrame c v) (fun t =>
        let z := (u.core c.val).arch
        let y := (t.core c.val).arch
        y.tag k = { st := .dirty, ctx := BitVec.ofNat 16 (z.csf CsFld.WCTX_CTX),
                    addr := BitVec.ofNat 48 (z.csf CsFld.WSAVE_ADDR * 128), valid := z.csf CsFld.WSAVE_V == 1 } ∧
        (∀ j < 16, FMap.get y.rf 0 (16 * k + j) = f.getD j 0) ∧
        (∀ j, j / 16 ≠ k → FMap.get y.rf 0 j = FMap.get z.rf 0 j) ∧ (∀ j, j ≠ k → y.tag j = z.tag j)))) ∧
  s.does (.bpkeyWrite c v) (fun t =>
    (t.core c.val).arch.csf CsFld.BPKEY_KEY = v.toNat % 2 ^ 48 ∧ (t.core c.val).ghr = (s.core c.val).ghr ∧
    (t.core c.val).ras = (s.core c.val).ras ∧ x.sysKept (t.core c.val).arch [0x01C] ∧
    t = e.modCore c.val (fun k => { k with arch := { k.arch with sys := (t.core c.val).arch.sys },
                                           trace := (t.core c.val).trace })) ∧
  s.does (.bpkeyFlush c v) (fun t =>
    (t.core c.val).arch.csf CsFld.BPKEY_KEY = v.toNat % 2 ^ 48 ∧
    (t.core c.val).ghr = (if x.mode = 2 then 0 else (s.core c.val).ghr) ∧
    (t.core c.val).ras = (if x.mode = 2 then [] else (s.core c.val).ras) ∧
    (t.core c.val).btb = (if x.mode = 2 then [] else (s.core c.val).btb) ∧
    (t.core c.val).ibp = (if x.mode = 2 then [] else (s.core c.val).ibp) ∧
    (t.core c.val).dir = (if x.mode = 2 then [] else (s.core c.val).dir) ∧ x.sysKept (t.core c.val).arch [0x01C] ∧
    t = e.modCore c.val (fun k => { k with arch := { k.arch with sys := (t.core c.val).arch.sys },
                                           ghr := (t.core c.val).ghr, ras := (t.core c.val).ras,
                                           btb := (t.core c.val).btb, ibp := (t.core c.val).ibp, dir := (t.core c.val).dir,
                                           trace := (t.core c.val).trace })) ∧
  (x.mode = 1 → x.csf CsFld.WSAVE_V = 0 → (∀ j < 12, (x.tag j).st ≠ .dirty ∨ (x.tag j).valid = false) →
    k = x.cur false ∨ k = (x.cur false + 1) % 12 → k < 12 →
    s.does (.windowExchange c) (fun t =>
      let y := (t.core c.val).arch
      ((x.tag k).st ≠ .empty → (x.tag k).ctx.toNat = x.csf CsFld.WCTX_CTX →
        y.tag k = x.tag k ∧ ∀ j < 16, FMap.get y.rf 0 (16 * k + j) = FMap.get x.rf 0 (16 * k + j)) ∧
      ((x.tag k).st = .empty ∨ (x.tag k).ctx.toNat ≠ x.csf CsFld.WCTX_CTX →
        (y.tag k).st = .clean ∧ (y.tag k).ctx.toNat = x.csf CsFld.WCTX_CTX ∧ (y.tag k).valid = false ∧
        ∀ j < 16, FMap.get y.rf 0 (16 * k + j) = 0) ∧
      (∀ j, j / 16 ≠ x.cur false → j / 16 ≠ (x.cur false + 1) % 12 → FMap.get y.rf 0 j = FMap.get x.rf 0 j) ∧
      t.mem = s.mem ∧ (t.core c.val).sb = (s.core c.val).sb ∧ y.pc = x.pc)))

/-- R219, R226, R249, R250, R252, R254, R332, R598: interrupts and machine checks that a core outside any group takes, the
end of `park` and of DEFER, and what a misprediction and the end of a hold leave. -/
def Obligations.CoreEvents : Prop :=
  ∀ (s u : State) (c : CoreId) (k : Core) (x : CoreArch) (m : McPend) (r : List McPend), k = s.core c.val → x = k.arch →
  s.groupOf c.val = none →
  (s.islOpen (coreIsland c.val) = true → k.run = .running → k.halted = false → k.stepping = false →
    (s.drainBlocked c.val = true ∨ s.traceStalls c.val = true →
      s.does (.interruptAccept c) (fun t => t = s) ∧ s.does (.machineCheckEntry c) (fun t => t = s)) ∧
    (s.drainBlocked c.val = false → s.traceStalls c.val = false → k.mchecks = [] ∨ x.tw true ≠ 0 →
      (s.coreLevel c.val 1 = true →
        (x.mode = 0 ∨ (x.mode = 1 ∧ x.csf CsFld.SSTAT_DEFER = 0) ∨
          (x.mode = 2 ∧ x.csf CsFld.HSTAT_HIE = 1)) → x.tw true = 0 →
        s.does (.interruptAccept c) (s.entered c true { vec := 0x21, int := true } k.savedPc)) ∧
      (s.coreLevel c.val 0 = true → s.coreLevel c.val 1 = false ∨ (x.mode = 1 ∧ x.csf CsFld.SSTAT_DEFER = 1) →
        x.mode = 0 ∨ (x.mode = 1 ∧ x.csf CsFld.SSTAT_SIE = 1) → x.tw false = 0 → (trapSlots c).run s = .ok () u →
        s.does (.interruptAccept c) (u.entered c false { vec := 0x20, int := true } k.savedPc)) ∧
      (s.coreLevel c.val 0 = false → s.coreLevel c.val 1 = false → s.does (.interruptAccept c) (fun t => t = s)) ∧
      (s.coreLevel c.val 1 = false → x.mode = 1 → x.csf CsFld.SSTAT_SIE = 0 → s.does (.interruptAccept c) (fun t => t = s))) ∧
    (k.mchecks = m :: r → x.tw true = 0 → s.drainBlocked c.val = false → s.traceStalls c.val = false →
      s.does (.interruptAccept c) (fun t => t = s) ∧
      s.does (.machineCheckEntry c) (fun t =>
        (s.modCore c.val (fun k => { k with mchecks := r })).entered c true
          { vec := 0x30, detail := m.detail.toNat, addr := m.addr, int := true, ripv := m.ripv,
            eipv := m.eipv && m.pc == some k.savedPc } k.savedPc t ∧
        (k.sb = [] → (t.core c.val).mchecks = r))) ∧
    (k.mchecks = [] ∨ x.tw true = 1 → s.does (.machineCheckEntry c) (fun t => t = s)) ∧
    (k.brCkpts = [] → s.does (.branchMispredict c) (fun t =>
      t = s.modCore c.val (fun k => { k with brMiss := true }))) ∧
    (∀ b l, k.brCkpts = b :: l → s.does (.branchMispredict c) (fun t =>
      t = s.modCore c.val (fun k => { k with ghr := b.ghr, ras := b.ras, brMiss := true }))) ∧
    (s.islState (coreIsland c.val) = 1 → s.forming c.val = false →
      (∃ l < 2, s.coreLevel c.val l = true ∧ l ∉ k.lvlHeld) →
      s.does (.parkWake c) (fun t => t = s.modCore c.val (fun k => { k with woken := true })))) ∧
  (k.run = .parked → s.islState (coreIsland c.val) = 1 → s.forming c.val = false →
    ((∃ l < 2, s.coreLevel c.val l = true ∧ l ∉ k.lvlHeld) ∨ k.mchecks ≠ [] → k.haltDue = false →
      s.does (.parkWake c) (fun t =>
        (t.core c.val).run = .running ∧ (t.core c.val).romPark = false ∧
        (t.core c.val).arch.pc = (if k.romPark = true then BitVec.ofNat 48 (s.fld Fld.BT_ENTRY_ENTRY 0) else x.pc) ∧
        t = s.modCore c.val (fun k => { k with run := .running, romPark := false, mem := (t.core c.val).mem, lvlHeld := [],
                                               arch := { k.arch with pc := (t.core c.val).arch.pc } }))) ∧
    (k.haltDue = true → s.does (.parkWake c) (fun t =>
      (t.core c.val).halted = true ∧ t.flag Fld.TR_DBG_HALTED c.val = true ∧ t.fld Fld.TR_DBG_HCAUSE c.val = 1)) ∧
    ((∀ l < 2, s.coreLevel c.val l = true → l ∈ k.lvlHeld) → k.mchecks = [] → k.haltDue = false →
      s.does (.parkWake c) (fun t => t = s))) ∧
  (x.csf CsFld.SSTAT_DEFER = 1 → 256 ≤ x.deferN → s.does (.deferExpiry c) (fun t =>
    (t.core c.val).arch.csf CsFld.SSTAT_DEFER = 0 ∧ x.sysKept (t.core c.val).arch [0x010] ∧
    (t.core c.val).arch.csf CsFld.SSTAT_SIE = x.csf CsFld.SSTAT_SIE ∧
    t = s.modCore c.val (fun k => { k with arch := { k.arch with sys := (t.core c.val).arch.sys, deferN := 0 } }))) ∧
  (x.deferN < 256 → s.does (.deferExpiry c) (fun t => t = s)) ∧
  (∀ w, k.resv = some w → s.does (.reservationHoldExpiry c) (fun t =>
    t = s.modCore c.val (fun k => { k with resv := some { w with hold := false } })))

/-- R370 to R376, R380, R382, R386, R387: a source's input and latch, its register, the software interrupts, and a target's
control register.

R374, R375, R377, R379, R381, R382: a claim takes the eligible source of highest priority above the threshold, of
equals the one with the lowest number, and stacks it; a completion unstacks it and samples its source again. -/
def Obligations.InterruptCommands : Prop :=
  (∀ (s : State) (src : Src) (n : IcSource) (t : IcTarget) (v : Word), s.islOpen 20 = true →
  (icIsEvent n.val = false →
    s.does (.sourceInputChange n) (fun u =>
      u.flag Fld.IC_SRC_IN n.val = s.producerLevel n.val ∧
      u.flag Fld.IC_SRC_PEND n.val =
        ((s.producerLevel n.val || (s.flag Fld.IC_SRC_FORCE n.val && !icReserved n.val)) && !s.flag Fld.IC_SRC_ACT n.val) ∧
      u.flag Fld.IC_SRC_EN n.val = s.flag Fld.IC_SRC_EN n.val ∧ u.mem = s.mem ∧ s.coresWait u)) ∧
  (icIsEvent n.val = true →
    s.does (.sourceEvent n) (fun u =>
      u.flag Fld.IC_SRC_IN n.val = true ∧ u.flag Fld.IC_SRC_PEND n.val = !s.flag Fld.IC_SRC_ACT n.val ∧
      u.flag Fld.IC_SRC_EN n.val = s.flag Fld.IC_SRC_EN n.val ∧ u.mem = s.mem ∧ s.coresWait u)) ∧
  (s.icSrcRead src n.val = (if s.icSec n.val = true ∧ src ≠ .cocoon then 0x80000000
    else withBits (withBits (s.csrGet .IC_SRC n.val) 31 31 (bit (s.icSec n.val))) 30 30
      (bit (s.flag Fld.IC_SRC_IN n.val || (s.flag Fld.IC_SRC_FORCE n.val && !icReserved n.val))))) ∧
  (s.srcLive src = true →
    (10240 ≤ n.val → Fld.IC_SWI_SET_NUM.of v = n.val - 10240 →
      src = .reeve ∨ src = .cocoon ∨ src = .jtag ∨ (∃ c, src = .core c) →
      s.does (.swiSet src v) (fun u =>
        u.flag Fld.IC_SRC_IN n.val = true ∧ u.flag Fld.IC_SRC_PEND n.val = !s.flag Fld.IC_SRC_ACT n.val)) ∧
    (s.srcSys src = true → s.icSec n.val = false → src ≠ .cocoon →
      s.does (.sourceConfigWrite src n v) (fun u =>
        u.fld Fld.IC_SRC_PRIO n.val = Fld.IC_SRC_PRIO.of v ∧ u.fld Fld.IC_SRC_EN n.val = Fld.IC_SRC_EN.of v ∧
        u.fld Fld.IC_SRC_TARGET n.val = Fld.IC_SRC_TARGET.of v ∧ u.fld Fld.IC_SRC_GRP n.val = Fld.IC_SRC_GRP.of v ∧
        u.fld Fld.IC_SRC_ACT n.val = s.fld Fld.IC_SRC_ACT n.val ∧ u.fld Fld.IC_SRC_SEC n.val = 0 ∧
        u.fld Fld.IC_STAT_LAST_SRC 0 = srcId src ∧ u.fld Fld.IC_STAT_LAST_STATUS 0 = 0 ∧
        u.fld Fld.IC_STAT_LAST_N 0 = n.val)) ∧
    (src ≠ .cocoon → s.srcSys src = false ∨ s.icSec n.val = true →
      s.does (.sourceConfigWrite src n v) (fun u =>
        u.fld Fld.IC_SRC_PRIO n.val = s.fld Fld.IC_SRC_PRIO n.val ∧ u.fld Fld.IC_SRC_EN n.val = s.fld Fld.IC_SRC_EN n.val ∧
        u.fld Fld.IC_SRC_TARGET n.val = s.fld Fld.IC_SRC_TARGET n.val ∧
        u.fld Fld.IC_STAT_LAST_SRC 0 = srcId src ∧ u.fld Fld.IC_STAT_LAST_STATUS 0 = 7 ∧
        u.fld Fld.IC_STAT_LAST_N 0 = n.val)) ∧
    (src = .cocoon → s.does (.sourceConfigWrite src n v) (fun u =>
        u.fld Fld.IC_SRC_SEC n.val = Fld.IC_SRC_SEC.of v ∧ u.fld Fld.IC_SRC_PRIO n.val = Fld.IC_SRC_PRIO.of v ∧
        u.fld Fld.IC_STAT_LAST_STATUS 0 = 0)) ∧
    (s.icAccepts src t.val = true →
      (Fld.IC_TCTL_TORBER.of v = s.fld Fld.IC_TCTL_TORBER t.val ∨ s.icStk t.val = [] →
        s.does (.targetCtlWrite src t v) (fun u =>
          u.fld Fld.IC_TCTL_THRESH t.val = Fld.IC_TCTL_THRESH.of v ∧
          u.fld Fld.IC_TCTL_TORBER t.val = Fld.IC_TCTL_TORBER.of v ∧ u.fld Fld.IC_TSTAT_LAST_STATUS t.val = 0 ∧
          u.icStack = s.icStack)) ∧
      (Fld.IC_TCTL_TORBER.of v ≠ s.fld Fld.IC_TCTL_TORBER t.val → s.icStk t.val ≠ [] →
        s.does (.targetCtlWrite src t v) (fun u =>
          u.csrGet .IC_TCTL t.val = s.csrGet .IC_TCTL t.val ∧ u.fld Fld.IC_TSTAT_LAST_STATUS t.val = 1 ∧
          u.icStack = s.icStack))) ∧
    (s.icAccepts src t.val = false → t.val ≠ 321 → s.does (.targetCtlWrite src t v) (fun u =>
      u.csrGet .IC_TCTL t.val = s.csrGet .IC_TCTL t.val ∧ u.fld Fld.IC_TSTAT_LAST_STATUS t.val = 7)))) ∧
  (∀ (s : State) (src : Src) (t : IcTarget) (v : Word) (n m : Nat) (l : List (Nat × Nat)), s.islOpen 20 = true →
  s.srcLive src = true → l = s.icStk t.val →
  (s.icAccepts src t.val = true →
    (s.icBest t.val = some n →
      s.icEligible t.val n = true ∧ s.fld Fld.IC_TCTL_THRESH t.val < s.fld Fld.IC_SRC_PRIO n ∧
      (∀ e ∈ l.head?, e.2 < s.fld Fld.IC_SRC_PRIO n) ∧
      (s.icEligible t.val m = true → s.icThresh t.val < s.fld Fld.IC_SRC_PRIO m →
        s.fld Fld.IC_SRC_PRIO m < s.fld Fld.IC_SRC_PRIO n ∨ (s.fld Fld.IC_SRC_PRIO m = s.fld Fld.IC_SRC_PRIO n ∧ n ≤ m)) ∧
      s.does (.claim src t) (fun u =>
        u.resp.val.toNat = (if s.flag Fld.IC_TCTL_TORBER t.val = true then n else 2 ^ 31 + n) ∧ u.resp.err = false ∧
        u.icStk t.val = (n, s.fld Fld.IC_SRC_PRIO n) :: l ∧ u.flag Fld.IC_SRC_ACT n = true ∧
        u.flag Fld.IC_SRC_PEND n = false ∧ (icIsEvent n = true → s.flag Fld.IC_SRC_FORCE n = false →
          u.flag Fld.IC_SRC_IN n = false) ∧
        u.fld Fld.IC_TSTAT_RPRIO t.val = s.fld Fld.IC_SRC_PRIO n ∧ u.fld Fld.IC_TSTAT_LAST_STATUS t.val = 0 ∧
        u.fld Fld.IC_TOP_SRC t.val = n ∧ u.fld Fld.IC_TOP_PRIO t.val = s.fld Fld.IC_SRC_PRIO n ∧
        s.onlyIrq u [(.IC_SRC, n), (.IC_TSTAT, t.val), (.IC_TOP, t.val)])) ∧
    (s.icBest t.val = none →
      (m ∈ s.icListed → s.icEligible t.val m = true → s.fld Fld.IC_SRC_PRIO m ≤ s.icThresh t.val) ∧
      s.does (.claim src t) (fun u =>
        u.resp.val = (if s.flag Fld.IC_TCTL_TORBER t.val = true then 0x2FFF else 0) ∧
        u.fld Fld.IC_TSTAT_SPUR_CNT t.val = min (s.fld Fld.IC_TSTAT_SPUR_CNT t.val + 1) 255 ∧
        u.icStack = s.icStack ∧ s.onlyIrq u [(.IC_TSTAT, t.val)])) ∧
    (n = Fld.IC_COMPLETE_SRC.of v → ¬ (s.flag Fld.IC_TCTL_TORBER t.val = true ∧ n = 0x2FFF) →
      (l.any (fun e => e.1 == n) = false → s.does (.complete src t v) (fun u =>
        u.fld Fld.IC_TSTAT_LAST_STATUS t.val = 0x21 ∧ u.icStack = s.icStack ∧
        (s.noSleeper → s.onlyIrq u [(.IC_TSTAT, t.val), (.IC_XGATE, 0)]))) ∧
      (l.any (fun e => e.1 == n) = true → s.flag Fld.IC_TCTL_TORBER t.val = true ∨ l.head?.map Prod.fst = some n →
        s.does (.complete src t v) (fun u =>
          u.icStk t.val = l.filter (fun e => e.1 != n) ∧ u.flag Fld.IC_SRC_ACT n = false ∧
          u.flag Fld.IC_SRC_PEND n = (s.flag Fld.IC_SRC_IN n || (s.flag Fld.IC_SRC_FORCE n && !icReserved n)) ∧
          u.fld Fld.IC_TSTAT_LAST_STATUS t.val = 0 ∧
          (s.noSleeper → s.onlyIrq u [(.IC_SRC, n), (.IC_TSTAT, t.val), (.IC_TOP, t.val), (.IC_XGATE, 0)]))) ∧
      (l.any (fun e => e.1 == n) = true → s.flag Fld.IC_TCTL_TORBER t.val = false → l.head?.map Prod.fst ≠ some n →
        s.does (.complete src t v) (fun u =>
          u.icStack = s.icStack ∧ u.fld Fld.IC_TSTAT_LAST_STATUS t.val = 0x20 ∧
          u.fld Fld.IC_TSTAT_OOC_CNT t.val = min (s.fld Fld.IC_TSTAT_OOC_CNT t.val + 1) 255 ∧
          u.flag Fld.IC_SRC_ACT n = s.flag Fld.IC_SRC_ACT n ∧ (u.reeve.x 5).getLsbD 7 = true)))) ∧
  (s.icAccepts src t.val = false → t.val ≠ 321 →
    s.does (.claim src t) (fun u =>
      u.resp.val = (if s.flag Fld.IC_TCTL_TORBER t.val = true then 0x2FFF else 0) ∧
      u.fld Fld.IC_TSTAT_LAST_STATUS t.val = 7 ∧ u.icStack = s.icStack ∧ s.onlyIrq u [(.IC_TSTAT, t.val)]) ∧
    s.does (.complete src t v) (fun u =>
      u.fld Fld.IC_TSTAT_LAST_STATUS t.val = 7 ∧ u.icStack = s.icStack ∧
      (s.noSleeper → s.onlyIrq u [(.IC_TSTAT, t.val), (.IC_XGATE, 0)]))))

/-- R150, R152, R155 to R157, R168 to R171, R175: the loads: what the access reads, zero- or sign-extended, goes to the
destination, the base is updated, and nothing else changes. -/
def Obligations.LoadInstructions : Prop :=
  ∀ (s u : State) (a : Agent) (c : CoreId) (rt : Reg5) (m : MemMode) (short : Bool) (imm : BitVec 16) (len : Nat),
  s.slotOf a = none → u.lone a → len = (if short then 2 else 4) →
  (memFits m (some rt) = true → s.zisMeets a (memLen m) (do
      useReg a rt
      (memRegs m).forM (useReg a)) u →
    (∀ v x, (agentReads a 1 (u.memAt a m 1)).run (u.noted a (memRegs m)) = .ok v x → u.met x a 2 (u.memAt a m 1) 1 →
      s.does (.ldbu a rt m) (x.zisGives a (memLen m) ((rt, BitVec.ofNat 64 (v % 2 ^ 8)) :: u.memBase a m 1) (u.flVal a)) ∧
      s.does (.ldbs a rt m)
        (x.zisGives a (memLen m) ((rt, BitVec.ofInt 64 (signedOf 8 v)) :: u.memBase a m 1) (u.flVal a))) ∧
    (∀ v x, (agentReads a 2 (u.memAt a m 2)).run (u.noted a (memRegs m)) = .ok v x → u.met x a 2 (u.memAt a m 2) 2 →
      s.does (.ldhu a rt m) (x.zisGives a (memLen m) ((rt, BitVec.ofNat 64 (v % 2 ^ 16)) :: u.memBase a m 2) (u.flVal a)) ∧
      s.does (.ldhs a rt m)
        (x.zisGives a (memLen m) ((rt, BitVec.ofInt 64 (signedOf 16 v)) :: u.memBase a m 2) (u.flVal a))) ∧
    (∀ v x, (agentReads a 4 (u.memAt a m 4)).run (u.noted a (memRegs m)) = .ok v x → u.met x a 2 (u.memAt a m 4) 4 →
      s.does (.ldwu a rt m) (x.zisGives a (memLen m) ((rt, BitVec.ofNat 64 (v % 2 ^ 32)) :: u.memBase a m 4) (u.flVal a)) ∧
      s.does (.ldws a rt m)
        (x.zisGives a (memLen m) ((rt, BitVec.ofInt 64 (signedOf 32 v)) :: u.memBase a m 4) (u.flVal a))) ∧
    (∀ v x, (agentReads a 8 (u.memAt a m 8)).run (u.noted a (memRegs m)) = .ok v x → u.met x a 2 (u.memAt a m 8) 8 →
      s.does (.ldd a rt m) (x.zisGives a (memLen m) ((rt, BitVec.ofNat 64 v) :: u.memBase a m 8) (u.flVal a)))) ∧
  (∀ e, e = u.pcWord a + BitVec.ofInt 64 (4 * (if short then (imm.toNat % 32 : Int) else imm.toInt)) →
    s.zisMeets a len (useReg a rt) u →
    (∀ v x, (agentReads a 8 e).run u = .ok v x → u.met x a 2 e 8 →
      s.does (.ldpc a short rt imm) (x.zisGives a len [(rt, BitVec.ofNat 64 v)] (u.flVal a))) ∧
    (short = false → ∀ v x, (agentReads a 4 e).run u = .ok v x → u.met x a 2 e 4 →
      s.does (.ldpcw a rt imm) (x.zisGives a len [(rt, BitVec.ofInt 64 (signedOf 32 v))] (u.flVal a)))) ∧
  (a = .core c →
    (memFits m none = true → s.zisMeets a (memLen m) ((memRegs m).forM (useReg a)) u →
      (∀ v x, (agentReads a 4 (u.memAt a m 4)).run (u.noted a (memRegs m)) = .ok v x → u.met x a 2 (u.memAt a m 4) 4 →
        s.does (.flw a rt m) (x.qLoads c (memLen m) rt v (u.memBase a m 4))) ∧
      (∀ v x, (agentReads a 8 (u.memAt a m 8)).run (u.noted a (memRegs m)) = .ok v x → u.met x a 2 (u.memAt a m 8) 8 →
        s.does (.fld a rt m) (x.qLoads c (memLen m) rt v (u.memBase a m 8))) ∧
      (∀ v x, (agentReads a 32 (u.memAt a m 32)).run (u.noted a (memRegs m)) = .ok v x → u.met x a 2 (u.memAt a m 32) 32 →
        s.does (.vld a rt m) (x.qLoads c (memLen m) rt v (u.memBase a m 32)))) ∧
    (∀ e, e = u.pcWord a + BitVec.ofInt 64 (4 * imm.toInt) → s.zisReady a 4 [] u →
      ∀ v x, (agentReads a 8 e).run u = .ok v x → u.met x a 2 e 8 → s.does (.fldpc a rt imm) (x.qLoads c 4 rt v [])))

/-- R150, R156, R157, R168 to R171: the stores: the low bytes of the register are written, the base is updated, and nothing
else changes; a base stored as data is stored as it was before its update. -/
def Obligations.StoreInstructions : Prop :=
  ∀ (s u : State) (a : Agent) (c : CoreId) (rt : Reg5) (m : MemMode), s.slotOf a = none → u.lone a →
  memFits m none = true →
  (s.zisMeets a (memLen m) (do
      useReg a rt
      (memRegs m).forM (useReg a)) u →
    (∀ x, (agentWrites a 1 ((u.regVal a rt).toNat % 2 ^ 8) (u.memAt a m 1)).run (u.noted a (rt :: memRegs m)) = .ok () x →
      u.met x a 3 (u.memAt a m 1) 1 → s.does (.stb a rt m) (x.zisGives a (memLen m) (u.memBase a m 1) (u.flVal a))) ∧
    (∀ x, (agentWrites a 2 ((u.regVal a rt).toNat % 2 ^ 16) (u.memAt a m 2)).run (u.noted a (rt :: memRegs m)) = .ok () x →
      u.met x a 3 (u.memAt a m 2) 2 → s.does (.sth a rt m) (x.zisGives a (memLen m) (u.memBase a m 2) (u.flVal a))) ∧
    (∀ x, (agentWrites a 4 ((u.regVal a rt).toNat % 2 ^ 32) (u.memAt a m 4)).run (u.noted a (rt :: memRegs m)) = .ok () x →
      u.met x a 3 (u.memAt a m 4) 4 → s.does (.stw a rt m) (x.zisGives a (memLen m) (u.memBase a m 4) (u.flVal a))) ∧
    (∀ x, (agentWrites a 8 (u.regVal a rt).toNat (u.memAt a m 8)).run (u.noted a (rt :: memRegs m)) = .ok () x →
      u.met x a 3 (u.memAt a m 8) 8 → s.does (.std a rt m) (x.zisGives a (memLen m) (u.memBase a m 8) (u.flVal a)))) ∧
  (a = .core c → s.zisMeets a (memLen m) ((memRegs m).forM (useReg a)) u →
    (∀ x, (agentWrites a 4 ((u.qVal c rt).toNat % 2 ^ 32) (u.memAt a m 4)).run (u.noted a (memRegs m)) = .ok () x →
      u.met x a 3 (u.memAt a m 4) 4 → s.does (.fsw a rt m) (x.zisGives a (memLen m) (u.memBase a m 4) (u.flVal a))) ∧
    (∀ x, (agentWrites a 8 ((u.qVal c rt).toNat % 2 ^ 64) (u.memAt a m 8)).run (u.noted a (memRegs m)) = .ok () x →
      u.met x a 3 (u.memAt a m 8) 8 → s.does (.fsd a rt m) (x.zisGives a (memLen m) (u.memBase a m 8) (u.flVal a))) ∧
    (∀ x, (agentWrites a 32 (u.qVal c rt).toNat (u.memAt a m 32)).run (u.noted a (memRegs m)) = .ok () x →
      u.met x a 3 (u.memAt a m 32) 32 → s.does (.vst a rt m) (x.zisGives a (memLen m) (u.memBase a m 32) (u.flVal a))))

/-- R140, R170, R310, R315, R317, R322, R323: what the parts of an access mean in memory: a load of a core reads, byte for
byte, what the core sees there; its store changes, as the core sees memory, exactly the bytes it stores, and waits in the
store buffer; and a byte that is written while no store waits is what every other agent sees. -/
def Obligations.MemoryBytes : Prop :=
  ∀ (w : State) (c : CoreId) (t : ThreadId) (p : MemPart) (ea : Word) (v i b : Nat), w.groupOf c.val = none →
  (isHbm p.pa = true → p.mt ≠ 2 → p.len ≤ 32 → p.pa % 64 + p.len ≤ 64 →
    (∀ r x, (coreReads c p.len ea [p]).run w = .ok r x → (w.core c.val).early = [] →
        (w.core c.val).sb.all (fun e => (e.words.isEmpty || e.size ≤ 32) && (e.holds p.pa p.len || !e.meets p.pa p.len)) = true →
      (i < p.len → BitVec.ofNat 8 (r.1 / 256 ^ i) = w.seenBy c.val (p.pa + i)) ∧ r.1 < 256 ^ p.len ∧
      (x.core c.val).sb = (w.core c.val).sb) ∧
    ((w.core c.val).sb.length < 56 → v < 256 ^ p.len → ∀ x, (coreWrites c p.len v ea [p]).run w = .ok () x →
      x.seenBy c.val b = (if p.pa ≤ b ∧ b < p.pa + p.len then BitVec.ofNat 8 (v / 256 ^ (b - p.pa)) else w.seenBy c.val b) ∧
      x.mem = w.mem ∧ (x.core c.val).sb = (w.core c.val).sb ++
        [⟨bit (p.mt == 1), p.pa, p.len, BitVec.ofNat 256 v, 0, if p.len = 32 then [0, 8, 16, 24] else []⟩])) ∧
  (ownDmem t.val ea.toNat p.len = true → ea.toNat % p.len = 0 → p.len ∈ [1, 2, 4, 8] → w.islOpen 21 = true →
    (w.thread t.val).rest = [] →
    (∀ r x, (threadReads t p.len ea).run w = .ok r x →
      (i < p.len → BitVec.ofNat 8 (r / 256 ^ i) = BMap.get w.mem (ea.toNat + i)) ∧ x.mem = w.mem) ∧
    (v < 256 ^ p.len → BMap.wf w.mem = true → ∀ x, (threadWrites t p.len v ea).run w = .ok () x →
      BMap.get x.mem b = (if ea.toNat ≤ b ∧ b < ea.toNat + p.len then BitVec.ofNat 8 (v / 256 ^ (b - ea.toNat))
        else BMap.get w.mem b))) ∧
  (isHbm ea.toNat = true → ea.toNat % p.len = 0 → p.len ∈ [1, 2, 4, 8] → (w.thread t.val).rest.length < 4 →
    ∀ x, (threadWrites t p.len v ea).run w = .ok () x →
      x = w.modThread t.val (fun k => { k with rest := k.rest ++ [(ea.toNat, p.len, v % 2 ^ (8 * p.len))] }))

/-- R171, R172, R183, R326 to R332, R463: `ll`, `sc` and the atomics of a core outside any group, and of a thread. -/
def Obligations.AtomicsAndReservations : Prop :=
  ∀ (s u w : State) (a : Agent) (c : CoreId) (i : ThreadId) (rt ri rb : Reg5) (v ea : Word) (p : MemPart) (nc : Bool),
  s.slotOf a = none → rt ≠ rb → rt ≠ ri → v = u.regVal a ri → ea = u.regVal a rb →
  (a = .core c → u.groupOf c.val = none → nc = (p.mt == 1) → ea.toNat % 8 = 0 →
    (s.zisReady a 4 [rt, rb] u →
      (coreParts c.val .load ea 8 2 false).run (u.noted a [rb]) = .ok [p] w → p.upds = [] → u.met w a 2 ea 8 → rt ≠ 0 →
      (linkable nc p.pa = true → w.llTurn c.val p.pa = false → s.does (.ll a rt rb) (fun t =>
        (t.core c.val).llWait.any (fun y => y.1 == p.pa / 128) = true ∧ (t.core c.val).arch.pc = (s.core c.val).arch.pc ∧
        (t.core c.val).arch.rf = (s.core c.val).arch.rf ∧ (t.core c.val).resv = (s.core c.val).resv)) ∧
      ∀ m x, w.syncPerform c.val (.core c) 0x12 p.pa nc 0 = (m, x) → m.err = 0 → m.poison = false →
      (linkable nc p.pa = true → w.llTurn c.val p.pa = true) →
      w.oldestHeld c.val (granuleFirst (w.core c.val).sb p.pa) = false → u.met x a 2 ea 8 →
      s.does (.ll a rt rb) (fun t => (x.earlyLess c.val p.pa 8).zisGives a 4 [(rt, BitVec.ofNat 64 m.val)] (u.flVal a) t ∧
        (isHbm p.pa = true → nc = false → (t.core c.val).resv = some { granule := p.pa / 128, hold := true }))) ∧
    (s.zisReady a 4 [rt, ri, rb] u → w.pwr.failSeq = false → p.upds = [] →
      ((coreParts c.val .store ea 8 2 false).run (u.noted a [ri, rb]) = .ok [p] w → u.met w a 3 ea 8 →
        w.oldestHeld c.val (granuleFirst (w.core c.val).sb p.pa) = false →
        (isHbm p.pa = false ∨ nc = true ∨ (w.core c.val).resv.any (fun r => r.granule == p.pa / 128) = false →
          ∀ m x, w.syncPerform c.val (.core c) 0x13 p.pa nc v = (m, x) → u.met x a 3 ea 8 →
          s.does (.sc a rt ri rb) (fun t => (x.earlyLess c.val p.pa 8).zisGives a 4 [(rt, 1)] (u.flVal a) t ∧
            (t.core c.val).resv = none ∧ ((w.core c.val).sb = [] → t.mem = w.mem))) ∧
        (isHbm p.pa = true → nc = false → (w.core c.val).resv.any (fun r => r.granule == p.pa / 128) = true →
          w.heldAgainst (p.pa / 64) (some c.val) = false →
          ∀ m x, w.syncPerform c.val (.core c) 0x13 p.pa nc v = (m, x) → m.err = 0 → u.met x a 3 ea 8 →
          s.does (.sc a rt ri rb) (fun t => (x.earlyLess c.val p.pa 8).zisGives a 4 [(rt, 0)] (u.flVal a) t ∧
            (t.core c.val).resv = none))) ∧
      ((coreParts c.val .store ea 8 2 true).run (u.noted a [ri, rb]) = .ok [p] w → isHbm p.pa = true →
        (w.heldAgainst (p.pa / 64) (some c.val) = true ∨ w.oldestHeld c.val (granuleFirst (w.core c.val).sb p.pa) = true →
          ∀ E : State → Prop, E = (fun t => (t.core c.val).arch.pc = (s.core c.val).arch.pc ∧
            (t.core c.val).arch.rf = (s.core c.val).arch.rf ∧ (t.core c.val).resv = (s.core c.val).resv) →
          s.does (.swp a rt ri rb) E ∧ s.does (.ldadd a rt ri rb) E ∧ s.does (.ldand a rt ri rb) E ∧ s.does (.ldor a rt ri rb) E) ∧
        (w.heldAgainst (p.pa / 64) (some c.val) = false → w.oldestHeld c.val (granuleFirst (w.core c.val).sb p.pa) = false →
        u.met w a 2 ea 8 → u.met w a 3 ea 8 →
        (∀ m x, w.syncPerform c.val (.core c) 0x14 p.pa nc v = (m, x) → m.err = 0 → m.poison = false → u.met x a 2 ea 8 →
          u.met x a 3 ea 8 → s.does (.swp a rt ri rb)
            ((x.earlyLess c.val p.pa 8).zisGives a 4 [(rt, BitVec.ofNat 64 m.val)] (u.flVal a))) ∧
        (∀ m x, w.syncPerform c.val (.core c) 0x15 p.pa nc v = (m, x) → m.err = 0 → m.poison = false → u.met x a 2 ea 8 →
          u.met x a 3 ea 8 → s.does (.ldadd a rt ri rb)
            ((x.earlyLess c.val p.pa 8).zisGives a 4 [(rt, BitVec.ofNat 64 m.val)] (u.flVal a))) ∧
        (∀ m x, w.syncPerform c.val (.core c) 0x16 p.pa nc v = (m, x) → m.err = 0 → m.poison = false → u.met x a 2 ea 8 →
          u.met x a 3 ea 8 → s.does (.ldand a rt ri rb)
            ((x.earlyLess c.val p.pa 8).zisGives a 4 [(rt, BitVec.ofNat 64 m.val)] (u.flVal a))) ∧
        (∀ m x, w.syncPerform c.val (.core c) 0x17 p.pa nc v = (m, x) → m.err = 0 → m.poison = false → u.met x a 2 ea 8 →
          u.met x a 3 ea 8 → s.does (.ldor a rt ri rb)
            ((x.earlyLess c.val p.pa 8).zisGives a 4 [(rt, BitVec.ofNat 64 m.val)] (u.flVal a))))))) ∧
  (isHbm p.pa = true → p.pa % 8 = 0 → BMap.wf w.mem = true → (w.core c.val).sb = [] → w.groupOf c.val = none →
    (∀ o ∈ [(0x14, v), (0x15, (BitVec.ofNat 64 (w.coreLoad c.val nc p.pa 8 (coreReq c.val)).1.val) + v),
        (0x16, (BitVec.ofNat 64 (w.coreLoad c.val nc p.pa 8 (coreReq c.val)).1.val) &&& v),
        (0x17, (BitVec.ofNat 64 (w.coreLoad c.val nc p.pa 8 (coreReq c.val)).1.val) ||| v)],
      ∀ m x, w.syncPerform c.val (.core c) o.1 p.pa nc v = (m, x) → m.err = 0 → m.poison = false →
        m.val = (w.coreLoad c.val nc p.pa 8 (coreReq c.val)).1.val ∧ (w.mirOf (w.hbmPlace p.pa).1 (w.hbmPlace p.pa).2 = none →
          ∀ k < 8, x.peekByte (p.pa + k) = BitVec.ofNat 8 (o.2.toNat / 256 ^ k)))) ∧
  (a = .thread i → s.zisReady a 4 [] u →
    (ea.toNat % 8 = 0 → ownDmem i.val ea.toNat 8 = true →
      s.does (.sc a rt ri rb) (u.zisGives a 4 [(rt, 1)] (u.flVal a)) ∧
      ∀ o x, (threadReads i 8 ea).run (u.threadRest i.val) = .ok o x → u.met x a 2 ea 8 → (x.thread i.val).rest = [] →
        (rt ≠ 0 → s.does (.ll a rt rb) (x.zisGives a 4 [(rt, BitVec.ofNat 64 o)] (u.flVal a))) ∧
        (∀ f y, (threadWrites i 8 (f : Word).toNat ea).run x = .ok () y → u.met y a 3 ea 8 →
          (f = v → s.does (.swp a rt ri rb) (y.zisGives a 4 [(rt, BitVec.ofNat 64 o)] (u.flVal a))) ∧
          (f = BitVec.ofNat 64 o + v → s.does (.ldadd a rt ri rb) (y.zisGives a 4 [(rt, BitVec.ofNat 64 o)] (u.flVal a))) ∧
          (f = BitVec.ofNat 64 o &&& v → s.does (.ldand a rt ri rb) (y.zisGives a 4 [(rt, BitVec.ofNat 64 o)] (u.flVal a))) ∧
          (f = BitVec.ofNat 64 o ||| v → s.does (.ldor a rt ri rb) (y.zisGives a 4 [(rt, BitVec.ofNat 64 o)] (u.flVal a))))) ∧
    (rt = 0 → s.does (.ll a rt rb) (u.faulted i 1 0 0)) ∧
    (ea.toNat % 8 ≠ 0 → (rt ≠ 0 → s.does (.ll a rt rb) (u.faulted i 5 ea.toNat 0)) ∧ s.does (.swp a rt ri rb) (u.faulted i 5 ea.toNat 0)))

/-- R159, R223, R225, R238, R275 to R277: `tlbi`: which entries of the TLBs, of the walk cache and of the predictor each
operation removes, at its own core and by broadcast, the wait for a broadcast, and its delivery. -/
def Obligations.TlbMaintenance : Prop :=
  ∀ (s u : State) (c d : CoreId) (i : ThreadId) (ra : Reg5) (v : Word) (g n : Nat) (x : CoreArch) (o : TlbiOp)
    (r : List TlbiOp),
  x = (u.core c.val).arch → v = u.regVal (.core c) ra → g = (if x.csf CsFld.G2CTL_EN = 1 then x.csf CsFld.G2BASE_GID else 0) →
  (s.slotOf (.core c) = none → u.groupOf c.val = none → s.zisReady (.core c) 4 [ra] u →
    (∀ P : (TlbEntry → Bool) → (WalkEntry → Bool) → (Nat → Bool) → Bool → State → Prop, P = (fun gone table old all t =>
        (((u.endEarly c.val).modCore c.val (fun k => k.tlbLess gone table old all)).zisGives (.core c) 4 [] x.fl t)) →
      ∀ hit : TlbEntry → Bool, hit = (fun e => e.vpn == bitsOf v 47 12 * 4096 / 2 ^ e.bits) →
      (x.mode = 2 →
        (ra = 0 → s.does (.tlbiAll (.core c) false ra) (P (fun _ => true) (fun _ => true) (fun _ => true) true)) ∧
        s.does (.tlbiGuest (.core c) false ra) (P (fun e => e.regime != .h && e.gid == bitsOf v 11 0)
          (fun e => e.regime != .h && e.gid == bitsOf v 11 0)
          (fun w => w / 2 ^ 28 != 2 && w / 2 ^ 16 % 4096 == bitsOf v 11 0) false) ∧
        s.does (.tlbiIpa (.core c) false ra) (P (fun e => (e.regime == .g2 && e.gid == g && hit e) || (e.regime == .s && e.gid == g))
          (fun e => e.regime != .h && e.gid == g) (fun _ => false) false) ∧
        (ra = 0 → s.does (.tlbiHAll (.core c) false ra)
          (P (fun e => e.regime == .h) (fun e => e.regime == .h) (fun w => w / 2 ^ 28 == 2) false)) ∧
        s.does (.tlbiHVa (.core c) false ra)
          (P (fun e => e.regime == .h && hit e) (fun e => e.regime == .h) (fun _ => false) false) ∧
        (ra = 0 → (u.core c.val).sb = [] → (u.core c.val).tlbiSent = none →
          (u.core c.val).adMade = (s.core c.val).adMade →
          n = (u.core c.val).tlbiWait + ((List.range 160).filter (fun e => e != c.val && u.islOpen (coreIsland e))).length →
          s.does (.tlbiAll (.core c) true ra) (fun t =>
            (t.core c.val).tlb = [] ∧ (t.core c.val).itlb = [] ∧ (t.core c.val).dtlb = [] ∧ (t.core c.val).wcache = [] ∧
            (t.core c.val).ras = [] ∧ (t.core c.val).btb = [] ∧ (t.core c.val).ibp = [] ∧ (t.core c.val).dir = [] ∧
            (∀ e, e = d.val → e ≠ c.val → u.islOpen (coreIsland e) = true →
              t.core e = { u.core e with
                tlbis := (u.core e).tlbis ++ [{ op := 0, arg := v, gid := g, asid := 0, issuer := c.val }] }) ∧
            (d ≠ c → u.islOpen (coreIsland d.val) = false → t.core d.val = (u.core d.val).dropHeld) ∧
            (t.core c.val).tlbiWait = n ∧ t.mem = u.mem ∧
            (n = 0 → t.pcVal (.core c) = x.pc + 4 ∧ (t.core c.val).tlbiSent = none) ∧
            (n ≠ 0 → t.pcVal (.core c) = x.pc ∧ (t.core c.val).tlbiSent = some (0, v) ∧
              (t.core c.val).retired = (u.core c.val).retired))) ∧
        (ra = 0 → (u.core c.val).tlbiSent = some (0, v) → s.does (.tlbiAll (.core c) true ra) (u.zisGives (.core c) 4 [] x.fl))) ∧
      (x.mode = 1 ∨ x.mode = 2 →
        (ra = 0 → s.does (.tlbiSAll (.core c) false ra) (P (fun e => e.regime == .s && e.gid == g)
          (fun e => e.regime == .s && e.gid == g) (fun w => w / 2 ^ 28 != 2 && w / 2 ^ 16 % 4096 == g) false)) ∧
        s.does (.tlbiAsid (.core c) false ra) (P (fun e => e.regime == .s && e.gid == g && e.asid == bitsOf v 15 0 && !e.global)
          (fun e => e.regime == .s && e.gid == g)
          (fun w => w / 2 ^ 28 != 2 && w / 2 ^ 16 % 4096 == g && w % 2 ^ 16 == bitsOf v 15 0) false) ∧
        s.does (.tlbiVa (.core c) false ra) (P (fun e => e.regime == .s && e.gid == g && hit e &&
          (e.global || e.asid == bitsOf v 63 48)) (fun e => e.regime == .s && e.gid == g) (fun _ => false) false) ∧
        s.does (.tlbiVaAllasid (.core c) false ra) (P (fun e => e.regime == .s && e.gid == g && hit e)
          (fun e => e.regime == .s && e.gid == g) (fun _ => false) false)))) ∧
  ((x.mode = 1 → x.tw true = 0 → s.zisRaises c 4 (pure ()) true u → ra = 0 →
      s.does (.tlbiAll (.core c) false ra) (u.entered c true { vec := 0x02 } x.pc)) ∧
    (x.mode = 0 → x.tw false = 0 → s.zisRaises c 4 (pure ()) false u →
      s.does (.tlbiVa (.core c) false ra) (u.entered c false { vec := 0x02 } x.pc)) ∧
    (x.mode = 2 → x.tw true = 0 → s.zisRaises c 4 (pure ()) true u → ra ≠ 0 →
      ∀ i ∈ [Instr.tlbiAll (.core c) false ra, .tlbiHAll (.core c) false ra, .tlbiSAll (.core c) false ra],
        s.does i (u.entered c true { vec := 0x01 } x.pc))) ∧
  (s.zisReady (.thread i) 4 [] u → s.does (.tlbiAll (.thread i) false ra) (u.faulted i 1 0 0)) ∧
  ((s.core c.val).tlbis = o :: r → (s.core c.val).sb = [] → s.islOpen (coreIsland c.val) = true → o.issuer = d.val →
    o.fold = none →
    ∀ k : Core, k = ((s.endEarly c.val).core c.val).tlbLess (tlbiCovers o.op o.arg o.gid) (walkCovers o.op o.arg o.gid)
      (predCovers o.op o.arg o.gid) (o.op == 0) →
    (s.foldPast c.val (s.core c.val).mem.instar = true → s.does (.tlbiDelivery c) (fun t =>
      (c ≠ d → t.core c.val = { k with tlbis := r } ∧
        t.core d.val = { s.core d.val with tlbiWait := (s.core d.val).tlbiWait - 1 }) ∧
      (c = d → t.core c.val = { k with tlbis := r, tlbiWait := k.tlbiWait - 1 }) ∧ t = { s with cores := t.cores })) ∧
    (s.foldPast c.val (s.core c.val).mem.instar = false → s.does (.tlbiDelivery c) (fun t =>
      t.core c.val = { k with tlbis := { o with fold := some (s.core c.val).mem.instar } :: r } ∧
      t = { s with cores := t.cores })))

/-- R238, R282, R300 to R302: `cmo`: what each operation takes out of or writes back from the caches, by address, by set and
way, and as a whole; other types of memory are left alone; bad places and modes raise their exceptions. -/
def Obligations.CacheMaintenance : Prop :=
  ∀ (s u w e : State) (c d : CoreId) (i : ThreadId) (ra : Reg5) (v : Word) (x : CoreArch) (p : MemPart) (n : Nat),
  x = (u.core c.val).arch → v = u.regVal (.core c) ra → s.slotOf (.core c) = none → n = p.pa / 64 →
  (u.groupOf c.val = none → (u.core c.val).sb = [] → s.zisReady (.core c) 4 [ra] u →
    ((corePartsOf c.val .load [(v, 1)]).run (u.noted (.core c) [ra]) = .ok [p] w → p.upds = [] → u.met w (.core c) 0 0 0 →
      e = w.earlyLess c.val (64 * n) 64 →
      (p.mt ≠ 0 → s.does (.cinvLlc (.core c) ra) (w.zisGives (.core c) 4 [] x.fl) ∧
        s.does (.iInv (.core c) true ra) (w.zisGives (.core c) 4 [] x.fl)) ∧
      (p.mt = 0 → mapFault false p = none → (w.core c.val).sb = [] →
        s.does (.iInv (.core c) false ra) ((e.modCore c.val (fun k => { k with
          l1i := k.l1i.filter (fun l => l.1 != n) })).zisGives (.core c) 4 [] x.fl) ∧
        s.does (.iInv (.core c) true ra) (fun t => t.pcVal (.core c) = (w.core c.val).arch.pc + 4 ∧
          (t.core d.val).l1i = (w.core d.val).l1i.filter (fun l => l.1 != n) ∧ (t.core d.val).l1d = (w.core d.val).l1d ∧
          t.mem = w.mem) ∧
        s.does (.dInvL1 (.core c) ra) ((e.modCore c.val (fun k => { k with
          l1d := k.l1d.filter (fun l => l.1 != n) })).zisGives (.core c) 4 [] x.fl) ∧
        (∀ y, y = e.l2Clean c.val n → u.calmAfter y (.core c) →
          s.does (.cleanL2 (.core c) ra) (fun t => (y.zisGives (.core c) 4 [] x.fl) t ∧
            (∀ l ∈ t.l2Find c.val n, l.st ≠ .m) ∧
            ((∀ l ∈ w.l2Find c.val n, l.err = none) → w.flag Fld.ER_INJ_ARM c.val = false →
              (t.l2Find c.val n).isSome = (w.l2Find c.val n).isSome)) ∧
          s.does (.cinvL2 (.core c) ra) (fun t => ((y.l2Drop c.val n).zisGives (.core c) 4 [] x.fl) t ∧
            t.l2Find c.val n = none ∧ (t.core c.val).l1d.all (fun l => l.1 != n) = true)) ∧
        (x.mode = 2 → s.does (.invL2 (.core c) ra) (fun t => ((e.l2Drop c.val n).zisGives (.core c) 4 [] x.fl) t ∧
          t.l2Find c.val n = none ∧ t.mem = w.mem ∧ t.llc = w.llc)) ∧
        (∀ y, y = e.secureHit n (coreReq c.val) → u.calmAfter y (.core c) → (e.llcFind n).any (fun l => l.sec) = true →
          s.does (.cleanLlc (.core c) ra) (y.zisGives (.core c) 4 [] x.fl) ∧
          (w.heldAgainst n (some c.val) = false → s.does (.cinvLlc (.core c) ra) (y.zisGives (.core c) 4 [] x.fl) ∧
            (x.mode = 2 → s.does (.invLlc (.core c) ra) (y.zisGives (.core c) 4 [] x.fl)))) ∧
        (∀ y, y = e.llcClean n → u.calmAfter y (.core c) → (e.llcFind n).any (fun l => l.sec) = false →
          s.does (.cleanLlc (.core c) ra) (fun t => (y.zisGives (.core c) 4 [] x.fl) t ∧
            (∀ l ∈ t.l2Find d.val n, l.st ≠ .m) ∧ (∀ l ∈ t.llcFind n, l.dirty = false)) ∧
          (w.heldAgainst n (some c.val) = false →
            s.does (.cinvLlc (.core c) ra) (fun t => ((y.llcInv n).zisGives (.core c) 4 [] x.fl) t ∧
              t.l2Find d.val n = none ∧ t.llcFind n = none ∧
              ((t.core d.val).l2State = 0 → (t.core d.val).l1d.all (fun l => l.1 != n) = true)))) ∧
        (x.mode = 2 → w.heldAgainst n (some c.val) = false → (e.llcFind n).any (fun l => l.sec) = false →
          s.does (.invLlc (.core c) ra) (fun t => ((e.llcInv n).zisGives (.core c) 4 [] x.fl) t ∧
            t.l2Find d.val n = none ∧ t.llcFind n = none ∧ t.mem = w.mem)))) ∧
    (x.mode = 1 ∨ x.mode = 2 →
      (ra = 0 →
        s.does (.iInvAll (.core c) ra) ((u.modCore c.val (fun k => { k with l1i := [] })).zisGives (.core c) 4 [] x.fl) ∧
        s.does (.dInvAll (.core c) ra) ((u.modCore c.val (fun k => { k with l1d := [] })).zisGives (.core c) 4 [] x.fl)) ∧
      (bitsOf v 23 8 < 256 → bitsOf v 3 0 < 4 → bitsOf v 46 40 = 0 →
        s.does (.dInvSw (.core c) ra) (fun t =>
          (∀ l ∈ (t.core c.val).l1d, ∀ m ∈ l1Way (u.core c.val).l1d (bitsOf v 23 8) (bitsOf v 3 0), l.1 ≠ m) ∧
          (∀ l ∈ (u.core c.val).l1d, l ∈ (t.core c.val).l1d ∨ l1Way (u.core c.val).l1d (bitsOf v 23 8) (bitsOf v 3 0) = some l.1) ∧
          ((u.modCore c.val (fun k => { k with l1d := (t.core c.val).l1d })).zisGives (.core c) 4 [] x.fl) t) ∧
        s.does (.iInvSw (.core c) ra) (fun t =>
          (∀ l ∈ (t.core c.val).l1i, ∀ m ∈ l1Way (u.core c.val).l1i (bitsOf v 23 8) (bitsOf v 3 0), l.1 ≠ m) ∧
          (∀ l ∈ (u.core c.val).l1i, l ∈ (t.core c.val).l1i ∨ l1Way (u.core c.val).l1i (bitsOf v 23 8) (bitsOf v 3 0) = some l.1) ∧
          ((u.modCore c.val (fun k => { k with l1i := (t.core c.val).l1i })).zisGives (.core c) 4 [] x.fl) t)) ∧
      (bitsOf v 23 8 < 2048 → bitsOf v 3 0 < 8 → bitsOf v 46 40 = 0 →
        ((u.core c.val).l2Way (bitsOf v 23 8) (bitsOf v 3 0) = some n →
          e = u.earlyLess c.val (64 * n) 64 → ∀ y, y = e.l2Clean c.val n → u.calmAfter y (.core c) →
          s.does (.cleanSwL2 (.core c) ra) (fun t => (y.zisGives (.core c) 4 [] x.fl) t ∧
            ∀ l ∈ t.l2Find c.val n, l.st ≠ .m) ∧
          s.does (.cinvSwL2 (.core c) ra) (fun t => ((y.l2Drop c.val n).zisGives (.core c) 4 [] x.fl) t ∧
            t.l2Find c.val n = none) ∧
          (x.mode = 2 → s.does (.invSwL2 (.core c) ra) (fun t => ((e.l2Drop c.val n).zisGives (.core c) 4 [] x.fl) t ∧
            t.l2Find c.val n = none ∧ t.mem = u.mem ∧ t.llc = u.llc))) ∧
        ((u.core c.val).l2Way (bitsOf v 23 8) (bitsOf v 3 0) = none →
          s.does (.cinvSwL2 (.core c) ra) (u.zisGives (.core c) 4 [] x.fl)))) ∧
    (x.mode = 2 → bitsOf v 23 8 < 1536 → bitsOf v 46 40 < 80 →
      (∀ l : LlcLine, (u.llcOf (bitsOf v 46 40)).find? (fun y => llcIndex y.line == bitsOf v 23 8 && y.way == bitsOf v 3 0) = some l →
        (∀ y, l.sec = true → y = u.secureHit l.line (coreReq c.val) → u.calmAfter y (.core c) →
          ∀ i ∈ [Instr.cleanSwLlc (.core c) ra, .cinvSwLlc (.core c) ra, .invSwLlc (.core c) ra],
            s.does i (y.zisGives (.core c) 4 [] x.fl)) ∧
        (l.sec = false →
        (∀ y, y = u.cmoLlcWay (coreReq c.val) 0x25 v → u.calmAfter y (.core c) →
          s.does (.cleanSwLlc (.core c) ra) (fun t => (y.zisGives (.core c) 4 [] x.fl) t ∧
            (l.err = none → u.flag Fld.ER_INJ_ARM (160 + homeSlice l.line) = false →
              t.llcOf (bitsOf v 46 40) = (u.llcOf (bitsOf v 46 40)).map (fun k => if k.line = l.line then { k with dirty := false } else k)) ∧
            (l.dirty = false → t.mem = u.mem))) ∧
        (∀ y, y = u.cmoLlcWay (coreReq c.val) 0x26 v → u.calmAfter y (.core c) →
          s.does (.cinvSwLlc (.core c) ra) (fun t => (y.zisGives (.core c) 4 [] x.fl) t ∧
            t.llcOf (bitsOf v 46 40) = (y.llcOf (bitsOf v 46 40)).filter (fun k => k.line != l.line) ∧
            (l.err = none → u.flag Fld.ER_INJ_ARM (160 + homeSlice l.line) = false →
              t.llcOf (bitsOf v 46 40) = (u.llcOf (bitsOf v 46 40)).filter (fun k => k.line != l.line)) ∧
            (l.dirty = false → t.mem = u.mem))) ∧
        s.does (.invSwLlc (.core c) ra) (fun t => ((u.cmoLlcWay (coreReq c.val) 0x27 v).zisGives (.core c) 4 [] x.fl) t ∧
          t.llcOf (bitsOf v 46 40) = (u.llcOf (bitsOf v 46 40)).filter (fun k => k.line != l.line) ∧ t.mem = u.mem))))) ∧
  (x.mode = 2 → x.tw true = 0 → (80 ≤ bitsOf v 46 40 ∨ 1536 ≤ bitsOf v 23 8) → s.zisRaises c 4 (useReg (.core c) ra) true u →
    s.does (.invSwLlc (.core c) ra) (u.entered c true { vec := 0x01 } x.pc)) ∧
  (x.mode = 2 → x.tw true = 0 → ra ≠ 0 → s.zisRaises c 4 (pure ()) true u →
    s.does (.iInvAll (.core c) ra) (u.entered c true { vec := 0x01 } x.pc) ∧
    s.does (.dInvAll (.core c) ra) (u.entered c true { vec := 0x01 } x.pc)) ∧
  (x.mode = 1 → x.tw true = 0 → s.zisRaises c 4 (useReg (.core c) ra) true u →
    s.does (.invLlc (.core c) ra) (u.entered c true { vec := 0x02 } x.pc)) ∧
  (s.zisReady (.thread i) 4 [] u → s.does (.iInvAll (.thread i) ra) (u.faulted i 1 0 0))

/-- R433 to R438, R443 to R447: a port's registers, links, line faults and reflectometry. -/
def Obligations.PortsAndLinks : Prop :=
  ∀ (s : State) (src : Src) (p : PortId) (v : Word) (data : BitVec 16) (rate fec : BitVec 2) (rev : Bool) (snr : Int)
    (vp vn : Int) (res : BitVec 3) (x : Port) (m w key : Nat),
  key = mmdKey (s.fld Fld.PT_MMD_DEVAD p.val) (s.fld Fld.PT_MMD_REGADDR p.val) → x = s.port p.val → m = s.fld Fld.PT_CTL_MODE p.val → w = max (max vp.natAbs vn.natAbs) (vp - vn).natAbs →
  (s.portRuns p.val = (decide (m ≠ 0) && decide (s.fld Fld.BT_LOWN_FUNC (if p.val < 224 then 18 else 10 + (p.val - 224) / 4) = 1) &&
    !(s.pwr.failSeq && s.pwr.past380))) ∧
  (s.portClosed p.val = (s.portRuns p.val && !(decide (p.val < 224) && s.flag Fld.PT_STAT_FAULT p.val))) ∧
  (s.islOpen Reg.PT_CTL.island = true → s.srcLive src = true →
    (s.portMay p.val src = (decide (src = .thread p) || decide (src = .cocoon) ||
      (!s.flag Fld.PT_CTL_SEC p.val && s.srcSys src))) ∧
    (s.portMay p.val src = false →
      (∀ P : State → Prop, P = (fun u => u.fld Fld.PT_CTL_LAST_STATUS p.val = 7 ∧
          u.fld Fld.PT_CTL_MODE p.val = m ∧ s.onlyRegs u [(.PT_CTL, p.val), (.PT_XGATE, p.val / 8)]) →
        s.does (.portCtlWrite src p v) P ∧ s.does (.portEventClear src p v) P ∧ s.does (.mmdAccess src p v) P ∧
        (p.val < 224 → s.does (.reflectometryStart src p v) P))) ∧
    (s.portMay p.val src = true →
      s.does (.portCtlWrite src p v) (fun u => u.fld Fld.PT_CTL_LAST_STATUS p.val = 0 ∧
        u.fld Fld.PT_CTL_MODE p.val = (if p.val < 224 ∧ Fld.PT_CTL_MODE.of v = 3 then m else Fld.PT_CTL_MODE.of v) ∧
        u.fld Fld.PT_CTL_AN p.val = Fld.PT_CTL_AN.of v ∧
        u.ptAn p.val = u.flag Fld.PT_CTL_AN p.val ∧ u.ptAmp p.val = u.flag Fld.PT_CTL_AMP p.val ∧
        u.ptRole p.val = u.flag Fld.PT_CTL_ROLE p.val ∧
        (src ≠ .cocoon → u.fld Fld.PT_CTL_SEC p.val = s.fld Fld.PT_CTL_SEC p.val) ∧
        u.flag Fld.PT_STAT_SW p.val = u.portClosed p.val ∧
        (u.portClosed p.val = false → u.fld Fld.PT_STAT_LINK p.val = 0 ∧ (u.port p.val).frame = none) ∧
        (u.portClosed p.val = true → p.val < 224 → u.fld Fld.PT_CTL_MODE p.val = 2 → u.fld Fld.PT_STAT_LINK p.val = 2) ∧
        u.mem = s.mem) ∧
      s.does (.portEventClear src p v) (fun u => u.fld Fld.PT_CTL_LAST_STATUS p.val = 0 ∧
        u.csrGet .PT_STAT p.val = Reg.PT_STAT.fields.foldl (fun k f => if f.acc = .w1c then k &&& ~~~ (v &&& bitMask f.hi f.lo) else k)
          (s.csrGet .PT_STAT p.val) ∧ s.onlyRegs u [(.PT_STAT, p.val), (.PT_CTL, p.val), (.PT_XGATE, p.val / 8)]) ∧
      s.does (.mmdAccess src p v) (fun u =>
        u.flag Fld.PT_MMD_BUSY p.val = true ∧ u.fld Fld.PT_MMD_DEVAD p.val = Fld.PT_MMD_DEVAD.of v ∧
        u.fld Fld.PT_MMD_REGADDR p.val = Fld.PT_MMD_REGADDR.of v ∧ u.fld Fld.PT_MMD_DATA p.val = Fld.PT_MMD_DATA.of v ∧
        u.fld Fld.PT_MMD_WRITE p.val = Fld.PT_MMD_WRITE.of v ∧ s.onlyRegs u [(.PT_MMD, p.val), (.PT_CTL, p.val), (.PT_XGATE, p.val / 8)]) ∧
      (p.val < 224 → x.testing = false → x.testDue = false → s.does (.reflectometryStart src p v) (fun u =>
        u.fld Fld.PT_DIAG_VF p.val = max 40 (min 99 (Fld.PT_DIAG_VF.of v)) ∧
        (s.portClosed p.val = false → u.fld Fld.PT_DIAG_RESULT p.val = 5 ∧ u.fld Fld.PT_DIAG_DIST p.val = 0xFFFF ∧
          u.flag Fld.PT_STAT_DIAG_DONE p.val = true ∧ (u.port p.val).testing = false) ∧
        (s.portClosed p.val = true → x.frame.any (fun f => f.start.isSome) = true →
          (u.port p.val).testDue = true ∧ (u.port p.val).testing = false) ∧
        (s.portClosed p.val = true → x.frame.any (fun f => f.start.isSome) = false → (u.port p.val).testing = true))))) ∧
  (s.flag Fld.PT_MMD_BUSY p.val = true → s.does (.mmdAccessDone p data) (fun u => u.flag Fld.PT_MMD_BUSY p.val = false ∧
    (s.fld Fld.PT_MMD_DEVAD p.val ∉ [1, 3, 7] → u.fld Fld.PT_MMD_DATA p.val = 0xFFFF ∧ s.onlyRegs u [(.PT_MMD, p.val)]) ∧
    (s.fld Fld.PT_MMD_DEVAD p.val ∈ [1, 3, 7] →
      (s.flag Fld.PT_MMD_WRITE p.val = false → u.fld Fld.PT_MMD_DATA p.val = (FMap.get x.mmd data key).toNat ∧
        s.onlyRegs u [(.PT_MMD, p.val)]) ∧
      (s.flag Fld.PT_MMD_WRITE p.val = true → u.fld Fld.PT_MMD_DATA p.val = s.fld Fld.PT_MMD_DATA p.val ∧
        (s.fld Fld.PT_MMD_DATA p.val < 0x200 → ∀ j, FMap.get (u.port p.val).mmd data j =
          (if j = key then BitVec.ofNat 16 (s.fld Fld.PT_MMD_DATA p.val) else FMap.get x.mmd data j)) ∧
        u.port p.val = { x with mmd := (u.port p.val).mmd } ∧ u = { s with csr := u.csr, ports := u.ports } ∧
        s.regsKept u [(.PT_MMD, p.val)])))) ∧
  (p.val < 224 → s.ptAn p.val = false → s.ptRole p.val = fec.getLsbD 0 → s.does (.linkUp p rate rev fec) (fun u => u = s)) ∧
  (s.portClosed p.val = true → s.fld Fld.PT_STAT_LINK p.val = 1 → s.isRs485 p.val = false →
    224 ≤ p.val ∨ s.ptAn p.val = true ∨ s.ptRole p.val ≠ fec.getLsbD 0 →
    s.does (.linkUp p rate rev fec) (fun u => u.fld Fld.PT_STAT_LINK p.val = 2 ∧ u.flag Fld.PT_STAT_LINK_CHG p.val = true ∧
      (u.thread p.val).portEvt = true ∧
      (p.val < 224 → u.fld Fld.PT_STAT_RATE p.val =
        (if s.ptAn p.val = true then min (rate.toNat % 2) (s.ptAmp p.val).toNat else (s.ptAmp p.val).toNat)) ∧
      (p.val < 224 → rev = true → u.flag Fld.PT_STAT_POL p.val = true ∧ u.flag Fld.PT_STAT_REVERSED p.val = true) ∧
      (224 ≤ p.val → s.ptAn p.val = false → u.fld Fld.PT_STAT_RATE p.val = m) ∧
      u.mem = s.mem ∧ u.cores = s.cores)) ∧
  (s.portClosed p.val = true → s.fld Fld.PT_STAT_LINK p.val = 2 → s.isRs485 p.val = false →
    s.does (.linkLoss p) (fun u => u.fld Fld.PT_STAT_LINK p.val = 1 ∧ u.flag Fld.PT_STAT_LINK_CHG p.val = true ∧
      u.fld Fld.PT_STAT_SQI p.val = 0 ∧ (224 ≤ p.val → u.fld Fld.PT_LANE_FEC_EFF (p.val - 224) = 0) ∧
      (u.port p.val).frame = none ∧ (x.frame.isSome = true → u.flag Fld.PT_STAT_TX_ABORT p.val = true) ∧
      (s.isT1l p.val = true → (u.port p.val).testing = true) ∧ u.mem = s.mem)) ∧
  (s.isT1l p.val = true → s.fld Fld.PT_STAT_LINK p.val = 2 → s.does (.sqiRefresh p snr) (fun u =>
    (∀ t : Int → Prop, t = (fun d => ∀ n < 7, (1800 + 300 * (n : Int) + d ≤ snr → n < u.fld Fld.PT_STAT_SQI p.val) ∧
        (snr < 1800 + 300 * (n : Int) - d → u.fld Fld.PT_STAT_SQI p.val ≤ n)) →
      t 101 ∧ ((∀ n < 7, 100 < (snr - (1800 + 300 * (n : Int))).natAbs) → t 0)) ∧
    u = { s with csr := u.csr, free := u.free } ∧ s.regsKept u [(.PT_STAT, p.val)])) ∧
  (p.val < 224 → s.pwr.standby = true →
    s.does (.lineOvervoltageTrip p) (fun u => u.flag Fld.PT_STAT_FAULT p.val = true ∧ u.flag Fld.PT_STAT_OV_TRIP p.val = true ∧
      u.flag Fld.PT_STAT_SW p.val = false ∧ u.fld Fld.PT_STAT_LINK p.val = 0 ∧ (u.port p.val).frame = none ∧ u.mem = s.mem) ∧
    (28 ≤ w → w < 60 → s.does (.dcSenseSample p vp vn) (fun u => u.flag Fld.PT_STAT_FAULT p.val = true ∧
      u.flag Fld.PT_STAT_GND_FAULT p.val = true ∧ u.flag Fld.PT_STAT_SW p.val = false ∧ u.fld Fld.PT_STAT_LINK p.val = 0 ∧
      (u.port p.val).calm = false ∧ (u.port p.val).qualified = false)) ∧
    (w < 28 → -128 ≤ vp → vp ≤ 127 → -128 ≤ vn → vn ≤ 127 → s.does (.dcSenseSample p vp vn) (fun u =>
      signedOf 8 (u.fld Fld.PT_DIAG_VP p.val) = vp ∧ signedOf 8 (u.fld Fld.PT_DIAG_VN p.val) = vn ∧
      (u.port p.val).calm = decide (w ≤ 10) ∧ (10 < w → (u.port p.val).qualified = false) ∧
      s.regsKept u [(.PT_DIAG, p.val)] ∧ u = { s with csr := u.csr, ports := u.ports }))) ∧
  (p.val < 224 → s.flag Fld.PT_STAT_FAULT p.val = true →
    (x.calm = true → s.does (.faultQualified p) (fun u =>
      (s.flag Fld.PT_CTL_AUTORETRY p.val = true → u.flag Fld.PT_STAT_FAULT p.val = false ∧
        u.flag Fld.PT_STAT_SW p.val = s.portRuns p.val) ∧
      (s.flag Fld.PT_CTL_AUTORETRY p.val = false → (u.port p.val).qualified = true ∧ u.csr = s.csr))) ∧
    (x.calm = false → s.does (.faultQualified p) (fun u => u = s))) ∧
  (x.testing = true → s.does (.reflectometryDone p res data) (fun u => (u.port p.val).testing = false ∧
    u.fld Fld.PT_DIAG_RESULT p.val = (if res = 0 ∨ 5 < res.toNat then 5 else res.toNat) ∧
    (res ∉ [2, 3, 4] → u.fld Fld.PT_DIAG_DIST p.val = 0xFFFF) ∧
    (res ∈ [2, 3, 4] → u.fld Fld.PT_DIAG_DIST p.val = (if 1200 < data.toNat then 0xFFFE else data.toNat)) ∧
    u.flag Fld.PT_STAT_DIAG_DONE p.val = true ∧ (res = 2 → u.flag Fld.PT_STAT_OPEN p.val = true) ∧
    (res = 3 → u.flag Fld.PT_STAT_SHORT p.val = true) ∧ (res = 4 → u.flag Fld.PT_STAT_GND_FAULT p.val = true)))

/-- R439 to R441, R443, R450, R451, R453 to R456, R477, R478, R480, R481: frames through a port's FIFOs, the gate lists, the
elimination of copies, and the service block's MDIO and pins. -/
def Obligations.PortTraffic : Prop :=
  ∀ (s e : State) (src : Src) (p : PortId) (v : Word) (cs : List LineChar) (bad cut : Bool) (corr unc : BitVec 8) (x : Port)
    (f : TxFrame) (k : FrameCopy) (rest : List FrameCopy) (mm : LaneMacro) (i : StreamId) (data : BitVec 16) (pin : BitVec 3) (lv : Bool) (l y b mask n room lim : Nat) (done : Bool),
  room = 512 - x.rx.length → lim = (if p.val < 224 then 2048 else 9216) → x = s.port p.val → y = 32 * mm.val + i.val → mask = s.gpioMask src → (n, done) = txHeld x.tx → e = s.toEntryEnd p.val →
  (s.isRs485 p.val = false → ∀ c, s.rxEntry p.val c = rxChar (c.toNat % 256) false false) ∧
  (s.isRs485 p.val = true → s.flag Fld.PT_CTL_SWAP p.val = false → s.fld Fld.PT_SER_CODING p.val = 0 →
    s.fld Fld.PT_SER_DBITS p.val = 1 → s.fld Fld.PT_SER_PARITY p.val = 0 → s.fld Fld.PT_SER_STOP p.val = 0 → ∀ d < 256,
    s.rxEntry p.val (BitVec.ofNat 13 (512 + 2 * d)) = rxChar d false false ∧
    s.rxEntry p.val (BitVec.ofNat 13 (2 * d)) = rxChar d false true ∧
    s.onlyInverted p.val (~~~ (BitVec.ofNat 13 (512 + 2 * d))) = true) ∧
  (s.portHears p.val = true → s.rxTaken p.val = false → s.isRaw p.val = false →
    cs.length ≤ lim → x.rx.length + cs.length < 512 → x.rxLate = [] →
    s.does (.frameReceive p cs ⟨bad, corr, unc⟩ cut) (fun u =>
      (u.port p.val).rxLate = [] ∧
      (u.port p.val).rx = x.rx ++ cs.map (s.rxEntry p.val) ++ [rxEnd (!s.isRs485 p.val && (bad || decide (cs.length < 64) || cut)) cut] ∧
      (u.port p.val).rxTs = s.ts48 ∧
      (s.isRs485 p.val = true → 4 ≤ cs.length → (∀ c ∈ cs, s.onlyInverted p.val c = true) → u.flag Fld.PT_STAT_REVERSED p.val = true) ∧
      (p.val = 224 + l → s.fld Fld.PT_LANE_FEC_EFF l ≠ 0 →
        u.fld Fld.PT_FEC_CORR l = min (2 ^ 32 - 1) (s.fld Fld.PT_FEC_CORR l + corr.toNat) ∧
        u.fld Fld.PT_FEC_UNCORR l = min (2 ^ 32 - 1) (s.fld Fld.PT_FEC_UNCORR l + unc.toNat) ∧
        (unc ≠ 0 → u.flag Fld.PT_STAT_DIAG_DONE p.val = true)) ∧
      u = { s with ports := u.ports, csr := u.csr } ∧
      s.regsKept u ((.PT_STAT, p.val) :: (if p.val < 224 then [] else [(.PT_FEC, p.val - 224)])))) ∧
  (s.portHears p.val = true → s.rxTaken p.val = false → s.isRaw p.val = false → s.isRs485 p.val = true →
    x.rx.length ≤ 512 → 512 ≤ x.rx.length + cs.length → x.rxLate = [] →
    s.does (.frameReceive p cs ⟨false, corr, unc⟩ false) (fun u =>
      (u.port p.val).rx = x.rx ++ (cs.take room).map (s.rxEntry p.val) ∧
      (u.port p.val).rxLate = [rxEnd false (decide (room < cs.length))])) ∧
  (s.portHears p.val = true → s.rxTaken p.val = false → s.isRaw p.val = true → ∀ c, cs.getLast? = some c →
    s.does (.frameReceive p cs ⟨bad, corr, unc⟩ cut) (fun u =>
      (u.port p.val).rawRx = some (c.getLsbD 0 != s.flag Fld.PT_CTL_SWAP p.val) ∧ (u.port p.val).rx = x.rx ∧
      u = { s with ports := u.ports })) ∧
  (s.portHears p.val = false ∨ s.rxTaken p.val = true → s.does (.frameReceive p cs ⟨bad, corr, unc⟩ cut) (fun u => u = s)) ∧
  (x.frame = some f → s.portClosed p.val = true → f.start.isSome = true →
    x.testing = false → x.testDue = false → s.isRaw p.val = false →
    (s.isRs485 p.val = false → lim < f.sent + n + rTagBytes f.tag + 4 → s.does (.txDone p) (fun u =>
      (u.port p.val).frame = none ∧ u.flag Fld.PT_STAT_TX_ABORT p.val = true ∧ (u.thread p.val).txDone = true)) ∧
    (done = true → s.isRs485 p.val = true ∨ f.sent + n + rTagBytes f.tag + 4 ≤ lim → s.does (.txDone p) (fun u =>
      (u.port p.val).frame = none ∧ (u.port p.val).tx = x.tx.drop n ∧ (u.thread p.val).txDone = true ∧
      (f.tsreq = true → (u.port p.val).txTs = f.start) ∧ u = { s with ports := u.ports, threads := u.threads })) ∧
    (done = false → s.isRs485 p.val = true ∨ f.sent + n + rTagBytes f.tag + 4 ≤ lim → s.does (.txDone p) (fun u =>
      (u.port p.val).frame = some { f with sent := f.sent + n } ∧ (u.port p.val).tx = [] ∧ u = { s with ports := u.ports })) ∧
    (x.tx = [] → s.isRs485 p.val = false → s.does (.transmitFifoRunsEmpty p) (fun u => (u.port p.val).frame = none ∧
      u.flag Fld.PT_STAT_TX_ABORT p.val = true ∧ (u.thread p.val).txDone = true ∧ (u.port p.val).discard = true)) ∧
    (s.isRs485 p.val = true → s.does (.transmitFifoRunsEmpty p) (fun u => u = s)) ∧
    (s.isRs485 p.val = true → f.drive = true → s.does (.driverCurrentLimit p) (fun u => u.flag Fld.PT_STAT_SHORT p.val = true ∧
      u.flag Fld.PT_STAT_TX_ABORT p.val = true ∧ (u.port p.val).frame = none ∧ (u.port p.val).tx = x.tx.drop n))) ∧
  (x.copies = k :: rest → s.portClosed p.val = true → x.frame = none → s.gateTime p.val = 0 → s.does (.txDone p) (fun u =>
    (u.port p.val).copies = (if (s.gateOf p.val).testBit k.tc = true then rest else x.copies) ∧ u = { s with ports := u.ports })) ∧
  (p.val = 224 + l →
    (FMap.get s.gclDue false l = true → s.flag Fld.PT_GCTL_EN l = true →
      s.does (.gclCycleStart p) (fun u => FMap.get u.gclDue false l = false ∧ u.fld Fld.PT_GCTL_ENTRY l = 0 ∧
        (u.port p.val).gclOn = true ∧ (u.port p.val).gclAt = s.bell80.toNat ∧
        (s.flag Fld.PT_GCTL_PEND l = true → u.flag Fld.PT_GCTL_PEND l = false ∧
          u.fld Fld.PT_GCTL_OPER_LEN l = s.fld Fld.PT_GCTL_ADMIN_LEN l ∧
          (b < 16 → FMap.get (u.port p.val).gates 0 b = s.csrGet .PT_GCL (16 * l + b)) ∧
          u.gateOf p.val = bitsOf (s.csrGet .PT_GCL (16 * l)) 39 32) ∧
        u.fld Fld.PT_GCTL_CYC_OVR l = (if x.gclOn = true ∧ x.gclOver = false
          then min (s.fld Fld.PT_GCTL_CYC_OVR l + 1) (255) else s.fld Fld.PT_GCTL_CYC_OVR l) ∧
        s.regsKept u [(.PT_GCTL, l)] ∧ u.mem = s.mem)) ∧
    (s.flag Fld.PT_GCTL_EN l = true → x.gclOn = true → x.gclOver = false →
      (s.fld Fld.PT_GCTL_ENTRY l < s.fld Fld.PT_GCTL_OPER_LEN l → s.does (.gclEntryExpiry p) (fun u =>
        u.fld Fld.PT_GCTL_ENTRY l = s.fld Fld.PT_GCTL_ENTRY l + 1 ∧ (u.port p.val).gclAt = e.bell80.toNat ∧
        e.regsKept u [(.PT_GCTL, l)] ∧ u.mem = s.mem)) ∧
      (s.fld Fld.PT_GCTL_OPER_LEN l ≤ s.fld Fld.PT_GCTL_ENTRY l → s.does (.gclEntryExpiry p) (fun u =>
        (u.port p.val).gclOver = true ∧ u.gateOf p.val = s.gateOf p.val ∧ u = { e with ports := u.ports })))) ∧
  (s.islOpen Reg.PT_CBS.island = true → s.srcLive src = true →
    (s.cbMay mm.val src = false → s.does (.streamConfigWrite src mm i v) (fun u => u.csrGet .PT_CBS y = s.csrGet .PT_CBS y ∧
      u.frer = s.frer)) ∧
    (s.cbMay mm.val src = true → s.does (.streamConfigWrite src mm i v) (fun u =>
      u.fld Fld.PT_CBS_EN y = Fld.PT_CBS_EN.of v ∧ u.fld Fld.PT_CBS_HLEN y = max 2 (min 32 (Fld.PT_CBS_HLEN.of v)) ∧
      u.fld Fld.PT_CBS_RESET_TMO y = max 1 (Fld.PT_CBS_RESET_TMO.of v) ∧
      (s.flag Fld.PT_CBS_EN y = false → Fld.PT_CBS_EN.of v = 1 → u.csrGet .PT_CBC y = 0 ∧ FMap.get u.frer {} y = {}) ∧
      u = { s with csr := u.csr, resp := u.resp, frer := u.frer })) ∧
    (s.srcSys src = true ∨ src = .cocoon → s.does (.mdioFrame src v data) (fun u => u.fld Fld.PT_SVC_CTL_LAST_STATUS 0 = 0 ∧
      u.flag Fld.PT_MDIO_BUSY 0 = false ∧ u.fld Fld.PT_MDIO_OP 0 = Fld.PT_MDIO_OP.of v ∧
      u.fld Fld.PT_MDIO_DATA 0 = (if Fld.PT_MDIO_OP.of v = 2 ∨ (Fld.PT_MDIO_OP.of v = 3 ∧ Fld.PT_MDIO_C45.of v = 1)
        then data.toNat else Fld.PT_MDIO_DATA.of v))) ∧
    (s.srcSys src = false → src ≠ .cocoon → s.does (.mdioFrame src v data) (fun u => u.fld Fld.PT_SVC_CTL_LAST_STATUS 0 = 7 ∧
      u.csrGet .PT_MDIO 0 = s.csrGet .PT_MDIO 0)) ∧
    (mask = 0 → s.does (.gpioWrite src v) (fun u => u.fld Fld.PT_SVC_CTL_LAST_STATUS 0 = 7 ∧ u.csrGet .PT_GPIO 0 = s.csrGet .PT_GPIO 0)) ∧
    (mask ≠ 0 → s.fld Fld.BT_LOWN_FUNC 5 ≠ 2 → b < 8 →
      (∀ P : Bool → State → Prop, P = (fun z u => (u.fld Fld.PT_GPIO_OUT 0).testBit b =
          (if mask.testBit b = true then z else (s.fld Fld.PT_GPIO_OUT 0).testBit b) ∧
          u.fld Fld.PT_SVC_CTL_LAST_STATUS 0 = 0 ∧ u.mem = s.mem) →
        s.does (.gpioWrite src v) (fun u => P ((Fld.PT_GPIO_OUT.of v).testBit b) u ∧ (u.fld Fld.PT_GPIO_OE 0).testBit b =
          (if mask.testBit b = true then (Fld.PT_GPIO_OE.of v).testBit b else (s.fld Fld.PT_GPIO_OE 0).testBit b)) ∧
        s.does (.gpioOset src v) (P (v.getLsbD b || (s.fld Fld.PT_GPIO_OUT 0).testBit b)) ∧
        s.does (.gpioOclr src v) (P (!v.getLsbD b && (s.fld Fld.PT_GPIO_OUT 0).testBit b))))) ∧
  (s.flag Fld.PT_CBS_EN y = true → (FMap.get s.frer {} y).takeAny = false → s.does (.frerResetTimeout mm i) (fun u =>
    (FMap.get u.frer {} y).takeAny = true ∧ u.fld Fld.PT_CBC_RESETS y =
      min (s.fld Fld.PT_CBC_RESETS y + 1) (65535) ∧ s.regsKept u [(.PT_CBC, y)])) ∧
  s.does (.gpioInputChange pin lv) (fun u =>
    (s.fld Fld.BT_LOWN_FUNC (2 + pin.toNat) = 1 →
      s.pwr.past380 = true ∨ (s.tap.extest = false ∧ (s.fld Fld.PT_GPIO_OE 0).testBit pin.toNat = false) →
      (u.fld Fld.PT_GPIO_IN 0).testBit pin.toNat = (lv != (s.fld Fld.PT_GPIO_INV 0).testBit pin.toNat)) ∧
    u = { s with csr := u.csr, ext := u.ext } ∧ s.regsKept u [(.PT_GPIO, 0)])

/-- R482 to R488, R490, R491, R493 to R495: the queue engine: configuration, pointers, arming and levels, the flow-match table
and the channels' control. -/
def Obligations.QueueRings : Prop :=
  ∀ (s : State) (src : Src) (q : QueueId) (d : DmaId) (v : Word) (p key tag j : Nat) (port host may en : Bool)
    (b z tl hd th hh n sl at_ ah f : Nat) (w : Word),
  port = (decide (src = .dma ⟨q.val / 32, by omega⟩) || decide (src = .thread ⟨q.val / 32, by omega⟩)) →
  host = (!port && s.ownerMember (s.fld Fld.QE_HOST_OWNER q.val) src) →
  may = (decide (src = .cocoon) || (!s.flag Fld.QE_CFG_SEC q.val && s.srcSys src)) → en = s.flag Fld.QE_CFG_EN q.val →
  b = 32 * Fld.QE_CFG_BASE.of v → z = b + 32 * 2 ^ (4 + min 8 (Fld.QE_CFG_SIZE.of v)) - 1 →
  tl = s.fld Fld.QE_PTR_TAIL q.val → hd = s.fld Fld.QE_PTR_HEAD q.val → th = Fld.QE_PTR_TAIL.of v → hh = Fld.QE_PTR_HEAD.of v →
  n = (tl + 65536 - hd) % 65536 → sl = 2 ^ (4 + s.fld Fld.QE_CFG_SIZE q.val) → at_ = (th + 65536 - tl) % 65536 →
  ah = (hh + 65536 - hd) % 65536 → f = s.fld Fld.QE_HOST_THRESH q.val → w = s.csrGet .QE_DMA_CTL (q.val / 32) →
  (s.islOpen Reg.QE_CFG.island = true → s.srcLive src = true →
    (∀ P : Nat → State → Prop, P = (fun st u => u.fld Fld.QE_PTR_LAST_STATUS q.val = st ∧
        u.fld Fld.QE_PTR_LAST_SRC q.val = srcId src ∧ u = { s with csr := u.csr, resp := u.resp, coal := u.coal } ∧
        s.regsKept u [(.QE_CFG, q.val), (.QE_HOST, q.val), (.QE_PTR, q.val), (.QE_STAT, q.val)]) →
     ∀ N : Nat → State → Prop, N = (fun st u => P st u ∧ u.fld Fld.QE_PTR_TAIL q.val = tl ∧ u.fld Fld.QE_PTR_HEAD q.val = hd ∧
        s.regsKept u [(.QE_PTR, q.val)] ∧ u.coal = s.coal) →
      (may = false → s.does (.queueCfgWrite src q v) (N 7) ∧ s.does (.queueHostWrite src q v) (N 7)) ∧
      (may = true →
        (en = true → s.fld Fld.QE_CFG_BASE q.val ≠ Fld.QE_CFG_BASE.of v ∨ s.fld Fld.QE_CFG_DIR q.val ≠ Fld.QE_CFG_DIR.of v ∨
            s.fld Fld.QE_CFG_SIZE q.val ≠ min 8 (Fld.QE_CFG_SIZE.of v) → s.does (.queueCfgWrite src q v) (N 1)) ∧
        (en = true → s.fld Fld.QE_HOST_OWNER q.val ≠ Fld.QE_HOST_OWNER.of v → s.does (.queueHostWrite src q v) (N 1)) ∧
        (en = false → Fld.QE_CFG_EN.of v = 1 → w.getLsbD 0 = false → w.getLsbD 1 = false →
          ((isHbm b = true ∧ isHbm z = true) ∨ (isGranary b = true ∧ isGranary z = true ∧ granBank b = granBank z) →
            s.does (.queueCfgWrite src q v) (fun u => P 0 u ∧ u.flag Fld.QE_CFG_EN q.val = true ∧
              32 * u.fld Fld.QE_CFG_BASE q.val = b ∧ u.fld Fld.QE_CFG_SIZE q.val = min 8 (Fld.QE_CFG_SIZE.of v) ∧
              u.fld Fld.QE_CFG_DIR q.val = Fld.QE_CFG_DIR.of v ∧
              u.fld Fld.QE_CFG_SEC q.val = (if src = .cocoon then Fld.QE_CFG_SEC.of v else s.fld Fld.QE_CFG_SEC q.val) ∧
              u.fld Fld.QE_PTR_TAIL q.val = 0 ∧ u.fld Fld.QE_PTR_HEAD q.val = 0 ∧ u.flag Fld.QE_STAT_ARMED q.val = false ∧
              u.fld Fld.QE_STAT_ENTRIES q.val = 0 ∧ u.csrGet .QE_HOST q.val = s.csrGet .QE_HOST q.val)) ∧
          (isHbm b = false → isGranary b = false → isSpinnerMem b = false → s.does (.queueCfgWrite src q v) (N 0x2D)) ∧
          (isGranary b = true → isGranary z = true → granBank b ≠ granBank z → s.does (.queueCfgWrite src q v) (N 0x2D))) ∧
        (en = false ∨ s.fld Fld.QE_HOST_OWNER q.val = Fld.QE_HOST_OWNER.of v → s.does (.queueHostWrite src q v) (fun u =>
          P 0 u ∧ u.fld Fld.QE_HOST_OWNER q.val = Fld.QE_HOST_OWNER.of v ∧ u.fld Fld.QE_HOST_COAL q.val = Fld.QE_HOST_COAL.of v ∧
          u.fld Fld.QE_HOST_THRESH q.val = max 1 (Fld.QE_HOST_THRESH.of v) ∧ u.csrGet .QE_CFG q.val = s.csrGet .QE_CFG q.val ∧
          u.fld Fld.QE_PTR_TAIL q.val = tl ∧ u.fld Fld.QE_PTR_HEAD q.val = hd ∧
          u.flag Fld.QE_STAT_ARMED q.val = s.flag Fld.QE_STAT_ARMED q.val))) ∧
      (en = false → s.srcSys src = true → s.does (.queuePtrWrite src q v) (fun u => P 0 u ∧
        u.fld Fld.QE_PTR_TAIL q.val = th ∧ u.fld Fld.QE_PTR_HEAD q.val = hh)) ∧
      ((en = false ∧ s.srcSys src = false) ∨ (en = true ∧ port = false ∧ host = false) →
        s.does (.queuePtrWrite src q v) (N 0x2D)) ∧
      (en = true → port = true ∨ host = true →
        (src = .thread ⟨q.val / 32, by omega⟩ → w.getLsbD 1 = true → 32 * (q.val / 32) + bitsOf w 28 24 = q.val →
          s.does (.queuePtrWrite src q v) (N 1)) ∧
        (src ≠ .thread ⟨q.val / 32, by omega⟩ ∨ (w.getLsbD 0 = false ∧ w.getLsbD 1 = false) →
          (port ≠ s.flag Fld.QE_CFG_DIR q.val → sl - n < at_ → s.does (.queuePtrWrite src q v) (N 0x28)) ∧
          (port = s.flag Fld.QE_CFG_DIR q.val → n < ah → s.does (.queuePtrWrite src q v) (N 0x29)) ∧
          (port ≠ s.flag Fld.QE_CFG_DIR q.val → at_ + n ≤ sl → s.does (.queuePtrWrite src q v) (fun u => P 0 u ∧
            u.fld Fld.QE_PTR_TAIL q.val = th ∧ u.fld Fld.QE_PTR_HEAD q.val = hd ∧
            u.fld Fld.QE_STAT_ENTRIES q.val = (n + at_) % 65536 % 8192 ∧
            (s.flag Fld.QE_CFG_DIR q.val = true → u.flag Fld.QE_STAT_LEVEL q.val = decide (f ≤ sl - (n + at_) % 65536) ∧
              u.coal = s.coal) ∧
            (s.flag Fld.QE_CFG_DIR q.val = false → (n + at_) % 65536 ≠ 0 →
              u.flag Fld.QE_STAT_LEVEL q.val = u.flag Fld.QE_STAT_ARMED q.val ∧
              (s.flag Fld.QE_STAT_ARMED q.val = true → u.flag Fld.QE_STAT_ARMED q.val = true) ∧
              (s.flag Fld.QE_STAT_ARMED q.val = false →
                (f ≤ (n + at_) % 65536 → u.flag Fld.QE_STAT_ARMED q.val = true ∧ u.fld Fld.QE_STAT_LAST_CAUSE q.val = 1 ∧
                  FMap.get u.coal false q.val = false) ∧
                ((n + at_) % 65536 < f → n = 0 → s.fld Fld.QE_HOST_COAL q.val = 0 →
                  u.flag Fld.QE_STAT_ARMED q.val = true ∧ u.fld Fld.QE_STAT_LAST_CAUSE q.val = 2) ∧
                ((n + at_) % 65536 < f → n = 0 → s.fld Fld.QE_HOST_COAL q.val ≠ 0 →
                  u.flag Fld.QE_STAT_ARMED q.val = false ∧ FMap.get u.coal false q.val = true))))) ∧
          (port = s.flag Fld.QE_CFG_DIR q.val → ah ≤ n → s.does (.queuePtrWrite src q v) (fun u => P 0 u ∧
            u.fld Fld.QE_PTR_TAIL q.val = tl ∧ u.fld Fld.QE_PTR_HEAD q.val = hh ∧
            (ah = n → u.flag Fld.QE_STAT_ARMED q.val = false ∧ FMap.get u.coal false q.val = false) ∧
            (ah < n → u.flag Fld.QE_STAT_ARMED q.val = s.flag Fld.QE_STAT_ARMED q.val ∧ u.coal = s.coal) ∧
            (s.flag Fld.QE_CFG_DIR q.val = false → u.flag Fld.QE_STAT_LEVEL q.val =
              (u.flag Fld.QE_STAT_ARMED q.val && decide (ah < n)))))))) ∧
    (∀ F : Nat → Bool → Nat → Nat → State → Prop, F = (fun st hit qi tg u => u.fld Fld.QE_FM_RES_LAST_STATUS 0 = st ∧
        u.fld Fld.QE_FM_RES_LAST_SRC 0 = srcId src ∧ u.flag Fld.QE_FM_RES_HIT 0 = hit ∧ u.fld Fld.QE_FM_RES_QIDX 0 = qi ∧
        u.fld Fld.QE_FM_RES_TAG 0 = tg ∧ u.mem = s.mem ∧ u.cores = s.cores) →
      p = Fld.QE_FM_CMD_PORT.of v → key = Fld.QE_FM_CMD_KEY.of v →
      (src ≠ .cocoon → s.flag Fld.PT_CTL_SEC p = true ∨ s.srcSys src = false →
        s.does (.fmAdd src v) (fun u => F 7 false 0 0 u ∧ u.flow = s.flow) ∧ s.does (.fmDel src v) (fun u => F 7 false 0 0 u ∧ u.flow = s.flow) ∧
        s.does (.fmLookup src v) (F 7 false 0 0)) ∧
      (src = .cocoon ∨ (s.flag Fld.PT_CTL_SEC p = false ∧ s.srcSys src = true) →
        (s.flow.length < 8192 ∨ (s.flow.length ≤ 8192 ∧ (s.fmFind p key).isSome = true) → s.does (.fmAdd src v) (fun u => F 0 false 0 0 u ∧
          u.fmFind p key = some (Fld.QE_FM_CMD_QIDX.of v, Fld.QE_FM_CMD_TAG.of v) ∧ u.fld Fld.QE_FM_STAT_USED 0 = u.flow.length ∧
          (p * 2 ^ 32 + key ≠ j → FMap.get u.flow 0 j = FMap.get s.flow 0 j) ∧
          s.onlyRegs { u with flow := s.flow } [(.QE_FM_RES, 0), (.QE_FM_STAT, 0)])) ∧
        (8192 ≤ s.flow.length → s.fmFind p key = none → s.does (.fmAdd src v) (fun u => F 3 false 0 0 u ∧ u.flow = s.flow ∧
          u.fld Fld.QE_FM_STAT_FULL_CNT 0 = min (s.fld Fld.QE_FM_STAT_FULL_CNT 0 + 1) 65535)) ∧
        ((s.fmFind p key).isSome = true → s.flow.length ≤ 8192 → s.does (.fmDel src v) (fun u => F 0 false 0 0 u ∧ u.fmFind p key = none ∧
          u.fld Fld.QE_FM_STAT_USED 0 = u.flow.length ∧ u.flow.length < s.flow.length ∧
          (p * 2 ^ 32 + key ≠ j → FMap.get u.flow 0 j = FMap.get s.flow 0 j))) ∧
        (s.fmFind p key = none → s.does (.fmDel src v) (fun u => F 0x2A false 0 0 u ∧ u.flow = s.flow) ∧
          s.does (.fmLookup src v) (fun u => F 0 false 0 0 u ∧ u.flow = s.flow)) ∧
        (∀ e ∈ s.flow, e.1 = p * 2 ^ 32 + key → FMap.get s.flow 0 e.1 = e.2 → e.2 < 2 ^ 21 → s.does (.fmLookup src v) (fun u =>
          F 0 true (e.2 / 2 ^ 16) (e.2 % 2 ^ 16) u ∧ s.onlyRegs u [(.QE_FM_RES, 0)])))) ∧
    (∀ sec : Nat, sec = (if src = .cocoon then Fld.QE_DMA_CTL_SEC.of v else s.fld Fld.QE_DMA_CTL_SEC d.val) →
     ∀ D : Nat → State → Prop, D = (fun st u => u.fld Fld.QE_DMA_CTL_LAST_STATUS d.val = st ∧
        s.onlyRegs { u with ports := s.ports, free := s.free } [(.QE_DMA_CTL, d.val)]) →
     ∀ rx tx : Bool, rx = (s.rxTaken d.val && !v.getLsbD 0) → tx = (s.txTaken d.val && !v.getLsbD 1) →
     ∀ bad : Nat → Bool → Bool, bad = (fun i o => !s.flag Fld.QE_CFG_EN (32 * d.val + i) ||
        decide (s.flag Fld.QE_CFG_DIR (32 * d.val + i) ≠ o) || decide (s.fld Fld.QE_CFG_SEC (32 * d.val + i) ≠ sec)) →
     ∀ ill : Bool, ill = ((v.getLsbD 0 && bad (Fld.QE_DMA_CTL_FREEQ.of v) true) ||
        (v.getLsbD 0 && !v.getLsbD 4 && bad (Fld.QE_DMA_CTL_RXQ.of v) false) ||
        (v.getLsbD 1 && bad (Fld.QE_DMA_CTL_TXQ.of v) true)) →
     ∀ own : Bool, own = (decide (src = .thread d) || decide (src = .cocoon) ||
        (!s.flag Fld.QE_DMA_CTL_SEC d.val && s.srcSys src)) →
      (own = false → s.does (.dmaCtlWrite src d v) (fun u => D 7 u ∧ u.fld Fld.QE_DMA_CTL_STATE d.val = s.fld Fld.QE_DMA_CTL_STATE d.val)) ∧
      (own = true → ill = true → s.does (.dmaCtlWrite src d v) (fun u => D 0x2D u ∧
        u.fld Fld.QE_DMA_CTL_STATE d.val = s.fld Fld.QE_DMA_CTL_STATE d.val)) ∧
      (own = true → ill = false → s.does (.dmaCtlWrite src d v) (fun u => D 0 u ∧ u.fld Fld.QE_DMA_CTL_SEC d.val = sec ∧
        u.flag Fld.QE_DMA_CTL_RXEN d.val = v.getLsbD 0 ∧ u.flag Fld.QE_DMA_CTL_TXEN d.val = v.getLsbD 1 ∧
        u.fld Fld.QE_DMA_CTL_FREEQ d.val = Fld.QE_DMA_CTL_FREEQ.of v ∧ u.fld Fld.QE_DMA_CTL_KEYOFF d.val = Fld.QE_DMA_CTL_KEYOFF.of v ∧
        (rx = false → tx = false → (u.port d.val).dmaRx = false ∧ (u.port d.val).dmaTx = false ∧
          (v.getLsbD 0 = false → v.getLsbD 1 = false → u.fld Fld.QE_DMA_CTL_STATE d.val = 0)) ∧
        (s.fld Fld.QE_DMA_CTL_STATE d.val = 1 → rx = true ∨ tx = true →
          (u.port d.val).dmaRx = (rx && ((s.port d.val).dmaRx || (Config.freeValue s.free).getLsbD 0)) ∧
          (u.port d.val).dmaTx = (tx && ((s.port d.val).dmaTx || (Config.freeValue s.free).getLsbD 1)) ∧
          (v.getLsbD 0 = false → v.getLsbD 1 = false → u.fld Fld.QE_DMA_CTL_STATE d.val =
            bit ((u.port d.val).dmaRx || (u.port d.val).dmaTx))) ∧
        (v.getLsbD 0 = true ∨ v.getLsbD 1 = true → u.fld Fld.QE_DMA_CTL_STATE d.val =
          (if s.fld Fld.QE_DMA_CTL_STATE d.val = 2 then 2 else 1)))))) ∧
  (FMap.get s.coal false q.val = true → s.does (.coalesceTimerExpiry q) (fun u => u.flag Fld.QE_STAT_ARMED q.val = true ∧
    u.fld Fld.QE_STAT_LAST_CAUSE q.val = 2 ∧ FMap.get u.coal false q.val = false ∧
    (s.flag Fld.QE_CFG_DIR q.val = false → u.flag Fld.QE_STAT_LEVEL q.val = (en && decide (1 ≤ n))) ∧
    u = { s with csr := u.csr, coal := u.coal } ∧ s.regsKept u [(.QE_STAT, q.val)]))

/-- R451, R455, R489, R496 to R499: frames through a channel's descriptors and through the service port's rings. -/
def Obligations.DescriptorFrames : Prop :=
  ∀ (s : State) (d : DmaId) (cs : List LineChar) (all bs fs : List Byte) (bad cut tr : Bool) (corr unc : BitVec 8) (ex : List (Reg × Nat)) (fq p da ad len us n ko a h : Nat) (hit : Option (Nat × Nat))
    (tq tag : Nat) (miss : Bool) (ca tb st : Nat),
  p = d.val → s.memOk → ex = (.PT_STAT, p) :: (if p < 224 then [] else [(.PT_FEC, p - 224)]) →
  all = cs.map (fun c => (s.rxEntry p c).truncate 8) →
  bs = (if s.isRs485 p = true then all else all.take (if p < 224 then 2048 else 9216)) → tr = (cut || decide (bs.length < all.length)) →
  (∀ P : Nat → Nat → State → Prop, P = (fun cause at_ u => u.fld Fld.QE_DMA_CTL_STATE p = 2 ∧ u.fld Fld.QE_DMA_ERR_CAUSE p = cause ∧
    u.fld Fld.QE_DMA_ERR_ADDR p = at_ ∧ u.csrGet .QE_PTR fq = s.csrGet .QE_PTR fq) →
    s.portHears p = true → s.flag Fld.QE_DMA_CTL_RXEN p = true → (s.port p).dmaRx = false → s.fld Fld.QE_DMA_CTL_STATE p = 1 →
    s.isRaw p = false →
    fq = 32 * p + s.fld Fld.QE_DMA_CTL_FREEQ p → ko = s.fld Fld.QE_DMA_CTL_KEYOFF p →
    da = s.fld Fld.QE_CFG_BASE fq * 32 + 32 * (s.fld Fld.QE_PTR_HEAD fq % 2 ^ (4 + s.fld Fld.QE_CFG_SIZE fq)) →
    ad = s.peekLE da 6 → len = s.peekLE (da + 6) 2 → us = s.peekLE (da + 24) 8 → n = min bs.length len →
    hit = (if s.flag Fld.QE_DMA_CTL_CLASSIFY p = true ∧ ko + 4 ≤ bs.length then s.fmFind p (bytesNat ((bs.drop ko).take 4)) else none) →
    tq = (if s.flag Fld.QE_DMA_CTL_CLASSIFY p = true then
        32 * p + (match hit with
          | some x => if s.qEn (32 * p + x.1) = true then x.1 else 0
          | none => 0)
      else 32 * p + s.fld Fld.QE_DMA_CTL_RXQ p) →
    tag = (hit.map (·.2)).getD 0 →
    miss = (s.flag Fld.QE_DMA_CTL_CLASSIFY p && !hit.any (fun x => s.qEn (32 * p + x.1))) →
    ca = s.fld Fld.QE_CFG_BASE tq * 32 + 32 * (s.fld Fld.QE_PTR_TAIL tq % 2 ^ (4 + s.fld Fld.QE_CFG_SIZE tq)) →
    (s.qEntries fq = 0 → s.does (.dmaRxFrame d cs ⟨bad, corr, unc⟩ cut) (fun u =>
      u.fld Fld.QE_DMA_STAT_NOBUF p = min (s.fld Fld.QE_DMA_STAT_NOBUF p + 1) 65535 ∧ (u.port p).rxTs = s.ts48 ∧
      s.onlyRegs { u with ports := s.ports } ((.QE_DMA_STAT, p) :: ex))) ∧
    (s.qEntries fq ≠ 0 → isGranary da = true → s.islOpen 22 = true → s.granOpen (granBank da) (.dma d) false = false →
      s.fwPermits true (granBank da) da { src := some (srcId (.dma d)), sec := s.accSecure (.dma d) da } false = true →
      s.does (.dmaRxFrame d cs ⟨bad, corr, unc⟩ cut) (P 1 da)) ∧
    (s.qEntries fq ≠ 0 → (∀ k < 32, s.openByte (.dma d) false (da + k)) →
      (len = 0 → s.does (.dmaRxFrame d cs ⟨bad, corr, unc⟩ cut) (P 4 da)) ∧
      (len ≠ 0 → isGranary ad = true → isGranary (ad + len - 1) = true → (∀ k < n, s.openByte (.dma d) true (ad + k)) →
        (s.qEn tq = false → s.does (.dmaRxFrame d cs ⟨bad, corr, unc⟩ cut) (P 5 ca)) ∧
        (s.qEn tq = true → s.qFree tq = 0 → s.does (.dmaRxFrame d cs ⟨bad, corr, unc⟩ cut) (fun u =>
          u.fld Fld.QE_DMA_STAT_QFULL p = min (s.fld Fld.QE_DMA_STAT_QFULL p + 1) 65535 ∧
          u.fld Fld.QE_STAT_DROP tq = min (s.fld Fld.QE_STAT_DROP tq + 1) 65535 ∧
          u.csrGet .QE_PTR fq = s.csrGet .QE_PTR fq ∧ u.csrGet .QE_PTR tq = s.csrGet .QE_PTR tq ∧
          (a < ad ∨ ad + n ≤ a → u.peekByte a = s.peekByte a))) ∧
        (s.qEn tq = true → s.qFree tq ≠ 0 → (∀ k < 32, s.openByte (.dma d) true (ca + k)) → isGranary ca = true → tq ≠ fq →
          s.does (.dmaRxFrame d cs ⟨bad, corr, unc⟩ cut) (fun u =>
            u.peekLE ca 6 = ad ∧ u.peekLE (ca + 6) 2 = n ∧ u.peekLE (ca + 8) 6 = s.ts48 ∧ u.peekLE (ca + 14) 2 = 0 ∧
            u.peekLE (ca + 16) 8 = tag % 65536 + (if s.fcsBad p all.length bad cut = true then 2 ^ 27 else 0) +
              (if tr = true ∨ len < bs.length then 2 ^ 28 else 0) + (if miss = true then 2 ^ 29 else 0) ∧
            u.peekLE (ca + 24) 8 = us ∧
            u.peekByte a = (if ca ≤ a ∧ a < ca + 32 then u.peekByte a
              else if ad ≤ a ∧ a < ad + n then bs.getD (a - ad) 0 else s.peekByte a) ∧
            u.fld Fld.QE_PTR_TAIL tq = (s.fld Fld.QE_PTR_TAIL tq + 1) % 65536 ∧ u.fld Fld.QE_PTR_HEAD tq = s.fld Fld.QE_PTR_HEAD tq ∧
            u.fld Fld.QE_PTR_HEAD fq = (s.fld Fld.QE_PTR_HEAD fq + 1) % 65536 ∧ u.fld Fld.QE_PTR_TAIL fq = s.fld Fld.QE_PTR_TAIL fq ∧
            u.fld Fld.QE_DMA_STAT_RXFR p = (s.fld Fld.QE_DMA_STAT_RXFR p + 1) % 65536 ∧ u.threads = s.threads ∧
            (isGranary da = true → u.cores = s.cores ∧ s.regsKept u ([(.QE_PTR, tq), (.QE_PTR, fq), (.QE_STAT, tq), (.QE_STAT, fq),
              (.QE_DMA_STAT, p), (.QE_MISS, p)] ++ ex))))))) ∧
  (s.portHears p = true → s.rxTaken p = true → s.fld Fld.QE_DMA_CTL_STATE p = 1 →
    (s.isRaw p = true → s.does (.dmaRxFrame d cs ⟨bad, corr, unc⟩ cut) (fun u => u = s)) ∧
    (s.isRaw p = false → s.isRs485 p = true → (inverted (s.port p).inverted (cs.map (s.onlyInverted p))).2 = true →
      s.does (.dmaRxFrame d cs ⟨bad, corr, unc⟩ cut) (fun u => u.flag Fld.PT_STAT_REVERSED p = true)) ∧
    (s.isRaw p = false → s.flag Fld.QE_DMA_CTL_RXEN p = false → s.qEntries (32 * p + s.fld Fld.QE_DMA_CTL_FREEQ p) = 0 →
      s.does (.dmaRxFrame d cs ⟨bad, corr, unc⟩ cut) (fun u => (u.port p).dmaRx = false ∧
        u.fld Fld.QE_DMA_CTL_STATE p = bit (s.txTaken p)))) ∧
  (∀ P : Nat → Nat → State → Prop, P = (fun cause at_ u => u.fld Fld.QE_DMA_CTL_STATE p = 2 ∧ u.fld Fld.QE_DMA_ERR_CAUSE p = cause ∧
    u.fld Fld.QE_DMA_ERR_ADDR p = at_ ∧ u.csrGet .QE_PTR fq = s.csrGet .QE_PTR fq) →
    s.flag Fld.QE_DMA_CTL_TXEN p = true → s.fld Fld.QE_DMA_CTL_STATE p = 1 → (s.port p).testing = false → (s.port p).frame = none →
    fq = 32 * p + s.fld Fld.QE_DMA_CTL_TXQ p → s.qEntries fq ≠ 0 →
    da = s.fld Fld.QE_CFG_BASE fq * 32 + 32 * (s.fld Fld.QE_PTR_HEAD fq % 2 ^ (4 + s.fld Fld.QE_CFG_SIZE fq)) →
    ad = s.peekLE da 6 → len = s.peekLE (da + 6) 2 → h = s.peekLE (da + 16) 8 →
    tb = (if h.testBit 53 = true ∧ 224 ≤ p ∧ s.flag Fld.PT_CBS_EN (32 * ((p - 224) / 8) + h / 2 ^ 48 % 32) = true then 6 else 0) →
    st = (if s.portClosed p = false ∨ s.fld Fld.PT_STAT_LINK p ≠ 2 then 0x2C
      else if cut = true ∨ (s.isRs485 p = false ∧ (if p < 224 then 2048 else 9216) < len + tb + 4) then 0x2E else 0) → (∀ k < 32, s.openByte (.dma d) false (da + k)) →
    (len = 0 → s.does (.dmaTxFrame d cut) (P 4 da)) ∧
    (len ≠ 0 → isGranary ad = true → isGranary (ad + len - 1) = true → (∀ k < len, s.openByte (.dma d) false (ad + k)) →
      ((s.gateOf p).testBit (h / 2 ^ 21 % 8) = false ∨ s.gateFits p (len + tb) = false → s.does (.dmaTxFrame d cut) (fun u => u = s)) ∧
      ((s.gateOf p).testBit (h / 2 ^ 21 % 8) = true → s.gateFits p (len + tb) = true → (∀ k < 8, s.openByte (.dma d) true (da + 8 + k)) →
        s.does (.dmaTxFrame d cut) (fun u =>
          u.peekLE (da + 14) 2 = st ∧ (st = 0x2E → u.flag Fld.PT_STAT_TX_ABORT p = true) ∧
          (u.port p).txTs = (if st = 0 ∧ h.testBit 24 = true then some s.ts48 else (s.port p).txTs) ∧
          u.peekLE (da + 8) 6 = (if h.testBit 24 = true then s.ts48 else s.peekLE (da + 8) 6) ∧
          (a < da + 8 ∨ da + 16 ≤ a → u.peekByte a = s.peekByte a) ∧
          u.fld Fld.QE_PTR_HEAD fq = (s.fld Fld.QE_PTR_HEAD fq + 1) % 65536 ∧ u.fld Fld.QE_PTR_TAIL fq = s.fld Fld.QE_PTR_TAIL fq ∧
          u.fld Fld.QE_DMA_STAT_TXFR p = (s.fld Fld.QE_DMA_STAT_TXFR p + 1) % 65536 ∧ u.cores = s.cores ∧
          (s.portClosed p = true → s.fld Fld.PT_STAT_LINK p = 2 → h.testBit 53 = true → 224 ≤ p →
            s.flag Fld.PT_CBS_EN (32 * ((p - 224) / 8) + h / 2 ^ 48 % 32) = true →
            u.fld Fld.PT_CBS_GEN_SEQ (32 * ((p - 224) / 8) + h / 2 ^ 48 % 32) =
              (s.fld Fld.PT_CBS_GEN_SEQ (32 * ((p - 224) / 8) + h / 2 ^ 48 % 32) + 1) % 65536))))) ∧
  (s.svcRuns = true →
    (s.flag Fld.PT_SVC_CTL_RXEN 0 = true → h = s.fld Fld.PT_SVC_IDX_RXH 0 →
      (s.fld Fld.PT_SVC_IDX_RXT 0 = h → s.does (.svcRxFrame fs bad) (fun u => u = s)) ∧
      (s.fld Fld.PT_SVC_IDX_RXT 0 ≠ h →
        da = s.fld Fld.PT_SVC_RXB_BASE 0 * 4096 + 32 * (h % 2 ^ (4 + s.fld Fld.PT_SVC_RXB_SIZE 0)) → isHbm (da + 31) = true →
        ad = s.peekLE da 6 → len = s.peekLE (da + 6) 2 → us = s.peekLE (da + 24) 8 → n = min fs.length len →
        s.openByte .svc false da → s.openByte .svc true da →
        (∀ k < n, s.openByte .svc true (ad + k)) → s.does (.svcRxFrame fs bad) (fun u =>
          u.peekLE da 6 = ad ∧ u.peekLE (da + 6) 2 = n ∧ u.peekLE (da + 8) 6 = s.ts48 ∧ u.peekLE (da + 14) 2 = 0 ∧
          u.peekLE (da + 16) 8 = (if bad = true then 2 ^ 27 else 0) + (if len < fs.length then 2 ^ 28 else 0) ∧
          u.peekLE (da + 24) 8 = us ∧
          (u.peekByte a = (if da ≤ a ∧ a < da + 32 then u.peekByte a
            else if ad ≤ a ∧ a < ad + n then fs.getD (a - ad) 0 else s.peekByte a)) ∧
          u.fld Fld.PT_SVC_IDX_RXH 0 = (h + 1) % 65536 ∧ u.fld Fld.PT_SVC_IDX_RXT 0 = s.fld Fld.PT_SVC_IDX_RXT 0)))) ∧
  (s.svcRuns = true →
    (s.flag Fld.PT_SVC_CTL_TXEN 0 = true → h = s.fld Fld.PT_SVC_IDX_TXH 0 →
      (s.fld Fld.PT_SVC_IDX_TXT 0 = h → s.does .svcTxFrame (fun u => u = s)) ∧
      (s.fld Fld.PT_SVC_IDX_TXT 0 ≠ h →
        da = s.fld Fld.PT_SVC_TXB_BASE 0 * 4096 + 32 * (h % 2 ^ (4 + s.fld Fld.PT_SVC_TXB_SIZE 0)) → isHbm (da + 31) = true →
        ad = s.peekLE da 6 → len = s.peekLE (da + 6) 2 → us = s.peekLE (da + 16) 8 →
        s.openByte .svc false da → s.openByte .svc true da →
        (∀ k < len, s.openByte .svc false (ad + k)) → s.does .svcTxFrame (fun u =>
          u.peekLE (da + 14) 2 = 0 ∧ u.peekLE (da + 8) 6 = (if us.testBit 24 = true then s.ts48 else s.peekLE (da + 8) 6) ∧
          (a < da + 8 ∨ da + 16 ≤ a → u.peekByte a = s.peekByte a) ∧
          u.fld Fld.PT_SVC_IDX_TXH 0 = (h + 1) % 65536 ∧ u.fld Fld.PT_SVC_IDX_TXT 0 = s.fld Fld.PT_SVC_IDX_TXT 0))))

/-- R467, R469 to R472, R474 to R478, R480, R481, R484, R490, R491: a Spinner thread's control, its waits, and the `port`
operations of its own port; on a core these encodings are illegal. -/
def Obligations.SpinnerThreads : Prop :=
  ∀ (s u b g : State) (src : Src) (t : ThreadId) (c : CoreId) (v w : Word) (rd ra : Reg5) (csn : BitVec 12) (i : BitVec 6) (j : BitVec 5)
    (p q n sl d : Nat) (k : Thread) (x : Port) (e : BitVec 22) (r : List (BitVec 22)) (f : TxFrame) (m : BitVec 7)
    (fl : BitVec 4) (hit : Nat × Nat) (may lvl : Bool),
  p = t.val → q = 32 * p + j.toNat → g = s.threadRest p → b = u.threadRest p →
  may = ((match src with
      | .thread y => decide (y.val / 8 = p / 8)
      | _ => decide (src = .cocoon)) || (!s.engineSecure (p / 8) && s.srcSys src)) →
  (s.islOpen Reg.SP_THR.island = true → s.srcLive src = true → k = s.thread p →
    (∀ P : Nat → State → Prop, P = (fun st y => y.fld Fld.SP_THR_LAST_STATUS p = st ∧ y.fld Fld.SP_THR_LAST_SRC p = srcId src ∧ y.mem = s.mem ∧
        y.cores = s.cores ∧ ∀ z, z ≠ p → y.thread z = s.thread z) →
      (may = false → s.does (.start src t v) (fun y => P 7 y ∧ y.threads = s.threads) ∧
        s.does (.stop src t v) (fun y => P 7 y ∧ y.threads = s.threads)) ∧
      (may = true →
        (k.run = .run ∨ k.run = .wait ∨ k.run = .halted → s.does (.start src t v) (fun y => P 1 y ∧ y.threads = s.threads)) ∧
        (k.run = .stopped ∨ k.run = .fault → s.does (.start src t v) (fun y => P 0 y ∧ y.fld Fld.SP_THR_STATE p = 1 ∧
          (y.thread p).run = .run ∧ (y.thread p).pc.toNat = 2 * s.fld Fld.SP_START_PC p ∧ (y.thread p).fl = 0 ∧
          (y.thread p).depth = 0 ∧ y.regVal (.thread t) 1 = BitVec.ofNat 64 p ∧ y.regVal (.thread t) 2 = s.csrGet .SP_ARG p ∧
          (∀ z : Reg5, z ≠ 1 → z ≠ 2 → y.regVal (.thread t) z = 0) ∧
          (y.thread p).timer = false ∧ (y.thread p).portEvt = false ∧ (y.thread p).txDone = false ∧ (y.thread p).soft = false ∧
          (y.thread p).rxThr = 1 ∧ (y.thread p).txThr = 1 ∧ (y.thread p).wqMask = 0 ∧
          y.csrGet .SP_FAULT p = s.csrGet .SP_FAULT p)) ∧
        s.does (.stop src t v) (fun y => y.fld Fld.SP_THR_LAST_STATUS p = 0 ∧ y.fld Fld.SP_THR_LAST_SRC p = srcId src ∧
          y.fld Fld.SP_THR_STATE p = 0 ∧ (y.thread p).run = .stopped ∧ (y.thread p).rest = [] ∧ y.mem = g.mem ∧ y.cores = g.cores ∧
          (∀ z, z ≠ p → y.thread z = s.thread z) ∧ y.csrGet .SP_FAULT p = s.csrGet .SP_FAULT p)))) ∧
  (x = s.port p → k = s.thread p → ((s.conditions p).getLsbD 0 = (decide (k.rxThr ≤ x.rx.length) || x.rx.any (fun z => z.getLsbD 17))) ∧
    ((s.conditions p).getLsbD 1 = decide (k.txThr ≤ 512 - x.tx.length)) ∧ ((s.conditions p).getLsbD 2 = k.timer) ∧
    ((s.conditions p).getLsbD 3 = (List.range 32).any (fun z => k.wqMask.getLsbD z && s.flag Fld.QE_CFG_EN (32 * p + z) &&
      (if s.flag Fld.QE_CFG_DIR (32 * p + z) = true then s.qEntries (32 * p + z) != 0 else s.qFree (32 * p + z) != 0))) ∧
    ((s.conditions p).getLsbD 4 = (k.portEvt || bitsOf (s.csrGet .PT_STAT p) 23 16 != 0)) ∧
    ((s.conditions p).getLsbD 5 = k.txDone) ∧ ((s.conditions p).getLsbD 6 = k.soft)) ∧
  (s.islOpen 21 = true → k = s.thread p → k.run = .wait → k.stepping = false →
    (∀ W : Word → State → Prop, W = (fun z y => (y.thread p).run = .run ∧ (y.thread p).pc = k.waitNext ∧
        y.fld Fld.SP_THR_STATE p = 1 ∧ s.regsTake y (.thread t) [(k.waitRd, z)] ∧ y.mem = s.mem ∧ y.cores = s.cores ∧
        s.regsKept y [(.SP_THR, p)]) →
      (s.conditions p &&& k.waitMask ≠ 0 → s.does (.waitEvent t) (fun y => W ((s.conditions p &&& k.waitMask).zeroExtend 64) y ∧
        (y.thread p).timer = (k.timer && !k.waitMask.getLsbD 2) ∧ (y.thread p).txDone = (k.txDone && !k.waitMask.getLsbD 5) ∧
        (y.thread p).soft = (k.soft && !k.waitMask.getLsbD 6))) ∧
      (k.waitTmo = true → s.does (.waitTimeout t) (fun y => W 0x8000 y ∧ (y.thread p).slots = k.slots + k.waitSlots ∧ (y.thread p).timer = k.timer ∧
        (y.thread p).txDone = k.txDone ∧ (y.thread p).soft = k.soft ∧ (y.thread p).portEvt = k.portEvt)))) ∧
  (s.islOpen 21 = true → k = s.thread p → k.run = .wait → s.conditions p &&& k.waitMask = 0 → s.does (.waitEvent t) (fun y => y = s)) ∧
  (s.zisReady (.thread t) 4 [rd, ra] u → k = u.thread p → x = u.port p → w = u.regVal (.thread t) ra → fl = u.flVal (.thread t) →
    (∀ G : State → List (Reg5 × Word) → State → Prop, G = (fun z l y => z.zisGives (.thread t) 4 l fl y) →
      m = b.conditions p &&& csn.truncate 7 →
      (csn.toNat < 128 → m ≠ 0 → s.does (.wait (.thread t) rd ra csn)
        (G (b.modThread p (fun a => { a with timer := k.timer && !csn.getLsbD 2, portEvt := k.portEvt && !csn.getLsbD 4, txDone := k.txDone && !csn.getLsbD 5, soft := k.soft && !csn.getLsbD 6 }))
          [(rd, m.zeroExtend 64)])) ∧
      (csn.toNat < 128 → m = 0 → s.does (.wait (.thread t) rd ra csn) (fun y => (y.thread p).run = .wait ∧
        (y.thread p).waitMask = csn.truncate 7 ∧ (y.thread p).waitRd = rd ∧ (y.thread p).waitTmo = decide (w ≠ 0) ∧
        (y.thread p).waitNext = k.pc + 4 ∧ y.fld Fld.SP_THR_STATE p = 2 ∧ (y.thread p).rf = k.rf ∧ (y.thread p).rest = [] ∧ y.mem = b.mem)) ∧
      (128 ≤ csn.toNat → s.does (.wait (.thread t) rd ra csn) (u.faulted t 1 0 0)) ∧
      (ra ≠ 0 → s.does (.rxb (.thread t) rd ra) (u.faulted t 1 0 0) ∧ s.does (.rxts (.thread t) rd ra) (u.faulted t 1 0 0) ∧
        s.does (.rxcnt (.thread t) rd ra) (u.faulted t 1 0 0) ∧ s.does (.txts (.thread t) rd ra) (u.faulted t 1 0 0) ∧
        s.does (.rawrx (.thread t) rd ra) (u.faulted t 1 0 0) ∧ s.does (.prd (.thread t) i rd ra) (u.faulted t 1 0 0) ∧
        s.does (.qptr (.thread t) j rd ra) (u.faulted t 1 0 0) ∧ s.does (.signal (.thread t) rd ra) (u.faulted t 1 0 0)) ∧
      (rd ≠ 0 → s.does (.signal (.thread t) rd ra) (u.faulted t 1 0 0) ∧ s.does (.poke (.thread t) rd ra) (u.faulted t 1 0 0) ∧
        s.does (.setthr (.thread t) rd ra) (u.faulted t 1 0 0) ∧ s.does (.wqmask (.thread t) rd ra) (u.faulted t 1 0 0)) ∧
      (u.rxTaken p = true ∨ x.rx = [] → s.does (.rxb (.thread t) rd 0) (G u [(rd, 0)])) ∧
      (u.rxTaken p = false → x.rx = e :: r → s.does (.rxb (.thread t) rd 0)
        (G (u.modPort p (fun a => { a with rx := r ++ x.rxLate.take 1, rxLate := x.rxLate.drop 1 })) [(rd, e.zeroExtend 64 ||| 0x10000)])) ∧
      s.does (.rxts (.thread t) rd 0) (G u [(rd, BitVec.ofNat 64 x.rxTs)]) ∧
      s.does (.rxcnt (.thread t) rd 0) (G u [(rd, BitVec.ofNat 64 x.rx.length)]) ∧
      (p < 224 → w.getLsbD 5 = true → s.does (.txstart (.thread t) rd ra) (G u [(rd, 7)])) ∧
      (224 ≤ p ∨ w.getLsbD 5 = false →
        (u.portRuns p = false → s.does (.txstart (.thread t) rd ra) (G u [(rd, 0x2C)])) ∧
        (u.portRuns p = true → u.txTaken p = true ∨ x.frame.isSome = true →
          s.does (.txstart (.thread t) rd ra) (G u [(rd, 1)])) ∧
        (u.portClosed p = true → u.txTaken p = false → x.frame = none → w.getLsbD 5 = false →
          u.gateTime p = 0 ∨ (u.gateOf p).testBit (if p < 224 then 0 else bitsOf w 4 2) = false →
          f = { tsreq := w.getLsbD 0, drive := u.isRs485 p && w.getLsbD 1, tc := (if p < 224 then 0 else bitsOf w 4 2), start := (if x.testing = false ∧ (u.gateOf p).testBit (if p < 224 then 0 else bitsOf w 4 2) = true then some u.ts48 else none) } →
          s.does (.txstart (.thread t) rd ra) (G (u.modPort p (fun a => { a with frame := some f })) [(rd, 0)]))) ∧
      (u.txTaken p = true → s.does (.txb (.thread t) rd ra) (G u [(rd, 1)]) ∧
        (u.portRuns p = true → s.does (.rawtx (.thread t) rd ra) (G u [(rd, 1)]))) ∧
      (u.txTaken p = false →
        (x.discard = true → s.does (.txb (.thread t) rd ra) (G (u.modPort p (fun a => { a with discard := !w.getLsbD 16 })) [(rd, 0)])) ∧
        (x.discard = false → 512 ≤ x.tx.length → s.does (.txb (.thread t) rd ra) (G u [(rd, 0x2B)])) ∧
        (x.discard = false → x.tx.length < 512 → w.getLsbD 16 = false ∨ x.frame.all (fun z => z.start.isSome) = true → s.does (.txb (.thread t) rd ra)
          (G ((u.modCopies p (if (txHeld x.tx).2 = true then none else x.frame.bind (·.tag))
            (fun z => some { z with len := z.len + 1, whole := w.getLsbD 16 })).modPort p (fun a => { a with tx := a.tx ++ [w.truncate 17] }))
            [(rd, 0)])) ∧
        (u.portRuns p = true → s.does (.rawtx (.thread t) rd ra)
          (G (u.modPort p (fun a => { a with rawTx := w.getLsbD 0 })) [(rd, 0)]))) ∧
      (u.portRuns p = false → s.does (.rawtx (.thread t) rd ra) (G u [(rd, 0x2C)])) ∧
      s.does (.txts (.thread t) rd 0) (G u [(rd, BitVec.ofNat 64 ((x.txTs.map (fun z => 2 ^ 63 + z)).getD 0))]) ∧
      (u.rxTaken p = true ∨ x.rawRx = none → s.does (.rawrx (.thread t) rd 0) (G u [(rd, 0)])) ∧
      (u.rxTaken p = false → x.rawRx = some lvl → s.does (.rawrx (.thread t) rd 0)
        (G (u.modPort p (fun a => { a with rawRx := none })) [(rd, BitVec.ofNat 64 (2 + bit lvl))])) ∧
      (∀ y ∈ Reg.decode (0xFE07001000 + p / 8 * 0x10000 + p % 8 * 0x200 + 8 * i.toNat), y.1.isPortSet = true →
        (y.1 ≠ .PT_CTL → s.does (.prd (.thread t) i rd 0) (G u [(rd, u.csrGet y.1 y.2)])) ∧
        (y.1 = .PT_SER ∨ y.1 = .PT_CTL ∨ y.1 = .PT_STAT → s.does (.pwr (.thread t) i rd ra)
          (G ((u.gateSees y.1 y.2).ptWrite y.1 y.2 (.thread t) w) [(rd, 0)]))) ∧
      (n = b.qEntries q → sl = 2 ^ (4 + b.fld Fld.QE_CFG_SIZE q) → d = (if w.toNat % 8192 = 0 then 1 else w.toNat % 8192) →
        (b.qEn q = false → s.does (.qadv (.thread t) j rd ra) (G (b.qStatus q (.thread t) 0x2D) [(rd, BitVec.ofNat 64 (0x2D + n * 65536))])) ∧
        (b.qEn q = true → b.qDma q = true → s.does (.qadv (.thread t) j rd ra)
          (G (b.qStatus q (.thread t) 1) [(rd, BitVec.ofNat 64 (1 + n * 65536))])) ∧
        (b.qEn q = true → b.qDma q = false → b.flag Fld.QE_CFG_DIR q = false →
          (sl < d + n → s.does (.qadv (.thread t) j rd ra) (G (b.qStatus q (.thread t) 0x28) [(rd, BitVec.ofNat 64 (0x28 + n * 65536))])) ∧
          (d + n ≤ sl → s.does (.qadv (.thread t) j rd ra) (G ((b.qTailTo q ((b.qTail q + d) % 65536)).qStatus q (.thread t) 0)
            [(rd, BitVec.ofNat 64 ((n + d) % 65536 * 65536))]))) ∧
        (b.qEn q = true → b.qDma q = false → b.flag Fld.QE_CFG_DIR q = true →
          (n < d → s.does (.qadv (.thread t) j rd ra) (G (b.qStatus q (.thread t) 0x29) [(rd, BitVec.ofNat 64 (0x29 + n * 65536))])) ∧
          (d ≤ n → s.does (.qadv (.thread t) j rd ra) (G ((b.qHeadTo q ((b.qHead q + d) % 65536)).qStatus q (.thread t) 0)
            [(rd, BitVec.ofNat 64 ((n - d) * 65536))])))) ∧
      s.does (.qptr (.thread t) j rd 0) (G b [(rd, b.csrGet .QE_PTR q &&& 0xFFFFFFFF00000000)]) ∧
      (b.fmFind p (w.toNat % 2 ^ 32) = some hit → s.does (.fmatch (.thread t) rd ra)
        (G (b.fmRes (.thread t) 0 (some hit)) [(rd, BitVec.ofNat 64 (2 ^ 63 + hit.1 * 65536 + hit.2))])) ∧
      (b.fmFind p (w.toNat % 2 ^ 32) = none → s.does (.fmatch (.thread t) rd ra) (fun y =>
        G ((b.setFld Fld.QE_MISS_MISS p (min (b.fld Fld.QE_MISS_MISS p + 1) (2 ^ 32 - 1))).fmRes (.thread t) 0 none) [(rd, 0)] y)) ∧
      s.does (.fmadd (.thread t) rd ra) (G ((b.fmAdd p (w.toNat / 2 ^ 32) (bitsOf w 7 3) (bitsOf w 31 16) (.thread t)).2.fmRes (.thread t)
          (b.fmAdd p (w.toNat / 2 ^ 32) (bitsOf w 7 3) (bitsOf w 31 16) (.thread t)).1 none) [(rd, BitVec.ofNat 64 (b.fmAdd p (w.toNat / 2 ^ 32) (bitsOf w 7 3) (bitsOf w 31 16) (.thread t)).1)]) ∧
      s.does (.fmdel (.thread t) rd ra) (G ((b.fmDel p (w.toNat / 2 ^ 32)).2.fmRes (.thread t)
        (if (b.fmFind p (w.toNat / 2 ^ 32)).isSome = true then 0 else 0x2A) none) [(rd, if (b.fmFind p (w.toNat / 2 ^ 32)).isSome = true then 0 else 0x2A)]) ∧
      s.does (.signal (.thread t) 0 0) (G (u.icEvent (9280 + p)) []) ∧
      s.does (.poke (.thread t) 0 ra) (G (u.modThread (p / 8 * 8 + w.toNat % 8) (fun a => { a with soft := true })) []) ∧
      s.does (.setthr (.thread t) 0 ra) (G (u.modThread p (fun a => { a with rxThr := max 1 (bitsOf w 15 0), txThr := max 1 (bitsOf w 31 16) })) []) ∧
      s.does (.wqmask (.thread t) 0 ra) (G (u.modThread p (fun a => { a with wqMask := w.truncate 32 })) []) ∧
      (p < 224 → s.does (.frer (.thread t) rd ra) (u.faulted t 1 0 0)) ∧
      (224 ≤ p → s.does (.frer (.thread t) rd ra)
        (G (u.frerPresent (32 * ((p - 224) / 8) + bitsOf w 20 16) (bitsOf w 15 0)).2
          [(rd, if (u.frerPresent (32 * ((p - 224) / 8) + bitsOf w 20 16) (bitsOf w 15 0)).1 = true then 0 else 1)])))) ∧
  ((s.core c.val).arch.mode = 2 → (s.core c.val).arch.tw true = 0 → s.zisRaises c 4 (pure ()) true u →
    (∀ E : State → Prop, E = u.entered c true { vec := 0x01 } (s.core c.val).arch.pc →
      s.does (.wait (.core c) rd ra csn) E ∧ s.does (.rxb (.core c) rd ra) E ∧ s.does (.txstart (.core c) rd ra) E ∧
      s.does (.txb (.core c) rd ra) E ∧ s.does (.qadv (.core c) j rd ra) E ∧ s.does (.signal (.core c) rd ra) E ∧
      s.does (.frer (.core c) rd ra) E))

/-- R127 to R129, R524, R525, R530, R533, R538: the Cocoon's mailboxes as their callers see them, the region firewalls'
registers and sweeps, and the override notice. -/
def Obligations.CocoonMailboxesAndFirewalls : Prop :=
  ∀ (s : State) (src : Src) (m : MbxId) (i : Fin 8) (v : Word) (addr : PA) (f : FwId) (x b : Nat) (r : Reg) (limit own sec : Bool),
  own = s.ownedBy .CK_OWN m.val src → sec = s.srcSecure src →
  (s.srcLive src = true → s.islOpen 23 = true →
    (Fld.CK_OWN_FORCE.of v = 0 → s.does (.cocoonSlotOwnWrite src m v) (fun t => s.onlyRegs t [(.CK_OWN, m.val)] ∧
      t.fld Fld.CK_OWN_LAST_SRC m.val = srcId src ∧
      (m.val ≠ 15 ∨ src = .reeve → s.fld Fld.CK_OWN_CLAIM m.val = 0 → Fld.CK_OWN_CLAIM.of v = 1 →
        t.fld Fld.CK_OWN_CLAIM m.val = 1 ∧ t.fld Fld.CK_OWN_OWN_SRC m.val = srcId src ∧ t.fld Fld.CK_OWN_LAST_STATUS m.val = 0) ∧
      (m.val = 15 → src ≠ .reeve → Fld.CK_OWN_CLAIM.of v = 1 →
        t.fld Fld.CK_OWN_CLAIM m.val = s.fld Fld.CK_OWN_CLAIM m.val ∧ t.fld Fld.CK_OWN_LAST_STATUS m.val = 7) ∧
      (Fld.CK_OWN_CLAIM.of v = 0 → s.ckState m.val = 1 ∨ s.ckState m.val = 2 →
        t.fld Fld.CK_OWN_CLAIM m.val = s.fld Fld.CK_OWN_CLAIM m.val ∧ t.fld Fld.CK_OWN_LAST_STATUS m.val = 1) ∧
      (m.val ≠ 15 → s.fld Fld.CK_OWN_CLAIM m.val = 1 → s.fld Fld.CK_OWN_OWN_SRC m.val ≠ srcId src → Fld.CK_OWN_CLAIM.of v = 1 →
        t.fld Fld.CK_OWN_OWN_SRC m.val = s.fld Fld.CK_OWN_OWN_SRC m.val ∧ t.fld Fld.CK_OWN_LAST_STATUS m.val = 2))) ∧
    (own = false → s.does (.cocoonDoorbell src m v) (fun t => s.onlyRegs t []) ∧
      s.does (.messageWrite src m i v) (fun t => s.onlyRegs t [])) ∧
    (own = true → s.ckState m.val = 1 ∨ s.ckState m.val = 2 →
      s.does (.cocoonDoorbell src m v) (fun t => t.flag Fld.CK_STAT_WR_BUSY m.val = true ∧ t.ckState m.val = s.ckState m.val ∧
        s.onlyRegs t [(.CK_STAT, m.val)]) ∧
      s.does (.messageWrite src m i v) (fun t => t.flag Fld.CK_STAT_WR_BUSY m.val = true ∧ t.ckState m.val = s.ckState m.val ∧
        s.onlyRegs t [(.CK_STAT, m.val)])) ∧
    (own = true → s.ckState m.val ≠ 1 → s.ckState m.val ≠ 2 →
      s.does (.cocoonDoorbell src m v) (fun t => t.ckState m.val = 1 ∧ t.fld Fld.CK_CMD_CODE m.val = Fld.CK_CMD_CODE.of v ∧
        t.fld Fld.CK_CMD_TMO m.val = Fld.CK_CMD_TMO.of v ∧ t.fld Fld.CK_STAT_SEQ m.val = (s.fld Fld.CK_STAT_SEQ m.val + 1) % 256 ∧
        t.cocoon.mbq = s.cocoon.mbq ++ [(m.val, Fld.CK_CMD_CODE.of v, s.srcIsH src || decide (src = .jtag), sec)] ∧
        (t.ckSlot m.val).dbSec = sec ∧ (t.ckSlot m.val).dbSrc = srcId src ∧
        s.regsKept t [(.CK_STAT, m.val), (.CK_CMD, m.val)] ∧ t.mem = s.mem) ∧
      s.does (.messageWrite src m i v) (fun t => t.csrGet .CK_MSG (8 * m.val + i.val) = v ∧
        s.onlyRegs t [(.CK_MSG, 8 * m.val + i.val)])) ∧
    (src = .reeve → s.does (.overrideNotice src v) (fun t => t.fld Fld.CK_NOTE_CAUSE 0 = Fld.CK_NOTE_CAUSE.of v ∧
      t.fld Fld.CK_NOTE_SEQ 0 = (s.fld Fld.CK_NOTE_SEQ 0 + 1) % 65536 ∧ (t.cocoon.x 5).getLsbD 2 = true ∧
      s.regsKept t [(.CK_NOTE, 0)] ∧ t.mem = s.mem)) ∧
    (src ≠ .reeve → s.does (.overrideNotice src v) (fun t => s.onlyRegs t []))) ∧
  (s.clockRuns = true →
    (s.ckState m.val = 1 → s.does (.cocoonCallTimeout m) (fun t => t.ckState m.val = 4 ∧ t.fld Fld.CK_STAT_STATUS m.val = 4 ∧
      s.onlyRegs t [(.CK_STAT, m.val)])) ∧
    (s.ckState m.val = 2 → s.does (.cocoonCallTimeout m) (fun t => t.ckState m.val = 4 ∧ t.fld Fld.CK_STAT_STATUS m.val = 6 ∧
      s.onlyRegs t [(.CK_STAT, m.val)]))) ∧
  (s.srcLive src = true → s.islOpen (fwReg false limit).island = true →
    (Reg.decode addr.toNat = some (r, x) → r = fwReg false limit → b = x / 16 →
      (src ≠ .cocoon → s.does (.firewallRegionWrite src addr v) (fun t => s.onlyRegs t [] ∧ t.fwPend = s.fwPend)) ∧
      (src = .cocoon → b < 64 →
        (s.flag Fld.CK_FWCTL_BUSY b = true → s.does (.firewallRegionWrite src addr v) (fun t => t.fld Fld.CK_FWCTL_WR_STATUS b = 1 ∧
          t.fwPend = s.fwPend ∧ s.onlyRegs t [(.CK_FWCTL, b)])) ∧
        (s.flag Fld.CK_FWCTL_BUSY b = false → s.flag Fld.CK_FWCTL_LOCK b = false → s.does (.firewallRegionWrite src addr v) (fun t =>
          t.flag Fld.CK_FWCTL_BUSY b = true ∧ t.fld Fld.CK_FWCTL_WR_STATUS b = 0 ∧
          FMap.get t.fwPend none b = some ⟨x, limit, v, false⟩ ∧ t.csrGet r x = s.csrGet r x ∧ s.regsKept t [(.CK_FWCTL, b)] ∧ t.mem = s.mem)) ∧
        (s.flag Fld.CK_FWCTL_BUSY b = false → s.flag Fld.CK_FWCTL_LOCK b = true → s.does (.firewallRegionWrite src addr v) (fun t =>
          t.fwPend = s.fwPend ∧ s.onlyRegs t [(.CK_FWCTL, b)] ∧ t.flag Fld.CK_FWCTL_BUSY b = false)))) ∧
    (Reg.decode addr.toNat = some (r, x) → r = fwReg true limit → src = .cocoon → s.flag Fld.CK_GFWCTL_LOCK (x / 16) = false →
      s.does (.firewallRegionWrite src addr v) (fun t => t.fld (if limit = true then Fld.CK_GFWB_LIMIT else Fld.CK_GFWA_BASE) x = bitsOf v 47 12 ∧
        t.fld (if limit = true then Fld.CK_GFWB_SMASK else Fld.CK_GFWA_SRC) x = bitsOf v 63 52 ∧
        t.fld Fld.CK_GFWCTL_WR_STATUS (x / 16) = 0 ∧ s.onlyRegs t [(r, x), (.CK_GFWCTL, x / 16)])) ∧
    (f.val < 64 →
      (src ≠ .cocoon → s.does (.firewallCtlWrite src f v) (fun t => s.onlyRegs t [])) ∧
      (src = .cocoon → s.flag Fld.CK_FWCTL_BUSY f.val = false → s.flag Fld.CK_FWCTL_LOCK f.val = false →
        s.does (.firewallCtlWrite src f v) (fun t => t.flag Fld.CK_FWCTL_DFLT f.val = v.getLsbD 0 ∧
          t.flag Fld.CK_FWCTL_LOCK f.val = v.getLsbD 1 ∧ t.fld Fld.CK_FWCTL_WR_STATUS f.val = 0 ∧ s.onlyRegs t [(.CK_FWCTL, f.val)])) ∧
      (src = .cocoon → s.flag Fld.CK_FWCTL_BUSY f.val = false → s.flag Fld.CK_FWCTL_LOCK f.val = true →
        s.does (.firewallCtlWrite src f v) (fun t => t.flag Fld.CK_FWCTL_DFLT f.val = s.flag Fld.CK_FWCTL_DFLT f.val ∧
          t.flag Fld.CK_FWCTL_LOCK f.val = true ∧ s.onlyRegs t [(.CK_FWCTL, f.val)])))) ∧
  (f.val < 64 → x < 1024 → x / 16 = f.val → FMap.get s.fwPend none f.val = some ⟨x, limit, v, false⟩ →
    s.does (.firewallSweepDone f) (fun t => t.flag Fld.CK_FWCTL_BUSY f.val = false ∧ FMap.get t.fwPend none f.val = none ∧
      t.fld (if limit = true then Fld.CK_FWB_LIMIT else Fld.CK_FWA_BASE) x = bitsOf v 47 12 ∧
      t.fld (if limit = true then Fld.CK_FWB_SMASK else Fld.CK_FWA_SRC) x = bitsOf v 63 52 ∧
      (∀ l ∈ s.cachedLines, s.fld Fld.CK_FWA_BASE x ≤ l / 64 → l / 64 ≤ s.fld Fld.CK_FWB_LIMIT x →
        t.l2Holders l = [] ∧ t.llcFind l = none)))

/-- R523, R525 to R528, R537, R542: the Cocoon's services, for callers that are not secure and buffers outside the staging
words; the ciphers, the hashes and the signatures are uninterpreted, and the tag presented to OPEN is free (assumption
log 60). -/
def Obligations.CocoonServices : Prop :=
  ∀ (s : State) (m : MbxId) (w : Nat → Nat) (ks : KeySlot) (src a n : Nat) (fail : Bool) (bs hs pk key out tag : List Byte) (rnd : BitVec 512)
    (z : BitVec 384),
  w = s.ckWord m.val → src = (s.ckSlot m.val).src → rnd = Config.random s.draws →
  (s.ckCalled m.val 1 → s.does (.cocoonVersion m) (fun t =>
    s.ckAnswered t m.val 0 [Config.cocoonRomVersion, s.cocoonVer.zeroExtend 64] ∧ t.mem = s.mem ∧ t.keys = s.keys)) ∧
  (s.ckCalled m.val 2 →
    (w 0 = 0 ∨ 56 < w 0 → s.does (.random m fail) (fun t => s.ckAnswered t m.val 0x30 [] ∧ t.draws = s.draws)) ∧
    (1 ≤ w 0 → w 0 ≤ 56 → s.does (.random m true) (fun t => s.ckAnswered t m.val 0x36 []) ∧
      s.does (.random m false) (fun t => s.ckAnswered t m.val 0 ((List.range 7).map (fun i => BitVec.ofNat 64 (rnd.toNat / 2 ^ (64 * i)))) ∧
        t.draws = s.draws + 1 ∧ t.mem = s.mem))) ∧
  (s.ckCalled m.val 3 → (w 1 < 0xFE0A008000 ∨ 0xFE0A009000 < w 1 + w 2) →
    (1 < w 0 ∨ 2 ^ 24 < w 2 → s.does (.hash m) (fun t => s.ckAnswered t m.val 0x30 [])) ∧
    (w 0 ≤ 1 → w 2 ≤ 2 ^ 24 → s.ckMayUse false (w 1) (w 2) → bs = s.ckBytes (w 1) (w 2) → s.does (.hash m) (fun t =>
      s.ckAnswered t m.val 0 (if w 0 = 0 then (List.range 4).map (fun i => BitVec.ofNat 64 ((Config.sha256 bs).toNat / 2 ^ (64 * i)))
        else (List.range 6).map (fun i => BitVec.ofNat 64 ((Config.sha384 bs).toNat / 2 ^ (64 * i)))) ∧
      t.peekByte a = s.peekByte a))) ∧
  (s.ckCalled m.val 4 → (w 3 + w 4 ≤ 0xFE0A008000 ∧ w 5 + 96 ≤ 0xFE0A008000 ∧ w 2 + 97 ≤ 0xFE0A008000) →
    (1 < w 0 → s.does (.verify m) (fun t => s.ckAnswered t m.val 0x30 [])) ∧
    (w 0 ≤ 1 → w 1 < 64 → ks = FMap.get s.keys {} (w 1) →
      (ks.used = false → s.does (.verify m) (fun t => s.ckAnswered t m.val 0x33 []))) ∧
    (w 0 ≤ 1 → (w 1 < 64 ∧ ks = FMap.get s.keys {} (w 1) ∧ ks.used = true ∧ ks.kind = w 0 + 1 ∧ pk = Config.ecdsaPublic (w 0) ks.key) ∨
        (w 1 = 0xFFFF ∧ s.ckMayUse false (w 2) (if w 0 = 0 then 65 else 97) ∧ pk = s.ckBytes (w 2) (if w 0 = 0 then 65 else 97)) →
      s.ckMayUse false (w 3) (w 4) → s.ckMayUse false (w 5) (if w 0 = 0 then 64 else 96) → bs = s.ckBytes (w 3) (w 4) →
      hs = s.ckBytes (w 5) (if w 0 = 0 then 64 else 96) →
      z = (if w 0 = 0 then (Config.sha256 bs).zeroExtend 384 else Config.sha384 bs) → s.does (.verify m) (fun t =>
        s.ckAnswered t m.val (if Config.ecdsaVerifies (w 0) pk z hs = true then 0 else 0x31) [] ∧ t.peekByte a = s.peekByte a))) ∧
  (s.ckCalled m.val 5 → w 0 % 256 ≤ 1 → ks = FMap.get s.keys {} (w 1) →
    (63 < w 1 → s.does (.sign m fail) (fun t => s.ckAnswered t m.val 0x30 [])) ∧
    (w 1 < 64 → ks.used = false → s.does (.sign m fail) (fun t => s.ckAnswered t m.val 0x33 [])) ∧
    (w 1 < 64 → ks.used = true → src &&& ks.mask ≠ ks.value &&& ks.mask → s.does (.sign m fail) (fun t => s.ckAnswered t m.val 0x34 [])) ∧
    (w 1 < 64 → ks.used = true → src &&& ks.mask = ks.value &&& ks.mask → ks.kind = w 0 % 256 + 1 →
      s.does (.sign m true) (fun t => s.ckAnswered t m.val 0x36 []) ∧
      (w 0 % 256 = 0 → z = BitVec.ofNat 384 (w 2 + w 3 * 2 ^ 64 + w 4 * 2 ^ 128 + w 5 * 2 ^ 192) →
        s.does (.sign m false) (fun t => s.ckAnswered t m.val 0 ((List.range 8).map (fun i =>
          BitVec.ofNat 64 (leBytes ((Config.ecdsaSign 0 ks.key z).take 64) / 2 ^ (64 * i)))) ∧ t.mem = s.mem)) ∧
      (w 0 % 256 = 1 → out = (Config.ecdsaSign 1 ks.key (BitVec.ofNat 384 (w 2 + w 3 * 2 ^ 64 + w 4 * 2 ^ 128 + w 5 * 2 ^ 192 +
          w 6 * 2 ^ 256 + w 7 * 2 ^ 320))).take 96 → s.memOk → s.ckMayUse true (w 0 / 65536) out.length →
        s.does (.sign m false) (fun t => s.ckAnswered t m.val 0 [0] ∧
          t.peekByte a = (if w 0 / 65536 ≤ a ∧ a < w 0 / 65536 + out.length then out.getD (a - w 0 / 65536) 0 else s.peekByte a))))) ∧
  (s.ckCalled m.val 6 ∨ s.ckCalled m.val 7 → ks = FMap.get s.keys {} (w 0) → w 0 < 64 →
    (ks.used = false → (s.ckCalled m.val 6 → s.does (.seal m) (fun t => s.ckAnswered t m.val 0x33 [])) ∧
      (s.ckCalled m.val 7 → s.does (.cocoonOpen m) (fun t => s.ckAnswered t m.val 0x33 []))) ∧
    (ks.used = true → src &&& ks.mask = ks.value &&& ks.mask → ks.kind = 0 → s.memOk → w 1 + w 3 ≤ 0xFE0A008000 → w 4 + w 5 ≤ 0xFE0A008000 →
      s.ckMayUse false (w 1) (w 3) → s.ckMayUse false (w 4) (w 5) → bs = s.ckBytes (w 1) (w 3) → hs = s.ckBytes (w 4) (w 5) →
      key = (List.range 32).map (fun i => BitVec.ofNat 8 (ks.key.toNat / 256 ^ i)) →
      pk = (List.range 12).map (fun i => BitVec.ofNat 8 ((w 6 + w 7 % 2 ^ 32 * 2 ^ 64) / 256 ^ i)) →
      (s.ckCalled m.val 6 → out = (Config.gcmSeal key pk hs bs).1.take (w 3) → tag = (Config.gcmSeal key pk hs bs).2 →
        s.ckMayUse true (w 2) out.length → s.does (.seal m) (fun t =>
          s.ckAnswered t m.val 0 [BitVec.ofNat 64 (leBytes tag), BitVec.ofNat 64 (leBytes tag / 2 ^ 64)] ∧
          t.peekByte a = (if w 2 ≤ a ∧ a < w 2 + out.length then out.getD (a - w 2) 0 else s.peekByte a))) ∧
      (s.ckCalled m.val 7 → out = (Config.gcmOpen key pk hs bs).1.take (w 3) → tag = (Config.gcmOpen key pk hs bs).2 →
        ((List.range 16).map (fun i => BitVec.ofNat 8 ((Config.freeValue s.free).toNat / 256 ^ i)) ≠ tag →
          s.does (.cocoonOpen m) (fun t => s.ckAnswered t m.val 0x32 [] ∧ t.peekByte a = s.peekByte a)) ∧
        ((List.range 16).map (fun i => BitVec.ofNat 8 ((Config.freeValue s.free).toNat / 256 ^ i)) = tag →
          s.ckMayUse true (w 2) out.length → s.does (.cocoonOpen m) (fun t => s.ckAnswered t m.val 0 [] ∧
            t.peekByte a = (if w 2 ≤ a ∧ a < w 2 + out.length then out.getD (a - w 2) 0 else s.peekByte a)))))) ∧
  (s.ckCalled m.val 8 →
    ((s.ckSlot m.val).hmode = false ∨ src = 0x202 → s.does (.keyGen m fail) (fun t => s.ckAnswered t m.val 7 [] ∧ t.keys = s.keys)) ∧
    ((s.ckSlot m.val).hmode = true → src ≠ 0x202 → w 0 = 0 →
      ((∀ k < 64, (FMap.get s.keys {} k).used = true) → s.does (.keyGen m fail) (fun t => s.ckAnswered t m.val 0x33 [] ∧ t.keys = s.keys)) ∧
      (n < 64 → (FMap.get s.keys {} n).used = false → (∀ k < n, (FMap.get s.keys {} k).used = true) →
        s.does (.keyGen m true) (fun t => s.ckAnswered t m.val 0x36 [] ∧ t.keys = s.keys) ∧
        s.does (.keyGen m false) (fun t => s.ckAnswered t m.val 0 [BitVec.ofNat 64 n] ∧
          t.keys = FMap.set s.keys n { used := true, kind := 0, value := w 1 % 4096, mask := w 1 / 4096 % 4096, key := (rnd.truncate 256).zeroExtend 384 } ∧
          t.draws = s.draws + 1 ∧ t.mem = s.mem)))) ∧
  (s.ckCalled m.val 9 → ks = FMap.get s.keys {} (w 0) →
    ((s.ckSlot m.val).hmode = false ∨ src = 0x202 → s.does (.keyDel m) (fun t => s.ckAnswered t m.val 7 [] ∧ t.keys = s.keys)) ∧
    ((s.ckSlot m.val).hmode = true → src ≠ 0x202 → w 0 < 64 →
      (ks.used = false → s.does (.keyDel m) (fun t => s.ckAnswered t m.val 0x33 [] ∧ t.keys = s.keys)) ∧
      (ks.used = true → src &&& ks.mask ≠ ks.value &&& ks.mask → s.does (.keyDel m) (fun t => s.ckAnswered t m.val 0x34 [] ∧ t.keys = s.keys)) ∧
      (ks.used = true → src &&& ks.mask = ks.value &&& ks.mask → s.does (.keyDel m) (fun t => s.ckAnswered t m.val 0 [] ∧
        (FMap.get t.keys {} (w 0)).used = false ∧ (a ≠ w 0 → FMap.get t.keys {} a = FMap.get s.keys {} a) ∧ t.mem = s.mem)))) ∧
  (s.ckCalled m.val 10 →
    ((s.ckSlot m.val).hmode = false → src ≠ 0x202 → s.does (.debugAuth m) (fun t => s.ckAnswered t m.val 7 [] ∧ t.csrGet .TR_AUTH 0 = s.csrGet .TR_AUTH 0)) ∧
    ((s.ckSlot m.val).hmode = true ∨ src = 0x202 →
      (s.fuses.getLsbD 2885 = true → s.does (.debugAuth m) (fun t => s.ckAnswered t m.val 0x35 [] ∧
        t.csrGet .TR_AUTH 0 = s.csrGet .TR_AUTH 0)) ∧
      (∀ g ∈ Config.debugCert (BitVec.ofNat 384 ((s.fuses >>> 1920).toNat % 2 ^ 384)) (s.ckBytes (w 0) (w 1)), s.fuses.getLsbD 2885 = false →
        (s.fuses >>> 1920).toNat % 2 ^ 384 ≠ 0 → w 1 ≤ 4096 → w 0 + w 1 ≤ 0xFE0A008000 → s.ckMayUse false (w 0) (w 1) → s.llc = [] → s.does (.debugAuth m) (fun t =>
          s.ckAnswered t m.val 0 [g.zeroExtend 64] ∧ t.csrGet .TR_AUTH 0 = g.zeroExtend 64 ∧
          ∀ k < 80, t.flag Fld.MC_LLC_SECFLUSH_DONE k = true)))) ∧
  (s.ckCalled m.val 11 →
    ((s.ckSlot m.val).hmode = false → src ≠ 0x202 → s.does (.debugRevoke m) (fun t => s.ckAnswered t m.val 7 [])) ∧
    ((s.ckSlot m.val).hmode = true ∨ src = 0x202 → s.does (.debugRevoke m) (fun t => s.ckAnswered t m.val 0 [] ∧
      t.fld Fld.TR_AUTH_HALT 0 = 0 ∧ t.fld Fld.TR_AUTH_SYS 0 = 0 ∧ (∀ k < 80, t.flag Fld.MC_LLC_SECFLUSH_DONE k = true ∧
        ∀ l ∈ t.llcOf k, l.sec = false)))) ∧
  (s.ckCalled m.val 12 →
    (src ≠ 0x200 → s.does (.imageCheck m) (fun t => s.ckAnswered t m.val 7 [])) ∧
    (src = 0x200 → (w 0 = 1 ∨ w 0 = 2) → w 1 + w 2 ≤ 0xFE0A008000 → s.ckMayUse false (w 1) (w 2) → bs = s.ckBytes (w 1) (w 2) →
      (s.imgAccepted (if w 0 = 1 then 4 else 2) bs = false ∨ (w 0 = 2 ∧ imgKeysel bs ≠ 1) → s.does (.imageCheck m) (fun t =>
        s.ckAnswered t m.val 0x35 [] ∧ t.blown = s.blown ∧ t.reeve = s.reeve ∧ t.peekByte a = s.peekByte a)) ∧
      (s.imgAccepted (if w 0 = 1 then 4 else 2) bs = true → (w 0 = 1 ∨ imgKeysel bs = 1) → s.does (.imageCheck m) (fun t =>
        s.ckAnswered t m.val 0 [BitVec.ofNat 64 (imgVersion bs)] ∧ t.peekByte a = s.peekByte a ∧ t.cocoon.staged = bs ∧
        (w 0 = 1 → n < imgPlen bs → FMap.get t.reeve.prog 0 (0xE000 + n) = BitVec.ofNat 14 (bytesAt bs (64 + 2 * n) 2)) ∧
        (w 0 = 2 → s.reeve.plock = false → t.reeve.pc = BitVec.ofNat 16 (imgEntry bs) ∧
          t.svc.reeveVer = BitVec.ofNat 32 (imgVersion bs)))))) ∧
  (s.ckState m.val = 2 → (s.ckSlot m.val).taken = true → s.cocoon.run = .running →
    (s.ckSlot m.val).code = 0 ∨ 0x0C < (s.ckSlot m.val).code → s.does (.cocoonVersion m) (fun t =>
      s.ckAnswered t m.val 0x30 [] ∧ t.mem = s.mem ∧ t.keys = s.keys))

/-- A step takes the command at the front of the queue and is that command's effect with the queue's rest; on an empty queue
one cycle of domain T passes while its clock runs, and nothing happens while it does not (the model's choice, assumption
log 2). -/
def Obligations.StepRunsTheQueue : Prop :=
  ∀ (s : State) (c : Instr) (r : List Instr),
  step { s with pending := c :: r } = exec c { s with pending := r } ∧
  (s.pending = [] → step s = .next (if s.clockRuns = true then s.advance 1 else s))

/-- What reset leaves: every register of CSR space at the value the spec gives it, the queue and the memory empty, every core
in RESET, every thread STOPPED, every general register 0 (the model's choice, assumption log 5).

The forms that every step keeps hold after reset. -/
def Obligations.ResetState : Prop :=
  ((∀ r i, State.reset.csrGet r i = Reg.reset r i) ∧ State.reset.pending = [] ∧ State.reset.mem = [] ∧
  (∀ c : CoreId, (State.reset.core c.val).run = .reset ∧ ∀ r : Reg5, State.reset.regVal (.core c) r = 0) ∧
  (∀ t : ThreadId, (State.reset.thread t.val).run = .stopped ∧ (State.reset.thread t.val).depth = 0) ∧
  (∀ p, State.reset.port p = {}) ∧ State.reset.flow = [] ∧ State.reset.keys = [] ∧ State.reset.pwr.mode = .off) ∧
  (State.reset.memOk ∧ State.reset.queueOk ∧ ∀ c : CoreId, (State.reset.core c.val).modeOk)

/-- Every step keeps the canonical form of the memory. -/
def Obligations.MemoryFormKept : Prop :=
  ∀ s t : State, s.memOk → step s = .next t → t.memOk

/-- A blown fuse stays blown through every step, whatever fails or is reset (R595, R596). -/
def Obligations.FusesNeverClear : Prop :=
  ∀ (s t : State) (b : Nat), s.fuses.getLsbD b = true → step s = .next t → t.fuses.getLsbD b = true

/-- No command touches the commands that wait behind it. -/
def Obligations.QueueUntouched : Prop :=
  ∀ (c : Instr) (s t : State), exec c s = .next t → t.pending = s.pending

/-- Every step goes on to a next state: no command faults, and none is refused. -/
def Obligations.EveryStepGoesOn : Prop :=
  ∀ s : State, ∃ t, step s = .next t
end

