-- ==== Sys2Proof/Laws/Maps.lean ====
section
/-!
SUPPORT. What the finite maps, the byte map and the bit-field operations can do, said once each.
-/

namespace Sys2Proof.Machine

/-! ## Finite maps -/

@[simp] theorem FMap.get_nil {β : Type} (d : β) (k : Nat) : FMap.get ([] : FMap β) d k = d := rfl

@[simp] theorem FMap.get_set_same {β : Type} (m : FMap β) (d v : β) (k : Nat) : FMap.get (FMap.set m k v) d k = v := by
  induction m with
  | nil => simp [FMap.set, FMap.get]
  | cons e r ih =>
    obtain ⟨k', v'⟩ := e
    simp only [FMap.set]
    split
    · simp [FMap.get]
    · split
      · simp [FMap.get]
      · rename_i h1 h2; simp [FMap.get, h2, ih]

theorem FMap.get_set_ne {β : Type} (m : FMap β) (d v : β) {k k' : Nat} (h : k' ≠ k) :
    FMap.get (FMap.set m k v) d k' = FMap.get m d k' := by
  induction m with
  | nil => simp [FMap.set, FMap.get, h]
  | cons e r ih =>
    obtain ⟨a, w⟩ := e
    simp only [FMap.set]
    split
    · simp [FMap.get, h]
    · split
      · rename_i h1 h2; subst h2; simp [FMap.get, h]
      · simp [FMap.get, ih]

theorem FMap.get_set {β : Type} (m : FMap β) (d v : β) (k k' : Nat) :
    FMap.get (FMap.set m k v) d k' = if k' = k then v else FMap.get m d k' := by
  split
  · rename_i h; subst h; simp
  · rename_i h; exact FMap.get_set_ne m d v h

theorem FMap.get_dropIf {β : Type} (m : FMap β) (p : Nat → Bool) (d : β) (k : Nat) :
    FMap.get (FMap.dropIf m p) d k = if p k then d else FMap.get m d k := by
  induction m with
  | nil => simp [FMap.dropIf, FMap.get]
  | cons e r ih =>
    obtain ⟨a, w⟩ := e
    unfold FMap.dropIf at ih ⊢
    rw [List.filter_cons]
    by_cases hp : p a
    · simp only [hp, Bool.not_true, Bool.false_eq_true, if_false, ih, FMap.get]
      by_cases hk : k = a
      · subst hk; simp [hp]
      · simp [hk]
    · simp only [hp, Bool.not_false, if_true, FMap.get, ih]
      by_cases hk : k = a
      · subst hk; simp [hp]
      · simp [hk]

/-! ## The byte map -/

@[simp] theorem BMap.get_set_same (m : BMap) (a : Nat) (v : Byte) (h : BMap.wf m = true) : BMap.get (BMap.set m a v) a = v := by
  suffices H : ∀ (m : BMap) (lo : Nat), lo ≤ a → BMap.wfFrom lo m = true → BMap.get (BMap.set m a v) a = v from
    H m 0 (Nat.zero_le _) h
  intro m
  induction m with
  | nil => intro lo _ _; simp only [BMap.set]; split <;> simp_all [BMap.get]
  | cons e r ih =>
    intro lo hlo hw
    obtain ⟨k, w⟩ := e
    simp only [BMap.wfFrom, Bool.and_eq_true, decide_eq_true_eq] at hw
    have tailBelow : ∀ (r : BMap) (b : Nat), a < b → BMap.wfFrom b r = true → BMap.get r a = memDefault := by
      intro r
      induction r with
      | nil => intros; rfl
      | cons e r ih =>
        intro b hb hr
        obtain ⟨k, w⟩ := e
        simp only [BMap.wfFrom, Bool.and_eq_true, decide_eq_true_eq] at hr
        have : a ≠ k := by omega
        simp only [BMap.get, this, if_false]
        exact ih (k + 1) (by omega) hr.2
    simp only [BMap.set]
    split
    · split
      · rename_i h1 h2; subst h2
        have : a ≠ k := by omega
        simp only [BMap.get, this, if_false]
        exact tailBelow r (k + 1) (by omega) hw.2
      · simp [BMap.get]
    · split
      · split
        · rename_i h1 h2 h3; subst h2; subst h3
          exact tailBelow r (a + 1) (by omega) hw.2
        · simp [BMap.get]
      · rename_i h1 h2
        simp only [BMap.get, h2, if_false]
        exact ih (k + 1) (by omega) hw.2

theorem BMap.get_set_ne (m : BMap) (v : Byte) {a b : Nat} (h : b ≠ a) : BMap.get (BMap.set m a v) b = BMap.get m b := by
  induction m with
  | nil => simp only [BMap.set]; split <;> simp [BMap.get, h]
  | cons e r ih =>
    obtain ⟨k, w⟩ := e
    simp only [BMap.set]
    split
    · split
      · rfl
      · simp [BMap.get, h]
    · split
      · rename_i h1 h2; subst h2
        split <;> simp [BMap.get, h]
      · simp [BMap.get, ih]

theorem BMap.wfFrom_mono {lo lo' : Nat} (h : lo' ≤ lo) (m : BMap) (hw : BMap.wfFrom lo m = true) : BMap.wfFrom lo' m = true := by
  cases m with
  | nil => rfl
  | cons e r =>
    obtain ⟨k, w⟩ := e
    simp only [BMap.wfFrom, Bool.and_eq_true, decide_eq_true_eq] at hw ⊢
    exact ⟨⟨by omega, hw.1.2⟩, hw.2⟩

theorem BMap.wfFrom_set (m : BMap) (a : Nat) (v : Byte) (lo : Nat) (hlo : lo ≤ a) (h : BMap.wfFrom lo m = true) :
    BMap.wfFrom lo (BMap.set m a v) = true := by
  induction m generalizing lo with
  | nil => simp only [BMap.set]; split <;> simp_all [BMap.wfFrom]
  | cons e r ih =>
    obtain ⟨k, w⟩ := e
    have h0 := h
    simp only [BMap.wfFrom, Bool.and_eq_true, decide_eq_true_eq] at h
    simp only [BMap.set]
    split
    · split
      · exact h0
      · rename_i h1 h2
        simp only [BMap.wfFrom, Bool.and_eq_true, decide_eq_true_eq]
        exact ⟨⟨hlo, by simpa using h2⟩, ⟨by omega, h.1.2⟩, h.2⟩
    · split
      · rename_i h1 h2
        split
        · exact BMap.wfFrom_mono (by omega) r h.2
        · rename_i h3
          simp only [BMap.wfFrom, Bool.and_eq_true, decide_eq_true_eq]
          exact ⟨⟨hlo, by simpa using h3⟩, by subst h2; exact h.2⟩
      · simp only [BMap.wfFrom, Bool.and_eq_true, decide_eq_true_eq]
        exact ⟨h.1, ih (k + 1) (by omega) h.2⟩

/-- Writing one byte keeps the canonical form. -/
theorem BMap.wf_set (m : BMap) (a : Nat) (v : Byte) (h : BMap.wf m = true) : BMap.wf (BMap.set m a v) = true :=
  BMap.wfFrom_set m a v 0 (Nat.zero_le _) h

/-- Storing a number keeps the canonical form. -/
theorem BMap.wf_writeLE (m : BMap) (a v n : Nat) (h : BMap.wf m = true) : BMap.wf (BMap.writeLE m a v n) = true := by
  induction n generalizing m a v with
  | zero => exact h
  | succ n ih => exact ih _ _ _ (BMap.wf_set m a _ h)

/-- A masked store keeps the canonical form. -/
theorem BMap.wf_writeMasked (m : BMap) (a v mask n : Nat) (h : BMap.wf m = true) :
    BMap.wf (BMap.writeMasked m a v mask n) = true := by
  induction n generalizing m a v mask with
  | zero => exact h
  | succ n ih =>
    unfold BMap.writeMasked
    apply ih
    split
    · exact BMap.wf_set m a _ h
    · exact h

/-- Storing a list of bytes keeps the canonical form. -/
theorem BMap.wf_writeBytes (m : BMap) (a : Nat) (l : List Byte) (h : BMap.wf m = true) :
    BMap.wf (BMap.writeBytes m a l) = true := by
  induction l generalizing m a with
  | nil => exact h
  | cons b r ih => exact ih _ _ (BMap.wf_set m a _ h)

theorem BMap.wfFrom_dropIf (m : BMap) (p : Nat → Bool) (lo : Nat) (h : BMap.wfFrom lo m = true) :
    BMap.wfFrom lo (BMap.dropIf m p) = true := by
  induction m generalizing lo with
  | nil => rfl
  | cons e r ih =>
    obtain ⟨k, w⟩ := e
    simp only [BMap.wfFrom, Bool.and_eq_true, decide_eq_true_eq] at h
    unfold BMap.dropIf at ih ⊢
    rw [List.filter_cons]
    split
    · simp only [BMap.wfFrom, Bool.and_eq_true, decide_eq_true_eq]
      exact ⟨h.1, ih _ h.2⟩
    · exact ih _ (BMap.wfFrom_mono (by omega) r h.2)

/-- Forgetting bytes keeps the canonical form. -/
theorem BMap.wf_dropIf (m : BMap) (p : Nat → Bool) (h : BMap.wf m = true) : BMap.wf (BMap.dropIf m p) = true :=
  BMap.wfFrom_dropIf m p 0 h

/-- A store leaves every byte outside it alone. -/
theorem BMap.get_writeLE_ne (m : BMap) (a v n b : Nat) (h : b < a ∨ a + n ≤ b) :
    BMap.get (BMap.writeLE m a v n) b = BMap.get m b := by
  induction n generalizing m a v with
  | zero => rfl
  | succ n ih =>
    unfold BMap.writeLE
    rw [ih _ _ _ (by omega), BMap.get_set_ne _ _ (by omega)]

/-- Each byte of a store reads as the number's byte. -/
theorem BMap.get_writeLE (m : BMap) (a v n j : Nat) (h : BMap.wf m = true) (hj : j < n) :
    BMap.get (BMap.writeLE m a v n) (a + j) = BitVec.ofNat 8 (v / 256 ^ j) := by
  induction n generalizing m a v j with
  | zero => omega
  | succ n ih =>
    unfold BMap.writeLE
    cases j with
    | zero =>
      rw [BMap.get_writeLE_ne _ _ _ _ _ (by omega), Nat.add_zero, BMap.get_set_same _ _ _ h]
      simp
    | succ j =>
      rw [show a + (j + 1) = (a + 1) + j by omega, ih _ _ _ _ (BMap.wf_set m a _ h) (by omega), Nat.pow_succ,
        Nat.mul_comm, Nat.div_div_eq_div_mul]

/-- A read after a store to the same place gives the value stored. -/
theorem BMap.readLE_writeLE (m : BMap) (a v n : Nat) (h : BMap.wf m = true) :
    BMap.readLE (BMap.writeLE m a v n) a n = v % 256 ^ n := by
  induction n generalizing m a v with
  | zero => simp [BMap.readLE, Nat.mod_one]
  | succ n ih =>
    have h1 := BMap.get_writeLE m a v (n + 1) 0 h (by omega)
    have h2 := ih (BMap.set m a (BitVec.ofNat 8 v)) (a + 1) (v / 256) (BMap.wf_set m a _ h)
    unfold BMap.readLE
    simp only [Nat.add_zero, Nat.pow_zero, Nat.div_one] at h1
    rw [h1]
    show _ + 256 * BMap.readLE (BMap.writeLE (BMap.set m a (BitVec.ofNat 8 v)) (a + 1) (v / 256) n) (a + 1) n = _
    rw [h2, BitVec.toNat_ofNat]
    rw [show (256 : Nat) ^ (n + 1) = 256 * 256 ^ n by rw [Nat.pow_succ, Nat.mul_comm], Nat.mod_mul]

/-! ## Bit fields -/

theorem getLsbD_bitMask (hi lo k : Nat) : (bitMask hi lo).getLsbD k = (decide (k < 64) && decide (lo ≤ k) && decide (k ≤ hi)) := by
  unfold bitMask
  rw [BitVec.getLsbD_shiftLeft, BitVec.getLsbD_ofNat, Nat.testBit_two_pow_sub_one, Bool.eq_iff_iff]
  simp
  omega

theorem getLsbD_withBits (w : Word) (hi lo v k : Nat) (h : k < 64) :
    (withBits w hi lo v).getLsbD k = if lo ≤ k ∧ k ≤ hi then v.testBit (k - lo) else w.getLsbD k := by
  unfold withBits
  rw [BitVec.getLsbD_or, BitVec.getLsbD_and, BitVec.getLsbD_and, BitVec.getLsbD_not, getLsbD_bitMask,
    BitVec.getLsbD_shiftLeft, BitVec.getLsbD_ofNat]
  by_cases h1 : lo ≤ k
  · have h3 : k - lo < 64 := by omega
    by_cases h2 : k ≤ hi
    · simp [h, h1, h2, h3, Nat.not_lt.mpr h1]
    · simp [h, h1, h2]
  · simp [h, h1]

theorem testBit_bitsOf (w : Word) (hi lo k : Nat) :
    (bitsOf w hi lo).testBit k = (decide (k < hi + 1 - lo) && w.getLsbD (lo + k)) := by
  unfold bitsOf
  rw [Nat.testBit_mod_two_pow, Nat.testBit_shiftRight]
  rfl

/-- A field reads as what was last put into it. -/
theorem bitsOf_withBits_same (w : Word) (hi lo v : Nat) (h : hi < 64) :
    bitsOf (withBits w hi lo v) hi lo = v % 2 ^ (hi + 1 - lo) := by
  apply Nat.eq_of_testBit_eq
  intro k
  rw [testBit_bitsOf, Nat.testBit_mod_two_pow]
  by_cases hk : k < hi + 1 - lo
  · rw [getLsbD_withBits _ _ _ _ _ (by omega)]
    simp [hk]; omega
  · simp [hk]

/-- A field keeps its value when another, disjoint one is set. -/
theorem bitsOf_withBits_disj (w : Word) (hi lo v hi' lo' : Nat) (hd : hi' < lo ∨ hi < lo') :
    bitsOf (withBits w hi lo v) hi' lo' = bitsOf w hi' lo' := by
  apply Nat.eq_of_testBit_eq
  intro k
  rw [testBit_bitsOf, testBit_bitsOf]
  by_cases hk : k < hi' + 1 - lo'
  · by_cases h64 : lo' + k < 64
    · rw [getLsbD_withBits _ _ _ _ _ h64]
      have : ¬ (lo ≤ lo' + k ∧ lo' + k ≤ hi) := by omega
      simp [this]
    · rw [BitVec.getLsbD_of_ge _ _ (by omega), BitVec.getLsbD_of_ge _ _ (by omega)]
  · simp [hk]

theorem bitsOf_lt (w : Word) (hi lo : Nat) : bitsOf w hi lo < 2 ^ (hi + 1 - lo) := Nat.mod_lt _ (Nat.two_pow_pos _)

end Sys2Proof.Machine
end

