-- ==== Sys2Proof/Laws/State.lean ====
section
/-!
SUPPORT. What each update of the state leaves alone, one lemma per field, and what a register reads as after a write:
so that no proof unfolds a record update.
-/

namespace Sys2Proof.Machine

@[simp] theorem State.csrSet_pending (s : State) (r : Reg) (i : Nat) (v : Word) : (s.csrSet r i v).pending = s.pending := rfl
@[simp] theorem State.csrSet_resp (s : State) (r : Reg) (i : Nat) (v : Word) : (s.csrSet r i v).resp = s.resp := rfl
@[simp] theorem State.csrSet_free (s : State) (r : Reg) (i : Nat) (v : Word) : (s.csrSet r i v).free = s.free := rfl
@[simp] theorem State.csrSet_draws (s : State) (r : Reg) (i : Nat) (v : Word) : (s.csrSet r i v).draws = s.draws := rfl
@[simp] theorem State.csrSet_mem (s : State) (r : Reg) (i : Nat) (v : Word) : (s.csrSet r i v).mem = s.mem := rfl
@[simp] theorem State.csrSet_blown (s : State) (r : Reg) (i : Nat) (v : Word) : (s.csrSet r i v).blown = s.blown := rfl
@[simp] theorem State.csrSet_ext (s : State) (r : Reg) (i : Nat) (v : Word) : (s.csrSet r i v).ext = s.ext := rfl
@[simp] theorem State.csrSet_tap (s : State) (r : Reg) (i : Nat) (v : Word) : (s.csrSet r i v).tap = s.tap := rfl
@[simp] theorem State.csrSet_pwr (s : State) (r : Reg) (i : Nat) (v : Word) : (s.csrSet r i v).pwr = s.pwr := rfl
@[simp] theorem State.csrSet_isl (s : State) (r : Reg) (i : Nat) (v : Word) : (s.csrSet r i v).isl = s.isl := rfl
@[simp] theorem State.csrSet_bell (s : State) (r : Reg) (i : Nat) (v : Word) : (s.csrSet r i v).bell = s.bell := rfl
@[simp] theorem State.csrSet_reeve (s : State) (r : Reg) (i : Nat) (v : Word) : (s.csrSet r i v).reeve = s.reeve := rfl
@[simp] theorem State.csrSet_cocoon (s : State) (r : Reg) (i : Nat) (v : Word) : (s.csrSet r i v).cocoon = s.cocoon := rfl
@[simp] theorem State.csrSet_slots (s : State) (r : Reg) (i : Nat) (v : Word) : (s.csrSet r i v).slots = s.slots := rfl
@[simp] theorem State.csrSet_ckSlots (s : State) (r : Reg) (i : Nat) (v : Word) : (s.csrSet r i v).ckSlots = s.ckSlots := rfl
@[simp] theorem State.csrSet_svc (s : State) (r : Reg) (i : Nat) (v : Word) : (s.csrSet r i v).svc = s.svc := rfl
@[simp] theorem State.csrSet_cocoonVer (s : State) (r : Reg) (i : Nat) (v : Word) : (s.csrSet r i v).cocoonVer = s.cocoonVer := rfl
@[simp] theorem State.csrSet_capNs (s : State) (r : Reg) (i : Nat) (v : Word) : (s.csrSet r i v).capNs = s.capNs := rfl
@[simp] theorem State.csrSet_fwPend (s : State) (r : Reg) (i : Nat) (v : Word) : (s.csrSet r i v).fwPend = s.fwPend := rfl
@[simp] theorem State.csrSet_keys (s : State) (r : Reg) (i : Nat) (v : Word) : (s.csrSet r i v).keys = s.keys := rfl
@[simp] theorem State.csrSet_icStack (s : State) (r : Reg) (i : Nat) (v : Word) : (s.csrSet r i v).icStack = s.icStack := rfl
@[simp] theorem State.csrSet_threads (s : State) (r : Reg) (i : Nat) (v : Word) : (s.csrSet r i v).threads = s.threads := rfl
@[simp] theorem State.csrSet_gclDue (s : State) (r : Reg) (i : Nat) (v : Word) : (s.csrSet r i v).gclDue = s.gclDue := rfl
@[simp] theorem State.csrSet_ports (s : State) (r : Reg) (i : Nat) (v : Word) : (s.csrSet r i v).ports = s.ports := rfl
@[simp] theorem State.csrSet_frer (s : State) (r : Reg) (i : Nat) (v : Word) : (s.csrSet r i v).frer = s.frer := rfl
@[simp] theorem State.csrSet_flow (s : State) (r : Reg) (i : Nat) (v : Word) : (s.csrSet r i v).flow = s.flow := rfl
@[simp] theorem State.csrSet_coal (s : State) (r : Reg) (i : Nat) (v : Word) : (s.csrSet r i v).coal = s.coal := rfl
@[simp] theorem State.csrSet_pmbus (s : State) (r : Reg) (i : Nat) (v : Word) : (s.csrSet r i v).pmbus = s.pmbus := rfl
@[simp] theorem State.csrSet_cores (s : State) (r : Reg) (i : Nat) (v : Word) : (s.csrSet r i v).cores = s.cores := rfl
@[simp] theorem State.csrSet_llc (s : State) (r : Reg) (i : Nat) (v : Word) : (s.csrSet r i v).llc = s.llc := rfl
@[simp] theorem State.csrSet_hbmBad (s : State) (r : Reg) (i : Nat) (v : Word) : (s.csrSet r i v).hbmBad = s.hbmBad := rfl
@[simp] theorem State.csrSet_hbmSym (s : State) (r : Reg) (i : Nat) (v : Word) : (s.csrSet r i v).hbmSym = s.hbmSym := rfl
@[simp] theorem State.csrSet_hbmc (s : State) (r : Reg) (i : Nat) (v : Word) : (s.csrSet r i v).hbmc = s.hbmc := rfl
@[simp] theorem State.csrSet_stkPort (s : State) (r : Reg) (i : Nat) (v : Word) : (s.csrSet r i v).stkPort = s.stkPort := rfl
@[simp] theorem State.csrSet_granBad (s : State) (r : Reg) (i : Nat) (v : Word) : (s.csrSet r i v).granBad = s.granBad := rfl
@[simp] theorem State.csrSet_granWait (s : State) (r : Reg) (i : Nat) (v : Word) : (s.csrSet r i v).granWait = s.granWait := rfl
@[simp] theorem State.csrSet_groups (s : State) (r : Reg) (i : Nat) (v : Word) : (s.csrSet r i v).groups = s.groups := rfl
@[simp] theorem State.csrSet_pmSnap (s : State) (r : Reg) (i : Nat) (v : Word) : (s.csrSet r i v).pmSnap = s.pmSnap := rfl
@[simp] theorem State.csrSet_sinkPost (s : State) (r : Reg) (i : Nat) (v : Word) : (s.csrSet r i v).sinkPost = s.sinkPost := rfl
@[simp] theorem State.setFld_pending (s : State) (f : Fld) (i v : Nat) : (s.setFld f i v).pending = s.pending := rfl
@[simp] theorem State.setFld_resp (s : State) (f : Fld) (i v : Nat) : (s.setFld f i v).resp = s.resp := rfl
@[simp] theorem State.setFld_free (s : State) (f : Fld) (i v : Nat) : (s.setFld f i v).free = s.free := rfl
@[simp] theorem State.setFld_draws (s : State) (f : Fld) (i v : Nat) : (s.setFld f i v).draws = s.draws := rfl
@[simp] theorem State.setFld_mem (s : State) (f : Fld) (i v : Nat) : (s.setFld f i v).mem = s.mem := rfl
@[simp] theorem State.setFld_blown (s : State) (f : Fld) (i v : Nat) : (s.setFld f i v).blown = s.blown := rfl
@[simp] theorem State.setFld_ext (s : State) (f : Fld) (i v : Nat) : (s.setFld f i v).ext = s.ext := rfl
@[simp] theorem State.setFld_tap (s : State) (f : Fld) (i v : Nat) : (s.setFld f i v).tap = s.tap := rfl
@[simp] theorem State.setFld_pwr (s : State) (f : Fld) (i v : Nat) : (s.setFld f i v).pwr = s.pwr := rfl
@[simp] theorem State.setFld_isl (s : State) (f : Fld) (i v : Nat) : (s.setFld f i v).isl = s.isl := rfl
@[simp] theorem State.setFld_bell (s : State) (f : Fld) (i v : Nat) : (s.setFld f i v).bell = s.bell := rfl
@[simp] theorem State.setFld_reeve (s : State) (f : Fld) (i v : Nat) : (s.setFld f i v).reeve = s.reeve := rfl
@[simp] theorem State.setFld_cocoon (s : State) (f : Fld) (i v : Nat) : (s.setFld f i v).cocoon = s.cocoon := rfl
@[simp] theorem State.setFld_slots (s : State) (f : Fld) (i v : Nat) : (s.setFld f i v).slots = s.slots := rfl
@[simp] theorem State.setFld_ckSlots (s : State) (f : Fld) (i v : Nat) : (s.setFld f i v).ckSlots = s.ckSlots := rfl
@[simp] theorem State.setFld_svc (s : State) (f : Fld) (i v : Nat) : (s.setFld f i v).svc = s.svc := rfl
@[simp] theorem State.setFld_cocoonVer (s : State) (f : Fld) (i v : Nat) : (s.setFld f i v).cocoonVer = s.cocoonVer := rfl
@[simp] theorem State.setFld_capNs (s : State) (f : Fld) (i v : Nat) : (s.setFld f i v).capNs = s.capNs := rfl
@[simp] theorem State.setFld_fwPend (s : State) (f : Fld) (i v : Nat) : (s.setFld f i v).fwPend = s.fwPend := rfl
@[simp] theorem State.setFld_keys (s : State) (f : Fld) (i v : Nat) : (s.setFld f i v).keys = s.keys := rfl
@[simp] theorem State.setFld_icStack (s : State) (f : Fld) (i v : Nat) : (s.setFld f i v).icStack = s.icStack := rfl
@[simp] theorem State.setFld_threads (s : State) (f : Fld) (i v : Nat) : (s.setFld f i v).threads = s.threads := rfl
@[simp] theorem State.setFld_gclDue (s : State) (f : Fld) (i v : Nat) : (s.setFld f i v).gclDue = s.gclDue := rfl
@[simp] theorem State.setFld_ports (s : State) (f : Fld) (i v : Nat) : (s.setFld f i v).ports = s.ports := rfl
@[simp] theorem State.setFld_frer (s : State) (f : Fld) (i v : Nat) : (s.setFld f i v).frer = s.frer := rfl
@[simp] theorem State.setFld_flow (s : State) (f : Fld) (i v : Nat) : (s.setFld f i v).flow = s.flow := rfl
@[simp] theorem State.setFld_coal (s : State) (f : Fld) (i v : Nat) : (s.setFld f i v).coal = s.coal := rfl
@[simp] theorem State.setFld_pmbus (s : State) (f : Fld) (i v : Nat) : (s.setFld f i v).pmbus = s.pmbus := rfl
@[simp] theorem State.setFld_cores (s : State) (f : Fld) (i v : Nat) : (s.setFld f i v).cores = s.cores := rfl
@[simp] theorem State.setFld_llc (s : State) (f : Fld) (i v : Nat) : (s.setFld f i v).llc = s.llc := rfl
@[simp] theorem State.setFld_hbmBad (s : State) (f : Fld) (i v : Nat) : (s.setFld f i v).hbmBad = s.hbmBad := rfl
@[simp] theorem State.setFld_hbmSym (s : State) (f : Fld) (i v : Nat) : (s.setFld f i v).hbmSym = s.hbmSym := rfl
@[simp] theorem State.setFld_hbmc (s : State) (f : Fld) (i v : Nat) : (s.setFld f i v).hbmc = s.hbmc := rfl
@[simp] theorem State.setFld_stkPort (s : State) (f : Fld) (i v : Nat) : (s.setFld f i v).stkPort = s.stkPort := rfl
@[simp] theorem State.setFld_granBad (s : State) (f : Fld) (i v : Nat) : (s.setFld f i v).granBad = s.granBad := rfl
@[simp] theorem State.setFld_granWait (s : State) (f : Fld) (i v : Nat) : (s.setFld f i v).granWait = s.granWait := rfl
@[simp] theorem State.setFld_groups (s : State) (f : Fld) (i v : Nat) : (s.setFld f i v).groups = s.groups := rfl
@[simp] theorem State.setFld_pmSnap (s : State) (f : Fld) (i v : Nat) : (s.setFld f i v).pmSnap = s.pmSnap := rfl
@[simp] theorem State.setFld_sinkPost (s : State) (f : Fld) (i v : Nat) : (s.setFld f i v).sinkPost = s.sinkPost := rfl
@[simp] theorem State.reply_pending (s : State) (v : BitVec 256) : (s.reply v).pending = s.pending := rfl
@[simp] theorem State.reply_free (s : State) (v : BitVec 256) : (s.reply v).free = s.free := rfl
@[simp] theorem State.reply_draws (s : State) (v : BitVec 256) : (s.reply v).draws = s.draws := rfl
@[simp] theorem State.reply_csr (s : State) (v : BitVec 256) : (s.reply v).csr = s.csr := rfl
@[simp] theorem State.reply_mem (s : State) (v : BitVec 256) : (s.reply v).mem = s.mem := rfl
@[simp] theorem State.reply_blown (s : State) (v : BitVec 256) : (s.reply v).blown = s.blown := rfl
@[simp] theorem State.reply_ext (s : State) (v : BitVec 256) : (s.reply v).ext = s.ext := rfl
@[simp] theorem State.reply_tap (s : State) (v : BitVec 256) : (s.reply v).tap = s.tap := rfl
@[simp] theorem State.reply_pwr (s : State) (v : BitVec 256) : (s.reply v).pwr = s.pwr := rfl
@[simp] theorem State.reply_isl (s : State) (v : BitVec 256) : (s.reply v).isl = s.isl := rfl
@[simp] theorem State.reply_bell (s : State) (v : BitVec 256) : (s.reply v).bell = s.bell := rfl
@[simp] theorem State.reply_reeve (s : State) (v : BitVec 256) : (s.reply v).reeve = s.reeve := rfl
@[simp] theorem State.reply_cocoon (s : State) (v : BitVec 256) : (s.reply v).cocoon = s.cocoon := rfl
@[simp] theorem State.reply_slots (s : State) (v : BitVec 256) : (s.reply v).slots = s.slots := rfl
@[simp] theorem State.reply_ckSlots (s : State) (v : BitVec 256) : (s.reply v).ckSlots = s.ckSlots := rfl
@[simp] theorem State.reply_svc (s : State) (v : BitVec 256) : (s.reply v).svc = s.svc := rfl
@[simp] theorem State.reply_cocoonVer (s : State) (v : BitVec 256) : (s.reply v).cocoonVer = s.cocoonVer := rfl
@[simp] theorem State.reply_capNs (s : State) (v : BitVec 256) : (s.reply v).capNs = s.capNs := rfl
@[simp] theorem State.reply_fwPend (s : State) (v : BitVec 256) : (s.reply v).fwPend = s.fwPend := rfl
@[simp] theorem State.reply_keys (s : State) (v : BitVec 256) : (s.reply v).keys = s.keys := rfl
@[simp] theorem State.reply_icStack (s : State) (v : BitVec 256) : (s.reply v).icStack = s.icStack := rfl
@[simp] theorem State.reply_threads (s : State) (v : BitVec 256) : (s.reply v).threads = s.threads := rfl
@[simp] theorem State.reply_gclDue (s : State) (v : BitVec 256) : (s.reply v).gclDue = s.gclDue := rfl
@[simp] theorem State.reply_ports (s : State) (v : BitVec 256) : (s.reply v).ports = s.ports := rfl
@[simp] theorem State.reply_frer (s : State) (v : BitVec 256) : (s.reply v).frer = s.frer := rfl
@[simp] theorem State.reply_flow (s : State) (v : BitVec 256) : (s.reply v).flow = s.flow := rfl
@[simp] theorem State.reply_coal (s : State) (v : BitVec 256) : (s.reply v).coal = s.coal := rfl
@[simp] theorem State.reply_pmbus (s : State) (v : BitVec 256) : (s.reply v).pmbus = s.pmbus := rfl
@[simp] theorem State.reply_cores (s : State) (v : BitVec 256) : (s.reply v).cores = s.cores := rfl
@[simp] theorem State.reply_llc (s : State) (v : BitVec 256) : (s.reply v).llc = s.llc := rfl
@[simp] theorem State.reply_hbmBad (s : State) (v : BitVec 256) : (s.reply v).hbmBad = s.hbmBad := rfl
@[simp] theorem State.reply_hbmSym (s : State) (v : BitVec 256) : (s.reply v).hbmSym = s.hbmSym := rfl
@[simp] theorem State.reply_hbmc (s : State) (v : BitVec 256) : (s.reply v).hbmc = s.hbmc := rfl
@[simp] theorem State.reply_stkPort (s : State) (v : BitVec 256) : (s.reply v).stkPort = s.stkPort := rfl
@[simp] theorem State.reply_granBad (s : State) (v : BitVec 256) : (s.reply v).granBad = s.granBad := rfl
@[simp] theorem State.reply_granWait (s : State) (v : BitVec 256) : (s.reply v).granWait = s.granWait := rfl
@[simp] theorem State.reply_groups (s : State) (v : BitVec 256) : (s.reply v).groups = s.groups := rfl
@[simp] theorem State.reply_pmSnap (s : State) (v : BitVec 256) : (s.reply v).pmSnap = s.pmSnap := rfl
@[simp] theorem State.reply_sinkPost (s : State) (v : BitVec 256) : (s.reply v).sinkPost = s.sinkPost := rfl
@[simp] theorem State.replyErr_pending (s : State) : (s.replyErr).pending = s.pending := rfl
@[simp] theorem State.replyErr_free (s : State) : (s.replyErr).free = s.free := rfl
@[simp] theorem State.replyErr_draws (s : State) : (s.replyErr).draws = s.draws := rfl
@[simp] theorem State.replyErr_csr (s : State) : (s.replyErr).csr = s.csr := rfl
@[simp] theorem State.replyErr_mem (s : State) : (s.replyErr).mem = s.mem := rfl
@[simp] theorem State.replyErr_blown (s : State) : (s.replyErr).blown = s.blown := rfl
@[simp] theorem State.replyErr_ext (s : State) : (s.replyErr).ext = s.ext := rfl
@[simp] theorem State.replyErr_tap (s : State) : (s.replyErr).tap = s.tap := rfl
@[simp] theorem State.replyErr_pwr (s : State) : (s.replyErr).pwr = s.pwr := rfl
@[simp] theorem State.replyErr_isl (s : State) : (s.replyErr).isl = s.isl := rfl
@[simp] theorem State.replyErr_bell (s : State) : (s.replyErr).bell = s.bell := rfl
@[simp] theorem State.replyErr_reeve (s : State) : (s.replyErr).reeve = s.reeve := rfl
@[simp] theorem State.replyErr_cocoon (s : State) : (s.replyErr).cocoon = s.cocoon := rfl
@[simp] theorem State.replyErr_slots (s : State) : (s.replyErr).slots = s.slots := rfl
@[simp] theorem State.replyErr_ckSlots (s : State) : (s.replyErr).ckSlots = s.ckSlots := rfl
@[simp] theorem State.replyErr_svc (s : State) : (s.replyErr).svc = s.svc := rfl
@[simp] theorem State.replyErr_cocoonVer (s : State) : (s.replyErr).cocoonVer = s.cocoonVer := rfl
@[simp] theorem State.replyErr_capNs (s : State) : (s.replyErr).capNs = s.capNs := rfl
@[simp] theorem State.replyErr_fwPend (s : State) : (s.replyErr).fwPend = s.fwPend := rfl
@[simp] theorem State.replyErr_keys (s : State) : (s.replyErr).keys = s.keys := rfl
@[simp] theorem State.replyErr_icStack (s : State) : (s.replyErr).icStack = s.icStack := rfl
@[simp] theorem State.replyErr_threads (s : State) : (s.replyErr).threads = s.threads := rfl
@[simp] theorem State.replyErr_gclDue (s : State) : (s.replyErr).gclDue = s.gclDue := rfl
@[simp] theorem State.replyErr_ports (s : State) : (s.replyErr).ports = s.ports := rfl
@[simp] theorem State.replyErr_frer (s : State) : (s.replyErr).frer = s.frer := rfl
@[simp] theorem State.replyErr_flow (s : State) : (s.replyErr).flow = s.flow := rfl
@[simp] theorem State.replyErr_coal (s : State) : (s.replyErr).coal = s.coal := rfl
@[simp] theorem State.replyErr_pmbus (s : State) : (s.replyErr).pmbus = s.pmbus := rfl
@[simp] theorem State.replyErr_cores (s : State) : (s.replyErr).cores = s.cores := rfl
@[simp] theorem State.replyErr_llc (s : State) : (s.replyErr).llc = s.llc := rfl
@[simp] theorem State.replyErr_hbmBad (s : State) : (s.replyErr).hbmBad = s.hbmBad := rfl
@[simp] theorem State.replyErr_hbmSym (s : State) : (s.replyErr).hbmSym = s.hbmSym := rfl
@[simp] theorem State.replyErr_hbmc (s : State) : (s.replyErr).hbmc = s.hbmc := rfl
@[simp] theorem State.replyErr_stkPort (s : State) : (s.replyErr).stkPort = s.stkPort := rfl
@[simp] theorem State.replyErr_granBad (s : State) : (s.replyErr).granBad = s.granBad := rfl
@[simp] theorem State.replyErr_granWait (s : State) : (s.replyErr).granWait = s.granWait := rfl
@[simp] theorem State.replyErr_groups (s : State) : (s.replyErr).groups = s.groups := rfl
@[simp] theorem State.replyErr_pmSnap (s : State) : (s.replyErr).pmSnap = s.pmSnap := rfl
@[simp] theorem State.replyErr_sinkPost (s : State) : (s.replyErr).sinkPost = s.sinkPost := rfl
@[simp] theorem State.setCore_pending (s : State) (c : Nat) (k : Core) : (s.setCore c k).pending = s.pending := rfl
@[simp] theorem State.setCore_resp (s : State) (c : Nat) (k : Core) : (s.setCore c k).resp = s.resp := rfl
@[simp] theorem State.setCore_free (s : State) (c : Nat) (k : Core) : (s.setCore c k).free = s.free := rfl
@[simp] theorem State.setCore_draws (s : State) (c : Nat) (k : Core) : (s.setCore c k).draws = s.draws := rfl
@[simp] theorem State.setCore_csr (s : State) (c : Nat) (k : Core) : (s.setCore c k).csr = s.csr := rfl
@[simp] theorem State.setCore_mem (s : State) (c : Nat) (k : Core) : (s.setCore c k).mem = s.mem := rfl
@[simp] theorem State.setCore_blown (s : State) (c : Nat) (k : Core) : (s.setCore c k).blown = s.blown := rfl
@[simp] theorem State.setCore_ext (s : State) (c : Nat) (k : Core) : (s.setCore c k).ext = s.ext := rfl
@[simp] theorem State.setCore_tap (s : State) (c : Nat) (k : Core) : (s.setCore c k).tap = s.tap := rfl
@[simp] theorem State.setCore_pwr (s : State) (c : Nat) (k : Core) : (s.setCore c k).pwr = s.pwr := rfl
@[simp] theorem State.setCore_isl (s : State) (c : Nat) (k : Core) : (s.setCore c k).isl = s.isl := rfl
@[simp] theorem State.setCore_bell (s : State) (c : Nat) (k : Core) : (s.setCore c k).bell = s.bell := rfl
@[simp] theorem State.setCore_reeve (s : State) (c : Nat) (k : Core) : (s.setCore c k).reeve = s.reeve := rfl
@[simp] theorem State.setCore_cocoon (s : State) (c : Nat) (k : Core) : (s.setCore c k).cocoon = s.cocoon := rfl
@[simp] theorem State.setCore_slots (s : State) (c : Nat) (k : Core) : (s.setCore c k).slots = s.slots := rfl
@[simp] theorem State.setCore_ckSlots (s : State) (c : Nat) (k : Core) : (s.setCore c k).ckSlots = s.ckSlots := rfl
@[simp] theorem State.setCore_svc (s : State) (c : Nat) (k : Core) : (s.setCore c k).svc = s.svc := rfl
@[simp] theorem State.setCore_cocoonVer (s : State) (c : Nat) (k : Core) : (s.setCore c k).cocoonVer = s.cocoonVer := rfl
@[simp] theorem State.setCore_capNs (s : State) (c : Nat) (k : Core) : (s.setCore c k).capNs = s.capNs := rfl
@[simp] theorem State.setCore_fwPend (s : State) (c : Nat) (k : Core) : (s.setCore c k).fwPend = s.fwPend := rfl
@[simp] theorem State.setCore_keys (s : State) (c : Nat) (k : Core) : (s.setCore c k).keys = s.keys := rfl
@[simp] theorem State.setCore_icStack (s : State) (c : Nat) (k : Core) : (s.setCore c k).icStack = s.icStack := rfl
@[simp] theorem State.setCore_threads (s : State) (c : Nat) (k : Core) : (s.setCore c k).threads = s.threads := rfl
@[simp] theorem State.setCore_gclDue (s : State) (c : Nat) (k : Core) : (s.setCore c k).gclDue = s.gclDue := rfl
@[simp] theorem State.setCore_ports (s : State) (c : Nat) (k : Core) : (s.setCore c k).ports = s.ports := rfl
@[simp] theorem State.setCore_frer (s : State) (c : Nat) (k : Core) : (s.setCore c k).frer = s.frer := rfl
@[simp] theorem State.setCore_flow (s : State) (c : Nat) (k : Core) : (s.setCore c k).flow = s.flow := rfl
@[simp] theorem State.setCore_coal (s : State) (c : Nat) (k : Core) : (s.setCore c k).coal = s.coal := rfl
@[simp] theorem State.setCore_pmbus (s : State) (c : Nat) (k : Core) : (s.setCore c k).pmbus = s.pmbus := rfl
@[simp] theorem State.setCore_llc (s : State) (c : Nat) (k : Core) : (s.setCore c k).llc = s.llc := rfl
@[simp] theorem State.setCore_hbmBad (s : State) (c : Nat) (k : Core) : (s.setCore c k).hbmBad = s.hbmBad := rfl
@[simp] theorem State.setCore_hbmSym (s : State) (c : Nat) (k : Core) : (s.setCore c k).hbmSym = s.hbmSym := rfl
@[simp] theorem State.setCore_hbmc (s : State) (c : Nat) (k : Core) : (s.setCore c k).hbmc = s.hbmc := rfl
@[simp] theorem State.setCore_stkPort (s : State) (c : Nat) (k : Core) : (s.setCore c k).stkPort = s.stkPort := rfl
@[simp] theorem State.setCore_granBad (s : State) (c : Nat) (k : Core) : (s.setCore c k).granBad = s.granBad := rfl
@[simp] theorem State.setCore_granWait (s : State) (c : Nat) (k : Core) : (s.setCore c k).granWait = s.granWait := rfl
@[simp] theorem State.setCore_groups (s : State) (c : Nat) (k : Core) : (s.setCore c k).groups = s.groups := rfl
@[simp] theorem State.setCore_pmSnap (s : State) (c : Nat) (k : Core) : (s.setCore c k).pmSnap = s.pmSnap := rfl
@[simp] theorem State.setCore_sinkPost (s : State) (c : Nat) (k : Core) : (s.setCore c k).sinkPost = s.sinkPost := rfl
@[simp] theorem State.modCore_pending (s : State) (c : Nat) (f : Core → Core) : (s.modCore c f).pending = s.pending := rfl
@[simp] theorem State.modCore_resp (s : State) (c : Nat) (f : Core → Core) : (s.modCore c f).resp = s.resp := rfl
@[simp] theorem State.modCore_free (s : State) (c : Nat) (f : Core → Core) : (s.modCore c f).free = s.free := rfl
@[simp] theorem State.modCore_draws (s : State) (c : Nat) (f : Core → Core) : (s.modCore c f).draws = s.draws := rfl
@[simp] theorem State.modCore_csr (s : State) (c : Nat) (f : Core → Core) : (s.modCore c f).csr = s.csr := rfl
@[simp] theorem State.modCore_mem (s : State) (c : Nat) (f : Core → Core) : (s.modCore c f).mem = s.mem := rfl
@[simp] theorem State.modCore_blown (s : State) (c : Nat) (f : Core → Core) : (s.modCore c f).blown = s.blown := rfl
@[simp] theorem State.modCore_ext (s : State) (c : Nat) (f : Core → Core) : (s.modCore c f).ext = s.ext := rfl
@[simp] theorem State.modCore_tap (s : State) (c : Nat) (f : Core → Core) : (s.modCore c f).tap = s.tap := rfl
@[simp] theorem State.modCore_pwr (s : State) (c : Nat) (f : Core → Core) : (s.modCore c f).pwr = s.pwr := rfl
@[simp] theorem State.modCore_isl (s : State) (c : Nat) (f : Core → Core) : (s.modCore c f).isl = s.isl := rfl
@[simp] theorem State.modCore_bell (s : State) (c : Nat) (f : Core → Core) : (s.modCore c f).bell = s.bell := rfl
@[simp] theorem State.modCore_reeve (s : State) (c : Nat) (f : Core → Core) : (s.modCore c f).reeve = s.reeve := rfl
@[simp] theorem State.modCore_cocoon (s : State) (c : Nat) (f : Core → Core) : (s.modCore c f).cocoon = s.cocoon := rfl
@[simp] theorem State.modCore_slots (s : State) (c : Nat) (f : Core → Core) : (s.modCore c f).slots = s.slots := rfl
@[simp] theorem State.modCore_ckSlots (s : State) (c : Nat) (f : Core → Core) : (s.modCore c f).ckSlots = s.ckSlots := rfl
@[simp] theorem State.modCore_svc (s : State) (c : Nat) (f : Core → Core) : (s.modCore c f).svc = s.svc := rfl
@[simp] theorem State.modCore_cocoonVer (s : State) (c : Nat) (f : Core → Core) : (s.modCore c f).cocoonVer = s.cocoonVer := rfl
@[simp] theorem State.modCore_capNs (s : State) (c : Nat) (f : Core → Core) : (s.modCore c f).capNs = s.capNs := rfl
@[simp] theorem State.modCore_fwPend (s : State) (c : Nat) (f : Core → Core) : (s.modCore c f).fwPend = s.fwPend := rfl
@[simp] theorem State.modCore_keys (s : State) (c : Nat) (f : Core → Core) : (s.modCore c f).keys = s.keys := rfl
@[simp] theorem State.modCore_icStack (s : State) (c : Nat) (f : Core → Core) : (s.modCore c f).icStack = s.icStack := rfl
@[simp] theorem State.modCore_threads (s : State) (c : Nat) (f : Core → Core) : (s.modCore c f).threads = s.threads := rfl
@[simp] theorem State.modCore_gclDue (s : State) (c : Nat) (f : Core → Core) : (s.modCore c f).gclDue = s.gclDue := rfl
@[simp] theorem State.modCore_ports (s : State) (c : Nat) (f : Core → Core) : (s.modCore c f).ports = s.ports := rfl
@[simp] theorem State.modCore_frer (s : State) (c : Nat) (f : Core → Core) : (s.modCore c f).frer = s.frer := rfl
@[simp] theorem State.modCore_flow (s : State) (c : Nat) (f : Core → Core) : (s.modCore c f).flow = s.flow := rfl
@[simp] theorem State.modCore_coal (s : State) (c : Nat) (f : Core → Core) : (s.modCore c f).coal = s.coal := rfl
@[simp] theorem State.modCore_pmbus (s : State) (c : Nat) (f : Core → Core) : (s.modCore c f).pmbus = s.pmbus := rfl
@[simp] theorem State.modCore_llc (s : State) (c : Nat) (f : Core → Core) : (s.modCore c f).llc = s.llc := rfl
@[simp] theorem State.modCore_hbmBad (s : State) (c : Nat) (f : Core → Core) : (s.modCore c f).hbmBad = s.hbmBad := rfl
@[simp] theorem State.modCore_hbmSym (s : State) (c : Nat) (f : Core → Core) : (s.modCore c f).hbmSym = s.hbmSym := rfl
@[simp] theorem State.modCore_hbmc (s : State) (c : Nat) (f : Core → Core) : (s.modCore c f).hbmc = s.hbmc := rfl
@[simp] theorem State.modCore_stkPort (s : State) (c : Nat) (f : Core → Core) : (s.modCore c f).stkPort = s.stkPort := rfl
@[simp] theorem State.modCore_granBad (s : State) (c : Nat) (f : Core → Core) : (s.modCore c f).granBad = s.granBad := rfl
@[simp] theorem State.modCore_granWait (s : State) (c : Nat) (f : Core → Core) : (s.modCore c f).granWait = s.granWait := rfl
@[simp] theorem State.modCore_groups (s : State) (c : Nat) (f : Core → Core) : (s.modCore c f).groups = s.groups := rfl
@[simp] theorem State.modCore_pmSnap (s : State) (c : Nat) (f : Core → Core) : (s.modCore c f).pmSnap = s.pmSnap := rfl
@[simp] theorem State.modCore_sinkPost (s : State) (c : Nat) (f : Core → Core) : (s.modCore c f).sinkPost = s.sinkPost := rfl
@[simp] theorem State.modIsland_pending (s : State) (j : Nat) (f : Island → Island) : (s.modIsland j f).pending = s.pending := rfl
@[simp] theorem State.modIsland_resp (s : State) (j : Nat) (f : Island → Island) : (s.modIsland j f).resp = s.resp := rfl
@[simp] theorem State.modIsland_free (s : State) (j : Nat) (f : Island → Island) : (s.modIsland j f).free = s.free := rfl
@[simp] theorem State.modIsland_draws (s : State) (j : Nat) (f : Island → Island) : (s.modIsland j f).draws = s.draws := rfl
@[simp] theorem State.modIsland_csr (s : State) (j : Nat) (f : Island → Island) : (s.modIsland j f).csr = s.csr := rfl
@[simp] theorem State.modIsland_mem (s : State) (j : Nat) (f : Island → Island) : (s.modIsland j f).mem = s.mem := rfl
@[simp] theorem State.modIsland_blown (s : State) (j : Nat) (f : Island → Island) : (s.modIsland j f).blown = s.blown := rfl
@[simp] theorem State.modIsland_ext (s : State) (j : Nat) (f : Island → Island) : (s.modIsland j f).ext = s.ext := rfl
@[simp] theorem State.modIsland_tap (s : State) (j : Nat) (f : Island → Island) : (s.modIsland j f).tap = s.tap := rfl
@[simp] theorem State.modIsland_pwr (s : State) (j : Nat) (f : Island → Island) : (s.modIsland j f).pwr = s.pwr := rfl
@[simp] theorem State.modIsland_bell (s : State) (j : Nat) (f : Island → Island) : (s.modIsland j f).bell = s.bell := rfl
@[simp] theorem State.modIsland_reeve (s : State) (j : Nat) (f : Island → Island) : (s.modIsland j f).reeve = s.reeve := rfl
@[simp] theorem State.modIsland_cocoon (s : State) (j : Nat) (f : Island → Island) : (s.modIsland j f).cocoon = s.cocoon := rfl
@[simp] theorem State.modIsland_slots (s : State) (j : Nat) (f : Island → Island) : (s.modIsland j f).slots = s.slots := rfl
@[simp] theorem State.modIsland_ckSlots (s : State) (j : Nat) (f : Island → Island) : (s.modIsland j f).ckSlots = s.ckSlots := rfl
@[simp] theorem State.modIsland_svc (s : State) (j : Nat) (f : Island → Island) : (s.modIsland j f).svc = s.svc := rfl
@[simp] theorem State.modIsland_cocoonVer (s : State) (j : Nat) (f : Island → Island) : (s.modIsland j f).cocoonVer = s.cocoonVer := rfl
@[simp] theorem State.modIsland_capNs (s : State) (j : Nat) (f : Island → Island) : (s.modIsland j f).capNs = s.capNs := rfl
@[simp] theorem State.modIsland_fwPend (s : State) (j : Nat) (f : Island → Island) : (s.modIsland j f).fwPend = s.fwPend := rfl
@[simp] theorem State.modIsland_keys (s : State) (j : Nat) (f : Island → Island) : (s.modIsland j f).keys = s.keys := rfl
@[simp] theorem State.modIsland_icStack (s : State) (j : Nat) (f : Island → Island) : (s.modIsland j f).icStack = s.icStack := rfl
@[simp] theorem State.modIsland_threads (s : State) (j : Nat) (f : Island → Island) : (s.modIsland j f).threads = s.threads := rfl
@[simp] theorem State.modIsland_gclDue (s : State) (j : Nat) (f : Island → Island) : (s.modIsland j f).gclDue = s.gclDue := rfl
@[simp] theorem State.modIsland_ports (s : State) (j : Nat) (f : Island → Island) : (s.modIsland j f).ports = s.ports := rfl
@[simp] theorem State.modIsland_frer (s : State) (j : Nat) (f : Island → Island) : (s.modIsland j f).frer = s.frer := rfl
@[simp] theorem State.modIsland_flow (s : State) (j : Nat) (f : Island → Island) : (s.modIsland j f).flow = s.flow := rfl
@[simp] theorem State.modIsland_coal (s : State) (j : Nat) (f : Island → Island) : (s.modIsland j f).coal = s.coal := rfl
@[simp] theorem State.modIsland_pmbus (s : State) (j : Nat) (f : Island → Island) : (s.modIsland j f).pmbus = s.pmbus := rfl
@[simp] theorem State.modIsland_cores (s : State) (j : Nat) (f : Island → Island) : (s.modIsland j f).cores = s.cores := rfl
@[simp] theorem State.modIsland_llc (s : State) (j : Nat) (f : Island → Island) : (s.modIsland j f).llc = s.llc := rfl
@[simp] theorem State.modIsland_hbmBad (s : State) (j : Nat) (f : Island → Island) : (s.modIsland j f).hbmBad = s.hbmBad := rfl
@[simp] theorem State.modIsland_hbmSym (s : State) (j : Nat) (f : Island → Island) : (s.modIsland j f).hbmSym = s.hbmSym := rfl
@[simp] theorem State.modIsland_hbmc (s : State) (j : Nat) (f : Island → Island) : (s.modIsland j f).hbmc = s.hbmc := rfl
@[simp] theorem State.modIsland_stkPort (s : State) (j : Nat) (f : Island → Island) : (s.modIsland j f).stkPort = s.stkPort := rfl
@[simp] theorem State.modIsland_granBad (s : State) (j : Nat) (f : Island → Island) : (s.modIsland j f).granBad = s.granBad := rfl
@[simp] theorem State.modIsland_granWait (s : State) (j : Nat) (f : Island → Island) : (s.modIsland j f).granWait = s.granWait := rfl
@[simp] theorem State.modIsland_groups (s : State) (j : Nat) (f : Island → Island) : (s.modIsland j f).groups = s.groups := rfl
@[simp] theorem State.modIsland_pmSnap (s : State) (j : Nat) (f : Island → Island) : (s.modIsland j f).pmSnap = s.pmSnap := rfl
@[simp] theorem State.modIsland_sinkPost (s : State) (j : Nat) (f : Island → Island) : (s.modIsland j f).sinkPost = s.sinkPost := rfl
@[simp] theorem State.modSlot_pending (s : State) (m : Nat) (f : Slot → Slot) : (s.modSlot m f).pending = s.pending := rfl
@[simp] theorem State.modSlot_resp (s : State) (m : Nat) (f : Slot → Slot) : (s.modSlot m f).resp = s.resp := rfl
@[simp] theorem State.modSlot_free (s : State) (m : Nat) (f : Slot → Slot) : (s.modSlot m f).free = s.free := rfl
@[simp] theorem State.modSlot_draws (s : State) (m : Nat) (f : Slot → Slot) : (s.modSlot m f).draws = s.draws := rfl
@[simp] theorem State.modSlot_csr (s : State) (m : Nat) (f : Slot → Slot) : (s.modSlot m f).csr = s.csr := rfl
@[simp] theorem State.modSlot_mem (s : State) (m : Nat) (f : Slot → Slot) : (s.modSlot m f).mem = s.mem := rfl
@[simp] theorem State.modSlot_blown (s : State) (m : Nat) (f : Slot → Slot) : (s.modSlot m f).blown = s.blown := rfl
@[simp] theorem State.modSlot_ext (s : State) (m : Nat) (f : Slot → Slot) : (s.modSlot m f).ext = s.ext := rfl
@[simp] theorem State.modSlot_tap (s : State) (m : Nat) (f : Slot → Slot) : (s.modSlot m f).tap = s.tap := rfl
@[simp] theorem State.modSlot_pwr (s : State) (m : Nat) (f : Slot → Slot) : (s.modSlot m f).pwr = s.pwr := rfl
@[simp] theorem State.modSlot_isl (s : State) (m : Nat) (f : Slot → Slot) : (s.modSlot m f).isl = s.isl := rfl
@[simp] theorem State.modSlot_bell (s : State) (m : Nat) (f : Slot → Slot) : (s.modSlot m f).bell = s.bell := rfl
@[simp] theorem State.modSlot_reeve (s : State) (m : Nat) (f : Slot → Slot) : (s.modSlot m f).reeve = s.reeve := rfl
@[simp] theorem State.modSlot_cocoon (s : State) (m : Nat) (f : Slot → Slot) : (s.modSlot m f).cocoon = s.cocoon := rfl
@[simp] theorem State.modSlot_ckSlots (s : State) (m : Nat) (f : Slot → Slot) : (s.modSlot m f).ckSlots = s.ckSlots := rfl
@[simp] theorem State.modSlot_svc (s : State) (m : Nat) (f : Slot → Slot) : (s.modSlot m f).svc = s.svc := rfl
@[simp] theorem State.modSlot_cocoonVer (s : State) (m : Nat) (f : Slot → Slot) : (s.modSlot m f).cocoonVer = s.cocoonVer := rfl
@[simp] theorem State.modSlot_capNs (s : State) (m : Nat) (f : Slot → Slot) : (s.modSlot m f).capNs = s.capNs := rfl
@[simp] theorem State.modSlot_fwPend (s : State) (m : Nat) (f : Slot → Slot) : (s.modSlot m f).fwPend = s.fwPend := rfl
@[simp] theorem State.modSlot_keys (s : State) (m : Nat) (f : Slot → Slot) : (s.modSlot m f).keys = s.keys := rfl
@[simp] theorem State.modSlot_icStack (s : State) (m : Nat) (f : Slot → Slot) : (s.modSlot m f).icStack = s.icStack := rfl
@[simp] theorem State.modSlot_threads (s : State) (m : Nat) (f : Slot → Slot) : (s.modSlot m f).threads = s.threads := rfl
@[simp] theorem State.modSlot_gclDue (s : State) (m : Nat) (f : Slot → Slot) : (s.modSlot m f).gclDue = s.gclDue := rfl
@[simp] theorem State.modSlot_ports (s : State) (m : Nat) (f : Slot → Slot) : (s.modSlot m f).ports = s.ports := rfl
@[simp] theorem State.modSlot_frer (s : State) (m : Nat) (f : Slot → Slot) : (s.modSlot m f).frer = s.frer := rfl
@[simp] theorem State.modSlot_flow (s : State) (m : Nat) (f : Slot → Slot) : (s.modSlot m f).flow = s.flow := rfl
@[simp] theorem State.modSlot_coal (s : State) (m : Nat) (f : Slot → Slot) : (s.modSlot m f).coal = s.coal := rfl
@[simp] theorem State.modSlot_pmbus (s : State) (m : Nat) (f : Slot → Slot) : (s.modSlot m f).pmbus = s.pmbus := rfl
@[simp] theorem State.modSlot_cores (s : State) (m : Nat) (f : Slot → Slot) : (s.modSlot m f).cores = s.cores := rfl
@[simp] theorem State.modSlot_llc (s : State) (m : Nat) (f : Slot → Slot) : (s.modSlot m f).llc = s.llc := rfl
@[simp] theorem State.modSlot_hbmBad (s : State) (m : Nat) (f : Slot → Slot) : (s.modSlot m f).hbmBad = s.hbmBad := rfl
@[simp] theorem State.modSlot_hbmSym (s : State) (m : Nat) (f : Slot → Slot) : (s.modSlot m f).hbmSym = s.hbmSym := rfl
@[simp] theorem State.modSlot_hbmc (s : State) (m : Nat) (f : Slot → Slot) : (s.modSlot m f).hbmc = s.hbmc := rfl
@[simp] theorem State.modSlot_stkPort (s : State) (m : Nat) (f : Slot → Slot) : (s.modSlot m f).stkPort = s.stkPort := rfl
@[simp] theorem State.modSlot_granBad (s : State) (m : Nat) (f : Slot → Slot) : (s.modSlot m f).granBad = s.granBad := rfl
@[simp] theorem State.modSlot_granWait (s : State) (m : Nat) (f : Slot → Slot) : (s.modSlot m f).granWait = s.granWait := rfl
@[simp] theorem State.modSlot_groups (s : State) (m : Nat) (f : Slot → Slot) : (s.modSlot m f).groups = s.groups := rfl
@[simp] theorem State.modSlot_pmSnap (s : State) (m : Nat) (f : Slot → Slot) : (s.modSlot m f).pmSnap = s.pmSnap := rfl
@[simp] theorem State.modSlot_sinkPost (s : State) (m : Nat) (f : Slot → Slot) : (s.modSlot m f).sinkPost = s.sinkPost := rfl
@[simp] theorem State.modCkSlot_pending (s : State) (m : Nat) (f : Slot → Slot) : (s.modCkSlot m f).pending = s.pending := rfl
@[simp] theorem State.modCkSlot_resp (s : State) (m : Nat) (f : Slot → Slot) : (s.modCkSlot m f).resp = s.resp := rfl
@[simp] theorem State.modCkSlot_free (s : State) (m : Nat) (f : Slot → Slot) : (s.modCkSlot m f).free = s.free := rfl
@[simp] theorem State.modCkSlot_draws (s : State) (m : Nat) (f : Slot → Slot) : (s.modCkSlot m f).draws = s.draws := rfl
@[simp] theorem State.modCkSlot_csr (s : State) (m : Nat) (f : Slot → Slot) : (s.modCkSlot m f).csr = s.csr := rfl
@[simp] theorem State.modCkSlot_mem (s : State) (m : Nat) (f : Slot → Slot) : (s.modCkSlot m f).mem = s.mem := rfl
@[simp] theorem State.modCkSlot_blown (s : State) (m : Nat) (f : Slot → Slot) : (s.modCkSlot m f).blown = s.blown := rfl
@[simp] theorem State.modCkSlot_ext (s : State) (m : Nat) (f : Slot → Slot) : (s.modCkSlot m f).ext = s.ext := rfl
@[simp] theorem State.modCkSlot_tap (s : State) (m : Nat) (f : Slot → Slot) : (s.modCkSlot m f).tap = s.tap := rfl
@[simp] theorem State.modCkSlot_pwr (s : State) (m : Nat) (f : Slot → Slot) : (s.modCkSlot m f).pwr = s.pwr := rfl
@[simp] theorem State.modCkSlot_isl (s : State) (m : Nat) (f : Slot → Slot) : (s.modCkSlot m f).isl = s.isl := rfl
@[simp] theorem State.modCkSlot_bell (s : State) (m : Nat) (f : Slot → Slot) : (s.modCkSlot m f).bell = s.bell := rfl
@[simp] theorem State.modCkSlot_reeve (s : State) (m : Nat) (f : Slot → Slot) : (s.modCkSlot m f).reeve = s.reeve := rfl
@[simp] theorem State.modCkSlot_cocoon (s : State) (m : Nat) (f : Slot → Slot) : (s.modCkSlot m f).cocoon = s.cocoon := rfl
@[simp] theorem State.modCkSlot_slots (s : State) (m : Nat) (f : Slot → Slot) : (s.modCkSlot m f).slots = s.slots := rfl
@[simp] theorem State.modCkSlot_svc (s : State) (m : Nat) (f : Slot → Slot) : (s.modCkSlot m f).svc = s.svc := rfl
@[simp] theorem State.modCkSlot_cocoonVer (s : State) (m : Nat) (f : Slot → Slot) : (s.modCkSlot m f).cocoonVer = s.cocoonVer := rfl
@[simp] theorem State.modCkSlot_capNs (s : State) (m : Nat) (f : Slot → Slot) : (s.modCkSlot m f).capNs = s.capNs := rfl
@[simp] theorem State.modCkSlot_fwPend (s : State) (m : Nat) (f : Slot → Slot) : (s.modCkSlot m f).fwPend = s.fwPend := rfl
@[simp] theorem State.modCkSlot_keys (s : State) (m : Nat) (f : Slot → Slot) : (s.modCkSlot m f).keys = s.keys := rfl
@[simp] theorem State.modCkSlot_icStack (s : State) (m : Nat) (f : Slot → Slot) : (s.modCkSlot m f).icStack = s.icStack := rfl
@[simp] theorem State.modCkSlot_threads (s : State) (m : Nat) (f : Slot → Slot) : (s.modCkSlot m f).threads = s.threads := rfl
@[simp] theorem State.modCkSlot_gclDue (s : State) (m : Nat) (f : Slot → Slot) : (s.modCkSlot m f).gclDue = s.gclDue := rfl
@[simp] theorem State.modCkSlot_ports (s : State) (m : Nat) (f : Slot → Slot) : (s.modCkSlot m f).ports = s.ports := rfl
@[simp] theorem State.modCkSlot_frer (s : State) (m : Nat) (f : Slot → Slot) : (s.modCkSlot m f).frer = s.frer := rfl
@[simp] theorem State.modCkSlot_flow (s : State) (m : Nat) (f : Slot → Slot) : (s.modCkSlot m f).flow = s.flow := rfl
@[simp] theorem State.modCkSlot_coal (s : State) (m : Nat) (f : Slot → Slot) : (s.modCkSlot m f).coal = s.coal := rfl
@[simp] theorem State.modCkSlot_pmbus (s : State) (m : Nat) (f : Slot → Slot) : (s.modCkSlot m f).pmbus = s.pmbus := rfl
@[simp] theorem State.modCkSlot_cores (s : State) (m : Nat) (f : Slot → Slot) : (s.modCkSlot m f).cores = s.cores := rfl
@[simp] theorem State.modCkSlot_llc (s : State) (m : Nat) (f : Slot → Slot) : (s.modCkSlot m f).llc = s.llc := rfl
@[simp] theorem State.modCkSlot_hbmBad (s : State) (m : Nat) (f : Slot → Slot) : (s.modCkSlot m f).hbmBad = s.hbmBad := rfl
@[simp] theorem State.modCkSlot_hbmSym (s : State) (m : Nat) (f : Slot → Slot) : (s.modCkSlot m f).hbmSym = s.hbmSym := rfl
@[simp] theorem State.modCkSlot_hbmc (s : State) (m : Nat) (f : Slot → Slot) : (s.modCkSlot m f).hbmc = s.hbmc := rfl
@[simp] theorem State.modCkSlot_stkPort (s : State) (m : Nat) (f : Slot → Slot) : (s.modCkSlot m f).stkPort = s.stkPort := rfl
@[simp] theorem State.modCkSlot_granBad (s : State) (m : Nat) (f : Slot → Slot) : (s.modCkSlot m f).granBad = s.granBad := rfl
@[simp] theorem State.modCkSlot_granWait (s : State) (m : Nat) (f : Slot → Slot) : (s.modCkSlot m f).granWait = s.granWait := rfl
@[simp] theorem State.modCkSlot_groups (s : State) (m : Nat) (f : Slot → Slot) : (s.modCkSlot m f).groups = s.groups := rfl
@[simp] theorem State.modCkSlot_pmSnap (s : State) (m : Nat) (f : Slot → Slot) : (s.modCkSlot m f).pmSnap = s.pmSnap := rfl
@[simp] theorem State.modCkSlot_sinkPost (s : State) (m : Nat) (f : Slot → Slot) : (s.modCkSlot m f).sinkPost = s.sinkPost := rfl
@[simp] theorem State.setMbres_pending (s : State) (b : Bool) : (s.setMbres b).pending = s.pending := rfl
@[simp] theorem State.setMbres_resp (s : State) (b : Bool) : (s.setMbres b).resp = s.resp := rfl
@[simp] theorem State.setMbres_free (s : State) (b : Bool) : (s.setMbres b).free = s.free := rfl
@[simp] theorem State.setMbres_draws (s : State) (b : Bool) : (s.setMbres b).draws = s.draws := rfl
@[simp] theorem State.setMbres_csr (s : State) (b : Bool) : (s.setMbres b).csr = s.csr := rfl
@[simp] theorem State.setMbres_mem (s : State) (b : Bool) : (s.setMbres b).mem = s.mem := rfl
@[simp] theorem State.setMbres_blown (s : State) (b : Bool) : (s.setMbres b).blown = s.blown := rfl
@[simp] theorem State.setMbres_ext (s : State) (b : Bool) : (s.setMbres b).ext = s.ext := rfl
@[simp] theorem State.setMbres_tap (s : State) (b : Bool) : (s.setMbres b).tap = s.tap := rfl
@[simp] theorem State.setMbres_pwr (s : State) (b : Bool) : (s.setMbres b).pwr = s.pwr := rfl
@[simp] theorem State.setMbres_isl (s : State) (b : Bool) : (s.setMbres b).isl = s.isl := rfl
@[simp] theorem State.setMbres_bell (s : State) (b : Bool) : (s.setMbres b).bell = s.bell := rfl
@[simp] theorem State.setMbres_cocoon (s : State) (b : Bool) : (s.setMbres b).cocoon = s.cocoon := rfl
@[simp] theorem State.setMbres_slots (s : State) (b : Bool) : (s.setMbres b).slots = s.slots := rfl
@[simp] theorem State.setMbres_ckSlots (s : State) (b : Bool) : (s.setMbres b).ckSlots = s.ckSlots := rfl
@[simp] theorem State.setMbres_svc (s : State) (b : Bool) : (s.setMbres b).svc = s.svc := rfl
@[simp] theorem State.setMbres_cocoonVer (s : State) (b : Bool) : (s.setMbres b).cocoonVer = s.cocoonVer := rfl
@[simp] theorem State.setMbres_capNs (s : State) (b : Bool) : (s.setMbres b).capNs = s.capNs := rfl
@[simp] theorem State.setMbres_fwPend (s : State) (b : Bool) : (s.setMbres b).fwPend = s.fwPend := rfl
@[simp] theorem State.setMbres_keys (s : State) (b : Bool) : (s.setMbres b).keys = s.keys := rfl
@[simp] theorem State.setMbres_icStack (s : State) (b : Bool) : (s.setMbres b).icStack = s.icStack := rfl
@[simp] theorem State.setMbres_threads (s : State) (b : Bool) : (s.setMbres b).threads = s.threads := rfl
@[simp] theorem State.setMbres_gclDue (s : State) (b : Bool) : (s.setMbres b).gclDue = s.gclDue := rfl
@[simp] theorem State.setMbres_ports (s : State) (b : Bool) : (s.setMbres b).ports = s.ports := rfl
@[simp] theorem State.setMbres_frer (s : State) (b : Bool) : (s.setMbres b).frer = s.frer := rfl
@[simp] theorem State.setMbres_flow (s : State) (b : Bool) : (s.setMbres b).flow = s.flow := rfl
@[simp] theorem State.setMbres_coal (s : State) (b : Bool) : (s.setMbres b).coal = s.coal := rfl
@[simp] theorem State.setMbres_pmbus (s : State) (b : Bool) : (s.setMbres b).pmbus = s.pmbus := rfl
@[simp] theorem State.setMbres_cores (s : State) (b : Bool) : (s.setMbres b).cores = s.cores := rfl
@[simp] theorem State.setMbres_llc (s : State) (b : Bool) : (s.setMbres b).llc = s.llc := rfl
@[simp] theorem State.setMbres_hbmBad (s : State) (b : Bool) : (s.setMbres b).hbmBad = s.hbmBad := rfl
@[simp] theorem State.setMbres_hbmSym (s : State) (b : Bool) : (s.setMbres b).hbmSym = s.hbmSym := rfl
@[simp] theorem State.setMbres_hbmc (s : State) (b : Bool) : (s.setMbres b).hbmc = s.hbmc := rfl
@[simp] theorem State.setMbres_stkPort (s : State) (b : Bool) : (s.setMbres b).stkPort = s.stkPort := rfl
@[simp] theorem State.setMbres_granBad (s : State) (b : Bool) : (s.setMbres b).granBad = s.granBad := rfl
@[simp] theorem State.setMbres_granWait (s : State) (b : Bool) : (s.setMbres b).granWait = s.granWait := rfl
@[simp] theorem State.setMbres_groups (s : State) (b : Bool) : (s.setMbres b).groups = s.groups := rfl
@[simp] theorem State.setMbres_pmSnap (s : State) (b : Bool) : (s.setMbres b).pmSnap = s.pmSnap := rfl
@[simp] theorem State.setMbres_sinkPost (s : State) (b : Bool) : (s.setMbres b).sinkPost = s.sinkPost := rfl
@[simp] theorem State.setCkMbres_pending (s : State) (b : Bool) : (s.setCkMbres b).pending = s.pending := rfl
@[simp] theorem State.setCkMbres_resp (s : State) (b : Bool) : (s.setCkMbres b).resp = s.resp := rfl
@[simp] theorem State.setCkMbres_free (s : State) (b : Bool) : (s.setCkMbres b).free = s.free := rfl
@[simp] theorem State.setCkMbres_draws (s : State) (b : Bool) : (s.setCkMbres b).draws = s.draws := rfl
@[simp] theorem State.setCkMbres_csr (s : State) (b : Bool) : (s.setCkMbres b).csr = s.csr := rfl
@[simp] theorem State.setCkMbres_mem (s : State) (b : Bool) : (s.setCkMbres b).mem = s.mem := rfl
@[simp] theorem State.setCkMbres_blown (s : State) (b : Bool) : (s.setCkMbres b).blown = s.blown := rfl
@[simp] theorem State.setCkMbres_ext (s : State) (b : Bool) : (s.setCkMbres b).ext = s.ext := rfl
@[simp] theorem State.setCkMbres_tap (s : State) (b : Bool) : (s.setCkMbres b).tap = s.tap := rfl
@[simp] theorem State.setCkMbres_pwr (s : State) (b : Bool) : (s.setCkMbres b).pwr = s.pwr := rfl
@[simp] theorem State.setCkMbres_isl (s : State) (b : Bool) : (s.setCkMbres b).isl = s.isl := rfl
@[simp] theorem State.setCkMbres_bell (s : State) (b : Bool) : (s.setCkMbres b).bell = s.bell := rfl
@[simp] theorem State.setCkMbres_reeve (s : State) (b : Bool) : (s.setCkMbres b).reeve = s.reeve := rfl
@[simp] theorem State.setCkMbres_slots (s : State) (b : Bool) : (s.setCkMbres b).slots = s.slots := rfl
@[simp] theorem State.setCkMbres_ckSlots (s : State) (b : Bool) : (s.setCkMbres b).ckSlots = s.ckSlots := rfl
@[simp] theorem State.setCkMbres_svc (s : State) (b : Bool) : (s.setCkMbres b).svc = s.svc := rfl
@[simp] theorem State.setCkMbres_cocoonVer (s : State) (b : Bool) : (s.setCkMbres b).cocoonVer = s.cocoonVer := rfl
@[simp] theorem State.setCkMbres_capNs (s : State) (b : Bool) : (s.setCkMbres b).capNs = s.capNs := rfl
@[simp] theorem State.setCkMbres_fwPend (s : State) (b : Bool) : (s.setCkMbres b).fwPend = s.fwPend := rfl
@[simp] theorem State.setCkMbres_keys (s : State) (b : Bool) : (s.setCkMbres b).keys = s.keys := rfl
@[simp] theorem State.setCkMbres_icStack (s : State) (b : Bool) : (s.setCkMbres b).icStack = s.icStack := rfl
@[simp] theorem State.setCkMbres_threads (s : State) (b : Bool) : (s.setCkMbres b).threads = s.threads := rfl
@[simp] theorem State.setCkMbres_gclDue (s : State) (b : Bool) : (s.setCkMbres b).gclDue = s.gclDue := rfl
@[simp] theorem State.setCkMbres_ports (s : State) (b : Bool) : (s.setCkMbres b).ports = s.ports := rfl
@[simp] theorem State.setCkMbres_frer (s : State) (b : Bool) : (s.setCkMbres b).frer = s.frer := rfl
@[simp] theorem State.setCkMbres_flow (s : State) (b : Bool) : (s.setCkMbres b).flow = s.flow := rfl
@[simp] theorem State.setCkMbres_coal (s : State) (b : Bool) : (s.setCkMbres b).coal = s.coal := rfl
@[simp] theorem State.setCkMbres_pmbus (s : State) (b : Bool) : (s.setCkMbres b).pmbus = s.pmbus := rfl
@[simp] theorem State.setCkMbres_cores (s : State) (b : Bool) : (s.setCkMbres b).cores = s.cores := rfl
@[simp] theorem State.setCkMbres_llc (s : State) (b : Bool) : (s.setCkMbres b).llc = s.llc := rfl
@[simp] theorem State.setCkMbres_hbmBad (s : State) (b : Bool) : (s.setCkMbres b).hbmBad = s.hbmBad := rfl
@[simp] theorem State.setCkMbres_hbmSym (s : State) (b : Bool) : (s.setCkMbres b).hbmSym = s.hbmSym := rfl
@[simp] theorem State.setCkMbres_hbmc (s : State) (b : Bool) : (s.setCkMbres b).hbmc = s.hbmc := rfl
@[simp] theorem State.setCkMbres_stkPort (s : State) (b : Bool) : (s.setCkMbres b).stkPort = s.stkPort := rfl
@[simp] theorem State.setCkMbres_granBad (s : State) (b : Bool) : (s.setCkMbres b).granBad = s.granBad := rfl
@[simp] theorem State.setCkMbres_granWait (s : State) (b : Bool) : (s.setCkMbres b).granWait = s.granWait := rfl
@[simp] theorem State.setCkMbres_groups (s : State) (b : Bool) : (s.setCkMbres b).groups = s.groups := rfl
@[simp] theorem State.setCkMbres_pmSnap (s : State) (b : Bool) : (s.setCkMbres b).pmSnap = s.pmSnap := rfl
@[simp] theorem State.setCkMbres_sinkPost (s : State) (b : Bool) : (s.setCkMbres b).sinkPost = s.sinkPost := rfl
@[simp] theorem State.reeveEvent_pending (s : State) (b : Nat) : (s.reeveEvent b).pending = s.pending := rfl
@[simp] theorem State.reeveEvent_resp (s : State) (b : Nat) : (s.reeveEvent b).resp = s.resp := rfl
@[simp] theorem State.reeveEvent_free (s : State) (b : Nat) : (s.reeveEvent b).free = s.free := rfl
@[simp] theorem State.reeveEvent_draws (s : State) (b : Nat) : (s.reeveEvent b).draws = s.draws := rfl
@[simp] theorem State.reeveEvent_csr (s : State) (b : Nat) : (s.reeveEvent b).csr = s.csr := rfl
@[simp] theorem State.reeveEvent_mem (s : State) (b : Nat) : (s.reeveEvent b).mem = s.mem := rfl
@[simp] theorem State.reeveEvent_blown (s : State) (b : Nat) : (s.reeveEvent b).blown = s.blown := rfl
@[simp] theorem State.reeveEvent_ext (s : State) (b : Nat) : (s.reeveEvent b).ext = s.ext := rfl
@[simp] theorem State.reeveEvent_tap (s : State) (b : Nat) : (s.reeveEvent b).tap = s.tap := rfl
@[simp] theorem State.reeveEvent_pwr (s : State) (b : Nat) : (s.reeveEvent b).pwr = s.pwr := rfl
@[simp] theorem State.reeveEvent_isl (s : State) (b : Nat) : (s.reeveEvent b).isl = s.isl := rfl
@[simp] theorem State.reeveEvent_bell (s : State) (b : Nat) : (s.reeveEvent b).bell = s.bell := rfl
@[simp] theorem State.reeveEvent_cocoon (s : State) (b : Nat) : (s.reeveEvent b).cocoon = s.cocoon := rfl
@[simp] theorem State.reeveEvent_slots (s : State) (b : Nat) : (s.reeveEvent b).slots = s.slots := rfl
@[simp] theorem State.reeveEvent_ckSlots (s : State) (b : Nat) : (s.reeveEvent b).ckSlots = s.ckSlots := rfl
@[simp] theorem State.reeveEvent_svc (s : State) (b : Nat) : (s.reeveEvent b).svc = s.svc := rfl
@[simp] theorem State.reeveEvent_cocoonVer (s : State) (b : Nat) : (s.reeveEvent b).cocoonVer = s.cocoonVer := rfl
@[simp] theorem State.reeveEvent_capNs (s : State) (b : Nat) : (s.reeveEvent b).capNs = s.capNs := rfl
@[simp] theorem State.reeveEvent_fwPend (s : State) (b : Nat) : (s.reeveEvent b).fwPend = s.fwPend := rfl
@[simp] theorem State.reeveEvent_keys (s : State) (b : Nat) : (s.reeveEvent b).keys = s.keys := rfl
@[simp] theorem State.reeveEvent_icStack (s : State) (b : Nat) : (s.reeveEvent b).icStack = s.icStack := rfl
@[simp] theorem State.reeveEvent_threads (s : State) (b : Nat) : (s.reeveEvent b).threads = s.threads := rfl
@[simp] theorem State.reeveEvent_gclDue (s : State) (b : Nat) : (s.reeveEvent b).gclDue = s.gclDue := rfl
@[simp] theorem State.reeveEvent_ports (s : State) (b : Nat) : (s.reeveEvent b).ports = s.ports := rfl
@[simp] theorem State.reeveEvent_frer (s : State) (b : Nat) : (s.reeveEvent b).frer = s.frer := rfl
@[simp] theorem State.reeveEvent_flow (s : State) (b : Nat) : (s.reeveEvent b).flow = s.flow := rfl
@[simp] theorem State.reeveEvent_coal (s : State) (b : Nat) : (s.reeveEvent b).coal = s.coal := rfl
@[simp] theorem State.reeveEvent_pmbus (s : State) (b : Nat) : (s.reeveEvent b).pmbus = s.pmbus := rfl
@[simp] theorem State.reeveEvent_cores (s : State) (b : Nat) : (s.reeveEvent b).cores = s.cores := rfl
@[simp] theorem State.reeveEvent_llc (s : State) (b : Nat) : (s.reeveEvent b).llc = s.llc := rfl
@[simp] theorem State.reeveEvent_hbmBad (s : State) (b : Nat) : (s.reeveEvent b).hbmBad = s.hbmBad := rfl
@[simp] theorem State.reeveEvent_hbmSym (s : State) (b : Nat) : (s.reeveEvent b).hbmSym = s.hbmSym := rfl
@[simp] theorem State.reeveEvent_hbmc (s : State) (b : Nat) : (s.reeveEvent b).hbmc = s.hbmc := rfl
@[simp] theorem State.reeveEvent_stkPort (s : State) (b : Nat) : (s.reeveEvent b).stkPort = s.stkPort := rfl
@[simp] theorem State.reeveEvent_granBad (s : State) (b : Nat) : (s.reeveEvent b).granBad = s.granBad := rfl
@[simp] theorem State.reeveEvent_granWait (s : State) (b : Nat) : (s.reeveEvent b).granWait = s.granWait := rfl
@[simp] theorem State.reeveEvent_groups (s : State) (b : Nat) : (s.reeveEvent b).groups = s.groups := rfl
@[simp] theorem State.reeveEvent_pmSnap (s : State) (b : Nat) : (s.reeveEvent b).pmSnap = s.pmSnap := rfl
@[simp] theorem State.reeveEvent_sinkPost (s : State) (b : Nat) : (s.reeveEvent b).sinkPost = s.sinkPost := rfl
@[simp] theorem State.cocoonEvent_pending (s : State) (b : Nat) : (s.cocoonEvent b).pending = s.pending := rfl
@[simp] theorem State.cocoonEvent_resp (s : State) (b : Nat) : (s.cocoonEvent b).resp = s.resp := rfl
@[simp] theorem State.cocoonEvent_free (s : State) (b : Nat) : (s.cocoonEvent b).free = s.free := rfl
@[simp] theorem State.cocoonEvent_draws (s : State) (b : Nat) : (s.cocoonEvent b).draws = s.draws := rfl
@[simp] theorem State.cocoonEvent_csr (s : State) (b : Nat) : (s.cocoonEvent b).csr = s.csr := rfl
@[simp] theorem State.cocoonEvent_mem (s : State) (b : Nat) : (s.cocoonEvent b).mem = s.mem := rfl
@[simp] theorem State.cocoonEvent_blown (s : State) (b : Nat) : (s.cocoonEvent b).blown = s.blown := rfl
@[simp] theorem State.cocoonEvent_ext (s : State) (b : Nat) : (s.cocoonEvent b).ext = s.ext := rfl
@[simp] theorem State.cocoonEvent_tap (s : State) (b : Nat) : (s.cocoonEvent b).tap = s.tap := rfl
@[simp] theorem State.cocoonEvent_pwr (s : State) (b : Nat) : (s.cocoonEvent b).pwr = s.pwr := rfl
@[simp] theorem State.cocoonEvent_isl (s : State) (b : Nat) : (s.cocoonEvent b).isl = s.isl := rfl
@[simp] theorem State.cocoonEvent_bell (s : State) (b : Nat) : (s.cocoonEvent b).bell = s.bell := rfl
@[simp] theorem State.cocoonEvent_reeve (s : State) (b : Nat) : (s.cocoonEvent b).reeve = s.reeve := rfl
@[simp] theorem State.cocoonEvent_slots (s : State) (b : Nat) : (s.cocoonEvent b).slots = s.slots := rfl
@[simp] theorem State.cocoonEvent_ckSlots (s : State) (b : Nat) : (s.cocoonEvent b).ckSlots = s.ckSlots := rfl
@[simp] theorem State.cocoonEvent_svc (s : State) (b : Nat) : (s.cocoonEvent b).svc = s.svc := rfl
@[simp] theorem State.cocoonEvent_cocoonVer (s : State) (b : Nat) : (s.cocoonEvent b).cocoonVer = s.cocoonVer := rfl
@[simp] theorem State.cocoonEvent_capNs (s : State) (b : Nat) : (s.cocoonEvent b).capNs = s.capNs := rfl
@[simp] theorem State.cocoonEvent_fwPend (s : State) (b : Nat) : (s.cocoonEvent b).fwPend = s.fwPend := rfl
@[simp] theorem State.cocoonEvent_keys (s : State) (b : Nat) : (s.cocoonEvent b).keys = s.keys := rfl
@[simp] theorem State.cocoonEvent_icStack (s : State) (b : Nat) : (s.cocoonEvent b).icStack = s.icStack := rfl
@[simp] theorem State.cocoonEvent_threads (s : State) (b : Nat) : (s.cocoonEvent b).threads = s.threads := rfl
@[simp] theorem State.cocoonEvent_gclDue (s : State) (b : Nat) : (s.cocoonEvent b).gclDue = s.gclDue := rfl
@[simp] theorem State.cocoonEvent_ports (s : State) (b : Nat) : (s.cocoonEvent b).ports = s.ports := rfl
@[simp] theorem State.cocoonEvent_frer (s : State) (b : Nat) : (s.cocoonEvent b).frer = s.frer := rfl
@[simp] theorem State.cocoonEvent_flow (s : State) (b : Nat) : (s.cocoonEvent b).flow = s.flow := rfl
@[simp] theorem State.cocoonEvent_coal (s : State) (b : Nat) : (s.cocoonEvent b).coal = s.coal := rfl
@[simp] theorem State.cocoonEvent_pmbus (s : State) (b : Nat) : (s.cocoonEvent b).pmbus = s.pmbus := rfl
@[simp] theorem State.cocoonEvent_cores (s : State) (b : Nat) : (s.cocoonEvent b).cores = s.cores := rfl
@[simp] theorem State.cocoonEvent_llc (s : State) (b : Nat) : (s.cocoonEvent b).llc = s.llc := rfl
@[simp] theorem State.cocoonEvent_hbmBad (s : State) (b : Nat) : (s.cocoonEvent b).hbmBad = s.hbmBad := rfl
@[simp] theorem State.cocoonEvent_hbmSym (s : State) (b : Nat) : (s.cocoonEvent b).hbmSym = s.hbmSym := rfl
@[simp] theorem State.cocoonEvent_hbmc (s : State) (b : Nat) : (s.cocoonEvent b).hbmc = s.hbmc := rfl
@[simp] theorem State.cocoonEvent_stkPort (s : State) (b : Nat) : (s.cocoonEvent b).stkPort = s.stkPort := rfl
@[simp] theorem State.cocoonEvent_granBad (s : State) (b : Nat) : (s.cocoonEvent b).granBad = s.granBad := rfl
@[simp] theorem State.cocoonEvent_granWait (s : State) (b : Nat) : (s.cocoonEvent b).granWait = s.granWait := rfl
@[simp] theorem State.cocoonEvent_groups (s : State) (b : Nat) : (s.cocoonEvent b).groups = s.groups := rfl
@[simp] theorem State.cocoonEvent_pmSnap (s : State) (b : Nat) : (s.cocoonEvent b).pmSnap = s.pmSnap := rfl
@[simp] theorem State.cocoonEvent_sinkPost (s : State) (b : Nat) : (s.cocoonEvent b).sinkPost = s.sinkPost := rfl
@[simp] theorem State.memWrite_pending (s : State) (a n v : Nat) : (s.memWrite a n v).pending = s.pending := rfl
@[simp] theorem State.memWrite_resp (s : State) (a n v : Nat) : (s.memWrite a n v).resp = s.resp := rfl
@[simp] theorem State.memWrite_free (s : State) (a n v : Nat) : (s.memWrite a n v).free = s.free := rfl
@[simp] theorem State.memWrite_draws (s : State) (a n v : Nat) : (s.memWrite a n v).draws = s.draws := rfl
@[simp] theorem State.memWrite_csr (s : State) (a n v : Nat) : (s.memWrite a n v).csr = s.csr := rfl
@[simp] theorem State.memWrite_blown (s : State) (a n v : Nat) : (s.memWrite a n v).blown = s.blown := rfl
@[simp] theorem State.memWrite_ext (s : State) (a n v : Nat) : (s.memWrite a n v).ext = s.ext := rfl
@[simp] theorem State.memWrite_tap (s : State) (a n v : Nat) : (s.memWrite a n v).tap = s.tap := rfl
@[simp] theorem State.memWrite_pwr (s : State) (a n v : Nat) : (s.memWrite a n v).pwr = s.pwr := rfl
@[simp] theorem State.memWrite_isl (s : State) (a n v : Nat) : (s.memWrite a n v).isl = s.isl := rfl
@[simp] theorem State.memWrite_bell (s : State) (a n v : Nat) : (s.memWrite a n v).bell = s.bell := rfl
@[simp] theorem State.memWrite_reeve (s : State) (a n v : Nat) : (s.memWrite a n v).reeve = s.reeve := rfl
@[simp] theorem State.memWrite_cocoon (s : State) (a n v : Nat) : (s.memWrite a n v).cocoon = s.cocoon := rfl
@[simp] theorem State.memWrite_slots (s : State) (a n v : Nat) : (s.memWrite a n v).slots = s.slots := rfl
@[simp] theorem State.memWrite_ckSlots (s : State) (a n v : Nat) : (s.memWrite a n v).ckSlots = s.ckSlots := rfl
@[simp] theorem State.memWrite_svc (s : State) (a n v : Nat) : (s.memWrite a n v).svc = s.svc := rfl
@[simp] theorem State.memWrite_cocoonVer (s : State) (a n v : Nat) : (s.memWrite a n v).cocoonVer = s.cocoonVer := rfl
@[simp] theorem State.memWrite_capNs (s : State) (a n v : Nat) : (s.memWrite a n v).capNs = s.capNs := rfl
@[simp] theorem State.memWrite_fwPend (s : State) (a n v : Nat) : (s.memWrite a n v).fwPend = s.fwPend := rfl
@[simp] theorem State.memWrite_keys (s : State) (a n v : Nat) : (s.memWrite a n v).keys = s.keys := rfl
@[simp] theorem State.memWrite_icStack (s : State) (a n v : Nat) : (s.memWrite a n v).icStack = s.icStack := rfl
@[simp] theorem State.memWrite_threads (s : State) (a n v : Nat) : (s.memWrite a n v).threads = s.threads := rfl
@[simp] theorem State.memWrite_gclDue (s : State) (a n v : Nat) : (s.memWrite a n v).gclDue = s.gclDue := rfl
@[simp] theorem State.memWrite_ports (s : State) (a n v : Nat) : (s.memWrite a n v).ports = s.ports := rfl
@[simp] theorem State.memWrite_frer (s : State) (a n v : Nat) : (s.memWrite a n v).frer = s.frer := rfl
@[simp] theorem State.memWrite_flow (s : State) (a n v : Nat) : (s.memWrite a n v).flow = s.flow := rfl
@[simp] theorem State.memWrite_coal (s : State) (a n v : Nat) : (s.memWrite a n v).coal = s.coal := rfl
@[simp] theorem State.memWrite_pmbus (s : State) (a n v : Nat) : (s.memWrite a n v).pmbus = s.pmbus := rfl
@[simp] theorem State.memWrite_cores (s : State) (a n v : Nat) : (s.memWrite a n v).cores = s.cores := rfl
@[simp] theorem State.memWrite_llc (s : State) (a n v : Nat) : (s.memWrite a n v).llc = s.llc := rfl
@[simp] theorem State.memWrite_hbmBad (s : State) (a n v : Nat) : (s.memWrite a n v).hbmBad = s.hbmBad := rfl
@[simp] theorem State.memWrite_hbmSym (s : State) (a n v : Nat) : (s.memWrite a n v).hbmSym = s.hbmSym := rfl
@[simp] theorem State.memWrite_hbmc (s : State) (a n v : Nat) : (s.memWrite a n v).hbmc = s.hbmc := rfl
@[simp] theorem State.memWrite_stkPort (s : State) (a n v : Nat) : (s.memWrite a n v).stkPort = s.stkPort := rfl
@[simp] theorem State.memWrite_granBad (s : State) (a n v : Nat) : (s.memWrite a n v).granBad = s.granBad := rfl
@[simp] theorem State.memWrite_granWait (s : State) (a n v : Nat) : (s.memWrite a n v).granWait = s.granWait := rfl
@[simp] theorem State.memWrite_groups (s : State) (a n v : Nat) : (s.memWrite a n v).groups = s.groups := rfl
@[simp] theorem State.memWrite_pmSnap (s : State) (a n v : Nat) : (s.memWrite a n v).pmSnap = s.pmSnap := rfl
@[simp] theorem State.memWrite_sinkPost (s : State) (a n v : Nat) : (s.memWrite a n v).sinkPost = s.sinkPost := rfl
@[simp] theorem State.modThread_pending (s : State) (x : Nat) (f : Thread → Thread) : (s.modThread x f).pending = s.pending := rfl
@[simp] theorem State.modThread_resp (s : State) (x : Nat) (f : Thread → Thread) : (s.modThread x f).resp = s.resp := rfl
@[simp] theorem State.modThread_free (s : State) (x : Nat) (f : Thread → Thread) : (s.modThread x f).free = s.free := rfl
@[simp] theorem State.modThread_draws (s : State) (x : Nat) (f : Thread → Thread) : (s.modThread x f).draws = s.draws := rfl
@[simp] theorem State.modThread_csr (s : State) (x : Nat) (f : Thread → Thread) : (s.modThread x f).csr = s.csr := rfl
@[simp] theorem State.modThread_mem (s : State) (x : Nat) (f : Thread → Thread) : (s.modThread x f).mem = s.mem := rfl
@[simp] theorem State.modThread_blown (s : State) (x : Nat) (f : Thread → Thread) : (s.modThread x f).blown = s.blown := rfl
@[simp] theorem State.modThread_ext (s : State) (x : Nat) (f : Thread → Thread) : (s.modThread x f).ext = s.ext := rfl
@[simp] theorem State.modThread_tap (s : State) (x : Nat) (f : Thread → Thread) : (s.modThread x f).tap = s.tap := rfl
@[simp] theorem State.modThread_pwr (s : State) (x : Nat) (f : Thread → Thread) : (s.modThread x f).pwr = s.pwr := rfl
@[simp] theorem State.modThread_isl (s : State) (x : Nat) (f : Thread → Thread) : (s.modThread x f).isl = s.isl := rfl
@[simp] theorem State.modThread_bell (s : State) (x : Nat) (f : Thread → Thread) : (s.modThread x f).bell = s.bell := rfl
@[simp] theorem State.modThread_reeve (s : State) (x : Nat) (f : Thread → Thread) : (s.modThread x f).reeve = s.reeve := rfl
@[simp] theorem State.modThread_cocoon (s : State) (x : Nat) (f : Thread → Thread) : (s.modThread x f).cocoon = s.cocoon := rfl
@[simp] theorem State.modThread_slots (s : State) (x : Nat) (f : Thread → Thread) : (s.modThread x f).slots = s.slots := rfl
@[simp] theorem State.modThread_ckSlots (s : State) (x : Nat) (f : Thread → Thread) : (s.modThread x f).ckSlots = s.ckSlots := rfl
@[simp] theorem State.modThread_svc (s : State) (x : Nat) (f : Thread → Thread) : (s.modThread x f).svc = s.svc := rfl
@[simp] theorem State.modThread_cocoonVer (s : State) (x : Nat) (f : Thread → Thread) : (s.modThread x f).cocoonVer = s.cocoonVer := rfl
@[simp] theorem State.modThread_capNs (s : State) (x : Nat) (f : Thread → Thread) : (s.modThread x f).capNs = s.capNs := rfl
@[simp] theorem State.modThread_fwPend (s : State) (x : Nat) (f : Thread → Thread) : (s.modThread x f).fwPend = s.fwPend := rfl
@[simp] theorem State.modThread_keys (s : State) (x : Nat) (f : Thread → Thread) : (s.modThread x f).keys = s.keys := rfl
@[simp] theorem State.modThread_icStack (s : State) (x : Nat) (f : Thread → Thread) : (s.modThread x f).icStack = s.icStack := rfl
@[simp] theorem State.modThread_gclDue (s : State) (x : Nat) (f : Thread → Thread) : (s.modThread x f).gclDue = s.gclDue := rfl
@[simp] theorem State.modThread_ports (s : State) (x : Nat) (f : Thread → Thread) : (s.modThread x f).ports = s.ports := rfl
@[simp] theorem State.modThread_frer (s : State) (x : Nat) (f : Thread → Thread) : (s.modThread x f).frer = s.frer := rfl
@[simp] theorem State.modThread_flow (s : State) (x : Nat) (f : Thread → Thread) : (s.modThread x f).flow = s.flow := rfl
@[simp] theorem State.modThread_coal (s : State) (x : Nat) (f : Thread → Thread) : (s.modThread x f).coal = s.coal := rfl
@[simp] theorem State.modThread_pmbus (s : State) (x : Nat) (f : Thread → Thread) : (s.modThread x f).pmbus = s.pmbus := rfl
@[simp] theorem State.modThread_cores (s : State) (x : Nat) (f : Thread → Thread) : (s.modThread x f).cores = s.cores := rfl
@[simp] theorem State.modThread_llc (s : State) (x : Nat) (f : Thread → Thread) : (s.modThread x f).llc = s.llc := rfl
@[simp] theorem State.modThread_hbmBad (s : State) (x : Nat) (f : Thread → Thread) : (s.modThread x f).hbmBad = s.hbmBad := rfl
@[simp] theorem State.modThread_hbmSym (s : State) (x : Nat) (f : Thread → Thread) : (s.modThread x f).hbmSym = s.hbmSym := rfl
@[simp] theorem State.modThread_hbmc (s : State) (x : Nat) (f : Thread → Thread) : (s.modThread x f).hbmc = s.hbmc := rfl
@[simp] theorem State.modThread_stkPort (s : State) (x : Nat) (f : Thread → Thread) : (s.modThread x f).stkPort = s.stkPort := rfl
@[simp] theorem State.modThread_granBad (s : State) (x : Nat) (f : Thread → Thread) : (s.modThread x f).granBad = s.granBad := rfl
@[simp] theorem State.modThread_granWait (s : State) (x : Nat) (f : Thread → Thread) : (s.modThread x f).granWait = s.granWait := rfl
@[simp] theorem State.modThread_groups (s : State) (x : Nat) (f : Thread → Thread) : (s.modThread x f).groups = s.groups := rfl
@[simp] theorem State.modThread_pmSnap (s : State) (x : Nat) (f : Thread → Thread) : (s.modThread x f).pmSnap = s.pmSnap := rfl
@[simp] theorem State.modThread_sinkPost (s : State) (x : Nat) (f : Thread → Thread) : (s.modThread x f).sinkPost = s.sinkPost := rfl
@[simp] theorem State.modPort_pending (s : State) (x : Nat) (f : Port → Port) : (s.modPort x f).pending = s.pending := rfl
@[simp] theorem State.modPort_resp (s : State) (x : Nat) (f : Port → Port) : (s.modPort x f).resp = s.resp := rfl
@[simp] theorem State.modPort_free (s : State) (x : Nat) (f : Port → Port) : (s.modPort x f).free = s.free := rfl
@[simp] theorem State.modPort_draws (s : State) (x : Nat) (f : Port → Port) : (s.modPort x f).draws = s.draws := rfl
@[simp] theorem State.modPort_csr (s : State) (x : Nat) (f : Port → Port) : (s.modPort x f).csr = s.csr := rfl
@[simp] theorem State.modPort_mem (s : State) (x : Nat) (f : Port → Port) : (s.modPort x f).mem = s.mem := rfl
@[simp] theorem State.modPort_blown (s : State) (x : Nat) (f : Port → Port) : (s.modPort x f).blown = s.blown := rfl
@[simp] theorem State.modPort_ext (s : State) (x : Nat) (f : Port → Port) : (s.modPort x f).ext = s.ext := rfl
@[simp] theorem State.modPort_tap (s : State) (x : Nat) (f : Port → Port) : (s.modPort x f).tap = s.tap := rfl
@[simp] theorem State.modPort_pwr (s : State) (x : Nat) (f : Port → Port) : (s.modPort x f).pwr = s.pwr := rfl
@[simp] theorem State.modPort_isl (s : State) (x : Nat) (f : Port → Port) : (s.modPort x f).isl = s.isl := rfl
@[simp] theorem State.modPort_bell (s : State) (x : Nat) (f : Port → Port) : (s.modPort x f).bell = s.bell := rfl
@[simp] theorem State.modPort_reeve (s : State) (x : Nat) (f : Port → Port) : (s.modPort x f).reeve = s.reeve := rfl
@[simp] theorem State.modPort_cocoon (s : State) (x : Nat) (f : Port → Port) : (s.modPort x f).cocoon = s.cocoon := rfl
@[simp] theorem State.modPort_slots (s : State) (x : Nat) (f : Port → Port) : (s.modPort x f).slots = s.slots := rfl
@[simp] theorem State.modPort_ckSlots (s : State) (x : Nat) (f : Port → Port) : (s.modPort x f).ckSlots = s.ckSlots := rfl
@[simp] theorem State.modPort_svc (s : State) (x : Nat) (f : Port → Port) : (s.modPort x f).svc = s.svc := rfl
@[simp] theorem State.modPort_cocoonVer (s : State) (x : Nat) (f : Port → Port) : (s.modPort x f).cocoonVer = s.cocoonVer := rfl
@[simp] theorem State.modPort_capNs (s : State) (x : Nat) (f : Port → Port) : (s.modPort x f).capNs = s.capNs := rfl
@[simp] theorem State.modPort_fwPend (s : State) (x : Nat) (f : Port → Port) : (s.modPort x f).fwPend = s.fwPend := rfl
@[simp] theorem State.modPort_keys (s : State) (x : Nat) (f : Port → Port) : (s.modPort x f).keys = s.keys := rfl
@[simp] theorem State.modPort_icStack (s : State) (x : Nat) (f : Port → Port) : (s.modPort x f).icStack = s.icStack := rfl
@[simp] theorem State.modPort_threads (s : State) (x : Nat) (f : Port → Port) : (s.modPort x f).threads = s.threads := rfl
@[simp] theorem State.modPort_gclDue (s : State) (x : Nat) (f : Port → Port) : (s.modPort x f).gclDue = s.gclDue := rfl
@[simp] theorem State.modPort_frer (s : State) (x : Nat) (f : Port → Port) : (s.modPort x f).frer = s.frer := rfl
@[simp] theorem State.modPort_flow (s : State) (x : Nat) (f : Port → Port) : (s.modPort x f).flow = s.flow := rfl
@[simp] theorem State.modPort_coal (s : State) (x : Nat) (f : Port → Port) : (s.modPort x f).coal = s.coal := rfl
@[simp] theorem State.modPort_pmbus (s : State) (x : Nat) (f : Port → Port) : (s.modPort x f).pmbus = s.pmbus := rfl
@[simp] theorem State.modPort_cores (s : State) (x : Nat) (f : Port → Port) : (s.modPort x f).cores = s.cores := rfl
@[simp] theorem State.modPort_llc (s : State) (x : Nat) (f : Port → Port) : (s.modPort x f).llc = s.llc := rfl
@[simp] theorem State.modPort_hbmBad (s : State) (x : Nat) (f : Port → Port) : (s.modPort x f).hbmBad = s.hbmBad := rfl
@[simp] theorem State.modPort_hbmSym (s : State) (x : Nat) (f : Port → Port) : (s.modPort x f).hbmSym = s.hbmSym := rfl
@[simp] theorem State.modPort_hbmc (s : State) (x : Nat) (f : Port → Port) : (s.modPort x f).hbmc = s.hbmc := rfl
@[simp] theorem State.modPort_stkPort (s : State) (x : Nat) (f : Port → Port) : (s.modPort x f).stkPort = s.stkPort := rfl
@[simp] theorem State.modPort_granBad (s : State) (x : Nat) (f : Port → Port) : (s.modPort x f).granBad = s.granBad := rfl
@[simp] theorem State.modPort_granWait (s : State) (x : Nat) (f : Port → Port) : (s.modPort x f).granWait = s.granWait := rfl
@[simp] theorem State.modPort_groups (s : State) (x : Nat) (f : Port → Port) : (s.modPort x f).groups = s.groups := rfl
@[simp] theorem State.modPort_pmSnap (s : State) (x : Nat) (f : Port → Port) : (s.modPort x f).pmSnap = s.pmSnap := rfl
@[simp] theorem State.modPort_sinkPost (s : State) (x : Nat) (f : Port → Port) : (s.modPort x f).sinkPost = s.sinkPost := rfl
@[simp] theorem State.modGroup_pending (s : State) (x : Nat) (f : Group → Group) : (s.modGroup x f).pending = s.pending := rfl
@[simp] theorem State.modGroup_resp (s : State) (x : Nat) (f : Group → Group) : (s.modGroup x f).resp = s.resp := rfl
@[simp] theorem State.modGroup_free (s : State) (x : Nat) (f : Group → Group) : (s.modGroup x f).free = s.free := rfl
@[simp] theorem State.modGroup_draws (s : State) (x : Nat) (f : Group → Group) : (s.modGroup x f).draws = s.draws := rfl
@[simp] theorem State.modGroup_csr (s : State) (x : Nat) (f : Group → Group) : (s.modGroup x f).csr = s.csr := rfl
@[simp] theorem State.modGroup_mem (s : State) (x : Nat) (f : Group → Group) : (s.modGroup x f).mem = s.mem := rfl
@[simp] theorem State.modGroup_blown (s : State) (x : Nat) (f : Group → Group) : (s.modGroup x f).blown = s.blown := rfl
@[simp] theorem State.modGroup_ext (s : State) (x : Nat) (f : Group → Group) : (s.modGroup x f).ext = s.ext := rfl
@[simp] theorem State.modGroup_tap (s : State) (x : Nat) (f : Group → Group) : (s.modGroup x f).tap = s.tap := rfl
@[simp] theorem State.modGroup_pwr (s : State) (x : Nat) (f : Group → Group) : (s.modGroup x f).pwr = s.pwr := rfl
@[simp] theorem State.modGroup_isl (s : State) (x : Nat) (f : Group → Group) : (s.modGroup x f).isl = s.isl := rfl
@[simp] theorem State.modGroup_bell (s : State) (x : Nat) (f : Group → Group) : (s.modGroup x f).bell = s.bell := rfl
@[simp] theorem State.modGroup_reeve (s : State) (x : Nat) (f : Group → Group) : (s.modGroup x f).reeve = s.reeve := rfl
@[simp] theorem State.modGroup_cocoon (s : State) (x : Nat) (f : Group → Group) : (s.modGroup x f).cocoon = s.cocoon := rfl
@[simp] theorem State.modGroup_slots (s : State) (x : Nat) (f : Group → Group) : (s.modGroup x f).slots = s.slots := rfl
@[simp] theorem State.modGroup_ckSlots (s : State) (x : Nat) (f : Group → Group) : (s.modGroup x f).ckSlots = s.ckSlots := rfl
@[simp] theorem State.modGroup_svc (s : State) (x : Nat) (f : Group → Group) : (s.modGroup x f).svc = s.svc := rfl
@[simp] theorem State.modGroup_cocoonVer (s : State) (x : Nat) (f : Group → Group) : (s.modGroup x f).cocoonVer = s.cocoonVer := rfl
@[simp] theorem State.modGroup_capNs (s : State) (x : Nat) (f : Group → Group) : (s.modGroup x f).capNs = s.capNs := rfl
@[simp] theorem State.modGroup_fwPend (s : State) (x : Nat) (f : Group → Group) : (s.modGroup x f).fwPend = s.fwPend := rfl
@[simp] theorem State.modGroup_keys (s : State) (x : Nat) (f : Group → Group) : (s.modGroup x f).keys = s.keys := rfl
@[simp] theorem State.modGroup_icStack (s : State) (x : Nat) (f : Group → Group) : (s.modGroup x f).icStack = s.icStack := rfl
@[simp] theorem State.modGroup_threads (s : State) (x : Nat) (f : Group → Group) : (s.modGroup x f).threads = s.threads := rfl
@[simp] theorem State.modGroup_gclDue (s : State) (x : Nat) (f : Group → Group) : (s.modGroup x f).gclDue = s.gclDue := rfl
@[simp] theorem State.modGroup_ports (s : State) (x : Nat) (f : Group → Group) : (s.modGroup x f).ports = s.ports := rfl
@[simp] theorem State.modGroup_frer (s : State) (x : Nat) (f : Group → Group) : (s.modGroup x f).frer = s.frer := rfl
@[simp] theorem State.modGroup_flow (s : State) (x : Nat) (f : Group → Group) : (s.modGroup x f).flow = s.flow := rfl
@[simp] theorem State.modGroup_coal (s : State) (x : Nat) (f : Group → Group) : (s.modGroup x f).coal = s.coal := rfl
@[simp] theorem State.modGroup_pmbus (s : State) (x : Nat) (f : Group → Group) : (s.modGroup x f).pmbus = s.pmbus := rfl
@[simp] theorem State.modGroup_cores (s : State) (x : Nat) (f : Group → Group) : (s.modGroup x f).cores = s.cores := rfl
@[simp] theorem State.modGroup_llc (s : State) (x : Nat) (f : Group → Group) : (s.modGroup x f).llc = s.llc := rfl
@[simp] theorem State.modGroup_hbmBad (s : State) (x : Nat) (f : Group → Group) : (s.modGroup x f).hbmBad = s.hbmBad := rfl
@[simp] theorem State.modGroup_hbmSym (s : State) (x : Nat) (f : Group → Group) : (s.modGroup x f).hbmSym = s.hbmSym := rfl
@[simp] theorem State.modGroup_hbmc (s : State) (x : Nat) (f : Group → Group) : (s.modGroup x f).hbmc = s.hbmc := rfl
@[simp] theorem State.modGroup_stkPort (s : State) (x : Nat) (f : Group → Group) : (s.modGroup x f).stkPort = s.stkPort := rfl
@[simp] theorem State.modGroup_granBad (s : State) (x : Nat) (f : Group → Group) : (s.modGroup x f).granBad = s.granBad := rfl
@[simp] theorem State.modGroup_granWait (s : State) (x : Nat) (f : Group → Group) : (s.modGroup x f).granWait = s.granWait := rfl
@[simp] theorem State.modGroup_pmSnap (s : State) (x : Nat) (f : Group → Group) : (s.modGroup x f).pmSnap = s.pmSnap := rfl
@[simp] theorem State.modGroup_sinkPost (s : State) (x : Nat) (f : Group → Group) : (s.modGroup x f).sinkPost = s.sinkPost := rfl
@[simp] theorem State.modHctl_pending (s : State) (p : Nat) (f : HbmCtl → HbmCtl) : (s.modHctl p f).pending = s.pending := rfl
@[simp] theorem State.modHctl_resp (s : State) (p : Nat) (f : HbmCtl → HbmCtl) : (s.modHctl p f).resp = s.resp := rfl
@[simp] theorem State.modHctl_free (s : State) (p : Nat) (f : HbmCtl → HbmCtl) : (s.modHctl p f).free = s.free := rfl
@[simp] theorem State.modHctl_draws (s : State) (p : Nat) (f : HbmCtl → HbmCtl) : (s.modHctl p f).draws = s.draws := rfl
@[simp] theorem State.modHctl_csr (s : State) (p : Nat) (f : HbmCtl → HbmCtl) : (s.modHctl p f).csr = s.csr := rfl
@[simp] theorem State.modHctl_mem (s : State) (p : Nat) (f : HbmCtl → HbmCtl) : (s.modHctl p f).mem = s.mem := rfl
@[simp] theorem State.modHctl_blown (s : State) (p : Nat) (f : HbmCtl → HbmCtl) : (s.modHctl p f).blown = s.blown := rfl
@[simp] theorem State.modHctl_ext (s : State) (p : Nat) (f : HbmCtl → HbmCtl) : (s.modHctl p f).ext = s.ext := rfl
@[simp] theorem State.modHctl_tap (s : State) (p : Nat) (f : HbmCtl → HbmCtl) : (s.modHctl p f).tap = s.tap := rfl
@[simp] theorem State.modHctl_pwr (s : State) (p : Nat) (f : HbmCtl → HbmCtl) : (s.modHctl p f).pwr = s.pwr := rfl
@[simp] theorem State.modHctl_isl (s : State) (p : Nat) (f : HbmCtl → HbmCtl) : (s.modHctl p f).isl = s.isl := rfl
@[simp] theorem State.modHctl_bell (s : State) (p : Nat) (f : HbmCtl → HbmCtl) : (s.modHctl p f).bell = s.bell := rfl
@[simp] theorem State.modHctl_reeve (s : State) (p : Nat) (f : HbmCtl → HbmCtl) : (s.modHctl p f).reeve = s.reeve := rfl
@[simp] theorem State.modHctl_cocoon (s : State) (p : Nat) (f : HbmCtl → HbmCtl) : (s.modHctl p f).cocoon = s.cocoon := rfl
@[simp] theorem State.modHctl_slots (s : State) (p : Nat) (f : HbmCtl → HbmCtl) : (s.modHctl p f).slots = s.slots := rfl
@[simp] theorem State.modHctl_ckSlots (s : State) (p : Nat) (f : HbmCtl → HbmCtl) : (s.modHctl p f).ckSlots = s.ckSlots := rfl
@[simp] theorem State.modHctl_svc (s : State) (p : Nat) (f : HbmCtl → HbmCtl) : (s.modHctl p f).svc = s.svc := rfl
@[simp] theorem State.modHctl_cocoonVer (s : State) (p : Nat) (f : HbmCtl → HbmCtl) : (s.modHctl p f).cocoonVer = s.cocoonVer := rfl
@[simp] theorem State.modHctl_capNs (s : State) (p : Nat) (f : HbmCtl → HbmCtl) : (s.modHctl p f).capNs = s.capNs := rfl
@[simp] theorem State.modHctl_fwPend (s : State) (p : Nat) (f : HbmCtl → HbmCtl) : (s.modHctl p f).fwPend = s.fwPend := rfl
@[simp] theorem State.modHctl_keys (s : State) (p : Nat) (f : HbmCtl → HbmCtl) : (s.modHctl p f).keys = s.keys := rfl
@[simp] theorem State.modHctl_icStack (s : State) (p : Nat) (f : HbmCtl → HbmCtl) : (s.modHctl p f).icStack = s.icStack := rfl
@[simp] theorem State.modHctl_threads (s : State) (p : Nat) (f : HbmCtl → HbmCtl) : (s.modHctl p f).threads = s.threads := rfl
@[simp] theorem State.modHctl_gclDue (s : State) (p : Nat) (f : HbmCtl → HbmCtl) : (s.modHctl p f).gclDue = s.gclDue := rfl
@[simp] theorem State.modHctl_ports (s : State) (p : Nat) (f : HbmCtl → HbmCtl) : (s.modHctl p f).ports = s.ports := rfl
@[simp] theorem State.modHctl_frer (s : State) (p : Nat) (f : HbmCtl → HbmCtl) : (s.modHctl p f).frer = s.frer := rfl
@[simp] theorem State.modHctl_flow (s : State) (p : Nat) (f : HbmCtl → HbmCtl) : (s.modHctl p f).flow = s.flow := rfl
@[simp] theorem State.modHctl_coal (s : State) (p : Nat) (f : HbmCtl → HbmCtl) : (s.modHctl p f).coal = s.coal := rfl
@[simp] theorem State.modHctl_pmbus (s : State) (p : Nat) (f : HbmCtl → HbmCtl) : (s.modHctl p f).pmbus = s.pmbus := rfl
@[simp] theorem State.modHctl_cores (s : State) (p : Nat) (f : HbmCtl → HbmCtl) : (s.modHctl p f).cores = s.cores := rfl
@[simp] theorem State.modHctl_llc (s : State) (p : Nat) (f : HbmCtl → HbmCtl) : (s.modHctl p f).llc = s.llc := rfl
@[simp] theorem State.modHctl_hbmBad (s : State) (p : Nat) (f : HbmCtl → HbmCtl) : (s.modHctl p f).hbmBad = s.hbmBad := rfl
@[simp] theorem State.modHctl_hbmSym (s : State) (p : Nat) (f : HbmCtl → HbmCtl) : (s.modHctl p f).hbmSym = s.hbmSym := rfl
@[simp] theorem State.modHctl_stkPort (s : State) (p : Nat) (f : HbmCtl → HbmCtl) : (s.modHctl p f).stkPort = s.stkPort := rfl
@[simp] theorem State.modHctl_granBad (s : State) (p : Nat) (f : HbmCtl → HbmCtl) : (s.modHctl p f).granBad = s.granBad := rfl
@[simp] theorem State.modHctl_granWait (s : State) (p : Nat) (f : HbmCtl → HbmCtl) : (s.modHctl p f).granWait = s.granWait := rfl
@[simp] theorem State.modHctl_groups (s : State) (p : Nat) (f : HbmCtl → HbmCtl) : (s.modHctl p f).groups = s.groups := rfl
@[simp] theorem State.modHctl_pmSnap (s : State) (p : Nat) (f : HbmCtl → HbmCtl) : (s.modHctl p f).pmSnap = s.pmSnap := rfl
@[simp] theorem State.modHctl_sinkPost (s : State) (p : Nat) (f : HbmCtl → HbmCtl) : (s.modHctl p f).sinkPost = s.sinkPost := rfl

/-! ## Registers -/

theorem Reg.all_ctorIdx (r : Reg) : Reg.all[r.ctorIdx]? = some r := by cases r <;> rfl

theorem Reg.ctorIdx_inj {r r' : Reg} (h : r.ctorIdx = r'.ctorIdx) : r = r' := by
  have h1 := Reg.all_ctorIdx r
  have h2 := Reg.all_ctorIdx r'
  rw [h, h2] at h1
  exact (Option.some.inj h1).symm

theorem regKey_ne {r r' : Reg} {i i' : Nat} (hi : i < 65536) (hi' : i' < 65536) (h : r' ≠ r ∨ i' ≠ i) :
    regKey r' i' ≠ regKey r i := by
  intro hk
  unfold regKey at hk
  have h1 : r'.ctorIdx = r.ctorIdx := by omega
  have h2 : i' = i := by omega
  rcases h with h | h
  · exact h (Reg.ctorIdx_inj h1)
  · exact h h2

/-- A register reads as what was written into it. -/
@[simp] theorem State.csrGet_csrSet_same (s : State) (r : Reg) (i : Nat) (v : Word) : (s.csrSet r i v).csrGet r i = v := by
  simp [State.csrGet, State.csrSet]

/-- Every other register keeps its value. -/
theorem State.csrGet_csrSet_ne (s : State) {r r' : Reg} {i i' : Nat} (v : Word) (hi : i < 65536) (hi' : i' < 65536)
    (h : r' ≠ r ∨ i' ≠ i) : (s.csrSet r i v).csrGet r' i' = s.csrGet r' i' := by
  simp only [State.csrGet, State.csrSet]
  exact FMap.get_set_ne _ _ _ (regKey_ne hi hi' h)

/-- A register of another name keeps its value. -/
theorem State.csrGet_csrSet_reg (s : State) {r r' : Reg} {i i' : Nat} (v : Word) (hi : i < 65536) (hi' : i' < 65536)
    (h : r' ≠ r) : (s.csrSet r i v).csrGet r' i' = s.csrGet r' i' :=
  s.csrGet_csrSet_ne v hi hi' (Or.inl h)

/-- The register after one of its fields is set. -/
@[simp] theorem State.csrGet_setFld_same (s : State) (f : Fld) (i v : Nat) :
    (s.setFld f i v).csrGet f.reg i = withBits (s.csrGet f.reg i) f.hi f.lo v := by
  simp [State.setFld]

/-- Every other register keeps its value when a field is set. -/
theorem State.csrGet_setFld_ne (s : State) {f : Fld} {r : Reg} {i i' : Nat} (v : Nat) (hi : i < 65536) (hi' : i' < 65536)
    (h : r ≠ f.reg ∨ i' ≠ i) : (s.setFld f i v).csrGet r i' = s.csrGet r i' :=
  s.csrGet_csrSet_ne _ hi hi' h

/-- A field reads as the number last put into it, cut to its width. -/
theorem State.fld_setFld_same (s : State) (f : Fld) (i v : Nat) (h : f.hi < 64) :
    (s.setFld f i v).fld f i = v % 2 ^ (f.hi + 1 - f.lo) := by
  simp only [State.fld, State.csrGet_setFld_same]
  exact bitsOf_withBits_same _ _ _ _ h

/-- A field of the same register keeps its value when a disjoint one is set. -/
theorem State.fld_setFld_disj (s : State) (f g : Fld) (i v : Nat) (hr : g.reg = f.reg) (hd : g.hi < f.lo ∨ f.hi < g.lo) :
    (s.setFld f i v).fld g i = s.fld g i := by
  simp only [State.fld]
  rw [hr, State.csrGet_setFld_same]
  exact bitsOf_withBits_disj _ _ _ _ _ _ hd

/-- A field of another register, or of another instance, keeps its value. -/
theorem State.fld_setFld_ne (s : State) (f g : Fld) {i j : Nat} (v : Nat) (hi : i < 65536) (hj : j < 65536)
    (h : g.reg ≠ f.reg ∨ j ≠ i) : (s.setFld f i v).fld g j = s.fld g j := by
  simp only [State.fld]
  rw [State.csrGet_setFld_ne s v hi hj h]

@[simp] theorem State.fld_reply (s : State) (f : Fld) (i : Nat) (v : BitVec 256) : (s.reply v).fld f i = s.fld f i := rfl
@[simp] theorem State.csrGet_reply (s : State) (r : Reg) (i : Nat) (v : BitVec 256) : (s.reply v).csrGet r i = s.csrGet r i := rfl
@[simp] theorem State.csrGet_setCore (s : State) (r : Reg) (i c : Nat) (k : Core) : (s.setCore c k).csrGet r i = s.csrGet r i := rfl
@[simp] theorem State.fld_setCore (s : State) (f : Fld) (i c : Nat) (k : Core) : (s.setCore c k).fld f i = s.fld f i := rfl
@[simp] theorem State.core_csrSet (s : State) (r : Reg) (i c : Nat) (v : Word) : (s.csrSet r i v).core c = s.core c := rfl
@[simp] theorem State.core_setFld (s : State) (f : Fld) (i v c : Nat) : (s.setFld f i v).core c = s.core c := rfl

/-- A core's record reads as what was put into it. -/
@[simp] theorem State.core_setCore_same (s : State) (c : Nat) (k : Core) : (s.setCore c k).core c = k := by
  simp [State.core, State.setCore]

/-- Every other core keeps its record. -/
theorem State.core_setCore_ne (s : State) {c c' : Nat} (k : Core) (h : c' ≠ c) : (s.setCore c k).core c' = s.core c' := by
  simp only [State.core, State.setCore]
  exact FMap.get_set_ne _ _ _ h

/-- Everything a write at a unit's port can do: nothing, an error response, or its effect behind the XGATE (R79, R10). -/
theorem State.csrPort_cases (s : State) (src : Src) (r : Reg) (i : Nat) (k : State → State) :
    (s.srcLive src = false ∧ s.csrPort src r i k = s) ∨
    (s.srcLive src = true ∧ s.unitUp r = false ∧ s.csrPort src r i k = s.replyErr) ∨
    (s.srcLive src = true ∧ s.unitUp r = true ∧ s.csrPort src r i k = k ((s.gateSees r i).reply 0)) := by
  unfold State.csrPort
  cases s.srcLive src <;> cases s.unitUp r <;> simp

theorem State.csrPort_of_live (s : State) (src : Src) (r : Reg) (i : Nat) (k : State → State) (h1 : s.srcLive src = true)
    (h2 : s.unitUp r = true) : s.csrPort src r i k = k ((s.gateSees r i).reply 0) := by
  simp [State.csrPort, h1, h2]

/-- What the XGATE does at a write to another register: at most its own register changes (R10). -/
theorem State.gateSees_cases (s : State) (r : Reg) (i : Nat) :
    s.gateSees r i = s ∨ ∃ g k w, r.gate i = some (g, k) ∧ s.gateSees r i = s.csrSet g k w := by
  unfold State.gateSees
  split
  · rename_i g k h
    unfold State.gateFall
    split
    · exact Or.inr ⟨g, k, _, h, rfl⟩
    · exact Or.inl rfl
  · exact Or.inl rfl

/-- Storing to memory keeps its canonical form. -/
theorem State.memWrite_wf (s : State) (a n v : Nat) (h : BMap.wf s.mem = true) : BMap.wf (s.memWrite a n v).mem = true :=
  BMap.wf_writeLE _ _ _ _ h

/-- A store leaves every byte outside it alone. -/
theorem State.memWrite_frame (s : State) (a n v b : Nat) (h : b < a ∨ a + n ≤ b) :
    BMap.get (s.memWrite a n v).mem b = BMap.get s.mem b :=
  BMap.get_writeLE_ne _ _ _ _ _ h

end Sys2Proof.Machine
end

