-- ==== Sys2Proof/Tests/Slice0.lean ====
section
/-!
SUPPORT. Tests: the smoke test of well-formedness, worked examples of the spec, one step each, and for each statement of the
certificate a theorem `test_meets_<its name>`: small states that meet the hypotheses of its clauses.

A clause whose hypothesis asks an opaque constant of Config for a value (a signature that verifies, a certificate that is
accepted) has no such state, since nothing proves a value of the constant; its other hypotheses are shown.
-/

open Sys2Proof Sys2Proof.Machine

namespace Sys2Proof.Tests

set_option Elab.async false

/-! ## Small states -/

/-- A state with fields set: field, instance, value. -/
def put (s : State) (l : List (Fld × Nat × Nat)) : State := l.foldl (fun s e => s.setFld e.1 e.2.1 e.2.2) s

/-- The module in RUN: every island ON, both Tally cores and core 0 running. -/
def up : State := put { State.reset with
    pwr := { mode := .run, phase := 8, standby := true, switchClosed := true, inputBack := true, belowStop := false }
    reeve := { run := .running }
    cocoon := { run := .running }
    cores := [(0, { run := .running })] }
  ((List.range 25).map (fun j => (Fld.PW_ISTATE_STATE, j, 1)))

/-- The Reeve serves, in slot 3, a call with this code and these arguments, from H mode or not. -/
def call (s : State) (code : Nat) (h : Bool) (a0 a1 : Word) : State :=
  { (((put s [(Fld.RV_STAT_STATE, 3, 2)]).csrSet .RV_ARG0 3 a0).csrSet .RV_ARG1 3 a1) with
    slots := [(3, { taken := true, code := code, hmode := h })] }

/-- The Cocoon serves, in mailbox 2, a call with this code and these request words, from a source. -/
def ckCall (s : State) (code src : Nat) (h : Bool) (ws : List Word) : State :=
  { (ws.zipIdx.foldl (fun s e => s.csrSet .CK_MSG (16 + e.2) e.1) (put s [(Fld.CK_STAT_STATE, 2, 2)])) with
    ckSlots := [(2, { taken := true, code := code, hmode := h, src := src })] }

/-- What a command leaves: the state itself where it does not go on. -/
def after (c : Instr) (s : State) : State :=
  match exec c s with
  | .next t => t
  | _ => s

/-- The word that carries these fields of a register. -/
def word (l : List (Fld × Nat)) : Word := l.foldl (fun w e => w ||| (BitVec.ofNat 64 e.2 <<< e.1.lo)) 0

/-- Both Tally cores with the fields given set. -/
def both (s : State) (f : Tally → Tally) : State := { s with reeve := f s.reeve, cocoon := f s.cocoon }

/-- All HBM controllers in RUN; the first line of HBM is at both ends of every map. -/
def hbmUp : State := put up ((List.range 64).map (fun p => (Fld.MC_PCSTAT_STATE, p, 2)))

/-- Group 79 of the cores 10, 20 and 159 (`n` of them), in a state of CG_STAT, its members as given. -/
def grp (n st : Nat) (l : List Core) : State :=
  { put up ([(Fld.CG_DEF_SIZE, 79, n), (Fld.CG_DEF_M0, 79, 10), (Fld.CG_DEF_M1, 79, 20), (Fld.CG_DEF_M2, 79, 159),
      (Fld.CG_DEF_HOME, 79, 0x7F), (Fld.CG_STAT_STATE, 79, st), (Fld.CG_STAT_ACTIVE, 79, 2 ^ n - 1),
      (Fld.CG_STAT_SIZE_EFF, 79, n)] ++
      (([10, 20, 159].take n).flatMap (fun c => [(Fld.CG_CORE_IN, c, 1), (Fld.CG_CORE_GROUP, c, 79)]))) with
    cores := [10, 20, 159].zip l }

/-- A core whose L2 is on, by its registers. -/
def l2On (l : List L2Line) : Core :=
  { run := .running, l2 := l, arch := { sys := [(CsFld.L2CTL_STATE.csn, BitVec.ofNat 64 (2 ^ CsFld.L2CTL_STATE.lo))] } }

/-- Core 0 alone, with a system register set. -/
def withCs (k : Core) (csn : Nat) (v : Word) : Core :=
  { k with arch := { k.arch with sys := FMap.set k.arch.sys csn v } }

/-- `State.coreMeets` as a Bool. -/
def goes (s : State) (c : CoreId) (len : Nat) (u : State) : Bool :=
  s.coreIssues c.val && s.traceRoom c.val && !(s.core c.val).stepping && (u.core c.val).dbgHit == [] &&
    (u.core c.val).run == .running && (u.core c.val).slot == (s.core c.val).slot &&
    (u.core c.val).arch.csf CsFld.SSTAT_DEFER == (s.core c.val).arch.csf CsFld.SSTAT_DEFER &&
    ((s.core c.val).skipCmp || (s.core c.val).arch.cmpList 1 (s.core c.val).arch.pc len == [])

theorem goes_sound (s : State) (c : CoreId) (len : Nat) (u : State) (h : goes s c len u = true) : s.coreMeets c len u := by
  unfold goes at h
  unfold State.coreMeets
  simp only [Bool.and_eq_true, Bool.or_eq_true, beq_iff_eq, Bool.not_eq_true'] at h
  simp_all

/-- An agent's next instruction finds its operands in some state (`zisMeets`), of which `q` holds. -/
def meets (s : State) (a : Agent) (len : Nat) (m : Z Unit) (q : State → Bool) : Bool :=
  match s.openedBy a len m with
  | none => false
  | some u => q u &&
    match a with
    | .core c => goes s c len u
    | .thread t => s.threadIssues t.val && !s.brkHits t.val && (u.thread t.val).run != .stopped &&
        !(u.thread t.val).stepping && (u.thread t.val).slot == (s.thread t.val).slot

theorem meets_sound (s : State) (a : Agent) (len : Nat) (m : Z Unit) (q : State → Bool) (h : meets s a len m q = true) :
    ∃ u, s.zisMeets a len m u ∧ q u = true := by
  unfold meets at h
  split at h
  · cases h
  · rename_i u hu
    cases a
    · simp only [Bool.and_eq_true] at h
      exact ⟨u, ⟨hu, goes_sound _ _ _ _ h.2⟩, h.1⟩
    · simp only [Bool.and_eq_true, bne_iff_ne, beq_iff_eq, Bool.not_eq_true'] at h
      exact ⟨u, ⟨hu, by simp_all⟩, h.1⟩

/-- The same for `zisReady`. -/
def ready (s : State) (a : Agent) (len : Nat) (rs : List Reg5) (q : State → Bool) : Bool :=
  meets s a len (rs.forM (useReg a)) q && s.slotOf a == none

theorem ready_sound (s : State) (a : Agent) (len : Nat) (rs : List Reg5) (q : State → Bool) (h : ready s a len rs q = true) :
    ∃ u, s.zisReady a len rs u ∧ q u = true := by
  unfold ready at h
  rw [Bool.and_eq_true] at h
  obtain ⟨u, hu, hq⟩ := meets_sound s a len _ q h.1
  exact ⟨u, ⟨hu, by simpa using h.2⟩, hq⟩

/-- An operation of an agent ends well, and `q` holds of what it answers and leaves. -/
def ends {α : Type} (m : Z α) (s : State) (q : α → State → Bool) : Bool :=
  match m.run s with
  | .ok v x => q v x
  | .error _ _ => false

/-- `State.calmAfter` and `State.met` as a Bool, for an agent that defers nothing and stands alone. -/
def calm (u x : State) (a : Agent) (kind : Nat) (ea : Word) (size : Nat) : Bool :=
  match a with
  | .core c => (x.core c.val).run == .running && (x.core c.val).slot == none && (x.core c.val).dbgHit == [] &&
      !(x.core c.val).stepping &&
      (x.core c.val).arch.csf CsFld.SSTAT_DEFER == (u.core c.val).arch.csf CsFld.SSTAT_DEFER && x.groupOf c.val == none &&
      (x.core c.val).arch.cmpList kind (ea.truncate 48) size == []
  | .thread t => (x.thread t.val).run != .stopped && (x.thread t.val).slot == none && !(x.thread t.val).stepping

theorem calm_sound (u x : State) (a : Agent) (kind : Nat) (ea : Word) (size : Nat) (h : calm u x a kind ea size = true) :
    u.met x a kind ea size := by
  unfold calm at h
  unfold State.met State.calmAfter State.lone
  cases a <;> simp_all [Bool.and_eq_true]

/-- A core's next instruction raises an exception in some state (`zisRaises`), of which `q` holds. -/
def raises (s : State) (c : CoreId) (len : Nat) (m : Z Unit) (h : Bool) (q : State → Bool) : Bool :=
  s.slotOf (.core c) == none &&
  match s.openedBy (.core c) len m with
  | none => false
  | some p => !((s.traceBegin c.val).unmade p c.val).drainBlocked c.val &&
    match (if h then pure () else trapSlots c : Z Unit).run ((s.traceBegin c.val).unmade p c.val) with
    | .ok _ u => q u && goes s c len u
    | .error _ _ => false

theorem raises_sound (s : State) (c : CoreId) (len : Nat) (m : Z Unit) (h : Bool) (q : State → Bool)
    (hr : raises s c len m h q = true) : ∃ u, s.zisRaises c len m h u ∧ q u = true := by
  unfold raises at hr
  rw [Bool.and_eq_true] at hr
  obtain ⟨h1, h2⟩ := hr
  split at h2
  · cases h2
  · rename_i p hp
    rw [Bool.and_eq_true] at h2
    obtain ⟨h3, h4⟩ := h2
    split at h4
    · rename_i u hu
      rw [Bool.and_eq_true] at h4
      exact ⟨u, ⟨by simpa using h1, p, hp, by simpa using h3, hu, goes_sound _ _ _ _ h4.2⟩, h4.1⟩
    · cases h4

/-- A core's `trap` finds its entry in some state (`zisTraps`), of which `q` holds. -/
def traps (s : State) (c : CoreId) (len : Nat) (h : Bool) (q : State → Bool) : Bool :=
  meets s (.core c) len (if h then pure () else trapSlots c) q && s.slotOf (.core c) == none &&
  match s.openedBy (.core c) len (pure ()) with
  | some p => !p.drainBlocked c.val
  | none => true

theorem traps_sound (s : State) (c : CoreId) (len : Nat) (h : Bool) (q : State → Bool) (ht : traps s c len h q = true) :
    ∃ u, s.zisTraps c len h u ∧ q u = true := by
  unfold traps at ht
  simp only [Bool.and_eq_true] at ht
  obtain ⟨u, hu, hq⟩ := meets_sound s (.core c) len _ q ht.1.1
  refine ⟨u, ⟨hu, by simpa using ht.1.2, ?_⟩, hq⟩
  intro p hp
  have h2 := ht.2
  rw [hp] at h2
  simpa using h2

/-- The first lines of HBM, and some more, are in the LLC: an access to them reaches no controller. -/
def warm (more : List Nat) : FMap (List LlcLine) :=
  (List.range 66 ++ more).foldl (fun m l => FMap.set m (homeSlice l)
    ((⟨l, 0, false, false, false, 0, 0, none⟩ : LlcLine) :: FMap.get m [] (homeSlice l))) []

/-- Core 0 as given, thread 255 at the start of its instruction memory, g1 of the thread at the last word of its data
memory; every HBM controller in RUN. -/
def with0 (k : Core) : State :=
  { hbmUp with cores := [(0, k)], llc := warm [86, 87, 512, 513, 2047, 2048],
               threads := [(255, { run := .run, pc := 0xF1003E0000,
                                   rf := [(({} : Thread).regAt 1, 0xF1003FFFF8)] })] }

/-- Core 0 runs at 0 in a mode, with these system registers. -/
def cpu (mode : BitVec 2) (sys : FMap Word := []) : State := with0 { run := .running, arch := { mode := mode, sys := sys } }

/-- The word that carries a field of a core system register. -/
def word64 (f : CsFld) (v : Nat) : Word := BitVec.ofNat 64 v <<< f.lo

/-- The hypotheses on a load, for a form and a size. -/
def loads (s : State) (a : Agent) (rt : Reg5) (m : MemMode) (n : Nat) : Bool :=
  memFits m (some rt) && s.slotOf a == none && meets s a (memLen m) (do
    useReg a rt
    (memRegs m).forM (useReg a)) (fun u =>
      ends (agentReads a n (u.memAt a m n)) (u.noted a (memRegs m)) (fun _ x => calm u x a 2 (u.memAt a m n) n))

/-- The same of a store. -/
def stores (s : State) (a : Agent) (rt : Reg5) (m : MemMode) (n : Nat) : Bool :=
  memFits m none && s.slotOf a == none && meets s a (memLen m) (do
    useReg a rt
    (memRegs m).forM (useReg a))
    (fun u =>
      ends (agentWrites a n ((u.regVal a rt).toNat % 256 ^ n) (u.memAt a m n)) (u.noted a (rt :: memRegs m))
        (fun _ x => calm u x a 3 (u.memAt a m n) n))

/-- Port `p` runs in a mode, with its link in a state. -/
def portOn (s : State) (p mode link : Nat) : State :=
  put s [(Fld.PT_CTL_MODE, p, mode), (Fld.BT_LOWN_FUNC, portLand p, 1), (Fld.PT_STAT_LINK, p, link)]

/-- Channel 0 and its port, a free descriptor of `len` bytes at the start of Granary bank 0, which the channel owns or not. -/
def dmaOn (len owner : Nat) : State :=
  let s := put (portOn up 0 1 2) [(Fld.QE_DMA_CTL_RXEN, 0, 1), (Fld.QE_DMA_CTL_TXEN, 0, 1), (Fld.QE_DMA_CTL_STATE, 0, 1),
    (Fld.QE_DMA_CTL_FREEQ, 0, 1), (Fld.QE_DMA_CTL_TXQ, 0, 1), (Fld.QE_CFG_BASE, 1, granaryBase / 32), (Fld.QE_PTR_TAIL, 1, 1),
    (Fld.QE_CFG_BASE, 0, granaryBase / 32 + 64), (Fld.GR_BANK_STATE, 0, 1), (Fld.GR_BANK_OWNER, 0, owner)]
  { s with mem := BMap.writeLE (BMap.writeLE [] granaryBase (granaryBase + 0x2000) 6) (granaryBase + 6) len 2 }

/-- `State.openByte` as a Bool, and of every byte of a buffer that the Cocoon uses. -/
def openB (s : State) (src : Src) (write : Bool) (a : Nat) : Bool :=
  (isHbm a && (s.l2Holders (a / 64)).isEmpty && (s.llcFind (a / 64)).isNone && s.hbmRun (s.hbmCtl a) &&
    !s.flag Fld.MC_INJ_ARM (s.hbmCtl a) && s.fwPermits false (s.hbmCtl a) a (s.fwReq src true a) write &&
    (s.mirOf (s.hbmPlace a).1 (s.hbmPlace a).2).isNone && !(s.fwReq src true a).sec &&
    s.rawPoison (s.hbmLoc (a / 64 * 64)) == 0 && s.soundLine (s.hbmLoc (a / 64 * 64)) && (!srcAllocates src || !write)) ||
  (isGranary a && s.islOpen 22 && s.granOpen (granBank a) src write && s.granBad.isEmpty && !s.flag Fld.ER_INJ_ARM 244 &&
    s.fwPermits true (granBank a) a { src := some (srcId src), sec := s.accSecure src a } write)

def mayUse (s : State) (write : Bool) (pa n : Nat) : Bool :=
  (List.range n).all (fun k => openB { s with capNs := true } .cocoon write (pa + k))

theorem openB_sound (s : State) (src : Src) (write : Bool) (a : Nat) (h : openB s src write a = true) :
    s.openByte src write a := by
  unfold openB at h
  unfold State.openByte State.plainLine
  simp only [Bool.or_eq_true, Bool.and_eq_true, List.isEmpty_iff, Option.isNone_iff_eq_none, beq_iff_eq,
    Bool.not_eq_true'] at h
  rcases h with h | h
  · exact .inl (by simp_all)
  · exact .inr (by simp_all)

theorem mayUse_sound (s : State) (write : Bool) (pa n : Nat) (h : mayUse s write pa n = true) : s.ckMayUse write pa n := by
  intro k hk
  exact openB_sound _ _ _ _ (List.all_eq_true.mp h k (List.mem_range.mpr hk))

/-! ## The hypotheses of the statements: power, islands, time, boot -/

/-- Live sources with the gate open and closed, and island S on and off. -/
theorem test_meets_BellRegisterWrites :
    (up.srcLive .reeve = true ∧ up.srcLive (.core 0) = true ∧ up.islOpen 23 = true) ∧
    (let s := put up [(Fld.TB_XGATE_STATE, 0, 2)]; s.srcLive (.core 0) = true ∧ s.islOpen 23 = true ∧ s.gateState .TB_ADDEND 0 = 2) ∧
    up.gateState .TB_ADDEND 0 ≠ 2 ∧
    (let s := put up [(Fld.PW_ISTATE_STATE, 21, 3)]; s.srcLive .reeve = true ∧ s.islOpen 23 = true ∧ s.islState 21 ≠ 1 ∧
      ∀ j, j < 25 → j ≠ 21 → s.fld Fld.PW_RCTL_MODE j ≠ 2) ∧
    up.islState 21 = 1 := by decide +kernel

theorem test_meets_BellEvents :
    up.clockRuns = true ∧ 46107636812 ≤ up.fld Fld.TB_ADDEND_ADDEND 0 ∧ up.fld Fld.TB_ADDEND_ADDEND 0 ≤ 46126083556 ∧
    (put up [(Fld.TB_SECSET_PENDING, 0, 1)]).flag Fld.TB_SECSET_PENDING 0 = true ∧
    ({ up with bell := { slewRem := -1 } }).bell.slewRem ≠ 0 ∧
    (let s := { up with bell := { onRefclk := true } }; s.bell.onRefclk = true ∧ ∃ r < 4, s.recValid 249 r = false) ∧
    (∀ b < 2, let s := put up [(Fld.TB_CTL_PPSIN_EN, 0, 1), (Fld.TB_STAT_HOLDOVER, 0, b)]; s.clockRuns = true ∧
      s.flag Fld.TB_CTL_PPSIN_EN 0 = true ∧ true = !s.flag Fld.TB_CTL_PPS_POL 0 ∧ s.bell.ppsSeen = false ∧
      s.flag Fld.TB_STAT_HOLDOVER 0 = (b == 1)) ∧
    (∀ e ∈ [((2 ^ 63 - 1 : Int), false), (2 ^ 63, true)],
      let s := { put up [(Fld.TB_CTL_PPSIN_EN, 0, 1)] with bell := { ppsSeen := true, ppsAge := e.1 } };
      s.bell.ppsSeen = true ∧ decide (2 ^ 63 ≤ (s.advance 0).bell.ppsAge + ((s.advance 0).partGain 0 : Int)) = e.2) ∧
    (let s := put up [(Fld.TB_STAT_PPS_LOST, 0, 0)]; s.clockRuns = true ∧ s.flag Fld.TB_STAT_PPS_LOST 0 = false) ∧
    (let s := { put up [(Fld.TB_CTL_PPSIN_EN, 0, 1), (Fld.TB_SECSET_PENDING, 0, 1)] with bell := { acc := 2 ^ 64 - 1 } };
      let u := s.advance 0;
      s.bell.ppsSeen = false ∧ u.flag Fld.TB_SECSET_PENDING 0 = true ∧
        u.bell.acc.toNat / 2 ^ 64 < (u.bell.acc.toNat + u.partGain 0x80000000) / 2 ^ 64) ∧
    (let s := put up [(Fld.BT_LOWN_FUNC, 5, 2)]; s.fld Fld.BT_LOWN_FUNC 5 = 2 ∧ s.pwr.past380 = false ∧ s.bell.ppsOut = false) ∧
    ({ up with bell := { ppsOut := true } }).bell.ppsOut = true := by decide +kernel

/-- A free unit, a unit of the source, a unit of another source; an armed unit of each route. -/
theorem test_meets_CompareUnits :
    up.srcLive (.core 0) = true ∧ up.islOpen 23 = true ∧ Fld.TB_CMP_OWN_FORCE.of 1 = 0 ∧ Fld.TB_CMP_OWN_CLAIM.of 1 = 1 ∧
    up.fld Fld.TB_CMP_OWN_CLAIM 511 = 0 ∧ up.ownedBy .TB_CMP_OWN 511 (.core 0) = false ∧
    (let s := put up [(Fld.TB_CMP_OWN_CLAIM, 511, 1)]; s.fld Fld.TB_CMP_OWN_CLAIM 511 = 1 ∧
      s.fld Fld.TB_CMP_OWN_OWN_SRC 511 = srcId (.core 0) ∧ Fld.TB_CMP_OWN_CLAIM.of 0 = 0 ∧
      s.ownedBy .TB_CMP_OWN 511 (.core 0) = true ∧ s.srcLive (.core 0) = true ∧
      s.fld Fld.TB_CMP_OWN_OWN_SRC 511 ≠ srcId .reeve ∧ s.srcLive .reeve = true) ∧
    (∀ r < 4, let s := put up [(Fld.TB_CMP_CTL_EN, 0, 1), (Fld.TB_CMP_CTL_ROUTE, 0, r)];
      s.clockRuns = true ∧ 46107636812 ≤ s.fld Fld.TB_ADDEND_ADDEND 0 ∧ s.fld Fld.TB_ADDEND_ADDEND 0 ≤ 46126083556 ∧
      s.flag Fld.TB_CMP_CTL_EN 0 = true ∧ s.fld Fld.TB_CMP_CTL_ROUTE 0 = r ∧ s.fld Fld.TB_CMP_PER_PERIOD 0 = 0) ∧
    (put up [(Fld.TB_CMP_PER_PERIOD, 0, 5)]).fld Fld.TB_CMP_PER_PERIOD 0 ≠ 0 ∧
    (∀ b : Bool, let s := put up [(Fld.TB_CMP_CTL_EN, 511, 1), (Fld.TB_CMP_TGT_FRAC, 511, bit (!b)),
        (Fld.TB_CMP_CTL_ROUTE, 511, 1), (Fld.TB_CMP_OWN_CLAIM, 511, 1)];
      s.clockRuns = true ∧ s.flag Fld.TB_CMP_CTL_EN 511 = true ∧ s.cmpReached 511 = b ∧ s.fld Fld.TB_CMP_CTL_ROUTE 511 = 1 ∧
      s.ownedBy .TB_CMP_OWN 511 (.core 0) = true ∧ s.srcLive (.core 0) = true ∧ s.islOpen 23 = true) ∧
    State.reset.clockRuns = false ∧ up.flag Fld.TB_CMP_CTL_EN 511 = false ∧ up.cmpReached 511 = true ∧
    Fld.TB_CMP_CTL_EN.of (word [(Fld.TB_CMP_CTL_EN, 1)]) = 1 := by decide +kernel

theorem test_meets_IslandRegisterWrites :
    up.srcLive .reeve = true ∧ up.srcLive (.core 0) = true ∧ up.srcLive .cocoon = true ∧ up.islOpen 23 = true ∧
    (put up [(Fld.PW_XGATE_STATE, 0, 2)]).gateState .PW_VSET 22 = 2 ∧ up.gateState .PW_VSET 22 ≠ 2 ∧
    (put up [(Fld.PW_XGATE_STATE, 0, 2)]).gateState .PW_THERM 0 = 2 ∧
    (let s := { up with isl := [(19, { entry := some ⟨false, some 3⟩ })] };
      s.pwr.notice = none ∧ Fld.PW_HOLD_ISL_ISL.of 0x80000 / 2 ^ 19 % 2 = 1 ∧ (s.island 19).entry.isSome = true) := by
  decide +kernel

theorem test_meets_IslandServices :
    ((call up 0x02 true 22 1).called 3 0x02 true ∧ offersPoint 22 1 = true) ∧
    ((call up 0x02 true 0 5).called 3 0x02 true) ∧ (offersPoint 0 3 = true ∧ (call up 0x02 true 0 3).overBudget 0 = false) ∧
    (offersPoint 23 3 = false ∧ (call up 0x02 true 23 3).called 3 0x02 true) ∧
    (let s := call { up with pwr := { up.pwr with p10ms := 400000 } } 0x02 true 19 3;
      s.called 3 0x02 true ∧ s.overBudget 19 = true) ∧
    (let s := call { up with cores := (List.range 160).map (fun i => (i, { run := .parked })) } 0x03 true 0 0;
      s.called 3 0x03 true ∧ s.entryAnswer 0 false = none) ∧
    (let s := call (put up [(Fld.PW_HOLD_ISL_ISL, 0, 1)]) 0x03 true 0 0;
      s.called 3 0x03 true ∧ s.islState 0 = 1 ∧ s.islHeld 0 = true) ∧
    (let s := call up 0x03 true 0 0; s.called 3 0x03 true ∧ s.islState 0 = 1 ∧ s.islHeld 0 = false ∧
      ∃ c < 160, coreIsland c = 0 ∧ (s.core c).run ≠ .parked) ∧
    (let s := call { up with cores := (List.range 160).map (fun i => (i, { run := .parked })) } 0x04 true 0 0;
      s.called 3 0x04 true ∧ s.entryAnswer 0 true = none) ∧
    (call up 0x04 true 24 0).called 3 0x04 true ∧
    (∀ x ∈ [1, 3, 5], let s := call (put up [(Fld.PW_ISTATE_STATE, 22, x)]) 0x05 true 22 0;
      s.callState 3 = 2 ∧ s.serving 3 0x05 = true ∧ s.arg0 3 = 22 ∧ s.islState 22 = x) ∧
    (∀ e ∈ [(0, 0, 0), (1, 0, 0), (0, 1, 0), (0, 0, 1)],
      let s := call (put up [(Fld.PW_HOLD_ISL_ISL, 0, e.1), (Fld.PW_HOLD_ISL_STACK, 0, e.2.1), (Fld.PW_HOLD_GR_BANK, 0, e.2.2)]) 0x06 true 0 0;
      s.called 3 0x06 true ∧ s.pwr.mode = .run ∧ s.anyHeld = (e != (0, 0, 0))) ∧
    (∀ x ∈ [ModState.tripped, .start], let s := call { up with pwr := { up.pwr with mode := x } } 0x06 true 0 0;
      s.called 3 0x06 true ∧ s.pwr.mode = x) ∧
    (call up 0x07 true 0 0).called 3 0x07 true ∧
    (∀ c ∈ [2, 3, 4, 6, 7], (call up c false 0 0).called 3 c false) := by
  unfold State.called; and_intros <;> decide +kernel

theorem test_meets_IslandEntryAndExit :
    (let s := { call up 0x03 true 0 0 with isl := [(0, { entry := some ⟨true, some 3⟩ })] };
      (s.island 0).entry = some ⟨true, some 3⟩ ∧ s.callState 3 = 2) ∧
    (∀ g : Bool, let s := { put up [(Fld.PW_ISTATE_STATE, 19, 2)] with isl := [(19, { gating := g })] };
      s.islState 19 = 2 ∧ (s.island 19).entry = none ∧ (s.island 19).gating = g) ∧
    (∀ g : Bool, let s := { put up [(Fld.PW_ISTATE_STATE, 19, 4)] with isl := [(19, { coldExit := g, wakers := [3] })] };
      s.islState 19 = 4 ∧ (s.island 19).coldExit = g) := by decide +kernel

theorem test_meets_IslandPasses :
    up.clockRuns = true ∧ up.islState 23 = 1 ∧ up.islState 22 = 1 ∧ up.fld Fld.PW_RCTL_MODE 22 ≠ 2 ∧
    4 * (up.fld Fld.PW_THERM_T_CRIT 0 : Int) ≤ (List.replicate 25 420).foldl max (-160) ∧
    (put up [(Fld.PW_RCTL_MODE, 22, 2)]).fld Fld.PW_RCTL_MODE 22 = 2 ∧ up.bell.cyc < 40000 ∧
    46107636812 ≤ up.fld Fld.TB_ADDEND_ADDEND 0 ∧ up.fld Fld.TB_ADDEND_ADDEND 0 ≤ 46126083556 ∧
    (∀ x ∈ [ModState.run, .tripped], let s := { up with pwr := { up.pwr with mode := x } };
      s.pwr.mode = x ∧ s.clockRuns = true ∧ s.islState 23 = 1) ∧
    (let s := { up with isl := [(22, { critCap := true })],
                        pwr := { up.pwr with hottest := 4 * (up.fld Fld.PW_THERM_T_CRIT 0 : Int) - 20 } };
      (s.island 22).critCap = true ∧ (s.island 22).boostFell = false ∧ (s.island 22).powerCap = false ∧ s.pfwFloor 22 = false ∧
      s.pwr.hottest ≤ 4 * (s.fld Fld.PW_THERM_T_CRIT 0 : Int) - 20) ∧
    (let s := { up with pwr := { up.pwr with hottest := 4 * (up.fld Fld.PW_THERM_T_CRIT 0 : Int) - 19 } };
      4 * (s.fld Fld.PW_THERM_T_CRIT 0 : Int) - 20 < s.pwr.hottest) ∧
    (let s := { up with pwr := { up.pwr with hottest := 4 * (up.fld Fld.PW_THERM_T_WARN 0 : Int) - 20 } };
      s.pwr.hottest ≤ 4 * (s.fld Fld.PW_THERM_T_WARN 0 : Int) - 20) ∧
    (let s := { up with pwr := { up.pwr with capEpisode := true, p10ms := 3399 } }; s.pwr.capEpisode = true ∧ s.pwr.p10ms < 3400) ∧
    up.pwr.standby = true ∧ up.pwr.mode = .run ∧
    (let s := { up with pwr := { notice := some .powerFail } }; s.pwr.notice = some .powerFail ∧ ∃ r < 4, s.recValid 250 r = false) ∧
    ({ up with pwr := { notice := some .emergency } }).pwr.notice = some .emergency := by decide +kernel

theorem test_meets_InputPowerEvents :
    up.pwr.belowStop = false ∧ State.reset.pwr.belowStop = true ∧ up.pwr.standby = true ∧ up.pwr.failSeq = false ∧
    up.pwr.switchClosed = true ∧
    (∀ s ∈ [{ up with pwr := { up.pwr with deglitch := true, ovTimer := true } }],
      s.pwr.standby = true ∧ s.pwr.failSeq = false ∧ s.pwr.deglitch = true ∧ s.pwr.ovTimer = true) ∧
    (∀ t b : Bool, let s := { up with pwr := { up.pwr with failSeq := true, tripLatch := t, inputBack := b } };
      s.pwr.failSeq = true ∧ s.pwr.past380 = false ∧ s.pwr.tripLatch = t ∧ s.pwr.inputBack = b) ∧
    (let s := { up with pwr := { up.pwr with failSeq := true, past380 := true, ovTimer := true } };
      s.pwr.past380 = true ∧ s.pwr.tripLatch = false ∧ s.pwr.belowStop = false ∧ s.pwr.ovTimer = true) ∧
    (let s := { up with pwr := { up.pwr with past380 := true, ovTimer := true, belowStop := true } };
      s.pwr.ovTimer = true ∧ s.pwr.belowStop = true) ∧
    up.pwr.past380 = false ∧ up.pwr.mode ≠ .tripped ∧ State.reset.pwr.mode = .off ∧
    (∀ b : Bool, let s := { up with pwr := { up.pwr with mode := .tripped, tripLatch := true, standby := b } };
      s.pwr.mode = .tripped ∧ s.pwr.tripLatch = true ∧ s.pwr.standby = b ∧ s.pwr.past380 = false) ∧
    (let s := { State.reset with pwr := { backWait := true, inputBack := true } };
      s.pwr.backWait = true ∧ s.pwr.inputBack = true) := by decide +kernel

/-- The phases; no image is found in an empty flash. -/
theorem test_meets_StartUpPhases :
    (∀ n < 9, let s := { up with pwr := { up.pwr with mode := .start, phase := n, storeFull := true } };
      s.pwr.mode = .start ∧ s.pwr.resetLow = false ∧ s.pwr.failed = false ∧ s.pwr.phase = n ∧ s.pwr.storeFull = true ∧
      s.srcLive .reeve = true ∧ s.unitUp .BT_CREL = true ∧ s.llc = []) ∧
    up.fld Fld.BT_STAT_BOOTSEL 0 ≠ 3 ∧ (put up [(Fld.BT_STAT_BOOTSEL, 0, 3)]).fld Fld.BT_STAT_BOOTSEL 0 = 3 ∧
    up.findImage 1 [] [] = none ∧ up.findImage 2 [] [] = none ∧ up.findImage 3 [] [] = none ∧
    (∀ x ∈ [0, 1], (put up [(Fld.PW_ISTATE_STATE, 24, x)]).islState 24 = x) ∧ up.pwr.fwGuard = [] ∧
    (let s := { up with cores := [], pwr := { up.pwr with phase := 7, fwGuard := up.fwGuardOld } };
      s.pwr.fwGuard ≠ [] ∧ s.llc = [] ∧ s.cores = [] ∧ s.fwPend = [] ∧ s.srcLive .reeve = true ∧ s.unitUp .BT_CREL = true ∧
      s.cocoon.run = .running) ∧
    (1 : Word).getLsbD 0 = true ∧ (up.csrGet .BT_CREL 0).getLsbD 0 = false ∧ up.islState (coreIsland 0) = 1 := by decide +kernel

theorem test_meets_ResetCommands :
    up.pwr.standby = true ∧ up.pwr.mode ≠ .off ∧ up.pwr.tripLatch = false ∧ up.pwr.emergency = false ∧ up.pwr.failSeq = false ∧
    (let s := { up with pwr := { up.pwr with emergency := true } }; s.pwr.tripLatch = false ∧ s.pwr.emergency = true) ∧
    (let s := { up with pwr := { up.pwr with tripLatch := true } }; s.pwr.tripLatch = true ∧ s.pwr.standby = true) ∧
    up.srcLive (.core 0) = true ∧ up.unitUp .BT_RST = true ∧ up.srcSys (.core 0) = true ∧ up.islHeld 19 = false ∧
    up.islState 19 = 1 ∧ up.islHeld 21 = false ∧ up.islState 21 = 1 ∧
    (put up [(Fld.PW_HOLD_ISL_ISL, 0, 0x80000)]).islHeld 19 = true ∧ up.groupOf 159 = none ∧
    (∀ k < 160, coreIsland k = 19 → up.groupOf k = none) ∧
    (let s := grp 3 3 (List.replicate 3 { run := .running }); s.srcLive .reeve = true ∧ s.unitUp .BT_RST = true ∧
      s.groupOf 10 = some 79 ∧ s.fld Fld.CG_STAT_SIZE_EFF 79 = 3 ∧ s.groupMember 79 0 = 10 ∧ s.fld Fld.CG_STAT_ACTIVE 79 / 2 ^ 0 % 2 = 1 ∧
      ∀ k < 3, k ≠ 0 → s.groupMember 79 k ≠ 10) ∧
    up.srcLive (.thread 255) = true ∧ up.srcSys (.thread 255) = false ∧ up.srcLive .reeve = true := by decide +kernel

theorem test_meets_FirmwareServicesAndLands :
    ((call up 0x01 false 0 0).callState 3 = 2 ∧ (call up 0x01 false 0 0).serving 3 0x01 = true) ∧
    (let s := call up 0x0D true 0 0; s.called 3 0x0D true ∧ s.cocoon.run = .running ∧ (s.slot 3).second = false) ∧
    (let s := call { up with cocoon := {} } 0x0D true 0 0;
      s.called 3 0x0D true ∧ s.cocoon.run = .stopped ∧ (s.slot 3).second = false) ∧
    (∀ x ∈ [0x0C, 0x0D], let s := { call up x true 0 0 with slots := [(3, { taken := true, code := x, hmode := true, second := true })] };
      s.called 3 x true ∧ (s.slot 3).second = true) ∧
    (∀ x < 5, ∀ b : Bool, ∀ u ∈ [0, 4, 6, 7],
      let s := { put (call up 0x0D true 0 0) [(Fld.CK_STAT_STATE, 15, x), (Fld.CK_STAT_STATUS, 15, u)] with svc := { up.svc with extCall := b } };
      s.called 3 0x0D true ∧ (s.slot 3).second = false ∧ s.ckState 15 = x ∧ s.svc.extCall = b ∧ s.fld Fld.CK_STAT_STATUS 15 = u ∧
      s.fld Fld.CK_OWN_CLAIM 15 = 0) ∧
    (put up [(Fld.CK_OWN_CLAIM, 15, 1), (Fld.CK_OWN_OWN_SRC, 15, 0x200)]).fld Fld.CK_OWN_OWN_SRC 15 = 0x200 ∧
    (∀ k < 3, let s := { call up 0x0C true 0 0 with svc := { up.svc with ckReset := k } };
      s.called 3 0x0C true ∧ (s.slot 3).second = false ∧ s.svc.ckReset = k ∧ s.llc = [] ∧ s.findImage 1 [] [] = none) ∧
    (call up 0x0E true 0 0).called 3 0x0E true ∧
    (∀ x ∈ [(0x80, 0x6000), (0xFF, 0x603F)],
      let s := call { up with svc := { up.svc with ext := some 1 },
                              reeve := { up.reeve with sram := [(0x6000, 0xE000), (0x603F, 0xFFFF0000)] } } x.1 true 0 0;
      (s.slot 3).taken = true ∧ (s.slot 3).code = x.1 ∧ s.svc.ext.isSome = true ∧ s.extHandler (s.slot 3).code ≠ 0) ∧
    (∀ x ∈ [0x0F, 0x7F, 0x80, 0xFF], let s := call up x true 0 0; s.callState 3 = 2 ∧ (s.slot 3).taken = true ∧
      (s.slot 3).code = x ∧ s.svc.ext = none) ∧
    (let s := call { up with svc := { up.svc with extSlot := some 3 } } 0x80 true 0 0;
      s.svc.extSlot = some 3 ∧ s.callState 3 = 2) ∧
    ((call up 0x0C true 0 0).called 3 0x0C true ∧ ((call up 0x0C true 0 0).slot 3).second = false) ∧
    (call up 0x0C false 0 0).called 3 0x0C false ∧
    (∀ e ∈ [(10, 224), (17, 255), (18, 0), (18, 223)], (put up [(Fld.PT_CTL_SEC, e.2, 1)]).lownSecure e.1 = true ∧
      (put up [(Fld.PT_CTL_SEC, e.2, 1)]).lownSecure 9 = false) ∧ up.unitUp .BT_LOWN = true ∧ up.srcLive .cocoon = true ∧
    up.srcLive (.core 0) = true ∧ up.unitUp .BT_LOWN = true ∧
    up.fld Fld.BT_LOWN_FUNC 5 = 0 ∧ (put up [(Fld.BT_LOWN_FUNC, 5, 1)]).fld Fld.BT_LOWN_FUNC 5 ≠ 0 ∧
    (put up [(Fld.BT_LOWN_FUNC, 5, 1)]).fld Fld.BT_LOWN_OWN_SRC 5 = srcId (.core 0) ∧
    (put up [(Fld.BT_LOWN_FUNC, 5, 1)]).fld Fld.BT_LOWN_OWN_SRC 5 ≠ srcId .reeve := by
  unfold State.called; and_intros <;> decide +kernel

/-! ## The hypotheses of the statements: the Tally cores, mailboxes, errors, counters, trace and debug -/

/-- Both cores issue at 0 and at the last program address, with no prefix and with three; the Reeve's unpopulated addresses
lie between. -/
theorem test_meets_TallyAluOperations :
    (∀ cpu : TallyCpu, cpu = .reeve ∨ cpu = .cocoon → up.tallyReady cpu ∧ (up.tally cpu).prefixN = 0 ∧
      (let s := both up (fun k => { k with pc := 0xFFFF, prefixN := 3, prefixE := 0x800000000 });
        s.tallyReady cpu ∧ (s.tally cpu).prefixN ≤ 3)) ∧
    (both up (fun k => { k with pc := 0x1FFF })).tallyReady .reeve ∧ (both up (fun k => { k with pc := 0x8000 })).tallyReady .reeve ∧
    ¬ (both up (fun k => { k with pc := 0x2000 })).tallyReady .reeve ∧ (both up (fun k => { k with pc := 0x2000 })).tallyReady .cocoon := by
  unfold State.tallyReady; refine ⟨?_, ?_⟩
  · rintro cpu (rfl | rfl) <;> decide +kernel
  · decide +kernel

/-- The first and the last word and pair of each SRAM, and misaligned addresses with X0.IE set. -/
theorem test_meets_TallyMemory :
    up.flag Fld.ER_INJ_ARM 251 = false ∧ up.flag Fld.ER_INJ_ARM 252 = false ∧
    (∀ e ∈ [((TallyCpu.reeve, 0x20000, 0), 0x1FFFC), ((.cocoon, 0x80000, 1), 0x7FFFC), ((.reeve, 0x20000, 2), 0)],
      let s := both up (fun k => { k with regs := [(3, BitVec.ofNat 32 e.2)] });
      s.tallyReady e.1.1 ∧ ((s.tally e.1.1).t 3).toNat < e.1.2.1 ∧ ((s.tally e.1.1).t 3).toNat % 4 = 0 ∧
      FMap.get (s.tally e.1.1).sramBad 0 (((s.tally e.1.1).t 3).toNat / 4) = 0) ∧
    (∀ b ∈ [0x1FFF8, 0x7FFF8, 0], let s := both up (fun k => { k with regs := [(3, BitVec.ofNat 32 b)] });
      ((s.tally .cocoon).t 3).toNat + 4 < 0x80000 ∧ ((s.tally .cocoon).t 3).toNat % 8 = 0) ∧ (14 : TReg).toNat % 2 = 0 ∧
    (∀ b ∈ [1, 2, 0x1FFFF], let s := both up (fun k => { k with regs := [(3, BitVec.ofNat 32 b)], xregs := [(0, 0x10)] });
      s.tallyReady .reeve ∧ s.tallyReady .cocoon ∧ ((s.tally .reeve).t 3).toNat % 4 ≠ 0 ∧
      ((s.tally .reeve).x 0).getLsbD 4 = true ∧ s.svc.extSlot = none) := by
  unfold State.tallyReady; decide +kernel

theorem test_meets_TallyControl :
    up.tallyReady .reeve ∧ (up.tally .reeve).prefixN < 3 ∧
    (∀ n ∈ [1, 3], let s := both up (fun k => { k with prefixN := n, xregs := [(0, 0x10)] });
      s.tallyReady .cocoon ∧ (s.tally .cocoon).prefixN = n ∧ ((s.tally .cocoon).x 0).getLsbD 4 = true ∧ s.svc.extSlot = none) ∧
    (let s := both up (fun k => { k with regs := [(1, 0x20)], xregs := [(0, 0x10), (5, 0x20), (6, 0x20)] });
      s.tallyReady .cocoon ∧ (s.tally .cocoon).prefixN = 0 ∧ s.tallyEvents .cocoon &&& (s.tally .cocoon).t 1 ≠ 0 ∧
      s.tallyEvents .cocoon &&& (s.tally .cocoon).t 2 = 0 ∧ s.tallyEvents .cocoon &&& (s.tally .cocoon).x 6 ≠ 0 ∧
      ((s.tally .cocoon).x 0).getLsbD 4 = true) ∧
    (∀ n ∈ [0, 4, 5, 7], let s := both up (fun k => { k with prefixN := 1, prefixE := BitVec.ofNat 36 n });
      s.tallyReady .reeve ∧ (s.tally .reeve).prefixN ≤ 3 ∧ (s.tally .reeve).xnum = n) ∧
    (let s := both up (fun k => { k with prefixN := 3, prefixE := 8, xregs := [(0, 0x10)] });
      s.tallyReady .reeve ∧ 7 < (s.tally .reeve).xnum ∧ ((s.tally .reeve).x 0).getLsbD 4 = true ∧ s.svc.extSlot = none) := by
  unfold State.tallyReady; decide +kernel

theorem test_meets_TallyMailboxes :
    (let s := both up (fun k => { k with waiting := some 0x20, xregs := [(5, 0x20)] });
      (s.tally .cocoon).waiting = some 0x20 ∧ s.tallyEvents .cocoon &&& 0x20 ≠ 0) ∧
    (∀ e ∈ [(false, false), (true, false), (false, true)],
      let s := { up with pwr := { up.pwr with tripLatch := e.1, emergency := e.2, wdog := true } };
      s.reeve.run = .running ∧ s.islState 23 = 1 ∧ (s.pwr.tripLatch, s.pwr.emergency) = e) ∧ up.cocoon.run = .running ∧ up.islState 24 = 1 ∧ up.clockRuns = true ∧
    up.tallyIssues .reeve = true ∧ up.tallyIssues .cocoon = true ∧ up.reeve.mbq = [] ∧
    (both up (fun k => { k with mbq := [(31, 0xFF, true, false)] })).reeve.mbq.head? = some (31, 0xFF, true, false) ∧
    (∀ e ∈ [(0x7FFF, false), (0x8000, false), (0xDFFF, true), (0xE000, true), (0xFFFF, true)],
      (both up (fun k => { k with ploadAddr := BitVec.ofNat 16 e.1, plock := e.2 })).tallyIssues .reeve = true) ∧
    (∀ x ∈ [1, 2, 4], ∀ m ∈ [0, 15], let s := put up [(Fld.RV_STAT_STATE, m, x), (Fld.CK_STAT_STATE, m, x)];
      s.callState m = x ∧ s.ckState m = x ∧ (BitVec.ofNat 32 m).toNat % 32 = m ∧ (BitVec.ofNat 32 m).toNat % 16 = m) ∧
    (let s := both (put up [(Fld.RV_STAT_STATE, 7, 1), (Fld.RV_STAT_STATE, 31, 1)]) (fun k => { k with mbq := [(7, 1, false, false)], readQ := [31] });
      s.callState 31 = 1 ∧ s.nextCall = some 31 ∧ s.callState 7 = 1 ∧ s.nextCall ≠ some 7 ∧ s.tallyIssues .reeve = true) ∧
    (let s := { put up [(Fld.RV_STAT_STATE, 15, 4)] with slots := [(15, { taken := true })] };
      s.callState 15 = 4 ∧ (s.slot 15).taken = true) := by decide +kernel

/-- A free slot, a slot of the requester in each state of its call, a slot of another. -/
theorem test_meets_MailboxSlots :
    up.srcLive (.core 0) = true ∧ up.unitUp .RV_OWN = true ∧ up.clockRuns = true ∧ Fld.RV_OWN_FORCE.of 1 = 0 ∧
    Fld.RV_OWN_CLAIM.of 1 = 1 ∧ Fld.RV_OWN_CLAIM.of 0 = 0 ∧ up.fld Fld.RV_OWN_CLAIM 31 = 0 ∧
    up.ownedBy .RV_OWN 31 (.core 0) = false ∧
    (∀ x < 5, let s := put up [(Fld.RV_OWN_CLAIM, 31, 1), (Fld.RV_STAT_STATE, 31, x)]; s.callState 31 = x ∧
      s.ownedBy .RV_OWN 31 (.core 0) = true ∧ s.srcLive (.core 0) = true ∧ s.srcLive .reeve = true ∧
      s.ownedBy .RV_OWN 31 .reeve = false ∧ s.fld Fld.RV_OWN_CLAIM 31 = 1 ∧ s.fld Fld.RV_OWN_OWN_SRC 31 ≠ srcId .reeve) := by
  decide +kernel

/-- Unit 239 is the last with an armed injection of its own, unit 252 the one that the records' clearing leaves out. -/
theorem test_meets_ErrorCommands :
    up.srcLive .reeve = true ∧ up.srcLive (.core 0) = true ∧ up.islOpen 23 = true ∧ up.srcSys .reeve = true ∧
    up.srcSys (.core 0) = true ∧ up.srcLive (.thread 0) = true ∧ up.srcSys (.thread 0) = false ∧
    (let s := put up [(Fld.ER_STATUS_VALID, 4 * 239 + 3, 1), (Fld.ER_STATUS_COUNT, 4 * 239 + 3, 7)];
      s.recValid 239 3 = true ∧ Fld.ER_STATUS_COUNT.of (word [(Fld.ER_STATUS_COUNT, 7)]) = s.fld Fld.ER_STATUS_COUNT (4 * 239 + 3) ∧
      Fld.ER_STATUS_COUNT.of 0 ≠ s.fld Fld.ER_STATUS_COUNT (4 * 239 + 3)) ∧
    (∀ u ∈ [0, 239, 251], let s := put up [(Fld.ER_XGATE_STATE, u, 2)]; s.gateState .ER_INJ u = 2 ∧
      ∀ q < 4, s.recValid u q = false) ∧
    Fld.ER_INJ_CLASS.of (word [(Fld.ER_INJ_CLASS, 2)]) ≠ 3 ∧ up.gateState .ER_INJ 239 ≠ 2 ∧
    (∀ x < 2, ∀ b : Bool, let s := put { up with pwr := { up.pwr with wdog := true, tripLatch := b } } [(Fld.ER_WDOG_STAGE, 0, x)];
      s.pwr.wdog = true ∧ s.pwr.tripLatch = b ∧ s.pwr.emergency = false ∧ s.fld Fld.ER_WDOG_STAGE 0 = x ∧ s.srcLive .reeve = true) := by
  decide +kernel

theorem test_meets_SnapshotCommands :
    up.srcLive (.core 0) = true ∧ up.unitUp .PM_GCTL = true ∧ up.pmMay (.core 0) = true ∧ up.flag Fld.PM_GSTAT_BUSY 0 = false ∧
    up.pmMay (.thread 0) = false ∧ up.srcLive (.thread 0) = true ∧ up.islState (coreIsland 0) = 1 ∧
    (put up [(Fld.PW_ISTATE_STATE, 4, 3)]).islState (coreIsland 159) = 1 ∧
    (put up [(Fld.PW_ISTATE_STATE, 19, 3)]).islState (coreIsland 159) ≠ 1 ∧
    Fld.PM_GCTL_FREEZE.of 1 ≠ up.fld Fld.PM_GCTL_FREEZE 0 ∧ Fld.PM_GCTL_FREEZE.of 0 = up.fld Fld.PM_GCTL_FREEZE 0 ∧
    (∀ b < 2, let s := put up [(Fld.PM_GSTAT_BUSY, 0, b), (Fld.PM_GCTL_TICK, 0, 1)]; s.fld Fld.PM_GCTL_TICK 0 ≠ 0 ∧
      s.clockRuns = true ∧ s.islOpen 20 = true ∧ s.pmMay (.core 0) = true ∧ s.flag Fld.PM_GSTAT_BUSY 0 = (b == 1)) := by
  decide +kernel

/-- The kinds that EN accepts (a ring in a Granary bank, a ring in HBM) and refuses, the sink on, and a closed block. -/
theorem test_meets_TraceSinkCommands :
    up.srcLive (.core 0) = true ∧ up.unitUp .TR_SINK_CTL = true ∧ up.sinkAccepts (.core 0) = true ∧ up.sinkOn = false ∧
    up.sinkBad 0 0 = false ∧ up.sinkBad 2 0 = false ∧ up.sinkBad 1 0 = true ∧ up.sinkBad 3 0 = true ∧
    (∀ x ∈ [1, 2], let s := put up [(Fld.TR_SINK_STAT_STATE, 0, x), (Fld.TR_SINK_CTL_KIND, 0, 3), (Fld.TR_SINK_CTL_EN, 0, 1)];
      s.sinkOn = true ∧ Fld.TR_SINK_CTL_KIND.of 0 ≠ s.fld Fld.TR_SINK_CTL_KIND 0 ∧ s.fld Fld.TR_SINK_CTL_KIND 0 = 3 ∧
      (let v := word [(Fld.TR_SINK_CTL_KIND, 3), (Fld.TR_SINK_CTL_TRIG, 1)];
        Fld.TR_SINK_CTL_KIND.of v = s.fld Fld.TR_SINK_CTL_KIND 0 ∧ Fld.TR_SINK_CTL_SIZE.of v = s.fld Fld.TR_SINK_CTL_SIZE 0) ∧
      s.fld Fld.TR_SINK_STAT_STATE 0 = x ∧ s.flag Fld.TR_SINK_CTL_EN 0 = true) ∧
    (let s := { up with cores := [(159, { trace := { closed := [[1]] } })] }; (s.core 159).trace.closed ≠ []) := by decide +kernel

/-- The authorised source with a core running, halted and with each class selected; the same of a thread. -/
theorem test_meets_DebugCommands :
    up.srcLive .cocoon = true ∧ up.srcLive .jtag = true ∧ up.unitUp .TR_DBG = true ∧ up.unitUp .TR_SDBG = true ∧
    up.dbgMay .jtag = false ∧ up.sdbgMay 255 .jtag = false ∧
    (let s := put up [(Fld.TR_AUTH_HALT, 0, 1)]; s.dbgMay .jtag = true ∧ s.groupOf 0 = none ∧ (s.core 0).run = .running ∧
      (s.core 0).halted = false ∧ s.islOpen (coreIsland 0) = true ∧ s.sdbgMay 255 .jtag = true ∧ (s.thread 255).run ≠ .halted) ∧
    (∀ x ∈ [0, 3, 4], let s := { put up [(Fld.TR_AUTH_HALT, 0, 1), (Fld.TR_DSEL_CLASS, 0, x), (Fld.TR_DSEL_NUM, 0, 7),
          (Fld.TR_SDSEL_CLASS, 255, x), (Fld.TR_SDSEL_NUM, 255, 31)] with
        cores := [(0, { run := .running, halted := true })], threads := [(255, { run := .halted })] };
      s.dbgMay .jtag = true ∧ s.groupOf 0 = none ∧ (s.core 0).halted = true ∧ (s.core 0).stepping = false ∧
      (s.core 0).mchecks = [] ∧ s.fld Fld.TR_DSEL_CLASS 0 = x ∧ s.fld Fld.TR_DSEL_NUM 0 < 8 ∧ s.sdbgMay 255 .jtag = true ∧
      (s.thread 255).run = .halted ∧ (s.thread 255).stepping = false ∧ s.fld Fld.TR_SDSEL_CLASS 255 = x) ∧
    (∀ x ∈ [3, 5], let s := { put up [(Fld.TR_AUTH_HALT, 0, 1), (Fld.PW_ISTATE_STATE, coreIsland 0, x)] with cores := [(0, { run := .parked })] };
      s.dbgMay .jtag = true ∧ s.groupOf 0 = none ∧ s.srcLive .jtag = true ∧ s.unitUp .TR_DBG = true ∧ (s.core 0).run = .parked ∧
      (s.core 0).halted = false ∧ s.islState (coreIsland 0) = x) ∧
    (let s := { put (grp 2 1 []) [(Fld.TR_AUTH_HALT, 0, 1), (Fld.CG_CORE_IN, 10, 0)] with cores := [(10, { run := .parked })] };
      s.dbgMay .jtag = true ∧ s.groupOf 10 = none ∧ s.forming 10 = true ∧ (s.core 10).halted = false ∧ s.haltShut 10 = false) ∧
    (∀ r ∈ [ThreadRun.run, .wait], let s := { put up [(Fld.TR_AUTH_HALT, 0, 1)] with threads := [(255, { run := r })] };
      s.sdbgMay 255 .jtag = true ∧ (s.thread 255).run = r) := by decide +kernel

theorem test_meets_ManagementPortAndTap :
    (∀ e ∈ [(1023 * 2 ^ 15 * 10, 1023 * 2 ^ 15 * 4), (0, -1023 * 2 ^ 15 * 4)],
      let s := { up with pwr := { up.pwr with p10ms := e.1, hottest := e.2 } };
      s.mgmtUp = true ∧ s.pwr.p10ms ≤ 1023 * 2 ^ 15 * 10 ∧ s.pwr.hottest.natAbs ≤ 1023 * 2 ^ 15 * 4) ∧
    State.reset.mgmtUp = false ∧ State.reset.pwr.standby = false ∧ up.pwr.emergency = false ∧
    up.fld Fld.PW_HOLD_ISL_ISL 0 = 0 ∧ up.pwr.mode = .run ∧ up.pwr.standby = true ∧
    (let s := put up [(Fld.PW_HOLD_ISL_ISL, 0, 0x400000)]; s.mgmtUp = true ∧ s.anyHeld = true) ∧
    (∀ c ∈ [0xD0, 0xD1], pecGood ⟨0xA5, none⟩ c = true ∧ pecGood ⟨0xA5, some (pecOf [0x94, c, 0xA5])⟩ c = true ∧
      pecGood ⟨0xA5, some (pecOf [0x94, c, 0xA5] + 1)⟩ c = false) ∧ up.anyHeld = false ∧
    (put up [(Fld.PW_HOLD_ISL_STACK, 0, 1)]).anyHeld = true ∧
    (∀ b : Bool, ({ up with tap := { up.tap with extest := b } } : State).tap.extest = b) ∧
    (∀ e : Bool, let s := { up with pwr := { up.pwr with mode := .standby, phase := 4, emergency := e } };
      s.mgmtUp = true ∧ s.pwr.emergency = e ∧ s.pwr.mode = .standby) ∧
    up.flag Fld.TR_AUTH_SYS 0 = false ∧ sapReaches false 0 = false ∧ sapReaches true 0xFE0A000000 = false ∧ up.islOpen 20 = true := by
  decide +kernel

/-- A misaligned address, a hole, and a register of each kind, its unit's gate in each expert state, its island on and off. -/
theorem test_meets_CsrWrites :
    up.srcLive .reeve = true ∧ up.srcLive (.core 0) = true ∧ (4 : PA).toNat % 8 ≠ 0 ∧
    (0xFE00000028 : PA).toNat % 8 = 0 ∧ Reg.decode 0xFE00000028 = none ∧
    (0xFE00000028 : PA).toNat = 0xFE00000028 ∧ csrMapped 0xFE00000028 = true ∧ Reg.decode 0xFE05450000 = none ∧
    csrMapped 0xFE05450000 = false ∧
    Reg.decode (Reg.base .CG_XGATE) = some (.CG_XGATE, 0) ∧ up.srcLive (.thread 0) = true ∧ up.srcSys (.thread 0) = false ∧
    up.srcSys .reeve = true ∧ up.islOpen (Reg.CG_XGATE).island = true ∧
    (∀ e ∈ [(Reg.CG_XGATE, 0), (.ER_XGATE, 252), (.MC_XGATE, 68)],
      up.gateRefuses e.1 e.2 (.thread 0) = true ∧ up.gateRefuses e.1 e.2 .reeve = false) ∧
    up.gateRefuses .MC_XGATE 67 (.thread 0) = false ∧ up.gateRefuses .PW_XGATE 0 (.thread 0) = false ∧
    (Reg.MC_XGATE).isGate = true ∧ (Reg.ER_XGATE).isGate = true ∧
    Reg.decode 0xFE00000FF8 = some (.PW_XGATE, 0) ∧ (Reg.PW_XGATE).isGate = true ∧ up.islOpen (Reg.PW_XGATE).island = true ∧
    State.reset.islOpen (Reg.PW_XGATE).island = false ∧
    (∀ x < 3, let s := put up [(Fld.PW_XGATE_STATE, 0, x), (Fld.MC_XGATE_STATE, 0, x)];
      bitsOf (s.csrGet .PW_XGATE 0) 17 16 = x ∧ bitsOf (s.csrGet .MC_XGATE 0) 17 16 = x) ∧
    (Reg.PW_THERM).gate 0 = some (.PW_XGATE, 0) ∧ (Reg.PW_THERM).isGate = false ∧ (Reg.TB_NOW_LO).window = 1 ∧
    Reg.decode (Reg.TB_NOW_LO).base = some (.TB_NOW_LO, 0) ∧ Reg.decode (Reg.PW_ISTATE).base = some (.PW_ISTATE, 0) ∧
    Reg.decode (Reg.MC_PATD).base = some (.MC_PATD, 0) ∧ (Reg.MC_PATD).gate 0 = some (.MC_XGATE, 0) ∧ mcTrainer (.thread 0) = false ∧ mcTrainer .reeve = true ∧
    Reg.decode (Reg.TB_CMP_TGT).base = some (.TB_CMP_TGT, 0) ∧ Reg.decode (Reg.IC_TCTL).base = some (.IC_TCTL, 0) ∧
    Reg.decode (Reg.QE_CFG).base = some (.QE_CFG, 0) ∧ Reg.decode (Reg.MC_PCCTL).base = some (.MC_PCCTL, 0) ∧
    Fld.MC_PCCTL_SETSTATE.of 2 = 2 := by and_intros <;> decide +kernel

/-- The controllers in each state, the boundaries of the temperature ranges and of the postponed refreshes. -/
theorem test_meets_HbmControllers :
    up.islOpen 20 = true ∧ up.srcLive .reeve = true ∧ mcTrainer .reeve = true ∧ up.srcSys .reeve = true ∧ up.memOk ∧
    up.srcLive (.thread 0) = true ∧ mcTrainer (.thread 0) = false ∧ up.srcSys (.thread 0) = false ∧
    up.fld Fld.MC_PCSTAT_STATE 63 = 0 ∧ (∀ q < 64, up.fld Fld.MC_PCSTAT_STATE q ≠ 2) ∧
    (∀ x ∈ [1, 2], let s := put up ([(Fld.MC_XGATE_STATE, 63, 2), (Fld.MC_XGATE_STATE, 64 + 3, 2)] ++
        (List.range 16).map (fun q => (Fld.MC_PCSTAT_STATE, 48 + q, x)));
      bitsOf (s.csrGet .MC_XGATE 63) 17 16 = 2 ∧ bitsOf (s.csrGet .MC_XGATE 67) 17 16 = 2 ∧ s.fld Fld.MC_PCSTAT_STATE 63 = x ∧
      (∀ q < 16, s.fld Fld.MC_PCSTAT_STATE (16 * 3 + q) = x) ∧ s.flag Fld.MC_1500_BUSY 3 = false) ∧
    Reg.decode (Reg.MC_LDLY).base = some (.MC_LDLY, 0) ∧ (Reg.MC_LDLY).gate 0 = some (.MC_XGATE, 64) ∧
    Reg.decode (Reg.MC_TIM0).base = some (.MC_TIM0, 0) ∧ (Reg.MC_TIM0).gate 0 = some (.MC_XGATE, 64) ∧
    (∀ e ∈ [(0, 0), (0, 7), (0, 8), (1, 8), (1, 127), (1, 128)], ∀ b : Bool,
      let s := { put up [(Fld.MC_PCSTAT_STATE, 63, 2), (Fld.MC_STK_REFMODE, 3, e.1)] with
        hbmc := [(63, { postponed := [(2, e.2)], refNext := [(2, 15)], queue := if b then [⟨0, 5, 7, true, true, false, 0⟩] else [] })] };
      s.fld Fld.MC_PCSTAT_STATE 63 ≠ 0 ∧ FMap.get (s.hctl 63).postponed 0 2 = e.2 ∧ s.flag Fld.MC_STK_REFMODE (63 / 16) = (e.1 == 1) ∧
      ((s.hctl 63).queue = [] ↔ b = false)) ∧
    (∀ x ∈ [(0, 0), (0, 7), (1, 3), (1, 15)], let v := word [(Fld.MC_RAWCMD_GO, 1), (Fld.MC_RAWCMD_BUS, x.1), (Fld.MC_RAWCMD_CH, x.2)];
      let s := put up [(Fld.MC_XGATE_STATE, 64 + 3, 2), (Fld.MC_PCSTAT_STATE, 62, 1), (Fld.MC_PCSTAT_STATE, 63, 1)];
      Fld.MC_RAWCMD_GO.of v = 1 ∧ (x.2 = 7 → ∀ q ∈ [16 * 3 + 2 * (Fld.MC_RAWCMD_CH.of v % 8), 16 * 3 + 2 * (Fld.MC_RAWCMD_CH.of v % 8) + 1],
        s.fld Fld.MC_PCSTAT_STATE q = 1)) ∧
    (∀ x < 3, let s := put up [(Fld.MC_STK_PWR, 3, 1), (Fld.MC_STK_REFSCALE, 3, x)]; s.flag Fld.MC_STK_PWR 3 = true ∧
      s.flag Fld.MC_1500_BUSY 3 = false ∧ s.fld Fld.MC_STK_REFSCALE 3 = x ∧ ∃ r < 4, s.recValid (240 + 3) r = false) ∧
    (let s := put up [(Fld.MC_PCSTAT_SIDIDLE, 63, 3), (Fld.MC_PCSTAT_SIDIDLE, 62, 7)];
      s.fld Fld.MC_PCSTAT_SIDIDLE 63 ||| 2 ^ 2 = 7 ∧ s.fld Fld.MC_PCSTAT_SIDIDLE (63 ^^^ 1) = 7) ∧
    (let s := { put up [(Fld.MC_PCSTAT_STATE, 63, 2)] with hbmc := [(63, { wb := [64] })] };
      s.fld Fld.MC_PCSTAT_STATE 63 = 2 ∧ (s.hctl 63).wb = 64 :: []) ∧
    (∀ b : Bool, let y : HbmReq := ⟨64, 3, 6, false, true, false, 16⟩;
      let s := { put up [(Fld.MC_PCSTAT_STATE, 63, 2)] with
        hbmc := [(63, { drain := b, openRow := [(5, 8)], queue := [⟨0, 5, 7, true, true, false, 0⟩, y, ⟨0, 5, 7, false, true, false, 0⟩] })] };
      (s.hctl 63).choices = (if b then [(0, ⟨0, 5, 7, true, true, false, 0⟩), (1, y)] else [(1, y)]) ∧ (s.hctl 63).drain = b ∧
      (∃ x ∈ (s.hctl 63).queue, x.bank / 16 = 0) ∧ ∀ x ∈ (s.hctl 63).queue, x.bank / 16 ≠ 1) ∧
    (∀ n ∈ [0, pcLines - 1], let s := { put up [(Fld.MC_PCSTAT_STATE, 63, 2), (Fld.MC_SCRUB_EN, 63, 1)] with hbmc := [(63, { scrub := n })] };
      let loc := 63 / 16 * 0x600000000 + pcaToSa 63 (64 * (s.hctl 63).scrub);
      s.flag Fld.MC_SCRUB_EN 63 = true ∧ (s.hctl 63).scrub < pcLines ∧ s.rawPoison loc = 0 ∧ s.soundLine loc = true) := by
  unfold State.memOk; and_intros <;> decide +kernel

/-! ## The hypotheses of the statements: HBM, the Granary, caches and groups -/

theorem test_meets_PatternGenerator :
    up.islOpen 20 = true ∧ up.srcLive .reeve = true ∧ mcTrainer .reeve = true ∧ up.memOk ∧
    (∀ x < 4, Fld.MC_PGEN_PATTERN.of (word [(Fld.MC_PGEN_PATTERN, x)]) = x) ∧
    (∀ x < 3, let s := put up [(Fld.MC_XGATE_STATE, 63, 2), (Fld.MC_PCSTAT_STATE, 63, x)];
      bitsOf (s.csrGet .MC_XGATE 63) 17 16 = 2 ∧ s.fld Fld.MC_PCSTAT_STATE 63 = x) := by
  unfold State.memOk; and_intros <;> decide +kernel

/-- The first and the last line of HBM, a stack's services at both ends of their argument. -/
theorem test_meets_HbmRequestsAndStacks :
    hbmUp.memOk ∧ hbmUp.srcLive (.core 0) = true ∧ hbmUp.srcLive (.core 0) = true ∧ srcAllocates (.core 0) = false ∧
    (∀ a ∈ [0, 4 * 0x600000000 - 64], a % 64 = 0 ∧ a < 4 * 0x600000000 ∧
      hbmUp.plainLine a (hbmUp.fwReq (.core 0) true 0) false ∧ hbmUp.plainLine a (hbmUp.fwReq (.core 0) true 0) true ∧
      hbmUp.soundLine (hbmUp.hbmLoc a) = true ∧ hbmUp.rawPoison (hbmUp.hbmLoc a) = 0 ∧
      hbmUp.hbmForwards (hbmUp.hbmCtl a) (hbmUp.hbmLoc a) = false) ∧
    (let s := { hbmUp with hbmc := [(0, { queue := [⟨0, 5, 7, true, true, false, 0⟩] })] };
      s.plainLine 0 (s.fwReq (.core 0) true 0) false ∧ s.hbmForwards (s.hbmCtl 0) (s.hbmLoc 0) = true) ∧
    (∀ x < 2, let s := put up [(Fld.MC_ILV_MODE, 0, x)]; s.fld Fld.MC_ILV_MODE 0 = x ∧ s.hbmRun (s.hbmCtl 0) = false ∧
      s.l2Holders 0 = [] ∧ s.llcFind 0 = none ∧ (s.fwReq (.core 0) true 0).sec = false) ∧
    (let l : LlcLine := { line := 0, way := 0, dirty := true, reuse := false, sec := false, data := 5, poison := 0 };
      let s := { up with llc := [(0, [l])] };
      s.l2Holders 0 = [] ∧ s.llcFind 0 = some l ∧ l.sec = false ∧ l.err = none ∧
      s.flag Fld.ER_INJ_ARM (160 + homeSlice 0) = false) ∧
    up.islOpen 20 = true ∧ up.srcSys (.core 0) = true ∧
    (∀ x < 3, let s := put up [(Fld.MC_MIR_STATE, 7, x), (Fld.MC_MIR_EN, 7, 1)]; s.fld Fld.MC_MIR_STATE 7 = x ∧
      s.flag Fld.MC_MIR_EN 7 = true) ∧
    (let s := put hbmUp [(Fld.MC_MIR_STATE, 7, 1), (Fld.MC_MIR_EN, 7, 1), (Fld.MC_MIR_PAIR, 7, 1), (Fld.MC_MIR_LIMIT, 7, 0x5FF)];
      ∀ a ∈ [0, 0x600000000 - 1], s.fld Fld.MC_MIR_BASE 7 * 2 ^ 24 ≤ a ∧ a < (s.fld Fld.MC_MIR_LIMIT 7 + 1) * 2 ^ 24 ∧
        s.hbmRun (hbmCtlOf (s.mirPri 7) a) = true ∧ s.hbmRun (hbmCtlOf (s.mirAlt 7) a) = true ∧
        s.soundLine (s.mirPri 7 * 0x600000000 + a / 64 * 64) = true) ∧
    ((call up 0x08 true 4 0).called 3 0x08 true ∧ 3 < (call up 0x08 true 4 0).arg0 3) ∧
    (let s := call (put up [(Fld.PW_HOLD_ISL_STACK, 0, 8)]) 0x08 true 3 0; s.called 3 0x08 true ∧ s.arg0 3 < 4 ∧
      bitsOf (s.csrGet .PW_HOLD_ISL 0) (25 + s.arg0 3) (25 + s.arg0 3) = 1) ∧
    (let s := call (put up [(Fld.MC_MIR_EN, 7, 1), (Fld.MC_MIR_PAIR, 7, 1)]) 0x08 true 3 0; s.called 3 0x08 true ∧
      s.fld Fld.PW_HOLD_ISL_STACK 0 = 0 ∧ s.flag Fld.MC_MIR_EN 7 = true ∧ s.fld Fld.MC_MIR_PAIR 7 = s.arg0 3 / 2) ∧
    ((∀ j < 8, (call up 0x08 true 3 0).flag Fld.MC_MIR_EN j = false) ∧ (call up 0x08 true 3 0).svc.long = none) ∧
    (let s := { call up 0x08 true 3 0 with svc := { up.svc with long := some 7 } }; s.called 3 0x08 true ∧ s.svc.long ≠ none ∧
      s.fld Fld.PW_HOLD_ISL_STACK 0 = 0 ∧ s.arg0 3 < 4) ∧
    (∀ b : Bool, let s := { call up 0x09 true 3 0 with slots := [(3, { taken := true, code := 9, hmode := true, second := b })] };
      s.called 3 0x09 true ∧ s.arg0 3 < 4 ∧ (s.slot 3).second = b) := by
  unfold State.memOk State.plainLine State.called; and_intros <;> decide +kernel

/-- Accesses of every size to a bank that is owned, shared, unowned and retained; the commands in each state of a bank. -/
theorem test_meets_GranaryBanks :
    up.memOk ∧ up.flag Fld.ER_INJ_ARM 244 = false ∧ up.islOpen 22 = true ∧ up.granBad = [] ∧ isPortB (.core 0) = false ∧
    (∀ n ∈ [1, 2, 4, 8, 32], ∀ a ∈ [granaryBase, granaryBase + 0x1000000 - n],
      isGranary a = true ∧ a % n = 0 ∧ granBank a < 64) ∧
    (∀ x ∈ [(0, 0), (0, 1), (0, 2), (2, 1)], ∀ h < 3,
      let s := put up [(Fld.GR_BANK_PSTATE, 63, x.1), (Fld.GR_BANK_STATE, 63, x.2), (Fld.GR_BANK_OWNER, 63, 0),
        (Fld.GR_BANK_SHARE, 63, h)];
      s.fld Fld.GR_BANK_PSTATE 63 = x.1 ∧ s.fld Fld.GR_BANK_STATE 63 = x.2 ∧ s.fld Fld.GR_BANK_SHARE 63 = h ∧
      s.ownerMember 0 (.core 0) = true ∧ s.ownerMember 0 (.thread 0) = false ∧ s.srcLive (.core 0) = true ∧
      s.srcLive (.thread 0) = true ∧ s.islOpen Reg.GR_CMD.island = true ∧
      (∀ w : Bool, s.fwPermits true 63 (granaryBase + 0xFFFFE0)
        { src := some (srcId (.core 0)), sec := s.accSecure (.core 0) (granaryBase + 0xFFFFE0) } w = true) ∧
      FMap.get s.granBad 0 ((granaryBase + 0xFFFFE0) / 8 * 8) = 0) ∧
    up.srcLive .jtag = true ∧
    (let s := put up [(Fld.GR_BANK_STATE, 63, 1), (Fld.GR_BANK_SHARE, 63, 2)];
      ∀ w : Bool, s.granCheck (.thread 0) (s.accSecure (.thread 0) (granaryBase + 0xFFFFE0)) (granaryBase + 0xFFFFE0) w = (0, s)) ∧
    (ownerValid 0x201 = true ∧ ownerValid 159 = true ∧ ownerValid 160 = false ∧ ownerValid 0x4CF = true ∧
      ownerValid 0x4D0 = false) ∧
    up.fld Fld.GR_BANK_NEXT 63 = 0xFFF ∧ up.srcSys (.core 0) = true ∧ up.srcLive .reeve = true ∧ up.fld Fld.GR_BANK_OWNER 63 ≠ 0x201 ∧
    (∀ x < 4, let s := call (put up [(Fld.GR_BANK_PSTATE, 63, x), (Fld.GR_BANK_STATE, 63, 1)]) 0x0A true 63 0;
      s.called 3 0x0A true ∧ s.arg0 3 < 64 ∧ s.csrGet .PW_HOLD_GR 0 = 0 ∧ s.fld Fld.GR_BANK_OWNER 63 ∉ [0x200, 0x201] ∧
      s.fld Fld.GR_BANK_PSTATE 63 = x) ∧
    (let s := call (put up [(Fld.GR_BANK_OWNER, 63, 0x201), (Fld.GR_BANK_STATE, 63, 1)]) 0x0A true 63 0;
      s.called 3 0x0A true ∧ s.fld Fld.GR_BANK_STATE 63 ≠ 0 ∧ s.fld Fld.GR_BANK_OWNER 63 ∈ [0x200, 0x201]) ∧
    (let s := call (put up [(Fld.PW_HOLD_GR_BANK, 0, 2 ^ 63)]) 0x0A true 63 0;
      s.called 3 0x0A true ∧ (s.fld Fld.PW_HOLD_GR_BANK 0).testBit 63 = true) ∧
    ((call up 0x0A true 64 0).called 3 0x0A true ∧ 63 < (call up 0x0A true 64 0).arg0 3) ∧
    (∀ x ∈ [0, 2], let s := call (put up [(Fld.GR_BANK_PSTATE, 0, x)]) 0x0B true 0 0;
      s.called 3 0x0B true ∧ s.fld Fld.GR_BANK_PSTATE (s.arg0 3) = x) ∧
    (∀ x ∈ [(1, true), (3, false)],
      let s := { put up [(Fld.GR_BANK_PSTATE, 63, x.1), (Fld.RV_STAT_STATE, 3, 2)] with granWait := [(63, x.2, 3)] };
      s.fld Fld.GR_BANK_PSTATE 63 = x.1 ∧ s.callState 3 = 2 ∧ s.granWait = [(63, x.2, 3)]) := by
  unfold State.memOk State.called; and_intros <;> decide +kernel

/-- A line that no cache holds, a line that another core holds, a held line, a line with a pattern. -/
theorem test_meets_LineRequests :
    (let s := { hbmUp with cores := [(0, l2On []), (7, l2On [⟨7, 0, .m, 5, 0, none⟩])] };
      s.memOk ∧ isHbm 0 = true ∧ isHbm (64 * 7) = true ∧ s.srcLive (.core 0) = true ∧ s.heldAgainst 0 (some 0) = false ∧
      (s.core 0).l2State = 1 ∧ s.flag Fld.ER_INJ_ARM 0 = false ∧ s.flag Fld.ER_INJ_ARM (160 + homeSlice 0) = false ∧
      (s.dirEntries (homeSlice 0) (dirIndex 0)).length < 12 ∧ (s.dirEntries (homeSlice 7) (dirIndex 7)).length < 12 ∧
      s.plainLine 0 (coreReq 0) false ∧ s.sharers 0 = [] ∧ (s.core 0).l1d.all (fun e => e.1 != 0) = true ∧
      (s.core 0).l1d.all (fun e => e.1 != 7) = true ∧ s.flag Fld.ER_INJ_ARM 7 = false ∧ isHbm (64 * 0) = true ∧
      s.l2Find 0 7 = none ∧ s.l2Holders 7 = [7] ∧
      s.l2Find 7 7 = some ⟨7, 0, .m, 5, 0, none⟩ ∧ s.shadowLine 7 = false ∧ s.soundLine (s.hbmLoc 0) = true ∧ s.srcLive .jtag = true ∧ s.plainLine 0 (s.fwReq .jtag true 0) false ∧
      s.islOpen (coreIsland 7) = true ∧ s.heldAgainst 7 none = false) ∧
    (let s := { hbmUp with cores := [(0, l2On []), (7, { resv := some { granule := 3, hold := true } })] }; s.heldAgainst 7 (some 0) = true) ∧
    (let k := withCs (l2On []) CsFld.PFCTL_L2_EN.csn (BitVec.ofNat 64 (2 ^ CsFld.PFCTL_L2_EN.lo + 2 ^ CsFld.PFCTL_L2_DIST.lo));
      let k := { k with det2 := [⟨0, 2, 1, 2⟩] };
      let s := { hbmUp with cores := [(0, k)] };
      (s.core 0).det2 ≠ [] ∧ (3 : Int) = (2 : Int) + 1 ∧ 3 / 64 = 2 / 64 ∧ s.sharers 3 = [] ∧ (s.core 0).arch.csf CsFld.PFCTL_L2_DIST = 1 ∧ (s.core 0).arch.csf CsFld.PFCTL_L2_EN = 1 ∧
      s.plainLine (64 * 3) { coreReq 0 with cls := 1 } false ∧ s.readsFull 3 = false ∧ (s.core 0).l2State = 1) ∧
    (up.core 0).arch.csf CsFld.PFCTL_L2_EN = (CsFld.PFCTL_L2_EN).rst ∧
    (let s := { up with cores := [(0, withCs (l2On []) CsFld.PFCTL_L2_EN.csn 0)] };
      (s.core 0).arch.csf CsFld.PFCTL_L2_EN = 0 ∧ (s.core 0).arch.csf CsFld.PFCTL_L1_EN = 0) ∧
    (∀ x < 3, let s := put up [(Fld.MC_LLC_CTL_OFFER, homeSlice 7, x), (Fld.MC_LLC_CTL_ALLOC_EN, homeSlice 7, 1)];
      s.fld Fld.MC_LLC_CTL_OFFER (homeSlice 7) = x ∧ s.flag Fld.MC_LLC_CTL_ALLOC_EN (homeSlice 7) = true ∧ s.llcFind 7 = none) := by
  unfold State.memOk State.plainLine; and_intros <;> decide +kernel

/-- The L2 and a slice in each state, a store that may be performed and one that may not, a walk that ends and one that
faults. -/
theorem test_meets_CacheControlsAndStores :
    (∀ x < 3, let k : Core := { run := .running, arch := { sys := [(CsFld.L2CTL_STATE.csn, BitVec.ofNat 64 (x * 2 ^ CsFld.L2CTL_STATE.lo))] } };
      let s := { put up [(Fld.MC_LLC_STAT_STATE, 79, x)] with cores := [(0, k)] };
      s.memOk ∧ s.islOpen (coreIsland 0) = true ∧ (s.core 0).run = .running ∧ (s.core 0).arch.mode = 2 ∧
      (s.core 0).l2State = x ∧ bitsOf 0 1 1 = (s.core 0).arch.csf CsFld.L2CTL_MODE ∧
      bitsOf 2 1 1 ≠ (s.core 0).arch.csf CsFld.L2CTL_MODE ∧ s.fld Fld.MC_LLC_STAT_STATE 79 = x) ∧
    up.srcLive .reeve = true ∧ up.islOpen Reg.MC_LLC_CTL.island = true ∧ up.srcSys .reeve = true ∧ up.srcLive .cocoon = true ∧
    up.srcSys .cocoon = false ∧ Fld.MC_LLC_CTL_MODE.of (word [(Fld.MC_LLC_CTL_MODE, 1)]) = up.fld Fld.MC_LLC_CTL_MODE 79 ∧
    Fld.MC_LLC_CTL_MODE.of 0 ≠ up.fld Fld.MC_LLC_CTL_MODE 79 ∧
    (put up [(Fld.MC_LLC_SECFLUSH_DONE, 79, 0)]).flag Fld.MC_LLC_SECFLUSH_DONE 79 = false ∧
    (∀ a ∈ [0, 32, 63], let k := l2On [⟨0, 0, .e, 5, 0, none⟩];
      let s := { up with cores := [(0, { k with sb := [⟨0, a, 1, 7, 0, []⟩] })] };
      (s.core 0).sb[0]? = some ⟨0, a, 1, 7, 0, []⟩ ∧ isHbm a = true ∧ a % 64 + 1 ≤ 64 ∧ s.islOpen (coreIsland 0) = true ∧
      sbReady (s.core 0).sb 0 = true ∧ s.heldAgainst 0 (some 0) = false ∧ (s.core 0).l2State = 1 ∧
      s.flag Fld.ER_INJ_ARM 0 = false ∧ s.l2Holders 0 = [0] ∧ s.l2Find 0 0 = some ⟨0, 0, .e, 5, 0, none⟩ ∧
      sbReady (s.core 0).sb 1 = false) ∧
    (let k := l2On [⟨0, 0, .e, 5, 0, none⟩]; let e : SbEntry := ⟨0, 32, 32, 7, 0, [0, 24]⟩;
      let s := { up with cores := [(0, { k with sb := [e] })] };
      (s.core 0).sb[0]? = some e ∧ e.kind = 0 ∧ isHbm e.addr = true ∧ e.addr % 64 + e.size ≤ 64 ∧ e.size ≤ 32 ∧
      sbReady (s.core 0).sb 0 = true ∧ s.heldAgainst 0 (some 0) = false ∧ s.l2Holders 0 = [0] ∧
      s.l2Find 0 0 = some ⟨0, 0, .e, 5, 0, none⟩ ∧ 2 ≤ e.words.length ∧ (∀ o ∈ e.words, o % 8 = 0 ∧ o < 32) ∧ e.addr % 32 = 0) ∧
    (let k := l2On [⟨0, 0, .e, 5, 0, none⟩]; let s := { up with cores := [(0, { k with sb := [⟨0, 60, 4, 7, 1, []⟩, ⟨0, 64, 4, 7, 2, []⟩] })] };
      sbReady (s.core 0).sb 0 = true ∧ sbReady (s.core 0).sb 1 = false) ∧
    (let l : LlcLine := { line := 0, way := 0, dirty := true, reuse := false, sec := true, data := 5, poison := 0 };
      let s := { put up [(Fld.MC_LLC_STAT_STATE, homeSlice 0, 2), (Fld.MC_LLC_SECFLUSH_DONE, homeSlice 0, 0)] with llc := [(homeSlice 0, [l])] };
      (∀ y ∈ s.llcOf (homeSlice 0), homeSlice y.line = homeSlice 0) ∧ s.fld Fld.MC_LLC_STAT_STATE (homeSlice 0) = 2 ∧
      ((s.llcOf (homeSlice 0)).map (fun y => y.line)).Nodup ∧ s.flag Fld.MC_LLC_SECFLUSH_DONE (homeSlice 0) = false) ∧
    (up.core 0).run = .running ∧ (up.core 0).arch.csf CsFld.SPECCTL_NOSPEC_TW = 0 ∧
    (({ up with cores := [(0, withCs { run := .running } CsFld.SPECCTL_NOSPEC_TW.csn 1)] } : State).core 0).arch.csf CsFld.SPECCTL_NOSPEC_TW = 1 ∧
    (let s := { up with cores := [(0, { sb := [⟨0, 0, 32, 7, 0, [0, 8, 16, 24]⟩] }), (7, { resv := some { granule := 0, hold := true } })] };
      s.heldAgainst 0 (some 0) = true ∧ sbReady (s.core 0).sb 0 = true) ∧
    (match (up.xWalk 0 0x1000 .load false).1 with | .ok _ => true | .error _ => false) = true ∧
    (match (up.xWalk 0 0x1000000000000 .load false).1 with | .ok _ => false | .error _ => true) = true ∧
    State.reset.islOpen (coreIsland 0) = false := by
  unfold State.memOk; and_intros <;> decide +kernel

/-- A group in each state, its members parked and not, defined with two members and three. -/
theorem test_meets_GroupTable :
    up.islOpen 20 = true ∧ up.srcLive .reeve = true ∧ up.srcSys .reeve = true ∧ up.srcLive (.thread 0) = true ∧
    up.srcSys (.thread 0) = false ∧ up.fld Fld.CG_DEF_SIZE 79 ≠ 2 ∧ up.fld Fld.CG_DEF_SIZE 79 ≠ 3 ∧
    (∀ n ∈ [2, 3], ∀ st < 5, let s := grp n st (List.replicate n { run := .running });
      s.fld Fld.CG_STAT_STATE 79 = st ∧ s.fld Fld.CG_DEF_SIZE 79 = n ∧ (s.defMembers 79).Nodup ∧ (∀ m ∈ s.defMembers 79, m < 160) ∧
      s.fld Fld.CG_DEF_PRIMARY 79 < n ∧ s.fld Fld.CG_DEF_HOME 79 = 0x7F ∧ (∃ m ∈ s.defMembers 79, s.committed m = true) ∧
      s.fld Fld.CG_STAT_QUAR 79 = 0 ∧ (s.groupActive 79).Nodup ∧ 0 ∈ s.memberIdx 79 ∧ n - 1 ∈ s.memberIdx 79) ∧
    (∀ b : Bool, let s := grp 3 0 (List.replicate 3 { run := if b then .parked else .running });
      let s := put s [(Fld.CG_CORE_IN, 10, 0), (Fld.CG_CORE_IN, 20, 0), (Fld.CG_CORE_IN, 159, 0)];
      (∀ m ∈ s.defMembers 79, s.committed m = false) ∧
      (if b then ∀ m ∈ s.defMembers 79, (s.core m).run = .parked ∧ s.islState (coreIsland m) = 1
        else ∃ m ∈ s.defMembers 79, (s.core m).run ≠ .parked)) ∧
    (∀ st ∈ [2, 3], ∀ b : Bool, let s := grp 2 st [{ run := .running }, { run := .running }, { run := if b then .parked else .running }];
      (159 : Nat) = Fld.CG_CMD_CORE.of (word [(Fld.CG_CMD_CORE, 159)]) ∧ s.fld Fld.CG_STAT_SIZE_EFF 79 = 2 ∧
      (s.group 79).joining = none ∧ s.fld Fld.CG_STAT_STATE 79 = st ∧ s.committed 159 = false ∧
      s.committed 20 = true ∧ (s.core 159).run = (if b then .parked else .running) ∧
      s.islState (coreIsland 159) = 1 ∧ s.fld Fld.CG_STAT_ACTIVE 79 = 3 ∧ s.groupMember 79 0 ≠ 159 ∧ s.groupMember 79 1 ≠ 159 ∧
      (s.group 79).late = [] ∧
      ∀ m ∈ s.groupRunning 79, (s.core m).mem.closedN = none ∧ (s.core m).mem.full = false ∧ (s.core m).mem.count = 0) ∧
    (let s := grp 2 2 [{ run := .parked, mem := { closedN := some 0 } }, { run := .parked }, { run := .parked }];
      s.fld Fld.CG_STAT_STATE 79 = 2 ∧ ∃ m ∈ s.groupRunning 79, (s.core m).mem.closedN.isSome = true) ∧
    (let s := { grp 3 1 [] with groups := [(0, { joining := some 7 })] };
      let s := put s [(Fld.CG_CORE_IN, 10, 0)]; s.committed 10 = true ∧ s.committed 7 = true ∧ s.committed 8 = false) := by
  and_intros <;> decide +kernel

/-- A running pair and a running triple with digests that agree and that differ; a half that drains, a cut, a copy, an
external operation. -/
theorem test_meets_GroupVerdicts :
    (∀ e : Bool, let d : Digest := ⟨10, 0, some 5, none, false⟩;
      let s := { grp 2 3 [{ run := .running }, { run := .running }] with
        groups := [(79, { sent := [d], expired := if e then [(10, 0)] else [] })] };
      s.groupOf 10 = some 79 ∧ (s.group 79).sent.find? (fun d => d.core == 10) = some d ∧
      (s.group 79).expired.contains (d.core, d.instar) = e ∧ (s.group 79).late = [] ∧ d.dead = false ∧
      ∀ k < 79, (s.group k).sent.any (fun d => d.core == 10) = false) ∧
    (let d : Digest := ⟨10, 0, none, some (3, 4), true⟩; let s := { up with groups := [(79, { sent := [d] })] };
      d.dead = true ∧ (s.group 79).sent.find? (fun d => d.core == 10) = some d) ∧
    (grp 2 1 []).fld Fld.CG_STAT_STATE 79 ≠ 2 ∧
    (let s := { grp 2 3 [{ run := .running }, { run := .running }] with groups := [(79, { arrived := [⟨10, 0, some 5, none, false⟩] })] };
      s.groupRunning 79 = [10, 20] ∧ (s.group 79).late = [] ∧ (s.group 79).expired = []) ∧
    (grp 2 2 []).fld Fld.CG_STAT_STATE 79 ≠ 3 ∧
    (let s := { grp 2 2 [{ run := .parked }, { run := .parked }] with groups := [(79, { halt := some 10, cut := true })] };
      s.fld Fld.CG_STAT_STATE 79 = 2 ∧ (s.group 79).halt = some 10 ∧ (s.group 79).cut = true ∧ (s.group 79).late = [] ∧
      (∀ m ∈ s.groupRunning 79, (s.core m).mem.hold = false ∧ (s.core m).mem.full = false ∧ (s.core m).mem.closedN = none) ∧
      10 ∈ s.groupRunning 79 ∧ (s.groupRunning 79).Nodup) ∧
    (∀ b : Bool, let k : Core := { run := .running, arch := { mode := 0 }, trace := { on := true, closed := if b then [[1], [1], [1], [1]] else [] } };
      let k := withCs k CsFld.TRCTL_U.csn (word64 CsFld.TRCTL_U 1);
      (put (grp 2 3 [k, k]) [(Fld.TR_SINK_STAT_STATE, 0, 1), (Fld.TR_SINK_CTL_STALL, 0, 1), (Fld.TR_SINK_CTL_EN, 0, 1)]).traceStalls 10 = b) ∧
    (∀ v < 2, ∀ b : Bool, let y : Ckpt := ⟨0, {}, 0⟩;
      let s := { grp 2 3 [{ run := .running, mem := { ckpts := [y] } }, { run := .running }] with
        groups := [(79, { arrived := [⟨10, 0, some 5, none, false⟩, ⟨20, 0, some (5 + BitVec.ofNat 64 v), none, false⟩], retry := if b then some 0 else none })] };
      s.fld Fld.CG_STAT_STATE 79 = 3 ∧ s.groupRunning 79 = [10, 20] ∧ (s.group 79).expired = [] ∧ s.groupPrimary 79 ∈ [10, 20] ∧
      s.fld Fld.CG_STAT_SIZE_EFF 79 = 2 ∧ s.groupActive 79 = [10, 20] ∧ s.closedOk 79 (s.groupPrimary 79) = false ∧
      (s.core 10).mem.ckpts.find? (fun k => k.instar == 0) = some y ∧ s.ckptOf 79 10 0 = some y ∧ (s.group 79).halt = none ∧ (s.group 79).retry = if b then some 0 else none) ∧
    (let s := { grp 3 3 (List.replicate 3 { run := .running }) with
        groups := [(79, { next := 1, arrived := [⟨10, 1, some 5, none, false⟩, ⟨20, 1, some 5, none, false⟩, ⟨159, 1, some 6, none, false⟩] })] };
      s.groupRunning 79 = [10, 20, 159] ∧ s.fld Fld.CG_STAT_ACTIVE 79 = 7 ∧ s.fld Fld.CG_STAT_QUAR 79 = 0 ∧
      (s.group 79).expired = [] ∧ (s.group 79).fresh = [] ∧ (s.group 79).halt = none ∧
      (s.core 159).mem.closedN.any (fun k => decide (k < 1)) = false) ∧
    (∀ n ∈ [0, 1], let k := l2On [⟨7, 0, .e, 5, 0, none⟩]; let f : FoldEntry := { line := 7, mask := 1, data := 9, epoch := 0 };
      let s := { grp 2 3 [{ k with mem := { closedF := [f, { f with line := 8 }], closedN := some 0 } }, { run := .running }] with
        groups := [(79, { next := n })] };
      s.groupPrimary 79 = 10 ∧ s.groupOf 10 = some 79 ∧ (s.core 10).mem.closedF[0]? = some f ∧ s.closedOk 79 10 = (n == 1) ∧
      foldReady (s.core 10).mem.closedF 0 = true ∧ s.islOpen (coreIsland 10) = true ∧ s.heldAgainst f.line (some 10) = false ∧
      isHbm (f.line * 64) = true ∧ f.nc = false ∧ (s.core 10).l2State = 1 ∧ s.flag Fld.ER_INJ_ARM 10 = false ∧
      s.l2Holders 7 = [10] ∧ s.l2Find 10 7 = some ⟨7, 0, .e, 5, 0, none⟩ ∧ 2 ≤ (s.core 10).mem.closedF.length) ∧
    (∀ b : Bool, let s := { put (grp 3 3 (List.replicate 3 { run := .running })) [(Fld.CG_STAT_QUAR, 79, 4)] with
        groups := [(79, { resync := if b then some 0 else none })] };
      s.atResync 79 = b ∧ (s.group 79).joining = none ∧ (s.groupActive 79).Nodup ∧ s.groupPrimary 79 = 10 ∧ 2 ∈ s.memberIdx 79 ∧
      2 ∉ s.runIdx 79 ∧ s.groupMember 79 2 ≠ 10) ∧
    (let s := { grp 2 3 [{ run := .running, mem := { count := 5 } }, { run := .running, mem := { count := 5 } }] with
        groups := [(79, { cut := true })] };
      (s.group 79).cut = true ∧ s.atCut 79 = true ∧ (s.group 79).mc = false ∧ (s.group 79).irq = false ∧
      (s.group 79).joining = none ∧ (s.group 79).halt = none ∧ (s.groupRunning 79).Nodup ∧ (∀ m ∈ s.groupRunning 79, s.groupOf m = some 79) ∧
      (s.core 10).mem.count ≠ 0 ∧ (s.core 10).slot = none) ∧
    (grp 2 3 []).groupPrimary 79 = 10 ∧ ((grp 2 3 []).core 10).mem.ext = none ∧
    (∀ b : Bool, let o : ExtOp := { kind := 4, op := 0, pc := 0, pa := 0, size := 0, data := 0, ea := 0, dest := none, base := none };
      let s := grp 2 3 [{ run := .running, mem := { ext := some o } }, { run := .running, mem := { ext := if b then some o else none } }];
      (s.core 10).mem.ext = some o ∧ s.extReady 79 = b ∧ (s.extPerform 79 10 o).2.groupRunning 79 = s.groupRunning 79 ∧
      (s.groupRunning 79).Nodup ∧ (∀ m ∈ s.groupRunning 79, m < 160)) ∧
    (∀ h : Bool, let o : ExtOp := { kind := 3, op := 0x14, pc := 0, pa := 0, size := 8, data := 1, ea := 0, dest := some 9, base := none };
      let k := l2On [⟨0, 0, .e, 5, 0, none⟩];
      let s := grp 2 3 [{ k with mem := { ext := some o } }, { run := .running, mem := { ext := some o } }];
      let s := { s with cores := (7, { resv := if h then some { granule := 0, hold := true } else none }) :: s.cores };
      s.extReady 79 = true ∧ (s.extPerform 79 10 o).1 = (if h then .notYet else .done 5) ∧
      (s.extPerform 79 10 o).2.groupRunning 79 = s.groupRunning 79) := by
  and_intros <;> decide +kernel

/-! ## The hypotheses of the statements: the ZIS instructions

`ready_sound` and `meets_sound` turn these evaluations into states that meet `zisReady` and `zisMeets`. -/

/-- A core in each mode and a thread, at both lengths, with the first and the last register of each kind. -/
theorem test_meets_IntegerArithmetic :
    (∀ len ∈ [2, 4], (∀ m < 3, ready (cpu (BitVec.ofNat 2 m)) (.core 0) len [0, 7, 8, 31] (fun _ => true) = true) ∧
      ready (cpu 0) (.thread 255) len [0, 7, 8, 31] (fun _ => true) = true) := by decide +kernel

theorem test_meets_IntegerShiftsAndProducts :
    (∀ len ∈ [2, 4], ready (cpu 0) (.core 0) len [1, 2, 3] (fun u => u.regVal (.core 0) 1 == 0) = true ∧
      ready (cpu 0) (.thread 255) len [1, 2, 3] (fun u => u.regVal (.thread 255) 1 == 0xF1003FFFF8) = true) := by
  decide +kernel

/-- A core in each mode: the statement's hypothesis on the core; the types at the boundary of float and integer lanes. -/
theorem test_meets_VectorArithmetic :
    (∀ m < 3, ready (cpu (BitVec.ofNat 2 m)) (.core 0) 4 [] (fun _ => true) = true) ∧
    (3 : VTy).toNat < 4 ∧ 4 ≤ (4 : VTy).toNat := by decide +kernel

theorem test_meets_VectorMovesAndConversions :
    ready (cpu 0) (.core 0) 4 [31] (fun _ => true) = true ∧ ready (cpu 2) (.core 0) 4 [] (fun _ => true) = true ∧
    (1 : VTy).toNat < 2 := by decide +kernel

/-- The smallest and the largest magnitude of each format, every rounding mode. -/
theorem test_meets_RoundingIsCorrect :
    (∀ f ∈ [b32, b64], f.emin ≤ f.emin + Nat.log2 1 ∧ f.emin + Nat.log2 1 < f.bias ∧
      f.emin ≤ (f.bias - 1 : Int) + Nat.log2 1 ∧ (f.bias - 1 : Int) + Nat.log2 1 < f.bias) ∧
    (∀ r < 4, (⟨r, false⟩ : FpEnv).rm < 4) := by decide +kernel

/-- Branches of a core and a thread, a waiting slot, and calls and returns with each state of the rings: room and none, in
a trap window and not. -/
theorem test_meets_BranchesCallsAndReturns :
    (∀ len ∈ [2, 4], ready (cpu 1) (.core 0) len [31] (fun _ => true) = true ∧
      ready (cpu 1) (.thread 255) len [31] (fun _ => true) = true) ∧
    (∀ b : Bool, let s := with0 { run := .running, slot := some (0, if b then some 0x100 else none), arch := { pc := 4, mode := 1 } };
      meets s (.core 0) 2 (pure ()) (fun _ => true) = true ∧ s.slotOf (.core 0) = some (0, if b then some 0x100 else none)) ∧
    (∀ m ∈ [1, 2], ∀ h : Bool, h = (m == 2) → meets (cpu (BitVec.ofNat 2 m)) (.core 0) 4 (do
        if h then pure () else ensureSlots 0 [0, 1, 2]) (fun u => 1 ≤ (u.core 0).arch.room h && (u.core 0).arch.cur h == 0) = true) ∧
    (let s := cpu 0 [(0x018, winWord false 0 0 0 0 9)];
      raises s 0 4 (pure ()) false (fun u => (u.core 0).arch.room false == 0 && (u.core 0).arch.tw false == 0) = true ∧
      s.slotOf (.core 0) = none) ∧
    raises (cpu 1 [(0x018, winWord false 0 9 1 0 10)]) 0 4 (pure ()) true (fun u =>
      (u.core 0).arch.room false == 0 && (u.core 0).arch.tw false == 1 && (u.core 0).arch.tw true == 0) = true ∧
    (∀ e ∈ [(1, false, 12), (2, true, 4)], meets (cpu (BitVec.ofNat 2 e.1) [(0x018, winWord false 0 0 0 0 1), (0x028, winWord true 0 0 0 0 1)])
      (.core 0) 2 (do
        if e.2.1 then pure () else ensureSlots 0 [0, 1, 2]) (fun u => (u.core 0).arch.span e.2.1 == 1) = true) ∧
    raises (cpu 0) 0 2 (pure ()) false (fun u => (u.core 0).arch.span false == 0 && (u.core 0).arch.tw false == 0) = true ∧
    raises (cpu 1 [(0x018, winWord false 0 1 1 0 1)]) 0 4 (pure ()) true (fun u =>
      (u.core 0).arch.tw false == 1 && (u.core 0).arch.cur false == (u.core 0).arch.twp false && (u.core 0).arch.tw true == 0) = true ∧
    (∀ d ∈ [0, 1, 5, 6], let s := { cpu 0 with threads := [(255, { run := .run, pc := 0xF1003E0000, depth := d })] };
      ready s (.thread 255) 4 [] (fun u => (u.thread 255).depth == d) = true) := by and_intros <;> decide +kernel

/-- Every mode, in a trap window and not, and the Tally cores with X0.IE set. -/
theorem test_meets_BarriersAndTraps :
    (∀ m < 3, let s := cpu (BitVec.ofNat 2 m); ready s (.core 0) 4 [] (fun u => (u.core 0).arch.tw true == 0 && u.groupOf 0 == none &&
        !u.drainBlocked 0 && calm u (u.barred (.core 0)) (.core 0) 0 0 0 && calm u (u.drained (.core 0)) (.core 0) 0 0 0 &&
        calm u ((u.drained (.core 0)).barred (.core 0)) (.core 0) 0 0 0 && ((u.drained (.core 0)).core 0).woken == false) = true ∧
      ∀ len ∈ [2, 4], raises s 0 len (pure ()) (m != 0) (fun u => (u.core 0).arch.tw (m != 0) == 0) = true ∧
        traps s 0 len (m != 0) (fun u => (u.core 0).arch.tw (m != 0) == 0) = true) ∧
    ready (with0 { run := .running, woken := true, arch := { mode := 1 }, sb := [⟨0, 0, 8, 7, 0, []⟩] }) (.core 0) 4 [] (fun u =>
      !u.drainBlocked 0 && calm u (u.drained (.core 0)) (.core 0) 0 0 0 && ((u.drainSb 0).core 0).woken) = true ∧
    (let s := with0 { run := .running, sb := [⟨0, 0x100, 8, 7, 0, []⟩] };
      ready { s with cores := (7, { resv := some { granule := 2, hold := true } }) :: s.cores } (.core 0) 4 [] (fun u => u.drainBlocked 0) = true) ∧
    ready (cpu 0) (.thread 255) 4 [] (fun u => calm u (u.barred (.thread 255)) (.thread 255) 0 0 0 &&
      calm u (u.drained (.thread 255)) (.thread 255) 0 0 0 &&
      calm u ((u.drained (.thread 255)).barred (.thread 255)) (.thread 255) 0 0 0) = true ∧
    raises (cpu 0 [(0x018, winWord false 0 1 1 0 1)]) 0 2 (pure ()) true (fun u =>
      (u.core 0).arch.tw false == 1 && (u.core 0).arch.tw true == 0) = true ∧
    meets (cpu 2 [(0x028, winWord true 0 1 1 0 1)]) (.core 0) 4 (pure ()) (fun u =>
      (u.core 0).arch.tw true == 1 && (u.core 0).arch.cur true == (u.core 0).arch.twp true) = true ∧
    meets (cpu 1 [(0x018, winWord false 0 1 1 0 1)]) (.core 0) 4 (ensureWindow 0 0) (fun u =>
      (u.core 0).arch.tw false == 1 && (u.core 0).arch.cur false == (u.core 0).arch.twp false) = true ∧
    ready (cpu 0) (.thread 255) 4 [] (fun _ => true) = true ∧ 4 ≤ (7 : VTy).toNat ∧
    (let s := both up (fun k => { k with xregs := [(0, 0x10)] }); s.tallyReady .reeve ∧ s.tallyReady .cocoon ∧
      ((s.tally .reeve).x 0).getLsbD 4 = true ∧ s.svc.extSlot = none) := by
  unfold State.tallyReady; and_intros <;> decide +kernel

/-- Registers of each mode, read and written where they may be and where they may not. -/
theorem test_meets_SystemRegisterMoves :
    mfsMode false 0 = some 0 ∧ mfsMode false 0x010 = some 1 ∧ mfsMode false 0x020 = some 2 ∧ mfsMode false 0x030 = none ∧
    mtsMode 0 = some 0 ∧ mtsMode 0x024 = some 2 ∧
    (∀ m < 3, ready (cpu (BitVec.ofNat 2 m)) (.core 0) 4 [31] (fun u => u.groupOf 0 == none &&
      calm u u (.core 0) 0 0 0 && calm u (u.l2Sweep 0) (.core 0) 0 0 0 &&
      ends (csWrite 0 m 1 0xFF00) u (fun _ w => calm u w (.core 0) 0 0 0)) = true) ∧
    ready (cpu 2) (.core 0) 4 [31] (fun u => ends (csWrite 0 2 0x024 0xFF00) u (fun _ w => calm u w (.core 0) 0 0 0)) = true ∧
    (∀ e ∈ [(0, false), (1, true), (2, true)],
      raises (cpu (BitVec.ofNat 2 e.1)) 0 4 (pure ()) e.2 (fun u => (u.core 0).arch.tw e.2 == 0) = true) ∧
    (∀ e ∈ [(0, false), (2, true)], let s := cpu (BitVec.ofNat 2 e.1); winOk e.2 0xF = false ∧ winOk e.2 0 = true ∧
      ((s.openedBy (.core 0) 4 (useReg (.core 0) 31)).any (fun p => p.regVal (.core 0) 31 == 0)) = true ∧
      raises s 0 4 (useReg (.core 0) 31) e.2 (fun u => (u.core 0).arch.tw e.2 == 0) = true) ∧
    ready (cpu 0) (.thread 255) 4 [] (fun _ => true) = true := by and_intros <;> decide +kernel

/-- Values that a window register takes, at the bounds of its fields, and one it does not; slots of each state. -/
theorem test_meets_WindowRegisters :
    (∀ m ∈ [1, 2], let s := cpu (BitVec.ofNat 2 m); s.islOpen (coreIsland 0) = true ∧ (s.core 0).run = .running ∧
      (s.core 0).arch.mode ≠ 0 ∧ s.groupOf 0 = none ∧ (s.core 0).arch.csf CsFld.G2CTL_EN = 0 ∧
      (s.core 0).arch.csf CsFld.WSAVE_V = 0 ∧ (s.core 0).arch.tw (m == 2) = 0 ∧
      ∀ j < 12, ((s.core 0).arch.tag j).st ≠ .dirty ∨ ((s.core 0).arch.tag j).valid = false) ∧
    (∀ m < 3, let s := with0 { run := .running, arch := { mode := BitVec.ofNat 2 m, tags := (List.range 12).map (fun j => (j, { st := .clean, ctx := 0 })) } };
      s.drainBlocked 0 = false ∧ s.islOpen (coreIsland 0) = true ∧ (s.core 0).arch.tw false = 0 ∧ (s.core 0).arch.tw true = 0 ∧
      (match (trapSlots 0).run s with | .ok _ t => t == s | .error _ _ => false) = true) ∧
    (winOk false 0xC = false ∧ winOk true 0 = true) ∧ up.pwr.failSeq = false ∧
    ({ up with pwr := { up.pwr with failSeq := true } } : State).pwr.failSeq = true ∧
    (∀ v ∈ [0x0B0B0B, 0x0B1B09, 0x09], let w : Word := BitVec.ofNat 64 v; bitsOf w 3 0 < 12 ∧ bitsOf w 11 8 < 12 ∧
      bitsOf w 19 16 < 12 ∧ (bitsOf w 3 0 + 12 - bitsOf w 11 8) % 12 ≤ 9 + bitsOf w 12 12) ∧
    12 ≤ bitsOf 0xC 3 0 ∧ ringN true ≤ bitsOf 4 3 0 ∧ (match (trapSlots 0).run (cpu 1) with | .ok _ _ => true | .error _ _ => false) = true ∧
    (let s := with0 { run := .running, arch := { mode := 1, tags := [(11, { st := .dirty, ctx := 5, addr := 0x1000, valid := true })] } };
      (s.core 0).sb = [] ∧ ((s.core 0).arch.tag 11).st = .dirty ∧ ((s.core 0).arch.tag 11).valid = true ∧
      ((s.core 0).arch.tag 11).ctx.toNat = bitsOf 0x50000 31 16 ∧ (∀ j < 12, j ≠ 11 → ((s.core 0).arch.tag j).st ≠ .dirty) ∧
      (∀ j < 12, ((s.core 0).arch.tag j).valid = true → ((s.endEarly 0).frameReach 0 (((s.core 0).arch.tag j).frameAt j)).1 = true)) ∧
    (bitsOf 0x800B 3 0 < 12 ∧ bitsOf 0x800B 47 7 * 128 = 0x8000 ∧ (((cpu 2).endEarly 0).frameReach 0 0x8000).1 = true ∧
      ends (engineRead 0 0x8000) ((cpu 2).endEarly 0) (fun _ _ => true) = true) := by and_intros <;> decide +kernel

/-- Levels of both kinds, a machine check that waits, park, DEFER and a reservation. -/
theorem test_meets_CoreEvents :
    (∀ m < 3, let s := cpu (BitVec.ofNat 2 m); s.groupOf 0 = none ∧ s.islOpen (coreIsland 0) = true ∧ (s.core 0).run = .running ∧
      (s.core 0).halted = false ∧ (s.core 0).mchecks = [] ∧ s.coreLevel 0 0 = false ∧ s.coreLevel 0 1 = false ∧
      (s.core 0).arch.csf CsFld.SSTAT_SIE = 0 ∧ (s.core 0).arch.deferN < 256 ∧ (s.core 0).stepping = false ∧
      s.drainBlocked 0 = false ∧ (s.core 0).brCkpts = []) ∧
    (let s := with0 { run := .running, sb := [⟨0, 0x100, 8, 7, 0, []⟩], brCkpts := [⟨1, [], 2, 3, []⟩] };
      let s : State := { s with cores := s.cores ++ [(7, ({ resv := some { granule := 2, hold := true } } : Core))] };
      s.drainBlocked 0 = true ∧ s.traceStalls 0 = false ∧ (s.core 0).brCkpts = ⟨1, [], 2, 3, []⟩ :: [] ∧ s.groupOf 0 = none) ∧
    (∀ b : Bool, let k : Core := { run := .running, arch := { mode := 0 }, trace := { on := true, closed := if b then [[1], [1], [1], [1]] else [] } };
      let s := put { up with cores := [(0, withCs k CsFld.TRCTL_U.csn (word64 CsFld.TRCTL_U 1))] }
        [(Fld.TR_SINK_STAT_STATE, 0, 1), (Fld.TR_SINK_CTL_STALL, 0, 1), (Fld.TR_SINK_CTL_EN, 0, 1)];
      s.traceStalls 0 = b ∧ s.groupOf 0 = none ∧ s.islOpen (coreIsland 0) = true ∧ (s.core 0).halted = false ∧ (s.core 0).stepping = false) ∧
    (let s := put (cpu 2 [(CsFld.HSTAT_HIE.csn, word64 CsFld.HSTAT_HIE 1)])
        [(Fld.IC_SRC_EN, 9999, 1), (Fld.IC_SRC_PRIO, 9999, 255), (Fld.IC_SRC_PEND, 9999, 1), (Fld.IC_SRC_TARGET, 9999, 1)];
      s.coreLevel 0 1 = true ∧ (s.core 0).arch.mode = 2 ∧ (s.core 0).arch.csf CsFld.HSTAT_HIE = 1 ∧ (s.core 0).arch.tw true = 0 ∧
      s.islState (coreIsland 0) = 1 ∧ s.forming 0 = false ∧ 1 ∉ (s.core 0).lvlHeld) ∧
    (let s := put (cpu 1 [(CsFld.SSTAT_SIE.csn, word64 CsFld.SSTAT_SIE 1 ||| word64 CsFld.SSTAT_DEFER 1)])
        ([9998, 9999].flatMap (fun n => [(Fld.IC_SRC_EN, n, 1), (Fld.IC_SRC_PRIO, n, 255), (Fld.IC_SRC_PEND, n, 1), (Fld.IC_SRC_TARGET, n, n % 2)]));
      s.coreLevel 0 0 = true ∧ s.coreLevel 0 1 = true ∧ (s.core 0).arch.csf CsFld.SSTAT_SIE = 1 ∧ (s.core 0).arch.csf CsFld.SSTAT_DEFER = 1) ∧
    (∀ l ∈ [[], [0, 1]], ∀ d : Bool,
      let s := put (with0 { run := .parked, lvlHeld := l, haltDue := d }) [(Fld.IC_SRC_EN, 9999, 1), (Fld.IC_SRC_PRIO, 9999, 255),
        (Fld.IC_SRC_PEND, 9999, 1), (Fld.IC_SRC_TARGET, 9999, 0)];
      (s.core 0).run = .parked ∧ s.coreLevel 0 0 = true ∧ (s.core 0).lvlHeld = l ∧ (s.core 0).haltDue = d ∧
      s.islState (coreIsland 0) = 1 ∧ s.forming 0 = false) ∧
    (let s := with0 { run := .running, mchecks := [⟨1, 2, true, true, none⟩], arch := { mode := 2, sys := [(0x028, winWord true 0 1 1 0 1)] } };
      (s.core 0).arch.tw true = 1 ∧ (s.core 0).mchecks ≠ []) ∧
    (∀ h < 2, ∀ m < 2, let s := cpu (BitVec.ofNat 2 m) [(CsFld.SSTAT_SIE.csn, word64 CsFld.SSTAT_SIE 1)];
      let s := put s [(Fld.IC_SRC_EN, 9999, 1), (Fld.IC_SRC_PRIO, 9999, 255), (Fld.IC_SRC_PEND, 9999, 1), (Fld.IC_SRC_TARGET, 9999, h)];
      s.coreLevel 0 h = true ∧ s.coreLevel 0 (1 - h) = false ∧ (s.core 0).arch.csf CsFld.SSTAT_SIE = 1 ∧
      (s.core 0).arch.csf CsFld.SSTAT_DEFER = 0 ∧ (s.core 0).arch.tw true = 0 ∧ (s.core 0).arch.tw false = 0 ∧
      ends (trapSlots 0) s (fun _ _ => true) = true) ∧
    (let s := with0 { run := .running, mchecks := [⟨1, 2, true, true, none⟩] };
      (s.core 0).mchecks = ⟨1, 2, true, true, none⟩ :: [] ∧ (s.core 0).arch.tw true = 0 ∧ (s.core 0).sb = [] ∧ s.drainBlocked 0 = false) ∧
    (let s := with0 { run := .parked }; (s.core 0).run = .parked ∧ s.islState (coreIsland 0) = 1 ∧ s.forming 0 = false ∧
      s.coreLevel 0 0 = false ∧ s.coreLevel 0 1 = false ∧ (s.core 0).mchecks = [] ∧ (s.core 0).haltDue = false) ∧
    (let s := with0 { run := .parked, mchecks := [⟨1, 2, true, true, none⟩] };
      (s.core 0).mchecks ≠ [] ∧ s.forming 0 = false ∧ (s.core 0).haltDue = false) ∧
    (let s := with0 { run := .running, arch := { deferN := 256, sys := [(CsFld.SSTAT_DEFER.csn, word64 CsFld.SSTAT_DEFER 1)] } };
      (s.core 0).arch.csf CsFld.SSTAT_DEFER = 1 ∧ 256 ≤ (s.core 0).arch.deferN) ∧
    ((with0 { resv := some { granule := 0, hold := true } }).core 0).resv = some { granule := 0, hold := true } := by and_intros <;> decide +kernel

/-- Sources by level and by event, targets with empty and filled stacks, claims that find a source and none. -/
theorem test_meets_InterruptCommands :
    up.islOpen 20 = true ∧ up.srcLive .reeve = true ∧ up.srcSys .reeve = true ∧ up.srcLive (.thread 0) = true ∧
    up.srcSys (.thread 0) = false ∧ icIsEvent 0 = false ∧ icIsEvent 10240 = true ∧ up.icSec 10240 = false ∧
    Fld.IC_SWI_SET_NUM.of (word [(Fld.IC_SWI_SET_NUM, 0)]) = 10240 - 10240 ∧ up.srcLive .cocoon = true ∧
    (put up [(Fld.IC_SRC_SEC, 10240, 1)]).icSec 10240 = true ∧
    up.icAccepts .reeve 320 = true ∧ up.icAccepts .reeve 0 = true ∧ up.icAccepts (.thread 0) 0 = false ∧
    up.icStk 0 = [] ∧ Fld.IC_TCTL_TORBER.of 0 = up.fld Fld.IC_TCTL_TORBER 0 ∧ up.icBest 0 = none ∧
    (let s := { up with icStack := [(0, [(7, 3), (5, 1)])] }; s.icStk 0 ≠ [] ∧
      Fld.IC_TCTL_TORBER.of (word [(Fld.IC_TCTL_TORBER, 1)]) ≠ s.fld Fld.IC_TCTL_TORBER 0 ∧
      (s.icStk 0).any (fun e => e.1 == 7) = true ∧ (s.icStk 0).head?.map Prod.fst = some 7 ∧
      (s.icStk 0).any (fun e => e.1 == 5) = true ∧ (s.icStk 0).head?.map Prod.fst ≠ some 5 ∧ (s.icStk 0).any (fun e => e.1 == 6) = false ∧
      s.flag Fld.IC_TCTL_TORBER 0 = false ∧ Fld.IC_COMPLETE_SRC.of 7 = 7) ∧
    (let s := put up ([10238, 10239].flatMap (fun n => [(Fld.IC_SRC_EN, n, 1), (Fld.IC_SRC_PRIO, n, 255), (Fld.IC_SRC_PEND, n, 1),
        (Fld.IC_SRC_TARGET, n, 0)])); s.icBest 0 = some 10238 ∧ s.icEligible 0 10239 = true ∧ 10239 ∈ s.icListed) ∧
    up.noSleeper ∧ icReserved 8764 = false ∧ icReserved 8765 = true ∧ icReserved 11263 = false ∧ icReserved 11264 = true := by
  unfold State.noSleeper; and_intros <;> decide +kernel

/-! ## The hypotheses of the statements: accesses to memory and maintenance -/

/-- The least and the greatest sizes and every form, a core in each mode; a thread at the last words of its data memory. -/
theorem test_meets_LoadInstructions :
    (∀ n ∈ [1, 8, 32], loads (cpu 2) (.core 0) 9 (.disp false 1 0x7E0) n = true ∧
      loads (cpu 0) (.core 0) 9 (.index 8 31 3) n = true) ∧
    (∀ short : Bool, loads (cpu 1) (.core 0) 9 (.postInc short 8) 8 = true ∧ loads (cpu 2) (.core 0) 9 (.disp short 1 8) 4 = true) ∧
    (∀ n ∈ [1, 8], loads (cpu 0) (.thread 255) 9 (.disp false 1 0) n = true ∧
      loads (cpu 0) (.thread 255) 9 (.preDec false 1) n = true ∧ loads (cpu 0) (.thread 255) 9 (.postInc true 1) n = true) ∧
    (∀ e ∈ [(2, true, 31), (4, false, 0x7FFF)], meets (cpu 0) (.core 0) e.1 (useReg (.core 0) 9) (fun u =>
      let a := u.pcWord (.core 0) + BitVec.ofNat 64 (4 * e.2.2);
      ends (agentReads (.core 0) 8 a) u (fun _ x => calm u x (.core 0) 2 a 8)) = true) ∧
    (cpu 0).groupOf 0 = none := by and_intros <;> decide +kernel

theorem test_meets_StoreInstructions :
    (∀ n ∈ [1, 2, 4, 8, 32], stores (cpu 2) (.core 0) 9 (.disp false 1 0x7E0) n = true) ∧
    (∀ short : Bool, stores (cpu 1) (.core 0) 8 (.postInc short 8) 8 = true ∧ stores (cpu 0) (.core 0) 9 (.index 8 31 3) 4 = true) ∧
    (∀ n ∈ [1, 2, 4, 8], stores (cpu 0) (.thread 255) 9 (.preDec false 1) n = true) := by and_intros <;> decide +kernel

/-- A part at the end of a line, of the smallest and of the largest length; a full and an empty store buffer. -/
theorem test_meets_MemoryBytes :
    (∀ e ∈ [(63, 1), (32, 32), (0, 8)], let p : MemPart := ⟨BitVec.ofNat 64 e.1, e.1, e.2, 0, []⟩;
      isHbm p.pa = true ∧ p.mt ≠ 2 ∧ p.len ≤ 32 ∧ p.pa % 64 + p.len ≤ 64 ∧ ((cpu 2).core 0).sb.length < 56 ∧ ((cpu 2).core 0).early = [] ∧ (cpu 2).groupOf 0 = none ∧
      ends (coreReads 0 p.len p.ea [p]) (cpu 2) (fun _ _ => true) = true ∧
      ends (coreWrites 0 p.len 5 p.ea [p]) (cpu 2) (fun _ _ => true) = true) ∧
    (∀ l ∈ [[], [0, 24]], let s := with0 { run := .running, sb := [⟨0, 0, 32, 7, 0, l⟩] };
      (s.core 0).sb.all (fun e => (e.words.isEmpty || e.size ≤ 32) && (e.holds 0 8 || !e.meets 0 8)) = true ∧ (s.core 0).early = [] ∧
      ends (coreReads 0 8 0 [⟨0, 0, 8, 0, []⟩]) s (fun _ _ => true) = true) ∧
    (∀ n ∈ [1, 2, 4, 8], ∀ k ∈ [0, 3], let s := { cpu 0 with threads := [(255, { run := .run, rest := List.replicate k (0, 8, 5) })] };
      isHbm (0x20040 - n) = true ∧ (0x20040 - n) % n = 0 ∧ (s.thread 255).rest.length < 4 ∧
      ends (threadWrites 255 n 5 (BitVec.ofNat 64 (0x20040 - n))) s (fun _ _ => true) = true) ∧ ((cpu 0).thread 255).rest = [] ∧
    (∀ n ∈ [1, 2, 4, 8], let a := 0xF100400000 - n; ownDmem 255 a n = true ∧ a % n = 0 ∧ (cpu 0).islOpen 21 = true ∧
      ends (threadReads 255 n (BitVec.ofNat 64 a)) (cpu 0) (fun _ _ => true) = true ∧
      ends (threadWrites 255 n 5 (BitVec.ofNat 64 a)) (cpu 0) (fun _ _ => true) = true) ∧
    BMap.wf (cpu 0).mem = true := by and_intros <;> decide +kernel

/-- `ll`, `sc` and the atomics: with a reservation and without, in HBM; a thread in its data memory, and misaligned. -/
theorem test_meets_AtomicsAndReservations :
    ready (cpu 0) (.core 0) 4 [9, 1] (fun u => ends (coreParts 0 .load 0 8 2 false) (u.noted (.core 0) [1]) (fun l w => l.length == 1 &&
      l.all (fun p => p.upds.isEmpty && isHbm p.pa && p.mt != 1) && calm u w (.core 0) 2 0 8 && linkable false 0 && w.llTurn 0 0 &&
      !w.oldestHeld 0 (granuleFirst (w.core 0).sb 0) && (let r := w.syncPerform 0 (.core 0) 0x12 0 false 0; r.1.err == 0 && !r.1.poison && calm u r.2 (.core 0) 2 0 8))) = true ∧
    (let s := with0 { run := .running, arch := { rf := [(265, 0x100)] }, sb := [⟨0, 0x108, 8, 7, 0, []⟩] };
      ready { s with cores := s.cores ++ [(7, ({ resv := some { granule := 2, hold := true } } : Core))] } (.core 0) 4 [9, 8, 1] (fun u =>
        u.regVal (.core 0) 1 == 0x100 &&
        ends (coreParts 0 .load 0x100 8 2 false) (u.noted (.core 0) [1]) (fun l w => l.length == 1 && l.all (fun p => p.upds.isEmpty) &&
          calm u w (.core 0) 2 0x100 8 && !w.llTurn 0 0x100) &&
        ends (coreParts 0 .store 0x100 8 2 true) (u.noted (.core 0) [8, 1]) (fun l w => l.length == 1 &&
          l.all (fun p => p.upds.isEmpty && isHbm p.pa) && w.oldestHeld 0 (granuleFirst (w.core 0).sb 0x100) &&
          w.heldAgainst 4 (some 0) && !w.pwr.failSeq))) = true ∧
    (∀ b : Bool, ready (with0 { run := .running, resv := if b then some { granule := 0, hold := true } else none }) (.core 0) 4 [9, 8, 1] (fun u =>
      ends (coreParts 0 .store 0 8 2 false) (u.noted (.core 0) [8, 1]) (fun l w => !w.pwr.failSeq && l.length == 1 &&
        l.all (fun p => p.upds.isEmpty) && calm u w (.core 0) 3 0 8 && !w.heldAgainst 0 (some 0) && !w.oldestHeld 0 (granuleFirst (w.core 0).sb 0) &&
        (w.core 0).resv.any (fun r => r.granule == 0) == b &&
        (let r := w.syncPerform 0 (.core 0) 0x13 0 false 5; r.1.err == 0 && calm u r.2 (.core 0) 3 0 8))) = true) ∧
    (∀ o ∈ [0x14, 0x15, 0x16, 0x17], ready (cpu 2) (.core 0) 4 [9, 8, 1] (fun u => ends (coreParts 0 .store 0 8 2 true) (u.noted (.core 0) [8, 1])
      (fun _ w => !w.pwr.failSeq && calm u w (.core 0) 2 0 8 && calm u w (.core 0) 3 0 8 && !w.heldAgainst 0 (some 0) && (w.core 0).sb == [] && !w.oldestHeld 0 (granuleFirst (w.core 0).sb 0) &&
        (w.mirOf (w.hbmPlace 0).1 (w.hbmPlace 0).2).isNone &&
        (let r := w.syncPerform 0 (.core 0) o 0 false 5; r.1.err == 0 && !r.1.poison && calm u r.2 (.core 0) 2 0 8 &&
          calm u r.2 (.core 0) 3 0 8))) = true) ∧
    ready (cpu 0) (.thread 255) 4 [] (fun u => u.regVal (.thread 255) 1 == 0xF1003FFFF8 && ownDmem 255 0xF1003FFFF8 8 &&
      ends (threadReads 255 8 0xF1003FFFF8) (u.threadRest 255) (fun _ x => calm u x (.thread 255) 2 0xF1003FFFF8 8 && (x.thread 255).rest == [] &&
        ends (threadWrites 255 8 5 0xF1003FFFF8) x (fun _ y => calm u y (.thread 255) 3 0xF1003FFFF8 8))) = true ∧
    (let s := { cpu 0 with threads := [(255, { run := .run, pc := 0xF1003E0000, rf := [(({} : Thread).regAt 1, 1)] })] };
      ready s (.thread 255) 4 [] (fun u => (u.regVal (.thread 255) 1).toNat % 8 == 1) = true) := by and_intros <;> decide +kernel

theorem test_meets_TlbMaintenance :
    (∀ m ∈ [1, 2], ready (cpu (BitVec.ofNat 2 m)) (.core 0) 4 [9] (fun u => u.groupOf 0 == none && (u.core 0).sb == [] &&
      (u.core 0).arch.mode == BitVec.ofNat 2 m && (u.core 0).arch.tw true == 0 && (u.core 0).tlbiSent == none) = true ∧
      raises (cpu (BitVec.ofNat 2 m)) 0 4 (pure ()) true (fun u => (u.core 0).arch.tw true == 0) = true) ∧
    ready (with0 { run := .running, tlbiSent := some (0, 0), arch := { mode := 2 } }) (.core 0) 4 [0] (fun u =>
      (u.core 0).tlbiSent == some (0, u.regVal (.core 0) 0)) = true ∧
    raises (cpu 0) 0 4 (pure ()) false (fun u => (u.core 0).arch.tw false == 0) = true ∧
    ready (cpu 0) (.thread 255) 4 [] (fun _ => true) = true ∧ (cpu 0).islOpen (coreIsland 7) = true ∧
    (put (cpu 0) [(Fld.PW_ISTATE_STATE, 19, 3)]).islOpen (coreIsland 159) = false ∧
    (let o : TlbiOp := ⟨0, 0, 0, 0, 7, none⟩; let s := with0 { run := .running, tlbis := [o] };
      (s.core 0).tlbis = o :: [] ∧ (s.core 0).sb = [] ∧ s.islOpen (coreIsland 0) = true ∧ o.issuer = 7 ∧ o.fold = none ∧ s.foldPast 0 (s.core 0).mem.instar = true) ∧
    (let o : TlbiOp := ⟨0, 0, 0, 0, 7, none⟩; let s := grp 2 3 [{ run := .running, tlbis := [o], mem := { openF := [{ line := 7, mask := 1, data := 9, epoch := 0 }] } }];
      (s.core 10).tlbis = o :: [] ∧ s.foldPast 10 (s.core 10).mem.instar = false) := by
  and_intros <;> decide +kernel

/-- A line of NORMAL memory, places of the L1, the L2 and a slice at the bounds of their sets and ways. -/
theorem test_meets_CacheMaintenance :
    (∀ m ∈ [1, 2], ready (cpu (BitVec.ofNat 2 m)) (.core 0) 4 [1] (fun u => u.groupOf 0 == none && (u.core 0).sb == [] &&
      (u.core 0).arch.tw true == 0 &&
      ends (corePartsOf 0 .load [(u.regVal (.core 0) 1, 1)]) (u.noted (.core 0) [1]) (fun l w => l.length == 1 &&
        l.all (fun p => p.upds.isEmpty && p.mt == 0 && (mapFault false p).isNone) && calm u w (.core 0) 0 0 0 && (w.core 0).sb == [] &&
        !w.heldAgainst 0 (some 0) &&
        (let e := w.earlyLess 0 0 64; calm u (e.l2Clean 0 0) (.core 0) 0 0 0 && calm u (e.llcClean 0) (.core 0) 0 0 0))) = true ∧
      raises (cpu (BitVec.ofNat 2 m)) 0 4 (if m = 2 then pure () else useReg (.core 0) 1) true (fun u => (u.core 0).arch.tw true == 0) = true) ∧
    raises (cpu 2) 0 4 (useReg (.core 0) 1) true (fun u => (u.core 0).arch.tw true == 0) = true ∧
    ready (with0 { run := .running, arch := { mode := 2, rf := [(265, BitVec.ofNat 64 granaryBase)] } }) (.core 0) 4 [1] (fun u =>
      ends (corePartsOf 0 .load [(u.regVal (.core 0) 1, 1)]) (u.noted (.core 0) [1]) (fun l w => l.length == 1 &&
        l.all (fun p => p.upds.isEmpty && p.mt != 0) && calm u w (.core 0) 0 0 0)) = true ∧
    (bitsOf 0xFF03 23 8 < 256 ∧ bitsOf 0xFF03 3 0 < 4 ∧ bitsOf 0xFF03 46 40 = 0 ∧ bitsOf 0x7FF07 23 8 < 2048 ∧
      bitsOf 0x7FF07 3 0 < 8 ∧ bitsOf 0x4F000005FF0F 23 8 = 1535 ∧ bitsOf 0x4F000005FF0F 46 40 = 79 ∧
      80 ≤ bitsOf 0x500000000000 46 40 ∧ 1536 ≤ bitsOf 0x60000 23 8) ∧
    (let k := l2On [⟨2047, 7, .m, 5, 0, none⟩];
      ready (with0 k) (.core 0) 4 [1] (fun u => (u.core 0).l2Way 2047 7 == some 2047 && (u.core 0).l2Way 0 7 == none &&
        calm u ((u.earlyLess 0 (64 * 2047) 64).l2Clean 0 2047) (.core 0) 0 0 0) = true) ∧
    (let l : LlcLine := { line := 1535, way := 15, dirty := false, reuse := false, sec := false, data := 5, poison := 0 };
      ready { cpu 2 with llc := FMap.set (cpu 2).llc 79 (l :: (cpu 2).llcOf 79) } (.core 0) 4 [1] (fun u =>
        (u.llcOf 79).find? (fun y => llcIndex y.line == 1535 && y.way == 15) == some l &&
        calm u (u.cmoLlcWay (coreReq 0) 0x25 0x4F000005FF0F) (.core 0) 0 0 0 && calm u (u.cmoLlcWay (coreReq 0) 0x26 0x4F000005FF0F) (.core 0) 0 0 0) = true) ∧
    ready (cpu 0) (.thread 255) 4 [] (fun _ => true) = true := by and_intros <;> decide +kernel

/-! ## The hypotheses of the statements: ports, queues, the Spinner and the Cocoon -/

/-- The last field port and the first lane, in each mode and state of the link, with a fault, with a frame, with a test. -/
theorem test_meets_PortsAndLinks :
    up.islOpen Reg.PT_CTL.island = true ∧ up.srcLive (.thread 223) = true ∧ up.srcLive (.thread 0) = true ∧
    up.portMay 223 (.thread 223) = true ∧ up.portMay 223 (.thread 0) = false ∧ up.pwr.standby = true ∧
    (∀ d ∈ [0, 1, 3, 7], ∀ b < 2, let s := put up [(Fld.PT_MMD_BUSY, 223, 1), (Fld.PT_MMD_DEVAD, 223, d), (Fld.PT_MMD_WRITE, 223, b),
        (Fld.PT_MMD_DATA, 223, 0x1FF)];
      s.flag Fld.PT_MMD_BUSY 223 = true ∧ s.flag Fld.PT_MMD_WRITE 223 = (b == 1) ∧ s.fld Fld.PT_MMD_DATA 223 < 0x200 ∧
      (s.fld Fld.PT_MMD_DEVAD 223 ∈ [1, 3, 7] ↔ d ≠ 0)) ∧
    (∀ a < 2, ∀ r < 2, let s := put (portOn up 223 1 1) [(Fld.PT_CTL_AN, 223, a), (Fld.PT_CTL_ROLE, 223, r)];
      s.ptAn 223 = (a == 1) ∧ s.ptRole 223 = (r == 1)) ∧
    (∀ p ∈ [223, 224], ∀ l ∈ [1, 2], let s := portOn up p 1 l; s.portClosed p = true ∧ s.fld Fld.PT_STAT_LINK p = l ∧
      s.isRs485 p = false ∧ (s.port p).testing = false ∧ (s.port p).testDue = false) ∧
    ((portOn up 223 1 2).isT1l 223 = true ∧ (portOn up 223 2 2).isRs485 223 = true) ∧
    (let s := { portOn up 223 1 2 with ports := [(223, { frame := some { start := some 0 } })] };
      (s.port 223).frame.any (fun f => f.start.isSome) = true) ∧
    (∀ b < 2, let s := put up [(Fld.PT_STAT_FAULT, 223, 1), (Fld.PT_CTL_AUTORETRY, 223, b)];
      s.flag Fld.PT_STAT_FAULT 223 = true ∧ s.flag Fld.PT_CTL_AUTORETRY 223 = (b == 1) ∧ s.portClosed 223 = false ∧
      signedOf 8 (s.fld Fld.PT_DIAG_VP 223) = 0 ∧ signedOf 8 (s.fld Fld.PT_DIAG_VN 223) = 0) ∧
    (∀ b : Bool, let s := { put up [(Fld.PT_STAT_FAULT, 223, 1)] with ports := [(223, { calm := b })] };
      s.flag Fld.PT_STAT_FAULT 223 = true ∧ (s.port 223).calm = b) ∧
    (∀ e ∈ [((10 : Int), (0 : Int), 10), (14, -14, 28), (11, 0, 11), (59, 0, 59), (-29, 30, 59), (60, 0, 60), (13, -14, 27)],
      max (max e.1.natAbs e.2.1.natAbs) (e.1 - e.2.1).natAbs = e.2.2) ∧
    ((put up [(Fld.PT_DIAG_VP, 223, 11), (Fld.PT_STAT_FAULT, 223, 1)]).fld Fld.PT_DIAG_VP 223 = 11) ∧
    ({ up with ports := [(223, { testing := true })] } : State).port 223 = { testing := true } := by and_intros <;> decide +kernel

/-- Ports that hear frames and one that does not, frames on their way out, a lane's gate list, a stream, the service pins. -/
theorem test_meets_PortTraffic :
    (∀ m ∈ [1, 2], let s := portOn up 223 m 2; s.portHears 223 = true ∧ s.flag Fld.QE_DMA_CTL_RXEN 223 = false ∧
      s.isRaw 223 = false ∧ s.isRs485 223 = (m == 2) ∧ (s.port 223).rx.length ≤ 512) ∧ up.portHears 223 = false ∧
    (let s := put (portOn up 255 1 2) [(Fld.PT_LANE_FEC_EFF, 31, 1)];
      s.portHears 255 = true ∧ s.flag Fld.QE_DMA_CTL_RXEN 255 = false ∧ s.isRaw 255 = false ∧ s.fld Fld.PT_LANE_FEC_EFF 31 ≠ 0) ∧
    (∀ b < 2, let k : FrameCopy := { tc := 7, stream := 5, seq := 9, len := 64 };
      let s := { put (portOn up 255 1 2) [(Fld.PT_GCTL_EN, 31, b)] with ports := [(255, { copies := [k], gclOn := true })] };
      (s.port 255).copies = k :: [] ∧ s.portClosed 255 = true ∧ (s.port 255).frame = none ∧ s.gateTime 255 = 0) ∧
    (let s := { put (portOn up 255 1 2) [(Fld.PT_GCTL_EN, 31, 1)] with ports := [(255, { gclOn := true, gates := [(0, 0x7F00000000)] })] };
      (s.gateOf 255).testBit 7 = false ∧ (s.gateOf 255).testBit 0 = true ∧ s.gateTime 255 = 0) ∧
    (∀ m ∈ [1, 2], ∀ b : Bool, let f : TxFrame := { start := some 7, drive := true };
      let s := { portOn up 223 m 2 with ports := [(223, { frame := some f, tx := [3, if b then 0x10000 else 5] })] };
      (s.port 223).frame = some f ∧ s.portClosed 223 = true ∧ s.flag Fld.QE_DMA_CTL_TXEN 223 = false ∧ f.start.isSome = true ∧
      (s.port 223).testing = false ∧ (s.port 223).testDue = false ∧ s.isRaw 223 = false ∧ txHeld (s.port 223).tx = (2, b) ∧
      s.isRs485 223 = (m == 2) ∧ f.sent + 2 ≤ 2048) ∧
    (let s := { portOn up 223 1 2 with ports := [(223, { frame := some { start := some 7 } })] }; (s.port 223).tx = [] ∧ s.isRs485 223 = false) ∧
    (let s := put { up with gclDue := [(31, true)], ports := [(255, { gclOn := true })] }
        [(Fld.PT_GCTL_EN, 31, 1), (Fld.PT_GCTL_PEND, 31, 1)];
      FMap.get s.gclDue false 31 = true ∧ s.flag Fld.PT_GCTL_EN 31 = true ∧ s.flag Fld.PT_GCTL_PEND 31 = true ∧
      (s.port 255).gclOn = true ∧ (s.port 255).gclOver = false ∧ s.fld Fld.PT_GCTL_OPER_LEN 31 ≤ s.fld Fld.PT_GCTL_ENTRY 31) ∧
    (let s := put up [(Fld.PT_GCTL_OPER_LEN, 31, 15), (Fld.PT_GCTL_ENTRY, 31, 14)];
      s.fld Fld.PT_GCTL_ENTRY 31 < s.fld Fld.PT_GCTL_OPER_LEN 31) ∧
    up.islOpen Reg.PT_CBS.island = true ∧ up.srcLive (.thread 224) = true ∧ up.cbMay 0 (.thread 224) = true ∧
    up.cbMay 1 (.thread 224) = false ∧ up.srcSys .reeve = true ∧ up.srcSys (.thread 224) = false ∧ up.srcLive .reeve = true ∧
    up.gpioMask (.thread 224) = 0 ∧ up.gpioMask .reeve ≠ 0 ∧ up.fld Fld.BT_LOWN_FUNC 5 ≠ 2 ∧
    (let s := { put up [(Fld.PT_CBS_EN, 127, 1)] with frer := [(127, { takeAny := false })] };
      s.flag Fld.PT_CBS_EN 127 = true ∧ (FMap.get s.frer {} 127).takeAny = false) ∧
    ((put up [(Fld.BT_LOWN_FUNC, 9, 1)]).fld Fld.BT_LOWN_FUNC (2 + 7) = 1) := by and_intros <;> decide +kernel

/-- A receive FIFO empty, with one entry of room and full; RAW levels; frames at the length limits; a driven pin. -/
theorem test_meets_PortTraffic_limits :
    (∀ m ∈ [1, 2], ∀ n ∈ [0, 511, 512], let s := { portOn up 223 m 2 with ports := [(223, { rx := List.replicate n 0 })] };
      s.portHears 223 = true ∧ s.rxTaken 223 = false ∧ s.isRaw 223 = false ∧ s.isRs485 223 = (m == 2) ∧ (s.port 223).rxLate = [] ∧
      (s.port 223).rx.length = n) ∧
    (let s := portOn up 223 2 2; s.flag Fld.PT_CTL_SWAP 223 = false ∧ s.fld Fld.PT_SER_CODING 223 = 0 ∧ s.fld Fld.PT_SER_DBITS 223 = 1 ∧
      s.fld Fld.PT_SER_PARITY 223 = 0 ∧ s.fld Fld.PT_SER_STOP 223 = 0 ∧ ∀ d ∈ [0, 255], s.onlyInverted 223 (~~~ (BitVec.ofNat 13 (512 + 2 * d))) = true) ∧
    (let s := put (portOn up 223 2 2) [(Fld.PT_SER_CODING, 223, 2)];
      s.portHears 223 = true ∧ s.rxTaken 223 = false ∧ s.isRaw 223 = true ∧ ([0, 1] : List LineChar).getLast? = some 1) ∧
    (let s := { portOn up 223 1 2 with ports := [(223, { dmaRx := true })] }; s.rxTaken 223 = true ∧ s.portHears 223 = true) ∧
    (∀ e ∈ [(2042, none), (2043, none), (2036, some (0, 0)), (2037, some (0, 0))], let f : TxFrame := { start := some 7, tag := e.2 };
      let s := { portOn up 223 1 2 with ports := [(223, { frame := some f, tx := List.replicate (e.1 + 1) 0 ++ [0x10000] })] };
      (s.port 223).frame = some f ∧ s.portClosed 223 = true ∧ f.start.isSome = true ∧ s.isRs485 223 = false ∧
      txHeld (s.port 223).tx = (e.1 + 2, true) ∧ (2048 < f.sent + (e.1 + 2) + rTagBytes f.tag + 4 ↔ e.1 ∈ [2043, 2037])) ∧
    (∀ b : Bool, let s := { put up [(Fld.BT_LOWN_FUNC, 9, 1)] with pwr := { up.pwr with past380 := b } };
      s.fld Fld.BT_LOWN_FUNC (2 + 7) = 1 ∧ s.pwr.past380 = b ∧ s.tap.extest = false ∧ (s.fld Fld.PT_GPIO_OE 0).testBit 7 = false) := by
  and_intros <;> decide +kernel

/-- The last queue disabled and enabled, in both directions, empty, full and half full; the flow table and a channel. -/
theorem test_meets_QueueRings :
    up.islOpen Reg.QE_CFG.island = true ∧ up.srcLive (.core 0) = true ∧ up.srcLive (.thread 255) = true ∧ up.srcSys (.core 0) = true ∧
    up.srcSys (.thread 255) = false ∧ up.flag Fld.QE_CFG_EN 8191 = false ∧ (up.csrGet .QE_DMA_CTL 255).getLsbD 0 = false ∧
    (up.csrGet .QE_DMA_CTL 255).getLsbD 1 = false ∧
    (∀ e ∈ [(0, 8), (granaryBase, 0)], let b := e.1; let z := b + 32 * 2 ^ (4 + min 8 e.2) - 1;
      (isHbm b = true ∧ isHbm z = true) ∨ (isGranary b = true ∧ isGranary z = true ∧ granBank b = granBank z)) ∧
    (isHbm 0xE000000000 = false ∧ isGranary 0xE000000000 = false ∧ isSpinnerMem 0xE000000000 = false) ∧
    (granBank (granaryBase + 0x3FFE0) ≠ granBank (granaryBase + 0x3FFE0 + 511) ∧ isGranary (granaryBase + 0x3FFE0) = true) ∧
    (∀ dir < 2, ∀ tl ∈ [0, 8, 16], let s := put up [(Fld.QE_CFG_EN, 8191, 1), (Fld.QE_CFG_DIR, 8191, dir),
        (Fld.QE_HOST_OWNER, 8191, 0), (Fld.QE_PTR_TAIL, 8191, tl), (Fld.QE_HOST_THRESH, 8191, 8)];
      s.flag Fld.QE_CFG_EN 8191 = true ∧ s.flag Fld.QE_CFG_DIR 8191 = (dir == 1) ∧
      s.ownerMember (s.fld Fld.QE_HOST_OWNER 8191) (.core 0) = true ∧ s.ownerMember (s.fld Fld.QE_HOST_OWNER 8191) (.core 7) = false ∧
      s.fld Fld.QE_PTR_TAIL 8191 = tl ∧ s.fld Fld.QE_PTR_HEAD 8191 = 0 ∧ s.fld Fld.QE_CFG_SIZE 8191 = 0 ∧
      s.fld Fld.QE_HOST_THRESH 8191 = 8) ∧
    (let s := put up [(Fld.QE_CFG_EN, 8191, 1), (Fld.QE_DMA_CTL_TXEN, 255, 1), (Fld.QE_DMA_CTL_TXQ, 255, 31)];
      (s.csrGet .QE_DMA_CTL 255).getLsbD 1 = true ∧ 32 * (8191 / 32) + bitsOf (s.csrGet .QE_DMA_CTL 255) 28 24 = 8191) ∧
    (let s := { up with flow := [(255 * 2 ^ 32 + 5, 31 * 2 ^ 16 + 9)] }; s.fmFind 255 5 = some (31, 9) ∧ s.fmFind 255 6 = none ∧
      s.flow.length < 8192 ∧ s.flag Fld.PT_CTL_SEC 255 = false) ∧
    (put up [(Fld.PT_CTL_SEC, 255, 1)]).flag Fld.PT_CTL_SEC 255 = true ∧
    (∀ a b : Bool, let s := { put up [(Fld.QE_DMA_CTL_STATE, 255, 1)] with ports := [(255, { dmaRx := a, dmaTx := b })] };
      s.rxTaken 255 = a ∧ s.txTaken 255 = b ∧ s.fld Fld.QE_DMA_CTL_STATE 255 = 1) ∧
    (∀ x < 3, (put up [(Fld.QE_DMA_CTL_STATE, 255, x)]).fld Fld.QE_DMA_CTL_STATE 255 = x) ∧
    (let s := { up with flow := List.replicate 8192 (0, 0) }; 8192 ≤ s.flow.length ∧ s.fmFind 255 5 = none) ∧
    FMap.get ({ up with coal := [(8191, true)] } : State).coal false 8191 = true := by and_intros <;> decide +kernel

theorem test_meets_DescriptorFrames :
    (∀ len ∈ [0, 64], ∀ e < 2, let s := put (dmaOn len 0x300) [(Fld.QE_CFG_EN, 0, e)];
      s.memOk ∧ s.portHears 0 = true ∧ s.flag Fld.QE_DMA_CTL_RXEN 0 = true ∧ s.flag Fld.QE_DMA_CTL_TXEN 0 = true ∧
      s.fld Fld.QE_DMA_CTL_STATE 0 = 1 ∧ s.qEntries 1 ≠ 0 ∧
      s.fld Fld.QE_CFG_BASE 1 * 32 + 32 * (s.fld Fld.QE_PTR_HEAD 1 % 2 ^ (4 + s.fld Fld.QE_CFG_SIZE 1)) = granaryBase ∧
      s.peekLE granaryBase 6 = granaryBase + 0x2000 ∧ s.peekLE (granaryBase + 6) 2 = len ∧ s.qEn 0 = (e == 1) ∧ s.qFree 0 ≠ 0 ∧
      isGranary (granaryBase + 0x2000) = true ∧ isGranary (granaryBase + 0x2000 + 63) = true ∧ isGranary (granaryBase + 0x800) = true ∧
      (s.gateOf 0).testBit 0 = true ∧ s.gateFits 0 len = true ∧ (s.port 0).testing = false ∧ (s.port 0).dmaRx = false ∧
      (s.port 0).frame = none ∧ s.isRaw 0 = false ∧ s.portClosed 0 = true ∧ s.fld Fld.PT_STAT_LINK 0 = 2) ∧
    (∀ b : Bool, let s := put { dmaOn 64 0x300 with ports := [(0, { dmaRx := b, inverted := 3 })] } [(Fld.PT_CTL_MODE, 0, 2),
        (Fld.PT_SER_DBITS, 0, 1), (Fld.QE_DMA_CTL_RXEN, 0, bit (!b)), (Fld.QE_PTR_TAIL, 1, 0)];
      s.portHears 0 = true ∧ s.rxTaken 0 = true ∧ s.flag Fld.QE_DMA_CTL_RXEN 0 = !b ∧ s.fld Fld.QE_DMA_CTL_STATE 0 = 1 ∧ s.isRaw 0 = false ∧
      s.isRs485 0 = true ∧ (inverted (s.port 0).inverted (([~~~ 0x200] : List LineChar).map (s.onlyInverted 0))).2 = true ∧
      s.qEntries (32 * 0 + s.fld Fld.QE_DMA_CTL_FREEQ 0) = 0) ∧
    (let s := put (dmaOn 64 0x300) [(Fld.PT_CTL_MODE, 0, 2), (Fld.PT_SER_CODING, 0, 2)];
      s.portHears 0 = true ∧ s.rxTaken 0 = true ∧ s.isRaw 0 = true) ∧
    ((portOn (dmaOn 64 0x300) 0 1 1).fld Fld.PT_STAT_LINK 0 ≠ 2 ∧ (2048 < 2045 + 4 ∧ ¬ 2048 < 2044 + 4) ∧
      (put up [(Fld.PT_CBS_EN, 31, 1)]).flag Fld.PT_CBS_EN (32 * ((224 - 224) / 8) + 31) = true) ∧
    (∀ e ∈ [(0x7F000003E8, true), (0xFE000003E8, true), (0xFF00000078, false), (0xFF00000079, true)],
      let s := { put (portOn up 255 1 2) [(Fld.PT_GCTL_EN, 31, 1)] with ports := [(255, { gclOn := true, gates := [(0, BitVec.ofNat 64 e.1)] })] };
      (s.gateOf 255).testBit 0 = (e.1 / 2 ^ 32 % 2 == 1) ∧ s.gateFits 255 64 = e.2) ∧
    (let s := dmaOn 64 0x300; (∀ k < 32, openB s (.dma 0) false (granaryBase + k) = true) ∧
      (∀ k < 32, openB s (.dma 0) true (granaryBase + 0x800 + k) = true) ∧ (∀ k < 8, openB s (.dma 0) true (granaryBase + 8 + k) = true) ∧
      (∀ k < 64, openB s (.dma 0) true (granaryBase + 0x2000 + k) = true) ∧ (∀ k < 64, openB s (.dma 0) false (granaryBase + 0x2000 + k) = true)) ∧
    (let s := dmaOn 64 0x301; s.islOpen 22 = true ∧ s.granOpen 0 (.dma 0) false = false ∧
      s.fwPermits true 0 granaryBase { src := some (srcId (.dma 0)), sec := s.accSecure (.dma 0) granaryBase } false = true) ∧
    (put (dmaOn 64 0x300) [(Fld.QE_PTR_TAIL, 1, 0)]).qEntries 1 = 0 ∧
    (let s := put (dmaOn 64 0x300) [(Fld.QE_CFG_EN, 0, 1), (Fld.QE_PTR_TAIL, 0, 16)]; s.qEn 0 = true ∧ s.qFree 0 = 0) ∧
    (∀ n < 2, let s := put { hbmUp with mem := BMap.writeLE (BMap.writeLE [] 0 0x1000 6) 6 4 2 } [(Fld.BT_LOWN_FUNC, 1, 1),
        (Fld.PT_SVC_CTL_RXEN, 0, 1), (Fld.PT_SVC_CTL_TXEN, 0, 1), (Fld.PT_SVC_IDX_RXT, 0, n), (Fld.PT_SVC_IDX_TXT, 0, n)];
      s.svcRuns = true ∧ s.flag Fld.PT_SVC_CTL_RXEN 0 = true ∧ s.flag Fld.PT_SVC_CTL_TXEN 0 = true ∧ s.fld Fld.PT_SVC_IDX_RXH 0 = 0 ∧
      s.fld Fld.PT_SVC_IDX_TXH 0 = 0 ∧ s.fld Fld.PT_SVC_IDX_RXT 0 = n ∧ s.fld Fld.PT_SVC_IDX_TXT 0 = n ∧
      s.peekLE 0 6 = 0x1000 ∧ s.peekLE 6 2 = 4 ∧ isHbm 31 = true ∧ openB s .svc false 0 = true ∧ openB s .svc true 0 = true ∧
      (∀ k < 4, openB s .svc false (0x1000 + k) = true) ∧ ∀ k < 4, openB s .svc true (0x1000 + k) = true) := by
  unfold State.memOk; and_intros <;> decide +kernel

/-- A thread in each state, its control allowed and not; its FIFOs, queue and flow entries; a core in H. -/
theorem test_meets_SpinnerThreads :
    up.islOpen Reg.SP_THR.island = true ∧ up.srcLive (.thread 248) = true ∧ up.srcLive (.thread 0) = true ∧ up.srcLive (.core 0) = true ∧
    up.srcSys (.core 0) = true ∧ up.engineSecure 31 = false ∧ up.islOpen 21 = true ∧
    (∀ r ∈ [ThreadRun.stopped, .run, .wait, .fault, .halted], (({ up with threads := [(255, { run := r })] } : State).thread 255).run = r) ∧
    (∀ b : Bool, let s := { up with threads := [(255, { run := .wait, soft := b, waitMask := 0x40, waitTmo := true })] };
      (s.thread 255).stepping = false ∧ (s.conditions 255 &&& (s.thread 255).waitMask ≠ 0 ↔ b = true) ∧ (s.thread 255).waitTmo = true) ∧
    (let s := { cpu 2 with ports := [(255, { rx := [5], rawRx := some true })], flow := [(255 * 2 ^ 32 + 0xFFF8, 9)] };
      ready s (.thread 255) 4 [9, 31] (fun _ => true) = true ∧ s.conditions 255 &&& 2 ≠ 0 ∧ s.conditions 255 &&& 0x40 = 0 ∧
      s.rxTaken 255 = false ∧ s.txTaken 255 = false ∧ (s.port 255).rx = 5 :: [] ∧
      (s.port 255).rawRx = some true ∧ (s.port 255).discard = false ∧ (s.port 255).tx.length < 512 ∧ s.portRuns 255 = false ∧
      s.qEn (32 * 255 + 31) = false ∧ s.fmFind 255 0xFFF8 = some (0, 9) ∧ s.fmFind 255 0 = none) ∧
    (∀ n ∈ [0, 512], let s := { portOn (cpu 2) 255 1 2 with
        ports := [(255, { tx := List.replicate n 0, discard := n == 0, frame := some { start := some 0 } })] };
      ready s (.thread 255) 4 [9, 31] (fun _ => true) = true ∧ s.txTaken 255 = false ∧ (s.port 255).tx.length = n ∧
      (s.port 255).discard = (n == 0) ∧ (s.port 255).frame.all (fun z => z.start.isSome) = true ∧ s.portRuns 255 = true) ∧
    (let s := { portOn (cpu 2) 255 1 2 with threads := [(255, { run := .run, pc := 0xF1003E0000, rf := [(({} : Thread).regAt 1, 0x3F)] })] };
      ready s (.thread 255) 4 [9, 1] (fun u => (u.regVal (.thread 255) 1).getLsbD 5) = true ∧ s.gateTime 255 = 0 ∧ s.portClosed 255 = true ∧
      (s.port 255).frame = none ∧ (s.port 255).testing = false) ∧
    (∀ dir < 2, ∀ tl ∈ [1, 16], let s := put (cpu 2) [(Fld.QE_CFG_EN, 8191, 1), (Fld.QE_CFG_DIR, 8191, dir), (Fld.QE_PTR_TAIL, 8191, tl)];
      s.qEntries 8191 = tl ∧ s.qEn 8191 = true ∧ s.qDma 8191 = false ∧ s.fld Fld.QE_CFG_SIZE 8191 = 0 ∧
      ready s (.thread 255) 4 [9, 31] (fun u => u.regVal (.thread 255) 31 == 0) = true) ∧
    ready (cpu 2) (.thread 255) 4 [9, 31] (fun u => (u.threadRest 255).conditions 255 &&& 2 == 2 && (u.threadRest 255).conditions 255 &&& 4 == 0) = true ∧
    raises (cpu 2) 0 4 (pure ()) true (fun u => (u.core 0).arch.tw true == 0) = true ∧
    (let s := { cpu 2 with threads := [(223, { run := .run, pc := 0xF100360000 })] }; ready s (.thread 223) 4 [9, 31] (fun _ => true) = true) ∧
    (∀ dir < 2, let s := put (cpu 2) [(Fld.QE_CFG_EN, 8191, 1), (Fld.QE_CFG_DIR, 8191, dir)];
      s.qEn 8191 = true ∧ s.qDma 8191 = false ∧ s.flag Fld.QE_CFG_DIR 8191 = (dir == 1) ∧ s.qEntries 8191 = 0 ∧
      ready s (.thread 255) 4 [9, 31] (fun _ => true) = true) ∧
    (let s := put (portOn (cpu 2) 255 1 2) [(Fld.QE_CFG_EN, 8191, 1), (Fld.QE_DMA_CTL_TXEN, 255, 1), (Fld.QE_DMA_CTL_RXEN, 255, 1),
        (Fld.QE_DMA_CTL_TXQ, 255, 31)];
      s.portRuns 255 = true ∧ s.portClosed 255 = true ∧ s.txTaken 255 = true ∧ s.rxTaken 255 = true ∧
      s.qEn 8191 = true ∧ s.qDma 8191 = true ∧ ready s (.thread 255) 4 [9, 31] (fun _ => true) = true) ∧
    (let s := portOn (cpu 2) 255 1 2; s.portClosed 255 = true ∧ (s.port 255).frame = none ∧ s.txTaken 255 = false) ∧
    (Reg.decode (0xFE07001000 + 255 / 8 * 0x10000 + 255 % 8 * 0x200 + 8 * 0)).any (fun y => y.1.isPortSet) = true ∧
    ((cpu 2).core 0).arch.mode = 2 ∧ ((cpu 2).core 0).arch.tw true = 0 ∧ ready (cpu 2) (.core 0) 4 [] (fun _ => true) = true := by
  and_intros <;> decide +kernel

/-- A free mailbox, the Reeve's own, a slot of the caller in each state; a firewall idle, busy and locked. -/
theorem test_meets_CocoonMailboxesAndFirewalls :
    up.srcLive .reeve = true ∧ up.srcLive .cocoon = true ∧ up.srcLive (.core 0) = true ∧ up.islOpen 23 = true ∧ up.clockRuns = true ∧
    Fld.CK_OWN_FORCE.of 1 = 0 ∧ Fld.CK_OWN_CLAIM.of 1 = 1 ∧ up.fld Fld.CK_OWN_CLAIM 15 = 0 ∧ up.ownedBy .CK_OWN 14 (.core 0) = false ∧
    (∀ x < 5, let s := put up [(Fld.CK_OWN_CLAIM, 14, 1), (Fld.CK_STAT_STATE, 14, x)]; s.ckState 14 = x ∧
      s.ownedBy .CK_OWN 14 (.core 0) = true ∧ s.fld Fld.CK_OWN_OWN_SRC 14 ≠ srcId .reeve) ∧
    (∀ g l : Bool, up.islOpen (fwReg g l).island = true ∧ Reg.decode (fwReg g l).base = some (fwReg g l, 0)) ∧
    (∀ b < 2, ∀ k < 2, let s := put up [(Fld.CK_FWCTL_BUSY, 63, b), (Fld.CK_FWCTL_LOCK, 63, k)];
      s.flag Fld.CK_FWCTL_BUSY 63 = (b == 1) ∧ s.flag Fld.CK_FWCTL_LOCK 63 = (k == 1)) ∧ up.flag Fld.CK_GFWCTL_LOCK 0 = false ∧
    (∀ l : Bool, FMap.get ({ up with fwPend := [(63, some ⟨1023, l, 5, false⟩)] } : State).fwPend none 63 = some ⟨1023, l, 5, false⟩) := by
  and_intros <;> decide +kernel

/-- Each call with words at the bounds of its checks, from the callers it tells apart; key slots free, used and refused. -/
theorem test_meets_CocoonServices :
    (∀ c ∈ List.range 13, c ≠ 0 → ∀ h : Bool, let s := ckCall hbmUp c 0 h [56, 0, 16, 0, 0, 0];
      s.ckCalled 2 c ∧ (s.ckSlot 2).hmode = h ∧ (s.ckSlot 2).src = 0) ∧
    (∀ w ∈ [0, 1, 56, 57], (ckCall hbmUp 2 0 true [BitVec.ofNat 64 w]).ckWord 2 0 = w) ∧
    (let s := ckCall hbmUp 3 0 true [1, 0, 16]; s.ckCalled 2 3 ∧ s.ckWord 2 0 ≤ 1 ∧ s.ckWord 2 2 ≤ 2 ^ 24 ∧ s.ckWord 2 1 < 0xFE0A008000 ∧
      mayUse s false 0 16 = true) ∧
    (let b : Word := BitVec.ofNat 64 granaryBase;
      let s := put (ckCall up 4 0 true [0, 0xFFFF, b + 64, b, 8, b + 192]) [(Fld.GR_BANK_STATE, 0, 1), (Fld.GR_BANK_OWNER, 0, 0x201)];
      s.ckCalled 2 4 ∧ s.ckWord 2 1 = 0xFFFF ∧ s.ckWord 2 2 = granaryBase + 64 ∧ mayUse s false (granaryBase + 64) 65 = true ∧
      mayUse s false granaryBase 8 = true ∧ mayUse s false (granaryBase + 192) 64 = true) := by
  unfold State.ckCalled; and_intros <;> decide +kernel

theorem test_meets_CocoonServices_keys :
    (∀ v < 2, ∀ kd < 3, ∀ c ∈ [5, 6, 7, 9], let s := { ckCall hbmUp c 0 true [if c = 5 then BitVec.ofNat 64 (kd - 1) else 63, 63, 0x1000, 4, 0, 4] with
        keys := [(63, { used := true, kind := kd, value := v, mask := 0xFFF, key := 5 })] };
      s.ckCalled 2 c ∧ (FMap.get s.keys {} 63).used = true ∧ (FMap.get s.keys {} 63).kind = kd ∧
      ((s.ckSlot 2).src &&& (FMap.get s.keys {} 63).mask = (FMap.get s.keys {} 63).value &&& (FMap.get s.keys {} 63).mask ↔ v = 0) ∧
      (FMap.get s.keys {} 62).used = false ∧ s.memOk) ∧
    (let s := ckCall hbmUp 6 0 true [63, 0, 0x1000, 4, 0, 4]; mayUse s false 0 4 = true ∧ mayUse s true 0x1000 4 = true) ∧
    (let s := { ckCall hbmUp 8 0 true [0] with keys := (List.range 64).map (fun k => (k, { used := true })) };
      s.ckCalled 2 8 ∧ ∀ k < 64, (FMap.get s.keys {} k).used = true) ∧
    ((ckCall hbmUp 8 0 true [0]).ckWord 2 0 = 0 ∧ (FMap.get (ckCall hbmUp 8 0 true [0]).keys {} 0).used = false) ∧
    (let s := ckCall hbmUp 10 0x202 false [0]; s.ckCalled 2 10 ∧ (s.ckSlot 2).src = 0x202) ∧
    (∀ c ∈ [0, 13, 255], let s := ckCall hbmUp c 0 true []; s.ckState 2 = 2 ∧ (s.ckSlot 2).taken = true ∧ s.cocoon.run = .running ∧
      ((s.ckSlot 2).code = 0 ∨ 0x0C < (s.ckSlot 2).code)) ∧
    (∀ l : Bool, let s := { ckCall hbmUp 12 0x200 false [2, 0, 16] with reeve := { hbmUp.reeve with plock := l } }; s.reeve.plock = l ∧ s.ckWord 2 0 = 2) ∧
    (let s := ckCall hbmUp 12 0x200 false [2, 0, 16]; s.ckCalled 2 12 ∧ (s.ckSlot 2).src = 0x200 ∧ s.ckWord 2 0 = 2 ∧ mayUse s false 0 16 = true ∧
      imgKeysel (s.ckBytes 0 16) ≠ 1) := by
  unfold State.ckCalled State.memOk; and_intros <;> decide +kernel

/-- A blown fuse, the debug lock of CocoonServices among them. -/
theorem test_meets_FusesNeverClear :
    let s : State := { up with blown := 1 <<< 2885 }
    s.fuses.getLsbD 2885 = true ∧ ∃ t, step s = .next t := by
  refine ⟨?_, ?_⟩
  · simp [State.fuses]
  · exact ⟨_, rfl⟩

theorem test_meets_MemoryFormKept : State.reset.memOk ∧ ∃ t, step State.reset = .next t :=
  ⟨by unfold State.memOk; decide, _, rfl⟩

theorem test_meets_QueueUntouched :
    ∃ t, exec (.nop (.core 0)) { cpu 2 with pending := [.powerCapLift] } = .next t ∧ t.pending = [.powerCapLift] :=
  ⟨_, rfl, by decide +kernel⟩

/-! ## Well-formedness: for each check a term that it takes and one that it refuses -/

theorem test_wf_csr_address :
    (Instr.registerWrite .reeve 0xFE00000000 0).wf = true ∧ (Instr.registerWrite .reeve 0xFE00000004 0).wf = false ∧
    (Instr.xgateWrite .reeve 0xFF00000000 0).wf = false ∧ (Instr.trainingRegisterWrite .reeve 0xFDFFFFFFF8 0).wf = false ∧
    (Instr.firewallRegionWrite .cocoon 0xFEFFFFFFF8 0).wf = true ∧ (Instr.firewallRegionWrite .cocoon 1 0).wf = false := by decide

theorem test_wf_line_address :
    (Instr.hbmRequest (.core 0) 64 false 0 []).wf = true ∧ (Instr.hbmRequest (.core 0) 63 false 0 []).wf = false ∧
    (Instr.lineRequest (.core 0) 65 .load 0).wf = false ∧ (Instr.llcOffer 0 32).wf = false := by decide

theorem test_wf_granary_access :
    (Instr.granaryAccess (.core 0) 0xF000000020 32 false 0 none 0).wf = true ∧
    (Instr.granaryAccess (.core 0) 0xF000000008 32 false 0 none 0).wf = false ∧
    (Instr.granaryAccess (.core 0) 0xF000000000 16 false 0 none 0).wf = false ∧
    (Instr.granaryAccess (.core 0) 0xF001000000 8 false 0 none 0).wf = false ∧
    (Instr.granaryAccess (.core 0) 0xEFFFFFFFF8 8 false 0 none 0).wf = false := by decide

theorem test_wf_lists_and_places :
    (Instr.rateWindowEnd (List.replicate 25 0) (List.replicate 25 0) 0 0 0 (List.replicate 25 0)).wf = true ∧
    (Instr.rateWindowEnd (List.replicate 24 0) (List.replicate 25 0) 0 0 0 (List.replicate 25 0)).wf = false ∧
    (Instr.lockWindowEnd (List.replicate 25 0) []).wf = false ∧ (Instr.storePerform 0 55).wf = true ∧
    (Instr.storePerform 0 56).wf = false ∧ (Instr.foldDrain 0 7).wf = true ∧ (Instr.foldDrain 0 8).wf = false ∧
    (Instr.prefetchRequest 0 true 15).wf = true ∧ (Instr.prefetchRequest 0 true 16).wf = false ∧
    (Instr.prefetchRequest 0 false 8).wf = false ∧ (Instr.wait (.thread 0) 1 2 127).wf = true ∧
    (Instr.wait (.thread 0) 1 2 128).wf = false := by decide

/-- The 16-bit forms (R147 to R152), their encodings given in R147's worked example among them. -/
theorem test_wf_short_forms :
    (Instr.add (.core 0) true false 11 11 10).wf = true ∧ (Instr.add (.core 0) true true 11 11 10).wf = false ∧
    (Instr.add (.core 0) true false 11 10 10).wf = false ∧ (Instr.add (.core 0) true false 7 7 10).wf = false ∧
    (Instr.addi (.core 0) true 9 9 0xFFF).wf = true ∧ (Instr.addi (.core 0) true 9 9 0x040).wf = false ∧
    (Instr.movi (.core 0) true 9 8).wf = true ∧ (Instr.movi (.core 0) true 24 8).wf = false ∧
    (Instr.mov (.core 0) 8 23).wf = true ∧ (Instr.mov (.core 0) 8 24).wf = false ∧ (Instr.movOut (.core 0) 8 9).wf = false ∧
    (Instr.movIn (.core 0) 9 31).wf = true ∧ (Instr.ldpc (.core 0) true 9 32).wf = false ∧
    (Instr.bcc (.core 0) true 1 0x3FFFE).wf = true ∧ (Instr.bcc (.core 0) true 1 0x00100).wf = false ∧
    (Instr.jr (.core 0) true 31).wf = false ∧ (Instr.jr (.core 0) false 31).wf = true := by decide

theorem test_wf_memory_forms :
    (Instr.ldd (.core 0) 10 (.postInc true 16)).wf = true ∧ (Instr.ldd (.core 0) 10 (.postInc true 3)).wf = false ∧
    (Instr.std (.core 0) 11 (.disp true 30 16)).wf = true ∧ (Instr.std (.core 0) 11 (.disp true 30 12)).wf = false ∧
    (Instr.stw (.core 0) 11 (.disp true 30 16)).wf = false ∧ (Instr.ldbu (.core 0) 11 (.postInc true 16)).wf = false ∧
    (Instr.vld (.core 0) 1 (.disp false 1 0)).wf = false ∧ (Instr.vld (.core 0) 1 (.index 1 2 0)).wf = true ∧
    (Instr.vst (.core 0) 1 (.preDec true 1)).wf = false := by decide

theorem test_wf_vector_types :
    (Instr.fdiv (.core 0) 3 0 0 0).wf = true ∧ (Instr.fdiv (.core 0) 4 0 0 0).wf = false ∧ (Instr.fcmp (.core 0) 1 0 0).wf = true ∧
    (Instr.fcmp (.core 0) 2 0 0).wf = false ∧ (Instr.vshl (.core 0) 4 0 0 0).wf = true ∧ (Instr.vshl (.core 0) 3 0 0 0).wf = false := by
  decide

/-! ## Worked examples of the spec -/

/-- A waiting command runs, and an empty queue idles (assumption log 2). -/
theorem test_step_idles : step State.reset = .next State.reset := rfl

theorem test_no_word_spells_a_command : decodeTableWord 8 0 = none ∧ State.reset.withFetchWord 8 0 = State.reset :=
  ⟨rfl, rfl⟩

/-- Addresses that the chapters' worked examples give. -/
theorem test_addresses :
    Reg.decode 0xFE00001300 = some (.PW_VSET, 3) ∧ Reg.decode 0xFE04013908 = some (.IC_SRC, 1313) ∧
    Reg.decode 0xFE04031140 = some (.IC_SRC, 8232) ∧ Reg.decode 0xFE04042208 = some (.IC_CLAIM, 72) ∧
    Reg.decode 0xFE06001140 = some (.GR_BANK, 20) ∧ Reg.decode 0xFE06001148 = some (.GR_CMD, 20) ∧
    Reg.decode 0xFE08023450 = some (.QE_PTR, 1314) ∧ Reg.decode 0xFE07051208 = some (.PT_STAT, 41) ∧
    Reg.decode 0xFE07051218 = some (.PT_DIAG, 41) := by decide +kernel

/-- The worked unlock of chapter 00: each key advances the gate, an OPEN gate lets VCODE change, and a LOCKED one denies. -/
theorem test_unlock :
    (after (.xgateWrite (.core 0) 0xFE00000FF8 0x5170) up).fld Fld.PW_XGATE_STATE 0 = 1 ∧
    (after (.xgateWrite (.core 0) 0xFE00000FF8 0xE7A1) (put up [(Fld.PW_XGATE_STATE, 0, 1)])).fld Fld.PW_XGATE_STATE 0 = 2 ∧
    (after (.vsetWrite (.core 0) 3 0xB4) (put up [(Fld.PW_XGATE_STATE, 0, 2)])).fld Fld.PW_VSET_VCODE 3 = 0xB4 ∧
    (let t := after (.vsetWrite (.core 0) 3 0xB4) (put up [(Fld.PW_XGATE_STATE, 0, 1)]);
      t.fld Fld.PW_VSET_VCODE 3 = 170 ∧ t.fld Fld.PW_XGATE_STATE 0 = 0 ∧ t.flag Fld.PW_XGATE_DENIED 0 = true) := by
  decide +kernel

/-- Chapter 05's five words that read PW_RATE_S, the no-op of R116, and a word of each further format. -/
theorem test_tally_words :
    decodeTally .reeve 0x3002 = some (.tallyPrefix .reeve 2) ∧ decodeTally .reeve 0x3000 = some (.tallyPrefix .reeve 0) ∧
    decodeTally .reeve 0x3094 = some (.tallyPrefix .reeve 0x94) ∧ decodeTally .reeve 0x1101 = some (.tallyMovi .reeve 1 0x10) ∧
    decodeTally .reeve 0x2221 = some (.ldp .reeve 2 1) ∧ decodeTally .cocoon 0x0000 = some (.tallyMov .cocoon 0 0) ∧
    decodeTally .cocoon 0x257F = some (.tallyBranch .cocoon 5 0x3F) ∧ decodeTally .cocoon 0x2A01 = some (.tallyJump .cocoon true 1) ∧
    decodeTally .cocoon 0x2C45 = some (.jlr .cocoon 5) ∧ decodeTally .cocoon 0x2DC0 = none := by decide

/-- Chapter 06's worked loop, its cleared memory, and a word of each 32-bit format laid out by R153 to R159 and R178. -/
theorem test_zis_words (a : Agent) :
    (decodeZis a 0x2088 0 0 = .movi a true 9 8 ∧ decodeZis a 0x2180 0 0 = .movi a true 11 0 ∧
      decodeZis a 0xA0A0 0 0 = .ldd a 10 (.postInc true 16) ∧ decodeZis a 0x0232 0 0 = .add a true false 11 11 10 ∧
      decodeZis a 0x28FF 0 0 = .addi a true 9 9 0xFFF ∧ decodeZis a 0xF41F 0xFFFE 0xA0A0 = .bccDelayed a 1 true 0x3FFFE true ∧
      decodeZis a 0x7302 0 0 = .std a 11 (.disp true 30 16) ∧ decodeZis a 0 0 0 = .illegalInstruction (.zis a) true) ∧
    (decodeZis a 0xE081 0x1328 0 = .csel a 12 4 1 2 ∧ decodeZis a 0xE463 0x503F 0 = .shli a 3 3 63 ∧
      decodeZis a 0xE863 0xBEEF 0 = .movp3 a 3 0xBEEF ∧ decodeZis a 0xEC64 0x4FFC 0 = .ldwu a 3 (.disp false 4 0xFFC) ∧
      decodeZis a 0xF022 0x1944 0 = .vst a 1 (.index 2 3 2) ∧ decodeZis a 0xF73E 0 0 = .jr a false 31 ∧
      decodeZis a 0xF680 0 0 = .call a 0x800000 ∧ decodeZis a 0xF822 0x1906 0 = .fma a 1 1 2 3) ∧
    (decodeZis a 0xFC20 0x0040 0 = .mfs a 1 0x040 ∧ decodeZis a 0xFC02 0x4112 0 = .tlbiVa a true 2 ∧
      decodeZis a 0xFC02 0x3011 0 = .cleanL2 a 2 ∧ decodeZis a 0xFC22 0x931F 0 = .qadv a 31 1 2 ∧
      decodeZis a 0xF414 0 0 = .illegalInstruction (.zis a) false) := by and_intros <;> rfl

/-- Chapter 04's first correction, and R100's limits. -/
theorem test_addend :
    up.fld Fld.TB_ADDEND_ADDEND 0 = 46116860184 ∧
    (after (.addendWrite .reeve 46116849808) up).fld Fld.TB_ADDEND_ADDEND 0 = 46116849808 ∧
    (after (.addendWrite .reeve 0) up).fld Fld.TB_ADDEND_ADDEND 0 = 46107636812 ∧
    (after (.addendWrite .reeve 46126083557) up).fld Fld.TB_ADDEND_ADDEND 0 = 46126083556 := by decide +kernel

/-- Chapter 05's late completion: the expiry at 100 µs, then a completion that is dropped and counted. -/
theorem test_late_completion :
    (let t := after (.serviceTimeout 3) (call up 0x03 true 17 0); t.callState 3 = 4 ∧ t.fld Fld.RV_STAT_STATUS 3 = 6) ∧
    (let t := after (.mailboxComplete 3) { put up [(Fld.RV_STAT_STATE, 3, 4)] with slots := [(3, { taken := true, code := 3 })] };
      t.callState 3 = 4 ∧ t.fld Fld.RV_STAT_LATE_CNT 3 = 1) := by decide +kernel

/-- Chapter 06's loop: `addi x1, −1` from 1 sets Z, and C as nothing is borrowed; `add` of the largest and 1 overflows. -/
theorem test_sum_flags :
    (let k : Core := { run := .running, arch := { mode := 2, rf := [(265, 1)] } };
      let t := after (.addi (.core 0) true 1 1 0xFFF) (with0 k); t.regVal (.core 0) 1 = 0 ∧ t.flVal (.core 0) = 0b0110) ∧
    (let k : Core := { run := .running, arch := { mode := 2, rf := [(265, 0x7FFFFFFFFFFFFFFF)] } };
      (after (.addi (.core 0) false 2 1 1) (with0 k)).flVal (.core 0) = 0b1001) := by and_intros <;> decide +kernel

/-- Chapter 07's clamp: 5,000.2 and −12.5 convert to 5,000 with NX and to −12 with NX; the compares' flags; `csel.gt`. -/
theorem test_clamp :
    (let k : Core := { run := .running, arch := { mode := 2, q := [(1, 0x40B3883333333333)] } };
      let t := after (.fcvti (.core 0) 1 1 1) (with0 k); t.regVal (.core 0) 1 = 5000 ∧ (t.core 0).arch.cs 0 1 = 0x100) ∧
    (let k : Core := { run := .running, arch := { mode := 2, q := [(1, 0xC029000000000000)] } };
      (after (.fcvti (.core 0) 1 1 1) (with0 k)).regVal (.core 0) 1 = -12) ∧
    (let k : Core := { run := .running, arch := { mode := 2, fl := 0b0010, rf := [(265, 5000), (266, 4095)] } };
      (after (.cmp (.core 0) false false 1 2) (with0 k)).flVal (.core 0) = 0b0010 ∧
      (after (.csel (.core 0) 12 1 2 1) (with0 k)).regVal (.core 0) 1 = 4095) := by decide +kernel

/-- R181's corner cases. -/
theorem test_divide :
    (let k : Core := { run := .running, arch := { mode := 2, rf := [(265, 0x8000000000000000), (266, -1), (267, 7)] } };
      (after (.div (.core 0) false 4 1 2) (with0 k)).regVal (.core 0) 4 = 0x8000000000000000 ∧
      (after (.rem (.core 0) false 4 1 2) (with0 k)).regVal (.core 0) 4 = 0 ∧
      (after (.divu (.core 0) true 4 3 0) (with0 k)).regVal (.core 0) 4 = -1 ∧
      (after (.remu (.core 0) false 4 3 0) (with0 k)).regVal (.core 0) 4 = 7) := by decide +kernel

/-- Chapter 16's historian line: its slice, its place, and the controller's row and bank under PAGE4K. -/
theorem test_historian_line :
    homeSlice (0x03100080 / 64) = 78 ∧ up.hbmLoc 0x03100080 = 0xC40080 ∧ up.hbmCtl 0x03100080 = 0 ∧
    pcaToSa 0 0xC4080 = 0xC40080 ∧ pcaRow 0xC4080 = 0x31 ∧ pcaBank 0xC4080 = 1 ∧ pcaSid 0xC4080 = 0 := by decide +kernel

/-- Chapter 17's release of bank 20 by core 2 in H mode, channel 41 its owner. -/
theorem test_release_bank :
    let s := { put up [(Fld.GR_BANK_STATE, 20, 1), (Fld.GR_BANK_OWNER, 20, 0x329)] with cores := [(2, { run := .running })] }
    let t := after (.granaryRelease (.core 2) 20 (word [(Fld.GR_CMD_CODE, 0x505), (Fld.GR_CMD_OP, 2)])) s
    t.fld Fld.GR_BANK_STATE 20 = 2 ∧ t.fld Fld.GR_BANK_NEXT 20 = 0x505 ∧ t.fld Fld.GR_BANK_LAST_STATUS 20 = 0 := by decide +kernel

/-- Chapter 18's miswired pair: the trip of port 41 while it sends, the samples, and no closing above 5 V. -/
theorem test_miswired_pair :
    (let s := { portOn up 41 1 2 with ports := [(41, { frame := some { start := some 0 } })] };
      let t := after (.lineOvervoltageTrip 41) s
      t.flag Fld.PT_STAT_FAULT 41 = true ∧ t.flag Fld.PT_STAT_OV_TRIP 41 = true ∧ t.flag Fld.PT_STAT_LINK_CHG 41 = true ∧
      t.flag Fld.PT_STAT_TX_ABORT 41 = true ∧ t.fld Fld.PT_STAT_LINK 41 = 0 ∧ t.portClosed 41 = false) ∧
    (after (.dcSenseSample 41 96 0) (portOn up 41 1 1)).fld Fld.PT_DIAG_VP 41 = 0x60 := by decide +kernel

/-- Chapter 19's flow key of station PM1-IO-07. -/
theorem test_flow_key :
    let t := after (.fmAdd .reeve 0x0000A10701072909) up
    t.fmFind 41 0xA107 = some (1, 0x107) ∧ t.fld Fld.QE_FM_STAT_USED 0 = 1 := by decide +kernel

end Sys2Proof.Tests
end

section
/-!
SUPPORT. The reset state, part by part: its finite maps list nothing, so that every register, core and thread is at its default.
-/

namespace Sys2Proof.Machine

/-- Reset lists no register, so each reads the value it comes up with (R6). -/
@[simp] theorem State.csrGet_reset (r : Reg) (i : Nat) : State.reset.csrGet r i = Reg.reset r i := FMap.get_nil _ _

@[simp] theorem State.core_reset (c : Nat) : State.reset.core c = {} := FMap.get_nil _ _

@[simp] theorem State.thread_reset (t : Nat) : State.reset.thread t = {} := FMap.get_nil _ _

@[simp] theorem State.port_reset (p : Nat) : State.reset.port p = {} := FMap.get_nil _ _

/-- A register file that nothing has written reads 0 everywhere. -/
theorem State.regVal_reset_core (c : CoreId) (r : Reg5) : State.reset.regVal (.core c) r = 0 := by
  unfold State.regVal
  split
  · rfl
  · exact FMap.get_nil _ _

theorem State.memOk_reset : State.reset.memOk := by
  simp [State.memOk, State.reset, BMap.wf, BMap.wfFrom]

theorem State.queueOk_reset : State.reset.queueOk := by
  simp [State.queueOk, State.reset]

/-- A core comes up in a legal mode. -/
theorem Core.modeOk_default : ({} : Core).modeOk := by
  unfold Core.modeOk
  decide

end Sys2Proof.Machine

open Sys2Proof Sys2Proof.Machine

/-- Settles O56: each part of the reset state is its default. -/
theorem resetState : Obligations.ResetState := by
  unfold Obligations.ResetState
  refine ⟨⟨State.csrGet_reset, rfl, rfl, fun c => ⟨?_, State.regVal_reset_core c⟩, fun t => ⟨?_, ?_⟩, State.port_reset,
    rfl, rfl, rfl⟩, State.memOk_reset, State.queueOk_reset, fun c => ?_⟩
  · rw [State.core_reset]
  · rw [State.thread_reset]
  · rw [State.thread_reset]
  · rw [State.core_reset]
    exact Core.modeOk_default
end

section
/-!
SUPPORT. The frame of every access of memory, of the ports' switches and of a halt: the blocks of control registers that lie
before the memory controllers in CSR space (power, time base, mailboxes, groups, interrupts), the queue and the fuses stay,
and memory keeps its canonical form.  One lemma per operation, each the chain of the operations it is made of.
-/

-- One proof at a time: run side by side they ask for more threads than the check has memory for.
set_option Elab.async false

namespace Sys2Proof.Machine

/-- A register of the blocks PW, TB, RV, CG and IC: those before the memory controllers' (R22). -/
def Reg.isCtl (r : Reg) : Bool := decide (r.ctorIdx < Reg.MC_PCSTAT.ctorIdx)

/-- From `s` to `t` no control register has changed, nor the queue, nor a fuse, and memory has kept its canonical form. -/
structure State.ctlKept (s t : State) : Prop where
  regs : ∀ r i, r.isCtl = true → i < 65536 → t.csrGet r i = s.csrGet r i
  pending : t.pending = s.pending
  blown : t.blown = s.blown
  memOk : s.memOk → t.memOk

/-- A register's keys lie below those of every register named after it. -/
theorem regKey_lt_of_ctorIdx_lt {r r' : Reg} {i i' : Nat} (h : r.ctorIdx < r'.ctorIdx) (hi : i < 65536) :
    regKey r i < regKey r' i' := by
  unfold regKey; omega

/-- A write of a register, of whatever number, leaves those named before it alone. -/
theorem State.csrGet_csrSet_before (s : State) {r r' : Reg} {i i' : Nat} (v : Word) (h : r'.ctorIdx < r.ctorIdx)
    (hi' : i' < 65536) : (s.csrSet r i v).csrGet r' i' = s.csrGet r' i' :=
  FMap.get_set_ne _ _ _ (regKey_lt_of_ctorIdx_lt h hi').ne

namespace State.ctlKept

variable {s₀ s t : State} {a b c e f g i k l m n p q u w v pa st sa sid line loc code pca sym home slice kind dist link : Nat}
  {sec inj bad read write whole gran alloc store : Bool}

theorem refl (s : State) : s.ctlKept s := ⟨fun _ _ _ _ => rfl, rfl, rfl, id⟩

/-! ## Updates of the state -/

/-- An update that touches neither the registers nor the queue, the fuses or memory. -/
theorem update (h : s₀.ctlKept s) (hc : t.csr = s.csr := by rfl) (hp : t.pending = s.pending := by rfl)
    (hb : t.blown = s.blown := by rfl) (hm : t.mem = s.mem := by rfl) : s₀.ctlKept t where
  regs r i hr hi := by rw [← h.regs r i hr hi]; simp only [State.csrGet, hc]
  pending := hp.trans h.pending
  blown := hb.trans h.blown
  memOk h0 := by have := h.memOk h0; simpa only [State.memOk, hm] using this

theorem csrSet (h : s₀.ctlKept s) {r : Reg} {x : Word} (hr : r.isCtl = false := by rfl) : s₀.ctlKept (s.csrSet r i x) where
  regs r' i' hr' hi' := by
    simp only [Reg.isCtl, decide_eq_true_eq, decide_eq_false_iff_not, Nat.not_lt] at hr hr'
    rw [s.csrGet_csrSet_before _ (Nat.lt_of_lt_of_le hr' hr) hi', h.regs r' i' (by simpa [Reg.isCtl] using hr') hi']
  pending := h.pending
  blown := h.blown
  memOk := h.memOk

theorem setFld (h : s₀.ctlKept s) {f : Fld} (hr : f.reg.isCtl = false := by rfl) : s₀.ctlKept (s.setFld f i v) :=
  h.csrSet hr
theorem satField (h : s₀.ctlKept s) {f : Fld} (hr : f.reg.isCtl = false := by rfl) : s₀.ctlKept (s.satField f i) :=
  h.setFld hr

/-- Memory takes another canonical form. -/
theorem setMem (h : s₀.ctlKept s) (hm : s.memOk → t.memOk) (hc : t.csr = s.csr := by rfl)
    (hp : t.pending = s.pending := by rfl) (hb : t.blown = s.blown := by rfl) : s₀.ctlKept t where
  regs r i hr hi := by rw [← h.regs r i hr hi]; simp only [State.csrGet, hc]
  pending := hp.trans h.pending
  blown := hb.trans h.blown
  memOk h0 := hm (h.memOk h0)

theorem memWrite (h : s₀.ctlKept s) : s₀.ctlKept (s.memWrite a n v) := h.setMem (s.memWrite_wf a n v)

theorem ite {P : Prop} [Decidable P] (ht : s₀.ctlKept s) (hu : s₀.ctlKept t) : s₀.ctlKept (if P then s else t) := by
  split <;> assumption

theorem foldl {α : Type} {l : List α} {f : State → α → State} (h : s₀.ctlKept s)
    (hf : ∀ s x, s₀.ctlKept s → s₀.ctlKept (f s x)) : s₀.ctlKept (l.foldl f s) :=
  List.foldlRecOn l f h fun s hs x _ => hf s x hs

/-- What holds of a call's second result holds of the state that a pattern names. -/
theorem of_eq {α : Type} {y : α × State} {x : α} (h : s₀.ctlKept y.2) (hy : y = (x, t)) : s₀.ctlKept t := by
  subst hy
  exact h

theorem setHbmSym (h : s₀.ctlKept s) {x : FMap Burst} : s₀.ctlKept { s with hbmSym := x } := h.update
theorem setCore (h : s₀.ctlKept s) {x : Core} : s₀.ctlKept (s.setCore c x) := h.update
theorem modCore (h : s₀.ctlKept s) {f : Core → Core} : s₀.ctlKept (s.modCore c f) := h.update
theorem modMem (h : s₀.ctlKept s) {f : Member → Member} : s₀.ctlKept (s.modMem c f) := h.update
theorem modHctl (h : s₀.ctlKept s) {f : HbmCtl → HbmCtl} : s₀.ctlKept (s.modHctl p f) := h.update
theorem modPort (h : s₀.ctlKept s) {f : Port → Port} : s₀.ctlKept (s.modPort p f) := h.update
theorem modThread (h : s₀.ctlKept s) {f : Thread → Thread} : s₀.ctlKept (s.modThread p f) := h.update
theorem modGroup (h : s₀.ctlKept s) {f : Group → Group} : s₀.ctlKept (s.modGroup g f) := h.update
theorem llcPutAll (h : s₀.ctlKept s) {l : List LlcLine} : s₀.ctlKept (s.llcPutAll n l) := h.update
theorem freeVal (h : s₀.ctlKept s) : s₀.ctlKept s.freeVal.2 := h.update
theorem reeveEvent (h : s₀.ctlKept s) : s₀.ctlKept (s.reeveEvent b) := h.update
theorem mcheck (h : s₀.ctlKept s) {x : McPend} : s₀.ctlKept (s.mcheck c x) := h.update

/-! ## Error records -/

theorem errCheck (h : s₀.ctlKept s) {d : BitVec 16} {x : Word} : s₀.ctlKept (s.errCheck c d x) := by
  unfold State.errCheck
  split
  · exact h.update
  · exact h.mcheck

theorem recSync (h : s₀.ctlKept s) : s₀.ctlKept (s.recSync u) := h.setFld

theorem recFill (h : s₀.ctlKept s) {e : ErrRec} : s₀.ctlKept (s.recFill e n) :=
  h.csrSet.csrSet.csrSet.csrSet.foldl fun _ _ h => h.csrSet

theorem recStore (h : s₀.ctlKept s) {e : ErrRec} : s₀.ctlKept (s.recStore e).1 := by
  unfold State.recStore
  split
  · exact h.satField.csrSet
  · exact h.recFill.recSync
  · exact h.satField

theorem logErr (h : s₀.ctlKept s) {e : ErrRec} : s₀.ctlKept (s.logErr e) :=
  (h.recStore.reeveEvent.foldl fun _ _ h => h.errCheck).ite
    ((h.recStore.reeveEvent.modCore.ite h.recStore.reeveEvent).ite h.recStore)

theorem takeInj (h : s₀.ctlKept s) : s₀.ctlKept (s.takeInj u p read).2 := by
  unfold State.takeInj
  split
  · exact h.setFld
  · exact h

/-! ## Firewalls and unit counters -/

theorem fwRefused (h : s₀.ctlKept s) {q : FwReq} : s₀.ctlKept (s.fwRefused gran f pa q) := by
  unfold State.fwRefused
  cases gran <;> exact h.satField.setFld.setFld

theorem fwRecord (h : s₀.ctlKept s) {q : FwReq} : s₀.ctlKept (s.fwRecord gran f pa q) := h.logErr

theorem fwCheck (h : s₀.ctlKept s) {q : FwReq} : s₀.ctlKept (s.fwCheck gran f pa q write).2 := by
  unfold State.fwCheck
  split
  · exact h
  · exact h.fwRefused.fwRecord.ite h.fwRefused

theorem pmUnitFrom (h : s₀.ctlKept s) {sel cnt : Reg} (hs : sel.isCtl = false) (hc : cnt.isCtl = false) :
    s₀.ctlKept (s.pmUnitFrom sel cnt b code n c k w) := by
  induction w generalizing s c k with
  | zero => exact h
  | succ w ih => exact ih (((h.ite (h.csrSet hc)).csrSet hs).ite (h.ite (h.csrSet hc)))

theorem pmSlice (h : s₀.ctlKept s) : s₀.ctlKept (s.pmSlice u code n sec) := h.ite (h.pmUnitFrom rfl rfl)
theorem pmHbm (h : s₀.ctlKept s) : s₀.ctlKept (s.pmHbm p code n sec) := h.ite (h.pmUnitFrom rfl rfl)
theorem pmSliceFree (h : s₀.ctlKept s) : s₀.ctlKept (s.pmSliceFree u code sec) := h.ite h.freeVal.pmSlice
theorem pmHbmFree (h : s₀.ctlKept s) : s₀.ctlKept (s.pmHbmFree p code sec) := h.ite h.freeVal.pmHbm

theorem pmSliceAs (h : s₀.ctlKept t) : s₀.ctlKept (s.pmSliceAs t slice) := h.foldl fun _ _ h => h.csrSet.csrSet
theorem quietIf (h : s₀.ctlKept t) : s₀.ctlKept (s.quietIf t sec line) := h.pmSliceAs.ite h

/-! ## HBM controllers -/

theorem hbmCountRow (h : s₀.ctlKept s) {x : HbmReq} : s₀.ctlKept (s.hbmCountRow p x) := (h.pmHbm.ite h.pmHbm).pmHbm

theorem hbmIssue (h : s₀.ctlKept s) : s₀.ctlKept (s.hbmIssue p) := by
  unfold State.hbmIssue
  dsimp only
  split
  · exact h.freeVal.hbmCountRow.modHctl
  · exact h.freeVal

theorem hbmIssueN (h : s₀.ctlKept s) : s₀.ctlKept (s.hbmIssueN p n) := by
  induction n generalizing s with
  | zero => exact h
  | succ n ih => exact ih h.hbmIssue

theorem hbmDrain (h : s₀.ctlKept s) : s₀.ctlKept (s.hbmDrain p) := h.hbmIssueN

theorem hbmWake (h : s₀.ctlKept s) : s₀.ctlKept (s.hbmWake p sid) :=
  (h.foldl fun _ _ h => h.pmHbmFree.ite h).setFld.setFld.setFld

theorem hbmAccept (h : s₀.ctlKept s) {x : HbmReq} : s₀.ctlKept (s.hbmAccept p x) :=
  (h.hbmWake.ite h.hbmWake.pmHbmFree.hbmDrain).modHctl.freeVal.hbmIssueN

theorem takeMcInj (h : s₀.ctlKept s) : s₀.ctlKept (s.takeMcInj p read).2 := by
  unfold State.takeMcInj
  split
  · exact h.setFld
  · exact h

theorem lanesOver (h : s₀.ctlKept s) : s₀.ctlKept (s.lanesOver p pca) := h.modHctl

theorem rawStore (h : s₀.ctlKept s) {d : LineData} {x : BitVec 2} : s₀.ctlKept (s.rawStore loc d x) :=
  (State.ctlKept.memWrite (n := 64) h).update

theorem hbmCopyWrite (h : s₀.ctlKept s) {d : LineData} {x : BitVec 2} {q : FwReq} :
    s₀.ctlKept (s.hbmCopyWrite st sa d x q) := by
  unfold State.hbmCopyWrite
  generalize st * 0x600000000 + sa = loc
  exact h.hbmAccept.takeMcInj.modHctl.lanesOver.rawStore.ite h.hbmAccept.takeMcInj.modHctl.lanesOver.rawStore.setHbmSym

theorem hbmCorrected (h : s₀.ctlKept s) : s₀.ctlKept (s.hbmCorrected p pca pa sym sec inj) :=
  h.satField.pmHbm.ite h.satField.pmHbm.modHctl.logErr

theorem hbmUncorrected (h : s₀.ctlKept s) : s₀.ctlKept (s.hbmUncorrected p pca pa sec inj) := h.satField.logErr

theorem hbmBurst (h : s₀.ctlKept s) {e : Burst} : s₀.ctlKept (s.hbmBurst p pca pa e bad sec inj).2 := by
  unfold State.hbmBurst
  split
  · exact h
  · split
    · exact h
    · exact h.hbmCorrected
    · exact h.hbmUncorrected

theorem demandBurst (h : s₀.ctlKept s) {x : Burst} : s₀.ctlKept (s.demandBurst p pa loc x sec inj).2 := by
  unfold State.demandBurst
  dsimp only
  split
  · exact h.hbmBurst.modHctl
  · exact h.hbmBurst

theorem hbmCopyRead (h : s₀.ctlKept s) {l : List Burst} {q : FwReq} : s₀.ctlKept (s.hbmCopyRead pa st sa l q).2 := by
  have hd : ∀ {s : State} {p pa loc : Nat} {x : Burst} {sec inj : Bool}, s₀.ctlKept s →
    s₀.ctlKept (s.demandBurst p pa loc x sec inj).2 := fun h => h.demandBurst
  unfold State.hbmCopyRead
  -- The kernel would unfold two bursts to compare the results; `id` keeps the function a variable for it.
  generalize State.demandBurst = burst at hd ⊢
  revert burst
  refine id fun burst hd => ?_
  dsimp only
  split
  · exact h.hbmWake
  · exact hd (hd h.hbmAccept.takeMcInj)

theorem mirDiff (h : s₀.ctlKept s) {x y : LineData} : s₀.ctlKept (s.mirDiff n pa b x y home sec) := by
  unfold State.mirDiff
  exact h.satField.logErr

theorem mirMend (h : s₀.ctlKept s) {x y : LineAns} {q : FwReq} : s₀.ctlKept (s.mirMend n pa sa x y q).2 := by
  unfold State.mirMend
  dsimp only
  split
  · exact h
  · dsimp only
    exact (h.hbmCopyWrite.satField (f := Fld.MC_MIR_ALT_CNT)).logErr

theorem mirRead (h : s₀.ctlKept s) {l : List Burst} {q : FwReq} : s₀.ctlKept (s.mirRead n pa sa l home q).2 := by
  unfold State.mirRead
  dsimp only
  split
  · exact h.hbmCopyRead
  · split
    · split
      · exact h.hbmCopyRead
      · split
        · exact h.hbmCopyRead.fwCheck
        · split
          · exact h.hbmCopyRead.fwCheck.hbmCopyRead.mirMend
          · exact h.hbmCopyRead.fwCheck.hbmCopyRead.hbmCopyWrite.hbmCopyWrite.mirDiff
    · split
      · exact h.hbmCopyRead
      · exact h.hbmCopyRead.hbmCopyRead.mirMend

theorem hbmRead (h : s₀.ctlKept s) {l : List Burst} {q : FwReq} : s₀.ctlKept (s.hbmRead pa q l home).2 := by
  unfold State.hbmRead
  dsimp only
  split
  · exact h
  · split
    · exact h.fwCheck
    · split
      · exact h.fwCheck.mirRead
      · exact h.fwCheck.hbmCopyRead

theorem ctlWrite (h : s₀.ctlKept s) {d : LineData} {x : BitVec 2} {q : FwReq} :
    s₀.ctlKept (s.ctlWrite st pa sa q d x).2 := by
  unfold State.ctlWrite
  dsimp only
  split
  · exact h
  · split
    · exact h.fwCheck
    · exact h.fwCheck.hbmCopyWrite

theorem hbmWrite (h : s₀.ctlKept s) {d : LineData} {x : BitVec 2} {q : FwReq} : s₀.ctlKept (s.hbmWrite pa q d x).2 := by
  unfold State.hbmWrite
  dsimp only
  split
  · exact h
  · split
    · exact h.ctlWrite
    · exact h.ctlWrite.ctlWrite

theorem writeBack (h : s₀.ctlKept s) {d : LineData} {x : BitVec 2} : s₀.ctlKept (s.writeBack line d x sec) :=
  h.pmSlice.hbmWrite.logErr.ite h.pmSlice.hbmWrite

/-! ## Caches -/

theorem unhold (h : s₀.ctlKept s) {c : Option Nat} : s₀.ctlKept (s.unhold line c) := by
  unfold State.unhold
  split
  · exact h
  · exact h.update

theorem clearResvBut (h : s₀.ctlKept s) {c : Option Nat} : s₀.ctlKept (s.clearResvBut pa c) := h.update
theorem l2Drop (h : s₀.ctlKept s) : s₀.ctlKept (s.l2Drop c line) := h.modCore
theorem l2Set (h : s₀.ctlKept s) {x : L2Line} : s₀.ctlKept (s.l2Set c x) := h.modCore

theorem l2Check (h : s₀.ctlKept s) {x : L2Line} : s₀.ctlKept (s.l2Check c x).2 := by
  unfold State.l2Check
  dsimp only
  split
  · exact h.takeInj
  · split
    · exact h.takeInj.logErr.l2Drop
    · exact h.takeInj.logErr.l2Set
    · exact h.takeInj.logErr.l2Set

theorem l2Take (h : s₀.ctlKept s) : s₀.ctlKept (s.l2Take c line).2 := by
  unfold State.l2Take
  split
  · exact h.l2Check
  · exact h

theorem llcCheck (h : s₀.ctlKept s) {x : LlcLine} : s₀.ctlKept (s.llcCheck x).2 := by
  unfold State.llcCheck
  dsimp only
  split
  · exact h.takeInj
  · split <;> exact h.takeInj.logErr.llcPutAll

theorem llcFlush (h : s₀.ctlKept s) {x : LlcLine} : s₀.ctlKept (s.llcFlush x).2 := by
  unfold State.llcFlush
  dsimp only
  split
  · exact h.llcCheck.writeBack.ite h.llcCheck
  · exact h.llcCheck

theorem llcPut (h : s₀.ctlKept s) {x : LlcLine} : s₀.ctlKept (s.llcPut x) := by
  unfold State.llcPut
  dsimp only
  split
  · exact h.llcPutAll
  · split
    · exact h.llcFlush.llcPutAll
    · exact h.llcPutAll

theorem llcReuse (h : s₀.ctlKept s) : s₀.ctlKept (s.llcReuse line) := h.llcPutAll.ite h

theorem toHome (h : s₀.ctlKept s) {d : LineData} {x : BitVec 2} : s₀.ctlKept (s.toHome line d x sec) := by
  unfold State.toHome
  dsimp only
  split
  · exact h.llcPut
  · exact h.writeBack.llcPut
  · exact h.writeBack

theorem llcOffered (h : s₀.ctlKept s) {x : L2Line} : s₀.ctlKept (s.llcOffered x) :=
  h.pmSlice.toHome.ite (h.pmSlice.ite (h.pmSlice.ite h.pmSlice.llcPut))

theorem l2Offer (h : s₀.ctlKept s) : s₀.ctlKept (s.l2Offer c line) := by
  unfold State.l2Offer
  dsimp only
  split
  · exact h.l2Take.l2Drop.llcOffered.ite h.l2Take.l2Drop
  · exact h.l2Take.l2Drop

theorem recallBut (h : s₀.ctlKept s) {c : Option Nat} : s₀.ctlKept (s.recallBut line c sec) := by
  refine (h.ite h.pmSlice).foldl fun s x h => ?_
  dsimp only
  split
  · exact h.l2Take.l2Drop.toHome.ite h.l2Take.l2Drop
  · exact h.l2Take.l2Drop

theorem shareBut (h : s₀.ctlKept s) : s₀.ctlKept (s.shareBut line c) := by
  refine h.foldl fun s x h => ?_
  dsimp only
  split
  · exact (h.l2Take.toHome.ite h.l2Take).l2Set
  · exact h.l2Take

theorem secureHit (h : s₀.ctlKept s) {q : FwReq} : s₀.ctlKept (s.secureHit line q) := by
  unfold State.secureHit
  exact h.fwRefused.logErr

theorem homeBelow (h : s₀.ctlKept s) {l : List Burst} {q : FwReq} : s₀.ctlKept (s.homeBelow line q l).2 := by
  unfold State.homeBelow
  dsimp only
  split
  · split
    · exact h.secureHit
    · split
      · exact h.pmSlice.llcCheck.llcPutAll
      · exact h.pmSlice.llcCheck.hbmRead
  · exact h.pmSlice.hbmRead

theorem homeData (h : s₀.ctlKept s) {l : List Burst} {q : FwReq} : s₀.ctlKept (s.homeData line q l).2 := by
  unfold State.homeData
  extract_lets t s₁ s₂
  have h : s₀.ctlKept s₂ := h.unhold.pmSliceFree.pmSliceFree.recallBut.ite h.unhold.pmSliceFree.pmSliceFree
  split
  next x _ =>
    split
    next r s' heq =>
      have h := of_eq h.pmSlice.pmSlice.l2Take heq
      split
      · exact h.llcReuse
      · exact h.homeBelow
  · exact h.homeBelow

theorem homeRead (h : s₀.ctlKept s) {l : List Burst} {q : FwReq} : s₀.ctlKept (s.homeRead line q l).2 := by
  unfold State.homeRead
  dsimp only
  split
  · exact h
  · exact h.homeData.quietIf

theorem homeMergeWrite (h : s₀.ctlKept s) {x : BitVec 64} {d : LineData} {q : FwReq} {y : Option Nat} :
    s₀.ctlKept (s.homeMergeWrite line x d q alloc y).2 := by
  unfold State.homeMergeWrite
  extract_lets t
  split
  · exact h.secureHit
  · split
    next a s₁ h₁ =>
    have h : s₀.ctlKept s₁ := by
      split at h₁
      · exact of_eq h h₁
      · exact of_eq h.homeRead h₁
    extract_lets own s₂ s₃
    have h₃ : s₀.ctlKept s₃ := h.pmSliceFree.pmSliceFree.unhold.recallBut.clearResvBut
    split
    · exact h
    · split
      split
      next i s₄ h₄ =>
      have h := of_eq h₃.takeInj h₄
      split
      · exact h.llcPut
      · split
        next e s₅ h₅ =>
        have h := of_eq h.hbmWrite h₅
        split
        · split
          · exact h.llcPut
          · exact h
        · exact h

theorem homeWrite (h : s₀.ctlKept s) {x : BitVec 64} {d : LineData} {q : FwReq} {y : Option Nat} :
    s₀.ctlKept (s.homeWrite line x d q alloc y).2 := by
  unfold State.homeWrite
  dsimp only
  split
  · exact h
  · exact h.homeMergeWrite.quietIf

theorem granCheck (h : s₀.ctlKept s) {x : Src} : s₀.ctlKept (s.granCheck x sec pa write).2 := by
  unfold State.granCheck
  dsimp only
  split
  · exact h
  · split
    · exact h.fwCheck
    · split <;> exact h.fwCheck

theorem granEcc (h : s₀.ctlKept s) : s₀.ctlKept (s.granEcc u a kind sec inj).2 := by
  unfold State.granEcc
  split
  · exact h
  · exact h.logErr

theorem setGranBad (h : s₀.ctlKept s) {x : FMap Nat} : s₀.ctlKept { s with granBad := x } := h.update

theorem granWord (h : s₀.ctlKept s) : s₀.ctlKept (s.granWord u a whole sec) :=
  (h.ite h.granEcc).setGranBad.ite (h.ite h.granEcc)

theorem granStrike (h : s₀.ctlKept s) {x : Option Nat} : s₀.ctlKept (s.granStrike x a) := by
  unfold State.granStrike
  split
  · exact h.setGranBad
  · exact h

theorem granStore (h : s₀.ctlKept s) : s₀.ctlKept (s.granStore u pa n v sec) :=
  (h.takeInj.foldl fun _ _ h => h.granWord).granStrike.memWrite

theorem granWrite (h : s₀.ctlKept s) {x : Src} : s₀.ctlKept (s.granWrite x sec pa n v).2 := by
  unfold State.granWrite
  dsimp only
  split
  · exact h.granCheck
  · exact h.granCheck.granStore

theorem physWrite (h : s₀.ctlKept s) {x : Src} {y : Option Nat} : s₀.ctlKept (s.physWrite x sec pa n v y).2 := by
  unfold State.physWrite
  dsimp only
  split
  · exact h.homeWrite
  · split
    · exact h.granWrite
    · split
      · exact h.memWrite.ite h
      · exact h

theorem physWriteCore (h : s₀.ctlKept s) : s₀.ctlKept (s.physWriteCore c a n v).2 := by
  unfold State.physWriteCore
  split
  · exact h.homeWrite
  · split
    · exact h.physWrite
    · exact h

theorem l2Fill (h : s₀.ctlKept s) {x : L2Line} : s₀.ctlKept (s.l2Fill c x) := by
  unfold State.l2Fill
  dsimp only
  split
  · exact h.l2Offer.l2Set
  · exact h.l2Set

theorem dirMake (h : s₀.ctlKept s) {x : Option Nat} : s₀.ctlKept (s.dirMake line x) := by
  unfold State.dirMake
  extract_lets t
  split
  next i s₁ h₁ =>
  have h := of_eq h.takeInj h₁
  extract_lets s₂ es
  have h₂ : s₀.ctlKept s₂ := by
    cases i with
    | none => exact h
    | some _ => exact h.logErr
  split
  · exact h₂
  · cases x with
    | none => exact h₂.freeVal.recallBut.pmSlice
    | some _ => exact h₂.recallBut.pmSlice

theorem l2Obtain (h : s₀.ctlKept s) {q : FwReq} {x : Option Nat} {l : List Burst} :
    s₀.ctlKept (s.l2Obtain c line q store x l).2 := by
  unfold State.l2Obtain
  dsimp only
  split
  · split
    · exact h.unhold.llcReuse.recallBut.l2Set
    · exact h
  · split
    · exact h.l2Fill
    · split
      · exact h.dirMake.homeRead
      · exact (h.dirMake.homeRead.recallBut.ite h.dirMake.homeRead.shareBut).l2Fill

theorem homeMerge (h : s₀.ctlKept s) {x : BitVec 64} {d : LineData} {q : FwReq} :
    s₀.ctlKept (s.homeMerge line x d q) := h.homeBelow.ite h.homeBelow.toHome

theorem coreWrite (h : s₀.ctlKept s) {x : BitVec 64} {d : LineData} {q : FwReq} :
    s₀.ctlKept (s.coreWrite c line x d q).2 := by
  unfold State.coreWrite
  extract_lets st
  split
  · exact h.homeWrite
  · split
    next e s₁ h₁ =>
    have h := of_eq h.l2Obtain h₁
    extract_lets s₂
    have h₂ : s₀.ctlKept s₂ := h.clearResvBut
    split
    · exact h
    · split
      · exact h₂
      · split
        split
        next i s₃ h₃ =>
        have h := of_eq h₂.takeInj h₃
        split
        · exact h.l2Set.toHome
        · exact (h.homeMerge.ite h).l2Set

/-! ## Store buffers -/

theorem lateStore (h : s₀.ctlKept s) : s₀.ctlKept (s.lateStore c e pa) := h.ite h.logErr

theorem sbPut (h : s₀.ctlKept s) : s₀.ctlKept (s.sbPut c kind a n v) := by
  unfold State.sbPut
  split
  next k s₁ h₁ =>
  have h : s₀.ctlKept s₁ := by
    split at h₁
    · exact of_eq h.physWriteCore h₁
    · exact of_eq h.coreWrite h₁
  exact h.lateStore

theorem sbWrite (h : s₀.ctlKept s) {x : SbEntry} : s₀.ctlKept (s.sbWrite c x) := h.sbPut.ite (h.foldl fun _ _ h => h.sbPut)

theorem sbPerform (h : s₀.ctlKept s) : s₀.ctlKept (s.sbPerform c i) := by
  unfold State.sbPerform
  split
  · exact h.modCore.sbWrite
  · exact h

theorem sbPerformN (h : s₀.ctlKept s) : s₀.ctlKept (s.sbPerformN c n) := by
  induction n generalizing s with
  | zero => exact h
  | succ n ih => exact ih h.sbPerform

theorem drainSb (h : s₀.ctlKept s) : s₀.ctlKept (s.drainSb c) := h.sbPerformN
theorem quiesce (h : s₀.ctlKept s) : s₀.ctlKept (s.quiesce c) := h.drainSb.ite h.drainSb.modCore

/-! ## Ports' switches -/

theorem modCopies (h : s₀.ctlKept s) {x : Option (Nat × Nat)} {y : FrameCopy → Option FrameCopy} :
    s₀.ctlKept (s.modCopies p x y) := by
  unfold State.modCopies
  split
  · exact h
  · exact h.foldl fun _ _ h => h.ite h.modPort

theorem diagDone (h : s₀.ctlKept s) : s₀.ctlKept (s.diagDone p n dist) := by
  unfold State.diagDone
  extract_lets s₁
  have h : s₀.ctlKept s₁ := h.setFld.setFld.setFld
  split
  · exact h.setFld
  · exact h.setFld
  · exact h.setFld
  · exact h

theorem txOver (h : s₀.ctlKept s) : s₀.ctlKept (s.txOver p) :=
  h.modPort.modThread.ite (h.modPort.modThread.modPort.ite h.modPort.modThread.diagDone)

theorem txAbort (h : s₀.ctlKept s) : s₀.ctlKept (s.txAbort p) := h.ite h.modCopies.modPort.setFld.txOver
theorem portEvent (h : s₀.ctlKept s) : s₀.ctlKept (s.portEvent p) := h.modThread

theorem setLink (h : s₀.ctlKept s) : s₀.ctlKept (s.setLink p link) :=
  have h := h.ite h.setFld.setFld.portEvent
  h.ite (h.setFld.setFld.setFld.ite h.setFld.setFld.setFld.setFld)

theorem openSwitches (h : s₀.ctlKept s) : s₀.ctlKept s.openSwitches :=
  h.foldl fun _ _ h => (h.txAbort.setFld.ite h.txAbort).setLink

/-! ## Halts -/

theorem tlbisEnd (h : s₀.ctlKept s) : s₀.ctlKept (s.tlbisEnd c) := (h.foldl fun _ _ h => h.modCore).update

theorem coreLine (h : s₀.ctlKept s) {q : FwReq} {l : List Burst} : s₀.ctlKept (s.coreLine c line q l).2 := by
  unfold State.coreLine
  dsimp only
  split
  · exact h
  · split
    · exact h.homeRead
    · split
      · split
        · exact h.l2Check
        · exact h.l2Check.homeRead
      · exact h.homeRead

theorem walkRead (h : s₀.ctlKept s) : s₀.ctlKept (s.walkRead c pa).2 := by
  unfold State.walkRead
  dsimp only
  split
  · exact h
  · exact h.coreLine

theorem adWrite (h : s₀.ctlKept s) {x : AdUpdate} {q : FwReq} : s₀.ctlKept (s.adWrite c x q).2 := by
  unfold State.adWrite
  dsimp only
  split
  · exact h.walkRead
  · exact h.walkRead.coreWrite

theorem adUndo (h : s₀.ctlKept s) : s₀.ctlKept (s.adUndo c k) := h.ite (h.modCore.foldl fun _ _ h => h.adWrite)
theorem unslot (h : s₀.ctlKept s) : s₀.ctlKept (s.unslot c) := h.adUndo.modCore
theorem endEarly (h : s₀.ctlKept s) : s₀.ctlKept (s.endEarly c) := h.ite h.modCore
theorem modTrace (h : s₀.ctlKept s) {x : Bool → CoreArch → TraceEnc → TraceEnc} : s₀.ctlKept (s.modTrace c x) := by
  unfold State.modTrace
  exact h.modCore
theorem traceBegin (h : s₀.ctlKept s) : s₀.ctlKept (s.traceBegin c) := (h.modTrace.ite h).ite (h.modTrace.ite h)
theorem traceHalt (h : s₀.ctlKept s) : s₀.ctlKept (s.traceHalt c n) := h.traceBegin.ite h.traceBegin.modTrace

theorem haltCore (h : s₀.ctlKept s) : s₀.ctlKept (s.haltCore c n) :=
  h.drainSb.unslot.modCore.endEarly.setFld.setFld.traceHalt

theorem haltMembers (h : s₀.ctlKept s) : s₀.ctlKept (s.haltMembers g n m) := h.modGroup.foldl fun _ _ h => h.haltCore

theorem haltGroup (h : s₀.ctlKept s) : s₀.ctlKept (s.haltGroup g) := by
  unfold State.haltGroup
  split
  · exact h
  · exact h.ite h.haltMembers

/-! ## A group's drain -/

theorem granStoreMask (h : s₀.ctlKept s) {x : BitVec 64} {d : LineData} : s₀.ctlKept (s.granStoreMask u pa x d sec) :=
  (h.takeInj.foldl fun _ _ h => h.granWord.memWrite).granStrike

theorem physWriteMask (h : s₀.ctlKept s) {x : CoreId} {y : BitVec 64} {d : LineData} :
    s₀.ctlKept (s.physWriteMask x line y d).2 := by
  unfold State.physWriteMask
  dsimp only
  split
  · exact h.granCheck.granStoreMask.ite h.granCheck
  · split
    · exact h.memWrite.ite h
    · exact h

theorem foldWrite (h : s₀.ctlKept s) {x : FoldEntry} : s₀.ctlKept (s.foldWrite c x) := by
  unfold State.foldWrite
  split
  next k s₁ h₁ =>
  have h : s₀.ctlKept s₁ := by
    split at h₁
    · split at h₁
      · exact of_eq h.homeWrite h₁
      · exact of_eq h.coreWrite h₁
    · split at h₁
      · exact of_eq h.physWriteMask h₁
      · exact of_eq h h₁
  exact h.lateStore

theorem beginInstar (h : s₀.ctlKept s) : s₀.ctlKept (s.beginInstar c) := h.modCore

theorem memberDone (h : s₀.ctlKept s) : s₀.ctlKept (s.memberDone c) :=
  (h.modCore.modMem.ite h.modCore.modMem.beginInstar).ite (h.modCore.beginInstar.ite h.modCore)

theorem drainDone (h : s₀.ctlKept s) : s₀.ctlKept (s.drainDone g n) := by
  induction n generalizing s with
  | zero => exact h
  | succ n ih =>
    unfold State.drainDone
    dsimp only
    split
    · exact h.haltGroup
    · split
      · exact h
      · exact ih (h.modGroup.foldl fun _ _ h => h.memberDone.ite h)

theorem drainN (h : s₀.ctlKept s) : s₀.ctlKept (s.drainN g n) := by
  induction n generalizing s with
  | zero => exact h
  | succ n ih => exact (ih (h.foldl fun _ _ h => h.foldWrite).modMem.drainDone).ite h

theorem drainAll (h : s₀.ctlKept s) : s₀.ctlKept (s.drainAll g) := h.drainN
theorem copyState (h : s₀.ctlKept s) : s₀.ctlKept (s.copyState p c) := by
  unfold State.copyState
  exact h.endEarly.modCore
theorem takeDrain (h : s₀.ctlKept s) : s₀.ctlKept (s.takeDrain g p q) := h.ite h.modCore
theorem discard (h : s₀.ctlKept s) : s₀.ctlKept (s.discard c n) := by
  unfold State.discard
  exact h.endEarly.modCore

end State.ctlKept
end Sys2Proof.Machine
end

section
/-!
SUPPORT. The frame of an expert gate (R9): only a write of the gate itself arms or opens it. While a gate is LOCKED, what the
writes of its unit's registers set off leaves it LOCKED.
-/

set_option Elab.async false

namespace Sys2Proof.Machine

/-! ## Gates and the registers they guard -/

/-- Each gate register is one of seven. -/
theorem Reg.isGate_iff (r : Reg) : r.isGate = true ↔ r = .PW_XGATE ∨ r = .TB_XGATE ∨ r = .CG_XGATE ∨ r = .IC_XGATE ∨
    r = .MC_XGATE ∨ r = .PT_XGATE ∨ r = .ER_XGATE := by
  simp [Reg.isGate, or_assoc]

/-- A gate comes up LOCKED with DENIED clear. -/
theorem Reg.reset_of_isGate {g : Reg} (h : g.isGate = true) (k : Nat) : Reg.reset g k = 0 := by
  rw [Reg.isGate_iff] at h
  obtain rfl | rfl | rfl | rfl | rfl | rfl | rfl := h <;> rfl

/-- The gate of a register lies in its unit's window; its number is at most 250 beyond the register's. -/
theorem Reg.gate_spec {r g : Reg} {i k : Nat} (h : r.gate i = some (g, k)) :
    g.isGate = true ∧ g.window = r.window ∧ k ≤ i + 250 := by
  cases r <;> simp only [Reg.gate, Option.some.injEq, Prod.mk.injEq, reduceCtorEq] at h <;> obtain ⟨rfl, rfl⟩ := h <;>
    exact ⟨rfl, rfl, by omega⟩

/-- The value of a key that a map lists does not depend on the default. -/
theorem FMap.get_default {β : Type} (m : FMap β) (k : Nat) : (∀ d, FMap.get m d k = d) ∨ ∃ v, ∀ d, FMap.get m d k = v := by
  induction m with
  | nil => exact .inl fun _ => rfl
  | cons e m ih =>
    by_cases he : k = e.1
    · exact .inr ⟨e.2, fun d => by simp [FMap.get, he]⟩
    · simpa [FMap.get, he] using ih

/-- The gate `g` of number `k` is LOCKED: neither ARMED nor OPEN (R9). -/
structure State.shut (s : State) (g : Reg) (k : Nat) : Prop where
  isGate : g.isGate = true
  inst : k < 65536
  locked : bitsOf (s.csrGet g k) 17 16 = 0

namespace State.shut

variable {s t : State} {g : Reg} {k i j m n p v : Nat}

/-! ## Writes of registers -/

/-- An update that leaves the registers alone. -/
theorem update (h : s.shut g k) (hc : t.csr = s.csr := by rfl) : t.shut g k := by
  refine ⟨h.isGate, h.inst, ?_⟩
  have := h.locked
  simpa only [State.csrGet, hc] using this

/-- A write of a register that is no gate. -/
theorem csrSet (h : s.shut g k) {r : Reg} {x : Word} (hr : r.isGate = false := by rfl) (hi : i < 65536 := by omega) :
    (s.csrSet r i x).shut g k := by
  have hne : g ≠ r := fun hg => by simp [← hg, h.isGate] at hr
  exact ⟨h.isGate, h.inst, by rw [s.csrGet_csrSet_reg x hi h.inst hne]; exact h.locked⟩

theorem setFld (h : s.shut g k) {f : Fld} (hr : f.reg.isGate = false := by rfl) (hi : i < 65536 := by omega) :
    (s.setFld f i v).shut g k := h.csrSet hr hi

theorem satField (h : s.shut g k) {f : Fld} (hr : f.reg.isGate = false := by rfl) (hi : i < 65536 := by omega) :
    (s.satField f i).shut g k := h.setFld hr hi

theorem incField (h : s.shut g k) {f : Fld} (hr : f.reg.isGate = false := by rfl) (hi : i < 65536 := by omega) :
    (s.incField f i).shut g k := h.setFld hr hi

/-- A write, of any register and number, of a value whose bits 17:16 are 0. -/
theorem csrSet_clear (h : s.shut g k) {r : Reg} {x : Word} (hx : bitsOf x 17 16 = 0) : (s.csrSet r i x).shut g k := by
  refine ⟨h.isGate, h.inst, ?_⟩
  by_cases hk : regKey g k = regKey r i
  · simpa [State.csrGet, State.csrSet, hk] using hx
  · simpa only [State.csrGet, State.csrSet, FMap.get_set_ne _ _ _ hk] using h.locked

/-- A write that keeps bits 17:16, where the register comes up with them 0. -/
theorem csrSet_keep (h : s.shut g k) {r : Reg} {x : Word} (hx : bitsOf x 17 16 = bitsOf (s.csrGet r i) 17 16)
    (hr : bitsOf (Reg.reset r i) 17 16 = 0) : (s.csrSet r i x).shut g k := by
  by_cases hk : regKey r i = regKey g k
  · refine h.csrSet_clear (hx.trans ?_)
    have hl := h.locked
    unfold State.csrGet at hl ⊢
    obtain hd | ⟨w, hw⟩ := FMap.get_default s.csr (regKey r i)
    · rw [hd, hr]
    · rw [← hk, hw] at hl
      rw [hw, hl]
  · refine ⟨h.isGate, h.inst, ?_⟩
    simpa only [State.csrGet, State.csrSet, FMap.get_set_ne _ _ _ (Ne.symm hk)] using h.locked

/-- A write of a field beside bits 17:16, where the register comes up with those 0. -/
theorem setFld_beside (h : s.shut g k) {f : Fld} (hf : 17 < f.lo ∨ f.hi < 16 := by decide)
    (hr : Reg.reset f.reg i = 0 := by rfl) : (s.setFld f i v).shut g k :=
  h.csrSet_keep (bitsOf_withBits_disj _ _ _ _ _ _ hf) (by rw [hr]; rfl)

/-- DENIED is set beside the gate's state. -/
theorem gateDeny (h : s.shut g k) {r : Reg} : (s.gateDeny r i).shut g k := by
  unfold State.gateDeny
  split
  next g' k' hg =>
    refine h.csrSet_keep (bitsOf_withBits_disj _ _ _ _ _ _ (by decide)) ?_
    rw [Reg.reset_of_isGate (Reg.gate_spec hg).1]
    rfl
  · exact h

theorem resetRegs (h : s.shut g k) {f : Reg → Nat → Bool} : (s.resetRegs f).shut g k := by
  refine ⟨h.isGate, h.inst, ?_⟩
  have h0 := Reg.reset_of_isGate h.isGate k
  have hl := h.locked
  simp only [State.csrGet, State.resetRegs, FMap.get_dropIf, h0] at hl ⊢
  split_ifs
  · rfl
  · exact hl

theorem codeWrite (h : s.shut g k) {r : Reg} {x : Word} (hr : r.isGate = false := by rfl) (hi : i < 65536 := by omega) :
    (s.codeWrite r i x).shut g k := by
  unfold State.codeWrite
  dsimp only
  split
  · exact (h.csrSet hr hi).gateDeny
  · exact h.csrSet hr hi

/-- A LOCKED gate is not OPEN to the registers it guards. -/
theorem not_gateOpen (h : s.shut g k) {r : Reg} (hg : r.gate i = some (g, k)) : s.gateOpen r i = false := by
  simp [State.gateOpen, State.gateState, hg, h.locked]

/-- What leaves the control registers alone leaves the gates among them alone. -/
theorem of_ctlKept (h : s.shut g k) (hg : g.isCtl = true) (ht : s.ctlKept t) : t.shut g k :=
  ⟨h.isGate, h.inst, by rw [ht.regs g k hg h.inst]; exact h.locked⟩

theorem ite {P : Prop} [Decidable P] (hs : s.shut g k) (ht : t.shut g k) : (if P then s else t).shut g k := by
  split <;> assumption

theorem foldl {α : Type} {l : List α} {f : State → α → State} (h : s.shut g k)
    (hf : ∀ s, ∀ x ∈ l, s.shut g k → (f s x).shut g k) : (l.foldl f s).shut g k :=
  List.foldlRecOn l f h fun s hs x hx => hf s x hx hs

theorem modIsland (h : s.shut g k) {f : Island → Island} : (s.modIsland j f).shut g k := h.update
theorem modSlot (h : s.shut g k) {f : Slot → Slot} : (s.modSlot m f).shut g k := h.update
theorem modCore (h : s.shut g k) {f : Core → Core} : (s.modCore n f).shut g k := h.update
theorem modGroup (h : s.shut g k) {f : Group → Group} : (s.modGroup n f).shut g k := h.update
theorem modPort (h : s.shut g k) {f : Port → Port} : (s.modPort p f).shut g k := h.update
theorem modThread (h : s.shut g k) {f : Thread → Thread} : (s.modThread p f).shut g k := h.update
theorem setMbres (h : s.shut g k) {b : Bool} : (s.setMbres b).shut g k := h.update
theorem setBell (h : s.shut g k) {x : Bell} : State.shut { s with bell := x } g k := h.update
theorem setPwr (h : s.shut g k) {x : Power} : State.shut { s with pwr := x } g k := h.update
theorem longEnd (h : s.shut g k) : (s.longEnd m).shut g k := h.update.ite h
theorem icFell (h : s.shut g k) : s.icFell.shut g k := h.update

/-! ## Answers of the services, and what an interrupt wakes -/

theorem callDone (h : s.shut g k) (h0 : bitsOf (s.slot m).res0 17 16 = 0) (h1 : bitsOf (s.slot m).res1 17 16 = 0) :
    (s.callDone m n).shut g k := by
  have hs : (s.longEnd m).slot m = s.slot m := by
    unfold State.longEnd
    split <;> rfl
  rw [← hs] at h0 h1
  unfold State.callDone
  dsimp only
  split
  · exact ((((h.longEnd.csrSet_clear h0).csrSet_clear h1).setFld_beside (f := Fld.RV_STAT_STATUS)).setFld_beside
      (f := Fld.RV_STAT_STATE)).modSlot.setMbres
  · split
    · exact (h.longEnd.setFld_beside (f := Fld.RV_STAT_LATE_CNT)).modSlot.setMbres
    · exact h.longEnd.setMbres

/-- An answer without results. -/
theorem serviceReply (h : s.shut g k) : (s.serviceReply m n).shut g k := by
  refine h.modSlot.callDone ?_ ?_ <;> simp [State.slot, State.modSlot] <;> rfl

theorem entryAbandon (h : s.shut g k) (hj : j < 65536 := by omega) : (s.entryAbandon j m n).shut g k := by
  unfold State.entryAbandon
  split
  · dsimp only
    split
    · exact (((h.setFld (f := Fld.PW_ISTATE_STATE)).setFld (f := Fld.PW_ISTATE_LAST_ENTRY)).modIsland).serviceReply
    · exact ((h.setFld (f := Fld.PW_ISTATE_STATE)).setFld (f := Fld.PW_ISTATE_LAST_ENTRY)).modIsland
  · exact h

theorem icWakeIsland (h : s.shut g k) (hj : j < 65536) : (s.icWakeIsland j).shut g k := by
  unfold State.icWakeIsland
  exact h.setFld.ite ((h.entryAbandon.ite (h.ite h.setFld)).ite h)

end State.shut

/-- A field's value fits its bits. -/
theorem State.fld_lt (s : State) (f : Fld) (i : Nat) : s.fld f i < 2 ^ (f.hi + 1 - f.lo) := bitsOf_lt _ _ _

theorem State.groupMember_lt (s : State) (n i : Nat) : s.groupMember n i < 256 := by
  unfold State.groupMember
  split
  · exact s.fld_lt Fld.CG_DEF_M0 n
  · split
    · exact s.fld_lt Fld.CG_DEF_M1 n
    · exact s.fld_lt Fld.CG_DEF_M2 n

theorem coreIsland_le (c : Nat) : coreIsland c ≤ 2 * c + 4 := by
  unfold coreIsland; omega

/-- The core that takes an interrupt target's interrupts is the target's own or a member of a group. -/
theorem State.icCore_lt (s : State) {t : Nat} (ht : t < 320) : s.icCore t < 256 := by
  unfold State.icCore
  split
  · exact s.groupMember_lt _ _
  · omega

theorem State.icCalls_lt {s old : State} {n j : Nat} (h : s.icCalls old n = some j) : j < 65536 := by
  unfold State.icCalls at h
  split at h
  next t _ =>
    dsimp only at h
    split at h
    next hc =>
      simp only [Bool.and_eq_true, decide_eq_true_eq] at hc
      have := s.icCore_lt hc.1.1.1
      have := coreIsland_le (s.icCore t)
      cases h
      omega
    · cases h
  · cases h

namespace State.shut

variable {s t : State} {g : Reg} {k i j m n p v : Nat}

theorem icWake (h : s.shut g k) : (s.icWake t n).shut g k := by
  unfold State.icWake
  split
  next j hj => exact h.icWakeIsland (State.icCalls_lt hj)
  · exact h

theorem icSettle (h : s.shut g k) : (s.icSettle t).shut g k := h.icFell.foldl fun _ _ _ h => h.icWake

theorem icSync (h : s.shut g k) (hn : n < 65536 := by omega) : (s.icSync n).shut g k := by
  unfold State.icSync
  exact (h.setFld.ite h).setFld

theorem icEvent (h : s.shut g k) (hn : n < 65536 := by omega) : (s.icEvent n).shut g k := by
  unfold State.icEvent State.icLatch
  exact (h.setFld.icSync).icFell.icWake

end State.shut
end Sys2Proof.Machine
end

section
/-!
SUPPORT. What the writes of each unit's registers do to the unit's own gate: nothing but DENIED (R9, R10).
-/

set_option Elab.async false

namespace Sys2Proof.Machine
namespace State.shut

variable {s t : State} {g : Reg} {k i j m n p v : Nat} {src : Src} {x : Word} {b : Bool}

/-! ## Power -/

theorem setCode16 (h : s.shut g k) (hj : j < 65536) : (s.setCode16 j n).shut g k := by
  unfold State.setCode16
  exact h.setFld.setFld

theorem askCode16 (h : s.shut g k) (hj : j < 65536) : (s.askCode16 j n).shut g k := by
  unfold State.askCode16
  exact (h.modIsland.setCode16 hj).ite (h.setCode16 hj)

theorem islXovr (h : s.shut g k) (hj : j < 65536) : (s.islXovr j src).shut g k := h.ite h.setFld.setFld

theorem vsetWrite (h : s.shut g k) (hj : j < 65536) : (s.vsetWrite j src x).shut g k :=
  h.ite (((h.askCode16 hj).islXovr hj).ite h.gateDeny)

theorem setMode (h : s.shut g k) (hj : j < 65536) : (s.setMode j m).shut g k := by
  unfold State.setMode
  extract_lets s₁
  have h₁ : s₁.shut g k := h.ite h.setFld.setFld.modIsland
  exact (h₁.setFld.setCode16 hj).ite h₁.setFld

theorem rctlWrite (h : s.shut g k) (hj : j < 65536) : (s.rctlWrite j src x).shut g k :=
  h.ite (((h.setFld.ite (h.setFld.setMode hj)).islXovr hj).ite h.gateDeny)

theorem thermWrite (h : s.shut g k) : (s.thermWrite x).shut g k :=
  have h := h.setFld.setFld.ite h
  h.ite h.gateDeny

theorem syncHeld (h : s.shut g k) : s.syncHeld.shut g k := by
  refine h.foldl fun s j hj h => ?_
  have := List.mem_range.1 hj
  exact h.setFld

theorem threadsStop (h : s.shut g k) : s.threadsStop.shut g k := (h.update (t := { s with threads := [] })).resetRegs

section
variable (hg : g.isCtl = true)
include hg

theorem loseIsland (h : s.shut g k) : (s.loseIsland j).shut g k := by
  unfold State.loseIsland
  split
  · exact h.foldl fun s c _ h => h.ite (h.of_ctlKept hg (.setCore (.tlbisEnd (.refl s))))
  · have h : (s.resetRegs fun r _ => r.island == j && r != .BT_LOWN).shut g k := h.resetRegs
    exact h.update.ite (h.threadsStop.update.ite (h.update.ite h))

theorem enterStandby (h : s.shut g k) : s.enterStandby.shut g k := by
  unfold State.enterStandby
  refine setPwr (foldl (h.of_ctlKept hg (.openSwitches (.foldl (.refl s) fun _ _ h => h.quiesce))) fun s j hj h => ?_)
  have := List.mem_range.1 hj
  exact (h.loseIsland hg).modIsland.setFld.setFld

theorem holdActs (h : s.shut g k) {a : HoldAct} : (s.holdActs a).shut g k := by
  have h : State.shut { s with pwr := { s.pwr with notice := none } } g k := h.setPwr
  unfold State.holdActs
  cases a
  · exact h.ite (h.enterStandby hg)
  · exact h

theorem holdChanged (h : s.shut g k) : s.holdChanged.shut g k := by
  have h : State.shut ((List.range 23).foldl (fun s j =>
      if s.entryHeld j && (s.island j).entry.isSome then s.entryAbandon j 3 stBlockHeld else s) s.syncHeld) g k := by
    refine h.syncHeld.foldl fun s j hj h => ?_
    have := List.mem_range.1 hj
    exact h.entryAbandon.ite h
  unfold State.holdChanged
  dsimp only
  split
  · exact h.ite (h.holdActs hg)
  · exact h

theorem pwCsrWrite (h : s.shut g k) {r : Reg} (hr : r.isGate = false) (hi : i < 65536) :
    (s.pwCsrWrite r i src x).shut g k := by
  unfold State.pwCsrWrite
  split
  · exact h.vsetWrite hi
  · exact h.rctlWrite hi
  · exact h.thermWrite
  · exact (h.codeWrite.holdChanged hg).ite h
  · exact (h.codeWrite.holdChanged hg).ite h
  · exact h.codeWrite hr

end

/-! ## Time base -/

theorem tbCtlWrite (h : s.shut g k) : (s.tbCtlWrite x).shut g k := by
  unfold State.tbCtlWrite
  extract_lets refsel disc newEn t b₁ t₁ t' b₂ t₂ t₃
  have h : t.shut g k := h.setFld.setFld
  have h : t₁.shut g k := h.setBell.ite h
  have h : t₂.shut g k := h.setFld.setBell.ite h
  have h : t₃.shut g k := h.setFld.setFld.ite h
  exact h.setFld.setFld.ite h.setFld

theorem setSlew (h : s.shut g k) {y : Int} : (s.setSlew y).shut g k := h.setBell.setFld.setFld
theorem tbXovr (h : s.shut g k) : (s.tbXovr src).shut g k := h.ite h.setFld
theorem addendWrite (h : s.shut g k) : (s.addendWrite src x).shut g k := h.setFld.tbXovr.ite h.gateDeny
theorem bellStep (h : s.shut g k) {y : Int} : (s.bellStep y).shut g k := h.setBell.setSlew.incField

theorem slewWrite (h : s.shut g k) : (s.slewWrite src x).shut g k :=
  h.setFld.gateDeny.ite (h.setSlew.setFld.tbXovr.ite (h.bellStep.setFld.tbXovr.ite h.setFld))

theorem secsetWrite (h : s.shut g k) : (s.secsetWrite x).shut g k := h.setFld.setFld
theorem ppsoutWrite (h : s.shut g k) : (s.ppsoutWrite x).shut g k := h.setFld.setFld

theorem ownWrite (h : s.shut g k) {r : Reg} (hr : r.isGate = false := by rfl) (hi : i < 65536 := by omega) :
    (s.ownWrite r i src x).shut g k := h.csrSet hr hi

theorem advance (h : s.shut g k) : (s.advance n).shut g k :=
  have h := h.setBell.setFld.incField.ite h.setBell
  h.ite h.setSlew

theorem cmpLate (h : s.shut g k) (hn : n < 16384) : (s.cmpLate n).shut g k := by
  unfold State.cmpLate
  exact h.setFld.setBell.ite h

theorem cmpDeliver (h : s.shut g k) (hn : n < 16384) : (s.cmpDeliver n).shut g k := by
  unfold State.cmpDeliver
  dsimp only
  split
  · exact h.update
  · exact h.update
  · exact h.icEvent
  · exact h

theorem cmpDue (h : s.shut g k) (hn : n < 16384) : (s.cmpDue n).shut g k := by
  have h₁ : ((s.advance (s.cmpWait n)).cmpFire n).shut g k := by
    have h := h.advance (n := s.cmpWait n)
    exact (h.incField.cmpDeliver hn).setFld.ite ((h.incField.cmpDeliver hn).csrSet.cmpLate hn)
  exact h₁.ite h

theorem cmpOwnWrite (h : s.shut g k) (hn : n < 16384) : (s.cmpOwnWrite n src x).shut g k :=
  have h := (h.cmpDue hn).ownWrite
  h.ite h.setFld

theorem cmpTgtWrite (h : s.shut g k) (hn : n < 16384) : (s.cmpTgtWrite n src x).shut g k :=
  ((h.cmpDue hn).codeWrite.cmpLate hn).ite (h.cmpDue hn)

theorem cmpPerWrite (h : s.shut g k) (hn : n < 16384) : (s.cmpPerWrite n src x).shut g k :=
  (h.cmpDue hn).setFld.ite (h.cmpDue hn)

theorem cmpCtlWrite (h : s.shut g k) (hn : n < 16384) : (s.cmpCtlWrite n src x).shut g k :=
  ((h.cmpDue hn).codeWrite.ite ((h.cmpDue hn).codeWrite.cmpLate hn)).ite (h.cmpDue hn)

theorem tbCsrWrite (h : s.shut g k) {r : Reg} (hr : r.isGate = false) (hi : i < 16384) :
    (s.tbCsrWrite r i src x).shut g k := by
  unfold State.tbCsrWrite
  split
  · exact h.tbCtlWrite
  · exact h.codeWrite
  · exact h.addendWrite
  · exact h.slewWrite
  · exact h.secsetWrite
  · exact h.ppsoutWrite
  · exact h.cmpOwnWrite hi
  · exact h.cmpTgtWrite hi
  · exact h.cmpPerWrite hi
  · exact h.cmpCtlWrite hi
  · exact h.codeWrite hr

/-! ## Core groups -/

theorem cgRecord (h : s.shut g k) (hn : n < 65536 := by omega) : (s.cgRecord n src m).shut g k := h.setFld.setFld

theorem cgCfgWrite (h : s.shut g k) : (s.cgCfgWrite src x).shut g k := h.ite (h.gateDeny.ite h.setFld)

theorem cgDefWrite (h : s.shut g k) (hn : n < 65536) : (s.cgDefWrite n src x).shut g k :=
  h.cgRecord.ite (h.cgRecord.ite h.codeWrite.setFld.cgRecord)

theorem cgForm (h : s.shut g k) (hn : n < 65536) : (s.cgForm n src).shut g k := by
  have h₁ : ∀ {s : State} {y : FMap Group}, s.shut g k → State.shut { s with groups := y } g k := fun h => h.update
  unfold State.cgForm
  dsimp only
  refine h.cgRecord.ite (h.cgRecord.ite (h.cgRecord.ite (h.cgRecord.ite (cgRecord (h₁ ?_)))))
  exact h.setFld.setFld.setFld.setFld.setFld.setFld.setFld.csrSet.csrSet

theorem cgFree (h : s.shut g k) (hn : n < 65536) : (s.cgFree n).shut g k := by
  unfold State.cgFree
  exact h.setFld.setFld.setFld.setFld.setFld.setFld.setFld.modGroup

theorem syncRoles (h : s.shut g k) : (s.syncRoles n).shut g k := by
  refine h.foldl fun s i _ h => ?_
  have := s.groupMember_lt n i
  exact h.setFld.setFld.setFld

theorem leave (h : s.shut g k) : (s.leave n).shut g k := (h.csrSet_clear (x := 0) rfl).modCore

section
variable (hg : g.isCtl = true)
include hg

theorem setPrim (h : s.shut g k) (hn : n < 65536) : (s.setPrim n i).shut g k := by
  have h₁ : ((s.takeDrain n (s.groupPrimary n) (s.groupMember n i)).setFld Fld.CG_STAT_PRIM n i |>.syncRoles n).shut g k :=
    (h.of_ctlKept hg (.takeDrain (.refl s))).setFld.syncRoles
  exact h.syncRoles.ite (h₁.of_ctlKept hg (.foldl (.refl _) fun _ _ h => h.modTrace)).icSettle

theorem syncPrim (h : s.shut g k) (hn : n < 65536) : (s.syncPrim n).shut g k := h.setPrim hg hn

theorem join (h : s.shut g k) (hn : n < 65536) : (s.join n m).shut g k := by
  unfold State.join
  extract_lets i f anchor s₁ s₂ s₃
  have hf : f.reg = .CG_DEF := by
    unfold f
    split_ifs <;> rfl
  have h₁ : s₁.shut g k := (h.of_ctlKept hg (.copyState (.refl s))).setFld (by rw [hf]; rfl)
  exact ((h₁.modGroup.setFld.setFld).syncPrim hg hn).modGroup

theorem resyncDone (h : s.shut g k) (hn : n < 65536) : (s.resyncDone n).shut g k := by
  unfold State.resyncDone
  extract_lets st quar p s₁ s₂ s₃ s₄
  have h₁ : s₁.shut g k := h.of_ctlKept hg (.foldl (.refl s) fun _ _ h => h.copyState)
  have h₃ : s₃.shut g k := h₁.setFld.modGroup
  have h₄ : s₄.shut g k := by
    unfold s₄
    split
    · exact (h₃.join hg hn).modGroup
    · exact h₃
  exact h.ite ((h₄.modGroup.ite h₄).syncPrim hg hn)

theorem dissolveParked (h : s.shut g k) (hn : n < 65536) : (s.dissolveParked n).shut g k := by
  unfold State.dissolveParked
  extract_lets s₁ p s₂ s₃
  have h₂ : s₂.shut g k := h.of_ctlKept hg (.foldl (.drainAll (.refl s)) fun _ _ h => h.copyState)
  have h₃ : s₃.shut g k := h₂.modGroup.resyncDone hg hn
  exact h₃.foldl fun s c _ h => (h.of_ctlKept hg (.discard (.refl s))).leave.modCore

theorem cgDissolve (h : s.shut g k) (hn : n < 65536) : (s.cgDissolve n src).shut g k := by
  unfold State.cgDissolve
  split
  · exact h.cgRecord
  · exact h.cgRecord
  · exact h.cgRecord
  · exact ((h.dissolveParked hg hn).cgFree hn).icSettle.cgRecord
  · exact (h.cgFree hn).cgRecord

theorem cgAdmit (h : s.shut g k) (hn : n < 65536) : (s.cgAdmit n src m).shut g k :=
  h.cgRecord.ite (h.cgRecord.ite (h.cgRecord.ite (h.cgRecord.ite
    ((h.modGroup.resyncDone hg hn).cgRecord.ite h.modGroup.cgRecord))))

theorem cgCmd (h : s.shut g k) (hn : n < 65536) : (s.cgCmd n src x).shut g k := by
  unfold State.cgCmd
  split
  · exact h.cgRecord
  · split
    · exact h.cgForm hn
    · exact h.cgDissolve hg hn
    · exact h.cgAdmit hg hn
    · exact h.cgRecord

theorem cgCsrWrite (h : s.shut g k) {r : Reg} (hi : i < 65536) : (s.cgCsrWrite r i src x).shut g k := by
  unfold State.cgCsrWrite
  split
  · exact h.cgCfgWrite
  · exact h.cgDefWrite hi
  · exact h.cgCmd hg hi
  · exact h

end

/-! ## Interrupts -/

theorem swiWrite (h : s.shut g k) : (s.swiWrite src x).shut g k := by
  have : Fld.IC_SWI_SET_NUM.of x < 1024 := bitsOf_lt _ _ _
  exact h.icEvent.ite h

theorem icSrcWrite (h : s.shut g k) (hn : n < 65536) : (s.icSrcWrite src n x).shut g k :=
  ((h.codeWrite.ite h.codeWrite.setFld).icSync.ite h).setFld.setFld.setFld

theorem icStatus (h : s.shut g k) (hn : n < 65536 := by omega) : (s.icStatus n m).shut g k := h.setFld

theorem icTctlWrite (h : s.shut g k) (hn : n < 65536) : (s.icTctlWrite src n x).shut g k :=
  (h.ite h.icStatus).ite (h.icStatus.ite h.codeWrite.icStatus)

theorem icStkSet (h : s.shut g k) (hn : n < 65536) {l : List (Nat × Nat)} : (s.icStkSet n l).shut g k := by
  have h : State.shut { s with icStack := FMap.set s.icStack n l } g k := h.update
  unfold State.icStkSet
  dsimp only
  split <;> exact h.setFld.setFld.setFld.setFld

theorem icPop (h : s.shut g k) (hn : n < 65536) (hm : m < 65536) : (s.icPop n m).shut g k :=
  (h.icStkSet hn).setFld.icSync

theorem icComplete (h : s.shut g k) (hg : g.isCtl = true) (hn : n < 65536) : (s.icComplete src n x).shut g k := by
  have hc : Fld.IC_COMPLETE_SRC.of x < 16384 := bitsOf_lt _ _ _
  exact (h.ite h.icStatus).ite (h.icStatus.ite (h.icStatus.ite ((h.icPop hn (by omega)).icStatus.ite
    (h.icStatus.satField.of_ctlKept hg (.logErr (.refl _))))))

theorem icCsrWrite (h : s.shut g k) (hg : g.isCtl = true) {r : Reg} (hi : i < 65536) :
    (s.icCsrWrite r i src x).shut g k := by
  unfold State.icCsrWrite
  split
  · exact h.swiWrite
  · exact (h.icSrcWrite hi).icSettle
  · exact (h.icTctlWrite hi).icSettle
  · exact (h.icComplete hg hi).icSettle
  · exact h

end State.shut
end Sys2Proof.Machine
end

section
/-!
SUPPORT. The writes of the memory controllers', the ports' and the error recorders' registers, under a LOCKED gate: what only
an OPEN gate lets through does not happen (R9, R10).
-/

set_option Elab.async false

namespace Sys2Proof.Machine
namespace State.shut

variable {s t : State} {g : Reg} {k i j m n p v : Nat} {src : Src} {x y : Word} {b : Bool}

/-! ## Memory controllers -/

theorem freeVal (h : s.shut g k) : s.freeVal.2.shut g k := h.update

theorem mcWrite (h : s.shut g k) {r : Reg} (hr : r.isGate = false) (hi : i < 65536) :
    (s.mcWrite r i src x).2.shut g k := by
  unfold State.mcWrite
  dsimp only
  split
  · exact h.codeWrite hr
  · exact (h.csrSet hr).gateDeny.ite (h.csrSet hr)

theorem pcStatus (h : s.shut g k) (hp : p < 65536) : (s.pcStatus p n).shut g k := h.setFld
theorem stkStatus (h : s.shut g k) (hj : j < 65536) : (s.stkStatus j n).shut g k := h.setFld

theorem pcWrite (h : s.shut g k) {r : Reg} (hr : r.isGate = false := by rfl) (hp : p < 65536 := by omega) :
    (s.pcWrite r p src x).shut g k := (h.mcWrite hr hp).pcStatus hp

theorem stkWrite (h : s.shut g k) {r : Reg} (hr : r.isGate = false := by rfl) (hi : i < 65536 := by omega)
    (hj : j < 65536 := by omega) : (s.stkWrite r i j src x).shut g k := (h.mcWrite hr hi).stkStatus hj

theorem pcctlWrite (h : s.shut g k) (ho : s.gateOpen .MC_PCCTL p = false) (hp : p < 65536) :
    (s.pcctlWrite p src x).shut g k := by
  simp only [State.pcctlWrite, ho, Bool.and_false, Bool.not_false, true_or, if_true]
  exact (h.mcWrite rfl hp).pcStatus hp

theorem scrubWrite (h : s.shut g k) (hp : p < 65536) : (s.scrubWrite p src x).shut g k := h.pcWrite.setFld

theorem pgenWrite (h : s.shut g k) (ho : s.gateOpen .MC_PGEN p = false) (hp : p < 65536) {d : BitVec 80} :
    (s.pgenWrite p src x d).shut g k := by
  simp only [State.pgenWrite, ho, Bool.and_false, Bool.not_false, if_true]
  exact h.pcWrite

theorem p1500Write (h : s.shut g k) (ho : s.gateOpen .MC_1500 j = false) (hj : j < 65536) :
    (s.p1500Write j src x y).shut g k := by
  simp only [State.p1500Write, ho, Bool.and_false, Bool.not_false, if_true]
  exact h.stkWrite

theorem rawWrite (h : s.shut g k) (ho : s.gateOpen .MC_RAWCMD j = false) (hj : j < 65536) :
    (s.rawWrite j src x).shut g k := by
  simp only [State.rawWrite, ho, Bool.and_false, Bool.false_and, Bool.not_false, if_true]
  exact (h.stkStatus hj).ite h.stkWrite

theorem ilvWrite (h : s.shut g k) : (s.ilvWrite src x).shut g k := h.ite (h.setFld.ite h.codeWrite.setFld)

theorem mirWriteReg (h : s.shut g k) (hn : n < 65536) : (s.mirWriteReg n src x).shut g k :=
  h.ite (h.codeWrite.ite h.codeWrite.setFld)

theorem llcCtlWrite (h : s.shut g k) (hn : n < 65536) : (s.llcCtlWrite n src x).shut g k := by
  unfold State.llcCtlWrite
  extract_lets en mode offer st s₁ s₂ s₃
  have h₁ : s₁.shut g k := h.setFld.setFld
  have h₂ : s₂.shut g k := h₁.ite h₁.setFld
  have h₃ : s₃.shut g k := h₂.setFld.ite h₂
  exact h.ite (h.setFld.ite h₃.setFld.setFld)

theorem timWrite (h : s.shut g k) {r : Reg} (hr : r.isGate = false := by rfl) (hj : j < 65536 := by omega) :
    (s.timWrite r j src x).shut g k := (h.stkWrite hr).ite (h.stkStatus hj)

theorem stkCtlWrite (h : s.shut g k) (ho : s.gateOpen .MC_STK j = false) (hj : j < 65536) :
    (s.stkCtlWrite j src x).shut g k := by
  simp only [State.stkCtlWrite, ho, Bool.and_false, Bool.false_eq_true, if_false]
  exact h.stkWrite

theorem trainWrite (h : s.shut g k) {r : Reg} (hg : r.gate i = some (g, k)) (hi : i < 16384) :
    (s.trainWrite r i src x).shut g k := by
  unfold State.trainWrite
  split
  · exact h.stkWrite.ite (h.stkStatus (by omega))
  · exact h.stkWrite.ite (h.stkStatus (by omega))
  · exact h.timWrite
  · exact h.timWrite
  · exact h.stkWrite
  · exact h.stkCtlWrite (h.not_gateOpen hg) (by omega)
  · exact h.pcWrite
  · exact h.pcWrite
  · exact h.pcWrite
  · exact h.pcWrite
  · exact h.pcWrite
  · exact h.pcWrite
  · exact h.pcWrite
  · exact h

theorem mcCsrWrite (h : s.shut g k) {r : Reg} (hg : r.gate i = some (g, k)) (hr : r.isGate = false) (hi : i < 16384) :
    (s.mcCsrWrite r i src x).shut g k := by
  have hi' : i < 65536 := by omega
  unfold State.mcCsrWrite
  split
  · exact h.pcctlWrite (h.not_gateOpen hg) hi'
  · exact h.scrubWrite hi'
  · exact h.pcWrite
  · exact h.pcWrite
  · exact h.pgenWrite (h.not_gateOpen hg) hi'
  · exact h.freeVal.p1500Write (h.freeVal.not_gateOpen hg) hi'
  · exact h.rawWrite (h.not_gateOpen hg) hi'
  · exact h.ilvWrite
  · exact h.codeWrite.ite h
  · exact h.mirWriteReg hi'
  · exact h.llcCtlWrite hi'
  · exact h.setFld.ite h
  · exact h.trainWrite hg hi

/-! ## Ports -/

theorem portEvent (h : s.shut g k) : (s.portEvent p).shut g k := h.modThread

theorem modCopies (h : s.shut g k) {a : Option (Nat × Nat)} {f : FrameCopy → Option FrameCopy} :
    (s.modCopies p a f).shut g k := by
  unfold State.modCopies
  split
  · exact h
  · exact h.foldl fun _ _ _ h => h.ite h.modPort

section
variable (hp : p < 65536)
include hp

theorem diagDone (h : s.shut g k) : (s.diagDone p m n).shut g k := by
  unfold State.diagDone
  extract_lets s₁
  have h₁ : s₁.shut g k := h.setFld.setFld.setFld
  split
  · exact h₁.setFld
  · exact h₁.setFld
  · exact h₁.setFld
  · exact h₁

theorem txOver (h : s.shut g k) : (s.txOver p).shut g k :=
  h.modPort.modThread.ite (h.modPort.modThread.modPort.ite (h.modPort.modThread.diagDone hp))

theorem txAbort (h : s.shut g k) : (s.txAbort p).shut g k := h.ite (h.modCopies.modPort.setFld.txOver hp)

theorem setLink (h : s.shut g k) : (s.setLink p n).shut g k :=
  have h := h.ite h.setFld.setFld.portEvent
  h.ite (h.setFld.setFld.setFld.ite h.setFld.setFld.setFld.setFld)

theorem setCond (h : s.shut g k) {f : Fld} (hf : f.reg.isGate = false := by rfl) : (s.setCond p f b).shut g k :=
  h.ite (h.setFld hf).portEvent

theorem portSync (h : s.shut g k) : (s.portSync p).shut g k := by
  unfold State.portSync
  extract_lets closed link s₁ s₂ s₃ s₄ s₅ s₆
  have h₃ : s₃.shut g k := ((h.setCond hp).setCond hp).setCond hp
  have h₄ : s₄.shut g k := h₃.ite h₃.setFld
  have h₅ : s₅.shut g k := h₄.ite (h₄.txAbort hp)
  have h₆ : s₆.shut g k := h₅.ite h₅.modPort
  exact h₆.setLink hp

theorem modeWrite (h : s.shut g k) : (s.modeWrite p m).shut g k := by
  unfold State.modeWrite
  extract_lets s₁ s₂
  have h₁ : s₁.shut g k := h.modPort.setFld.ite h
  have h₂ : s₂.shut g k := h₁.ite h₁.csrSet.setFld
  exact (h₂.portSync hp).ite ((((h₂.txAbort hp).setLink hp).setFld).portSync hp)

theorem ptCtlWrite (h : s.shut g k) : (s.ptCtlWrite p src x).shut g k := by
  unfold State.ptCtlWrite
  extract_lets s₁ mode sec v m s₂ s₃
  have h₁ : s₁.shut g k := h.ite h.modPort
  have h₂ : s₂.shut g k := h₁.codeWrite.setFld
  have h₃ : s₃.shut g k := h₂.ite h₂.setFld
  exact h₃.modeWrite hp

theorem ptSerWrite (h : s.shut g k) : (s.ptSerWrite p x).shut g k := by
  unfold State.ptSerWrite
  extract_lets coding s₁ s₂ s₃
  have h₁ : s₁.shut g k := h.codeWrite.setFld
  have h₂ : s₂.shut g k := h₁.setFld.ite h₁
  have h₃ : s₃.shut g k := h₂.setFld.ite h₂
  exact h₃.setFld

theorem diagGo (h : s.shut g k) : (s.diagGo p).shut g k := h.ite ((h.diagDone hp).ite (h.modPort.ite h.modPort))
theorem ptDiagWrite (h : s.shut g k) : (s.ptDiagWrite p x).shut g k := (h.setFld.diagGo hp).ite h.setFld
theorem ptMmdWrite (h : s.shut g k) : (s.ptMmdWrite p x).shut g k := h.codeWrite.setFld.ite h.codeWrite

end

theorem gateLets (h : s.shut g k) : (s.gateLets p m n b).2.shut g k := by
  unfold State.gateLets
  split
  · exact h
  · split
    · exact h
    · exact h.freeVal

theorem txTry (h : s.shut g k) : (s.txTry p).shut g k := by
  unfold State.txTry
  split
  · exact (h.gateLets.modPort.ite h.gateLets).ite h
  · exact h

theorem ptGctlWrite (h : s.shut g k) (hn : n < 65536) : (s.ptGctlWrite n x).shut g k :=
  (h.codeWrite.ite h.codeWrite.modPort).txTry

theorem ptRegWrite (h : s.shut g k) {r : Reg} (hr : r.isGate = false) (hi : i < 65536) :
    (s.ptRegWrite r i src x).shut g k := by
  unfold State.ptRegWrite
  split
  · exact h.ptCtlWrite hi
  · exact h.ptSerWrite hi
  · exact h.ptDiagWrite hi
  · exact h.ptMmdWrite hi
  · exact h.ptGctlWrite hi
  · exact h.codeWrite hr

theorem ptWrite (h : s.shut g k) {r : Reg} (hr : r.isGate = false) (hi : i < 16384) :
    (s.ptWrite r i src x).shut g k := by
  have hp : ptPortOf r i < 65536 := by
    unfold ptPortOf
    split_ifs <;> omega
  exact (h.ptRegWrite hr (by omega)).setFld.ite h.setFld

theorem cbsWrite (h : s.shut g k) (hn : n < 65536) : (s.cbsWrite n src x).shut g k := by
  have h₁ : State.shut (((s.codeWrite .PT_CBS n x).setFld Fld.PT_CBS_HLEN n (clampNat 2 32 (Fld.PT_CBS_HLEN.of x))).setFld
      Fld.PT_CBS_RESET_TMO n (max 1 (Fld.PT_CBS_RESET_TMO.of x))) g k := h.codeWrite.setFld.setFld
  exact h.ite ((h₁.csrSet (r := .PT_CBC) (x := 0)).update.ite h₁)

/-! ## Error recorders -/

theorem recDrop (h : s.shut g k) (hm : m < 256) (hn : n < 4) : (s.recDrop m n).shut g k := by
  have hi : recInst m n < 1024 := by
    unfold recInst; omega
  unfold State.recDrop State.recSync
  extract_lets r s₁ s₂
  have h₂ : s₂.shut g k := h.csrSet.csrSet.csrSet.csrSet
  refine setFld (h₂.foldl fun s j hj h => ?_)
  have := List.mem_range.1 hj
  exact h.csrSet

theorem erStatusWrite (h : s.shut g k) (hm : m < 256) (hn : n < 4) : (s.erStatusWrite m n src x).shut g k :=
  (h.recDrop hm hn).ite h

theorem erUctlWrite (h : s.shut g k) (hn : n < 65536) : (s.erUctlWrite n src x).shut g k := h.codeWrite.ite h

theorem erInjWrite (h : s.shut g k) (ho : s.gateOpen .ER_INJ n = false) : (s.erInjWrite n src x).shut g k := by
  simp only [State.erInjWrite, ho, Bool.not_false, if_true]
  exact h.ite h.gateDeny

theorem wdogWrite (h : s.shut g k) : (s.wdogWrite src x).shut g k := by
  have h : (s.setFld Fld.ER_WDOG_PERIOD 0 (clampNat 1 1000 (Fld.ER_WDOG_PERIOD.of x))).shut g k := h.setFld
  unfold State.wdogWrite
  dsimp only
  split
  · exact ‹s.shut g k›
  · split
    · exact h
    · split
      · exact h
      · exact h.setFld.satField
      · exact h

theorem erCsrWrite (h : s.shut g k) {r : Reg} (hg : r.gate i = some (g, k)) (hi : i < 16384)
    (hs : r = .ER_STATUS → i < 1024) : (s.erCsrWrite r i src x).shut g k := by
  unfold State.erCsrWrite
  split
  · exact h.erUctlWrite (by omega)
  · exact h.erInjWrite (h.not_gateOpen hg)
  · have := hs rfl
    exact h.erStatusWrite (by omega) (by omega)
  · exact h.wdogWrite
  · exact h

end State.shut
end Sys2Proof.Machine
end

section
/-!
SUPPORT. What the address map gives (R22): the register's alignment and how many there are of it; and the effect of any
register's write on its unit's LOCKED gate.
-/

set_option Elab.async false

namespace Sys2Proof.Machine

/-! ## The address map -/

/-- How many registers of one name there are. -/
def Reg.insts (r : Reg) : Nat := (r.dims.map Prod.fst).prod

theorem instOf_lt {dims : List (Nat × Nat)} {off inst i : Nat} (h : instOf dims off inst = some i) :
    i < (inst + 1) * (dims.map Prod.fst).prod := by
  induction dims generalizing off inst with
  | nil =>
    simp only [instOf, Option.ite_none_right_eq_some, Option.some.injEq] at h
    simp [h.2]
  | cons d dims ih =>
    simp only [instOf, Option.ite_none_right_eq_some] at h
    calc i < (inst * d.1 + off / d.2 + 1) * (dims.map Prod.fst).prod := ih h.2
      _ ≤ ((inst + 1) * d.1) * (dims.map Prod.fst).prod := Nat.mul_le_mul_right _ (by rw [Nat.add_one_mul]; omega)
      _ = (inst + 1) * ((d :: dims).map Prod.fst).prod := by rw [List.map_cons, List.prod_cons, Nat.mul_assoc]

theorem dvd_of_instOf {dims : List (Nat × Nat)} {c off inst i : Nat} (hd : ∀ d ∈ dims, c ∣ d.2)
    (h : instOf dims off inst = some i) : c ∣ off := by
  induction dims generalizing off inst with
  | nil =>
    simp only [instOf, Option.ite_none_right_eq_some] at h
    simp [h.1]
  | cons d dims ih =>
    simp only [instOf, Option.ite_none_right_eq_some] at h
    have hmod := ih (fun e he => hd e (List.mem_cons_of_mem _ he)) h.2
    exact (Nat.dvd_mod_iff (hd d List.mem_cons_self)).1 hmod

/-- Every register and every one of its strides is aligned to 8, and none has more than 12,288 numbers. -/
theorem Reg.aligned (r : Reg) : 8 ∣ r.base ∧ (∀ d ∈ r.dims, 8 ∣ d.2) ∧ r.insts ≤ 12288 := by
  cases r <;> decide

theorem Reg.instOf_of_decode {a : Nat} {r : Reg} {i : Nat} (h : Reg.decode a = some (r, i)) :
    r.base ≤ a ∧ instOf r.dims (a - r.base) 0 = some i := by
  obtain ⟨r', _, hr⟩ := List.exists_of_findSome?_eq_some h
  simp only [Option.ite_none_right_eq_some, Option.map_eq_some_iff, Prod.mk.injEq] at hr
  obtain ⟨⟨hle, _⟩, i', hi, rfl, rfl⟩ := hr
  exact ⟨hle, hi⟩

theorem Reg.lt_insts_of_decode {a : Nat} {r : Reg} {i : Nat} (h : Reg.decode a = some (r, i)) : i < r.insts := by
  simpa [Reg.insts] using instOf_lt (Reg.instOf_of_decode h).2

theorem Reg.lt_of_decode {a : Nat} {r : Reg} {i : Nat} (h : Reg.decode a = some (r, i)) : i < 16384 := by
  have := Reg.lt_insts_of_decode h
  have := r.aligned.2.2
  omega

/-- A register's address is aligned to 8 bytes. -/
theorem Reg.mod_eight_of_decode {a : Nat} {r : Reg} {i : Nat} (h : Reg.decode a = some (r, i)) : a % 8 = 0 := by
  obtain ⟨hle, hi⟩ := Reg.instOf_of_decode h
  obtain ⟨hb, hd, _⟩ := r.aligned
  have ho := dvd_of_instOf hd hi
  omega

/-! ## The effect of a write on its unit's gate -/

/-- The gates of the units that come before the memory controllers in CSR space. -/
theorem Reg.isCtl_of_isGate {g : Reg} (h : g.isGate = true) (hw : g.window ≤ 4) : g.isCtl = true := by
  rw [Reg.isGate_iff] at h
  obtain rfl | rfl | rfl | rfl | rfl | rfl | rfl := h <;> revert hw <;> decide

theorem Reg.gate_window {g : Reg} (h : g.isGate = true) : g.window ∈ [0, 1, 3, 4, 5, 7, 12] := by
  rw [Reg.isGate_iff] at h
  obtain rfl | rfl | rfl | rfl | rfl | rfl | rfl := h <;> decide

/-- Whether a register has a gate does not depend on its number. -/
theorem Reg.isSome_gate (r : Reg) (i : Nat) : (r.gate i).isSome = (r.gate 0).isSome := by cases r <;> rfl

/-- The registers that the ports' gates guard. -/
theorem Reg.portGated {r : Reg} {i : Nat} (h : (r.gate i).isSome = true) (hw : r.window = 7) (hr : r.isGate = false) :
    r.isPortSet = true ∨ r = .PT_CBS ∨ r = .PT_CBC := by
  rw [Reg.isSome_gate] at h
  revert h hw hr
  cases r <;> decide

namespace State.shut

variable {s : State} {g : Reg} {k i : Nat} {src : Src} {x : Word}

theorem ptCsrWrite (h : s.shut g k) {r : Reg} (hg : r.gate i = some (g, k)) (hw : r.window = 7) (hr : r.isGate = false)
    (hi : i < 16384) : (s.ptCsrWrite r i src x).shut g k := by
  obtain hp | rfl | rfl := Reg.portGated (by rw [hg]; rfl) hw hr
  · unfold State.ptCsrWrite
    rw [if_pos hp]
    exact h.ptWrite hr hi
  · exact h.cbsWrite (by omega)
  · exact h

/-- Whatever the write of a register sets off, its unit's gate stays LOCKED. -/
theorem csrEffect (h : s.shut g k) {r : Reg} (hg : r.gate i = some (g, k)) (hr : r.isGate = false) (hi : i < r.insts) :
    (s.csrEffect r i src x).shut g k := by
  obtain ⟨hgate, hwin, _⟩ := Reg.gate_spec hg
  have hlt : i < 16384 := by have := r.aligned.2.2; omega
  have hlt' : i < 65536 := by omega
  have hctl (hw : r.window ≤ 4) : g.isCtl = true := Reg.isCtl_of_isGate hgate (hwin.trans_le hw)
  have hmem := Reg.gate_window hgate
  rw [hwin] at hmem
  unfold State.csrEffect
  split
  next hw => exact h.pwCsrWrite (hctl (by omega)) hr hlt'
  next hw => exact h.tbCsrWrite hr hlt
  next hw => simp [hw] at hmem
  next hw => exact h.cgCsrWrite (hctl (by omega)) hlt'
  next hw => exact h.icCsrWrite (hctl (by omega)) hlt'
  next hw => exact h.mcCsrWrite hg hr hlt
  next hw => simp [hw] at hmem
  next hw => exact h.ptCsrWrite hg hw hr hlt
  next hw => simp [hw] at hmem
  next hw => simp [hw] at hmem
  next hw => simp [hw] at hmem
  next hw => simp [hw] at hmem
  next hw => exact h.erCsrWrite hg hlt fun hs => by subst hs; exact hi
  next => simp_all

end State.shut
end Sys2Proof.Machine
end

section
/-!
SUPPORT. REGISTER_WRITE and XGATE_WRITE: the cases of a write by its address (R5, R20, R79), the frame of the registers it
names, and the gate's own moves (R9, R10).
-/

set_option Elab.async false

namespace Sys2Proof.Machine

/-! ## Bit fields -/

/-- Storing a field's own value changes nothing. -/
theorem withBits_bitsOf_self (w : Word) (hi lo : Nat) : withBits w hi lo (bitsOf w hi lo) = w := by
  refine BitVec.eq_of_getLsbD_eq fun k hk => ?_
  rw [getLsbD_withBits _ _ _ _ _ hk]
  split
  next hb => rw [testBit_bitsOf, show lo + (k - lo) = k by omega, decide_eq_true (by omega), Bool.true_and]
  next => rfl

/-- A field that is the whole word. -/
theorem withBits_whole (w v : Word) : withBits w 63 0 (bitsOf v 63 0) = v := by
  refine BitVec.eq_of_getLsbD_eq fun k hk => ?_
  rw [getLsbD_withBits _ _ _ _ _ hk, if_pos ⟨Nat.zero_le k, by omega⟩, testBit_bitsOf, decide_eq_true (by omega),
    Bool.true_and, Nat.sub_zero, Nat.zero_add]

/-- A field of one bit is that bit. -/
theorem bitsOf_one (w : Word) (b : Nat) : bitsOf w b b = bit (w.getLsbD b) := by
  refine Nat.eq_of_testBit_eq fun k => ?_
  rw [testBit_bitsOf, Nat.add_sub_cancel_left]
  cases k with
  | zero => cases w.getLsbD b <;> simp [bit]
  | succ k => cases w.getLsbD b <;> simp [bit, Nat.testBit_succ]

/-- A W1C bit after a write. -/
theorem bitsOf_clear_same (w v : Word) {b : Nat} (hb : b < 64) :
    bitsOf (w &&& ~~~ (v &&& bitMask b b)) b b = if bitsOf v b b = 1 then 0 else bitsOf w b b := by
  simp only [bitsOf_one, BitVec.getLsbD_and, BitVec.getLsbD_not, getLsbD_bitMask, hb, le_refl, decide_true, Bool.and_true,
    Bool.true_and]
  cases v.getLsbD b <;> simp [bit]

/-- A W1C bit's write leaves the fields beside it alone. -/
theorem bitsOf_clear_beside (w v : Word) {b hi lo : Nat} (hd : hi < b ∨ b < lo) :
    bitsOf (w &&& ~~~ (v &&& bitMask b b)) hi lo = bitsOf w hi lo := by
  refine Nat.eq_of_testBit_eq fun k => ?_
  rw [testBit_bitsOf, testBit_bitsOf]
  by_cases hk : k < hi + 1 - lo
  · have hb : (decide (b ≤ lo + k) && decide (lo + k ≤ b)) = false := by simp; omega
    by_cases h64 : lo + k < 64
    · simp only [BitVec.getLsbD_and, BitVec.getLsbD_not, getLsbD_bitMask, Bool.and_assoc, hb, h64, Bool.and_false,
        Bool.not_false, decide_true, Bool.and_true]
    · rw [BitVec.getLsbD_of_ge _ _ (by omega), BitVec.getLsbD_of_ge _ _ (by omega)]
  · simp [hk]

/-! ## Frames -/

namespace State.onlyRegs

variable {s t : State} {l : List (Reg × Nat)} {r : Reg} {i : Nat} {w : Word}

theorem refl (s : State) (l : List (Reg × Nat)) : s.onlyRegs s l := ⟨rfl, fun _ _ _ _ => rfl⟩

theorem csrSet (h : s.onlyRegs t l) (hm : (r, i) ∈ l) (hi : i < 65536) : s.onlyRegs (t.csrSet r i w) l := by
  obtain ⟨h₁, h₂⟩ := h
  refine ⟨congrArg (fun u : State => { u with csr := FMap.set t.csr (regKey r i) w }) h₁, fun r' i' hi' hl => ?_⟩
  have hne : r' ≠ r ∨ i' ≠ i := by
    by_contra hc
    simp only [not_or, not_not] at hc
    exact hl (by rw [hc.1, hc.2]; exact hm)
  rw [t.csrGet_csrSet_ne w hi hi' hne]
  exact h₂ r' i' hi' hl

theorem reply (h : s.onlyRegs t l) {x : BitVec 256} : s.onlyRegs (t.reply x) l :=
  ⟨congrArg (fun u : State => { u with resp := { err := false, val := x } }) h.1, h.2⟩

end State.onlyRegs

/-! ## A write by its address -/

namespace State

variable {s : State} {src : Src} {addr : PA} {a : Nat} {v : Word} {r g : Reg} {i k : Nat}

theorem does_registerWrite {P : State → Prop} :
    s.does (.registerWrite src addr v) P ↔ P (s.csrWrite src addr.toNat v) := by
  have he : exec (.registerWrite src addr v) s = .next (s.csrWrite src addr.toNat v) := rfl
  simp [State.does, he]

theorem does_xgateWrite {P : State → Prop} (hd : Reg.decode addr.toNat = some (r, i)) (hg : r.isGate = true) :
    s.does (.xgateWrite src addr v) P ↔ P (s.csrWrite src addr.toNat v) := by
  have he : exec (.xgateWrite src addr v) s = execXgateWrite src addr v s := rfl
  simp [State.does, he, execXgateWrite, hd, hg]

theorem csrWrite_misaligned (hl : s.srcLive src = true) (ha : a % 8 ≠ 0) : s.csrWrite src a v = s.replyErr := by
  simp [State.csrWrite, hl, ha]

theorem csrWrite_nowhere (hl : s.srcLive src = true) (ha : a % 8 = 0) (hd : Reg.decode a = none) :
    s.csrWrite src a v = { s with resp := { val := 0, err := !(isCsr a && csrMapped a) } } := by
  unfold State.csrWrite
  simp only [hl, Bool.not_true, Bool.false_eq_true, if_false, ha, ne_eq, not_true, hd]
  cases isCsr a && csrMapped a <;> rfl

theorem csrWrite_closed (hl : s.srcLive src = true) (hd : Reg.decode a = some (r, i)) (hc : s.islOpen r.island = false) :
    s.csrWrite src a v = s.replyErr := by
  have ha := Reg.mod_eight_of_decode hd
  have hu : s.unitUp r = false := hc
  unfold State.csrWrite State.csrPortReeve State.csrPort
  simp only [hl, ha, hd, hu]
  simp

theorem csrWrite_gate (hl : s.srcLive src = true) (hd : Reg.decode a = some (r, i)) (ho : s.islOpen r.island = true)
    (hg : r.isGate = true) : s.csrWrite src a v = (s.gateWrite r i src v).reply 0 := by
  have ha := Reg.mod_eight_of_decode hd
  have hu : s.unitUp r = true := ho
  simp [State.csrWrite, hl, ha, hd, hg, hu]

/-- A register that the Reeve may not write unseen is written at its unit's port. -/
theorem csrWrite_port (hl : s.srcLive src = true) (hd : Reg.decode a = some (r, i)) (hg : r.isGate = false)
    (hr : r.reeveUnseen = false) : s.csrWrite src a v = s.csrPort src r i (fun s => s.csrEffect r i src v) := by
  have ha := Reg.mod_eight_of_decode hd
  simp [State.csrWrite, hl, ha, hd, hg, hr]

theorem csrWrite_seen (hl : s.srcLive src = true) (hd : Reg.decode a = some (r, i)) (ho : s.islOpen r.island = true)
    (hg : r.isGate = false) (hs : src ≠ .reeve) :
    s.csrWrite src a v = ((s.gateSees r i).reply 0).csrEffect r i src v := by
  have hu : s.unitUp r = true := ho
  cases hr : r.reeveUnseen with
  | false => rw [csrWrite_port hl hd hg hr, s.csrPort_of_live src r i _ hl hu]
  | true =>
    have ha := Reg.mod_eight_of_decode hd
    simp [State.csrWrite, State.csrPortReeve, hl, ha, hd, hg, hr, hu, hs]

/-! ## The gate's moves -/

theorem gateState_gateFall (s : State) (g : Reg) (k : Nat) : bitsOf ((s.gateFall g k).csrGet g k) 17 16 =
    if bitsOf (s.csrGet g k) 17 16 = 1 then 0 else bitsOf (s.csrGet g k) 17 16 := by
  unfold State.gateFall
  split
  next => rw [csrGet_csrSet_same, bitsOf_withBits_same _ _ _ _ (by decide), Nat.zero_mod]
  next => rfl

theorem denied_gateFall (s : State) (g : Reg) (k : Nat) :
    bitsOf ((s.gateFall g k).csrGet g k) 18 18 = bitsOf (s.csrGet g k) 18 18 := by
  unfold State.gateFall
  split
  next => rw [csrGet_csrSet_same, bitsOf_withBits_disj _ _ _ _ _ _ (by decide)]
  next => rfl

theorem onlyRegs_gateFall (hk : k < 65536) {l : List (Reg × Nat)} (hm : (g, k) ∈ l) : s.onlyRegs (s.gateFall g k) l := by
  unfold State.gateFall
  split
  · exact (onlyRegs.refl s l).csrSet hm hk
  · exact .refl s l

/-- Any write at the port of a unit whose gate is ARMED leaves it LOCKED (R10). -/
theorem shut_gateSees (hg : r.gate i = some (g, k)) (hk : k < 65536) (hs : bitsOf (s.csrGet g k) 17 16 = 1) :
    (s.gateSees r i).shut g k := by
  refine ⟨(Reg.gate_spec hg).1, hk, ?_⟩
  simp only [State.gateSees, hg]
  rw [gateState_gateFall, if_pos hs]

theorem gateState_xgateWrite (s : State) (g : Reg) (k : Nat) (v : Word) : bitsOf ((s.xgateWrite g k v).csrGet g k) 17 16 =
    gateNext (bitsOf (s.csrGet g k) 17 16) (bitsOf v 15 0) := by
  have hlt : ∀ st key, gateNext st key < 2 ^ (17 + 1 - 16) := by
    intro st key
    unfold gateNext
    split_ifs <;> decide
  unfold State.xgateWrite
  dsimp only
  rw [csrGet_csrSet_same, bitsOf_withBits_same _ _ _ _ (by decide), Nat.mod_eq_of_lt (hlt _ _)]
  congr 1
  split
  · exact bitsOf_withBits_disj _ _ _ _ _ _ (by decide)
  · rfl

theorem denied_xgateWrite (s : State) (g : Reg) (k : Nat) (v : Word) : bitsOf ((s.xgateWrite g k v).csrGet g k) 18 18 =
    if bitsOf v 18 18 = 1 then 0 else bitsOf (s.csrGet g k) 18 18 := by
  unfold State.xgateWrite
  dsimp only
  rw [csrGet_csrSet_same, bitsOf_withBits_disj _ _ _ _ _ _ (by decide)]
  split
  · exact bitsOf_withBits_same _ _ _ _ (by decide)
  · rfl

/-- What a gate's own write leaves in it, whatever status the unit records. -/
theorem csrGet_gateWrite (hk : k < 16384) (hr : s.gateRefuses g k src = false) (hg : g.isGate = true) :
    (s.gateWrite g k src v).csrGet g k = (s.xgateWrite g k v).csrGet g k := by
  have hne : ∀ {f : Fld}, f.reg.isGate = false → g ≠ f.reg := fun hf hc => by rw [← hc, hg] at hf; cases hf
  unfold State.gateWrite
  simp only [hr, Bool.false_eq_true, if_false]
  split
  · exact State.csrGet_setFld_ne _ _ (by omega) (by omega) (.inl (hne rfl))
  · split
    · exact State.csrGet_setFld_ne _ _ (by omega) (by omega) (.inl (hne rfl))
    · rfl

theorem onlyRegs_gateWrite (hk : k < 16384) (hr : s.gateRefuses g k src = false) :
    s.onlyRegs (s.gateWrite g k src v)
      ((g, k) :: (if g = .MC_XGATE then [(.MC_PCSTAT, k), (.MC_STK, k - 64)] else [])) := by
  have h : s.onlyRegs (s.xgateWrite g k v)
      ((g, k) :: (if g = .MC_XGATE then [(.MC_PCSTAT, k), (.MC_STK, k - 64)] else [])) :=
    (onlyRegs.refl s _).csrSet List.mem_cons_self (by omega)
  unfold State.gateWrite
  simp only [hr, Bool.false_eq_true, if_false]
  split
  next hg => exact h.csrSet (r := .MC_PCSTAT) (by simp [hg.1]) (by omega)
  · split
    next hg => exact h.csrSet (r := .MC_STK) (by simp [hg.1]) (by omega)
    · exact h

end State
end Sys2Proof.Machine
end

section
/-!
SUPPORT. A write by the access codes of a register's fields (R4, R5), and the clauses of O22 in the order of its statement.
-/

set_option Elab.async false

namespace Sys2Proof.Machine
namespace State

variable {s : State} {src : Src} {addr : PA} {a : Nat} {v : Word} {r g : Reg} {i k : Nat}

/-! ## A write by access codes -/

theorem writeFields_ro {fs : List Fld} (h : ∀ f ∈ fs, f.acc = .ro) (opened locked : Bool) (old : Word) :
    writeFields opened locked fs old v = old := by
  refine List.foldlRecOn (motive := fun w => w = old) fs _ rfl fun w hw f hf => ?_
  rw [writeField, h f hf]
  exact hw

/-- A gate's move leaves every other register alone. -/
theorem csrGet_gateSees (hi : i < 16384) {r' : Reg} {i' : Nat} (hr : r'.isGate = false) (hi' : i' < 65536) :
    (s.gateSees r i).csrGet r' i' = s.csrGet r' i' := by
  obtain h | ⟨g, k, w, hg, h⟩ := s.gateSees_cases r i
  · rw [h]
  · obtain ⟨hgate, _, hk⟩ := Reg.gate_spec hg
    rw [h]
    exact s.csrGet_csrSet_reg w (by omega) hi' fun hc => by rw [hc, hgate] at hr; cases hr

theorem csrGet_gateDeny (hi : i < 16384) {r' : Reg} {i' : Nat} (hr : r'.isGate = false) (hi' : i' < 65536) :
    (s.gateDeny r i).csrGet r' i' = s.csrGet r' i' := by
  unfold State.gateDeny
  split
  next g k hg =>
    obtain ⟨hgate, _, hk⟩ := Reg.gate_spec hg
    exact s.csrGet_csrSet_reg _ (by omega) hi' fun hc => by rw [hc, hgate] at hr; cases hr
  · rfl

/-- The written register itself: its fields by their codes. -/
theorem csrGet_codeWrite (hi : i < 16384) (hr : r.isGate = false) :
    (s.codeWrite r i v).csrGet r i = writeFields (s.gateOpen r i) false r.fields (s.csrGet r i) v := by
  unfold State.codeWrite
  dsimp only
  split
  · rw [csrGet_gateDeny hi hr (by omega), csrGet_csrSet_same]
  · rw [csrGet_csrSet_same]

/-- Without an XRW field a write by access codes touches its own register alone. -/
theorem codeWrite_of_no_xrw (h : r.fields.any (fun f => f.acc == .xrw) = false) :
    s.codeWrite r i v = s.csrSet r i (writeFields (s.gateOpen r i) false r.fields (s.csrGet r i) v) := by
  simp [State.codeWrite, h]

theorem gateOpen_iff (hg : r.gate i = some (g, k)) : s.gateOpen r i = true ↔ bitsOf (s.csrGet g k) 17 16 = 2 := by
  simp [State.gateOpen, State.gateState, hg]

theorem onlyRegs_gateSees (hg : r.gate i = some (g, k)) (hi : i < 16384) {l : List (Reg × Nat)} (hm : (g, k) ∈ l) :
    s.onlyRegs (s.gateSees r i) l := by
  have := (Reg.gate_spec hg).2.2
  simp only [State.gateSees, hg]
  exact onlyRegs_gateFall (by omega) hm

/-! ## Gates -/

section
variable (hl : s.srcLive src = true) (hd : Reg.decode addr.toNat = some (r, i)) (ho : s.islOpen r.island = true)
include hl hd ho

/-- A gate's write that its unit refuses (assumption log 335). -/
theorem xgate_refused (hg : r.isGate = true) (hr : s.gateRefuses r i src = true) : s.does (.xgateWrite src addr v) (fun u =>
    u.resp.err = false ∧ s.onlyRegs u [(r, i)] ∧ bitsOf (u.csrGet r i) 18 18 = bitsOf (s.csrGet r i) 18 18 ∧
    bitsOf (u.csrGet r i) 17 16 = (if bitsOf (s.csrGet r i) 17 16 = 1 then 0 else bitsOf (s.csrGet r i) 17 16)) := by
  have hi := Reg.lt_of_decode hd
  have hw : s.gateWrite r i src v = s.gateFall r i := by rw [State.gateWrite, if_pos hr]
  rw [does_xgateWrite hd hg, csrWrite_gate hl hd ho hg, hw]
  exact ⟨rfl, (onlyRegs_gateFall (by omega) (by simp)).reply, s.denied_gateFall r i, s.gateState_gateFall r i⟩

/-- A gate's write that is performed: LOCKED, ARMED, OPEN by the keys, DENIED by W1C (R9, R10). -/
theorem xgate_performed (hg : r.isGate = true) (hr : s.gateRefuses r i src = false) :
    s.does (.xgateWrite src addr v) (fun u =>
      u.resp.err = false ∧ s.onlyRegs u ((r, i) :: (if r = .MC_XGATE then [(.MC_PCSTAT, i), (.MC_STK, i - 64)] else [])) ∧
      bitsOf (u.csrGet r i) 18 18 = (if bitsOf v 18 18 = 1 then 0 else bitsOf (s.csrGet r i) 18 18) ∧
      (bitsOf (s.csrGet r i) 17 16 = 0 → bitsOf (u.csrGet r i) 17 16 = (if bitsOf v 15 0 = 0x5170 then 1 else 0)) ∧
      (bitsOf (s.csrGet r i) 17 16 = 1 → bitsOf (u.csrGet r i) 17 16 =
        (if bitsOf v 15 0 = 0xE7A1 then 2 else if bitsOf v 15 0 = 0x5170 then 1 else 0)) ∧
      (bitsOf (s.csrGet r i) 17 16 = 2 → bitsOf (u.csrGet r i) 17 16 = 0)) := by
  have hi := Reg.lt_of_decode hd
  have hw : ((s.gateWrite r i src v).reply 0).csrGet r i = (s.xgateWrite r i v).csrGet r i := csrGet_gateWrite hi hr hg
  rw [does_xgateWrite hd hg, csrWrite_gate hl hd ho hg]
  simp only [hw, gateState_xgateWrite, denied_xgateWrite]
  exact ⟨rfl, (onlyRegs_gateWrite hi hr).reply, trivial, fun h => by simp [gateNext, h], fun h => by simp [gateNext, h],
    fun h => by simp [gateNext, h]⟩

/-- Any write but the Reeve's makes an ARMED gate of the unit LOCKED (R10). -/
theorem write_drops_armed (hn : r.isGate = false) (hg : r.gate i = some (g, k)) (hs : bitsOf (s.csrGet g k) 17 16 = 1)
    (hr : src ≠ .reeve) :
    s.does (.registerWrite src addr v) (fun u => bitsOf (u.csrGet g k) 17 16 = 0) := by
  have hi := Reg.lt_of_decode hd
  have hk := (Reg.gate_spec hg).2.2
  rw [does_registerWrite, csrWrite_seen hl hd ho hn hr]
  have h : ((s.gateSees r i).reply 0).shut g k := (shut_gateSees hg (by omega) hs).update
  exact (h.csrEffect hg hn (Reg.lt_insts_of_decode hd)).locked

/-! ## Access codes -/

theorem clock_readOnly (hr : r = .TB_NOW_LO ∨ r = .TB_NOW_HI ∨ r = .TB_PPSCAP) :
    s.does (.registerWrite src addr v) (fun u => u.csrGet r i = s.csrGet r i) := by
  have hi := Reg.lt_of_decode hd
  have hw : ∀ t : State, t.csrEffect r i src v = t.codeWrite r i v := fun t => by obtain rfl | rfl | rfl := hr <;> rfl
  have hf : ∀ f ∈ r.fields, f.acc = .ro := by obtain rfl | rfl | rfl := hr <;> decide
  have hn : r.isGate = false := by obtain rfl | rfl | rfl := hr <;> rfl
  have hu : r.reeveUnseen = false := by obtain rfl | rfl | rfl := hr <;> rfl
  rw [does_registerWrite, csrWrite_port hl hd hn hu, s.csrPort_of_live src r i _ hl ho, hw, csrGet_codeWrite hi hn,
    writeFields_ro hf]
  exact csrGet_gateSees hi hn (by omega)

end

theorem istate_write (hl : s.srcLive src = true) (hd : Reg.decode addr.toNat = some (.PW_ISTATE, i))
    (ho : s.islOpen (Reg.island .PW_ISTATE) = true) (f : Fld) : s.does (.registerWrite src addr v) (fun u =>
      u.resp.err = false ∧ s.onlyRegs u [(.PW_ISTATE, i), (.PW_XGATE, 0)] ∧
      (f ∈ Reg.fields .PW_ISTATE → f.acc = .ro → u.fld f i = s.fld f i) ∧
      u.fld Fld.PW_ISTATE_LOCK_LOST i =
        (if Fld.PW_ISTATE_LOCK_LOST.of v = 1 then 0 else s.fld Fld.PW_ISTATE_LOCK_LOST i)) := by
  have hi := Reg.lt_of_decode hd
  have hg : Reg.gate .PW_ISTATE i = some (.PW_XGATE, 0) := rfl
  have he : ∀ t : State, t.csrEffect .PW_ISTATE i src v =
      t.csrSet .PW_ISTATE i (t.csrGet .PW_ISTATE i &&& ~~~ (v &&& bitMask 13 13)) := fun t => by
    show t.codeWrite .PW_ISTATE i v = _
    rw [codeWrite_of_no_xrw (by decide)]
    rfl
  have hs : ((s.gateSees .PW_ISTATE i).reply 0).csrGet .PW_ISTATE i = s.csrGet .PW_ISTATE i :=
    csrGet_gateSees hi rfl (by omega)
  rw [does_registerWrite, csrWrite_port hl hd rfl rfl, s.csrPort_of_live src _ i _ hl ho, he, hs]
  refine ⟨rfl, ((onlyRegs_gateSees hg hi (by simp)).reply).csrSet (by simp) (by omega), fun hf ha => ?_, ?_⟩
  · have hb : f.reg = .PW_ISTATE ∧ (f.hi < 13 ∨ 13 < f.lo) := by
      revert ha
      simp only [Reg.fields, List.mem_cons, List.not_mem_nil, or_false] at hf
      obtain rfl | rfl | rfl | rfl | rfl | rfl | rfl | rfl := hf <;> decide
    simp only [State.fld, hb.1, csrGet_csrSet_same]
    exact bitsOf_clear_beside _ _ hb.2
  · show bitsOf (State.csrGet _ .PW_ISTATE i) 13 13 = _
    rw [csrGet_csrSet_same]
    exact bitsOf_clear_same _ _ (by decide)

/-- A trainer's write of the pattern register: by its access code, and a status. -/
theorem csrEffect_patd (ht : mcTrainer src = true) : s.csrEffect .MC_PATD i src v =
    (s.codeWrite .MC_PATD i v).pcStatus i (okDenied (s.gateOpen .MC_PATD i)) := by
  have hx : (Reg.fields .MC_PATD).any (fun f => f.acc == .xrw) = true := by decide
  show s.pcWrite .MC_PATD i src v = _
  simp only [State.pcWrite, State.mcWrite, ht, hx, if_true, Bool.not_true, Bool.false_or]

/-- The pattern register after a write: the value written under an OPEN gate, the old one else. -/
theorem writeFields_patd (opened : Bool) (old : Word) :
    writeFields opened false (Reg.fields .MC_PATD) old v = if opened then v else old := by
  cases opened
  · exact withBits_bitsOf_self old 63 0
  · exact withBits_whole old v

/-- A register that the status of a controller's write leaves alone. -/
theorem csrGet_pcStatus (hr : r ≠ .MC_PCSTAT) {n : Nat} (hi : i < 65536) :
    (s.pcStatus i n).csrGet r i = s.csrGet r i := csrGet_setFld_ne _ _ hi hi (.inl hr)

/-- An XRW register under its gate: written when the gate is OPEN, else unchanged with DENIED set (R4, R11). -/
theorem patd_write (hl : s.srcLive src = true) (hd : Reg.decode addr.toNat = some (.MC_PATD, i))
    (ho : s.islOpen (Reg.island .MC_PATD) = true) (ht : mcTrainer src = true) :
    (bitsOf (s.csrGet .MC_XGATE i) 17 16 = 2 → s.does (.registerWrite src addr v) (fun u => u.csrGet .MC_PATD i = v ∧
      bitsOf (u.csrGet .MC_XGATE i) 17 16 = 2)) ∧
    (bitsOf (s.csrGet .MC_XGATE i) 17 16 ≠ 2 → s.does (.registerWrite src addr v) (fun u =>
      u.csrGet .MC_PATD i = s.csrGet .MC_PATD i ∧ bitsOf (u.csrGet .MC_XGATE i) 18 18 = 1)) := by
  have hi := Reg.lt_of_decode hd
  have hi' : i < 65536 := by omega
  have hg : Reg.gate .MC_PATD i = some (.MC_XGATE, i) := rfl
  let t : State := (s.gateSees .MC_PATD i).reply 0
  have hgate : bitsOf (t.csrGet .MC_XGATE i) 17 16 =
      if bitsOf (s.csrGet .MC_XGATE i) 17 16 = 1 then 0 else bitsOf (s.csrGet .MC_XGATE i) 17 16 := s.gateState_gateFall _ _
  have hold : t.csrGet .MC_PATD i = s.csrGet .MC_PATD i := csrGet_gateSees hi rfl hi'
  have hu : s.csrWrite src addr.toNat v =
      (t.codeWrite .MC_PATD i v).pcStatus i (okDenied (t.gateOpen .MC_PATD i)) := by
    rw [csrWrite_port hl hd rfl rfl, s.csrPort_of_live src _ i _ hl ho, csrEffect_patd ht]
  simp only [does_registerWrite, hu, csrGet_pcStatus (r := .MC_PATD) (by decide) hi',
    csrGet_pcStatus (r := .MC_XGATE) (by decide) hi',
    csrGet_codeWrite hi (show Reg.isGate .MC_PATD = false from rfl), writeFields_patd, hold]
  constructor
  · intro h
    have hop : t.gateOpen .MC_PATD i = true := (gateOpen_iff hg).2 (by rw [hgate, h]; rfl)
    refine ⟨by rw [hop]; rfl, ?_⟩
    simp only [State.codeWrite, hop, Bool.not_true, Bool.false_and, Bool.false_eq_true, if_false]
    rw [csrGet_csrSet_reg _ _ hi' hi' (by decide), hgate, h]
    rfl
  · intro h
    have hop : t.gateOpen .MC_PATD i = false := by
      rw [Bool.eq_false_iff, Ne, gateOpen_iff hg, hgate]
      split_ifs
      · decide
      · exact h
    refine ⟨by rw [hop]; rfl, ?_⟩
    have hx : (Reg.fields .MC_PATD).any (fun f => f.acc == .xrw) = true := by decide
    simp only [State.codeWrite, State.gateDeny, hop, hx, hg, Bool.not_false, Bool.and_self, if_true, csrGet_csrSet_same]
    exact bitsOf_withBits_same _ _ _ _ (by decide)

end State

/-! ## A register's own command -/

section
variable {s : State} {src : Src} {addr : PA} {v : Word}

/-- A command at a unit's port does what the write at its register's address does. -/
theorem State.does_of_csrPort {c : Instr} {r : Reg} {i : Nat} {e : State → State} (hl : s.srcLive src = true)
    (hd : Reg.decode addr.toNat = some (r, i)) (hg : r.isGate = false) (hr : r.reeveUnseen = false)
    (hc : exec c s = .next (s.csrPort src r i e)) (he : ∀ t : State, t.csrEffect r i src v = e t) :
    s.does (.registerWrite src addr v) (fun u => s.does c (fun w => w = u)) := by
  rw [State.does_registerWrite, State.csrWrite_port hl hd hg hr]
  simp only [he]
  exact ⟨_, hc, rfl⟩

end
end Sys2Proof.Machine

open Sys2Proof Sys2Proof.Machine

/-- Settles O22: the cases of a write by its address, the gate's moves and the access codes; that an ARMED gate falls rests
on `State.shut.csrEffect`, that no write's effect arms or opens its unit's gate again. -/
theorem csrWrites : Obligations.CsrWrites := by
  unfold Obligations.CsrWrites
  intro s src addr v r g i k f p t q n hl
  refine ⟨fun ha => ?_, fun ha hd => ?_, fun _ hd => ⟨fun hc => ?_, fun ho => ⟨State.xgate_refused hl hd ho,
    State.xgate_performed hl hd ho, fun hn hg hs hr => State.write_drops_armed hl hd ho hn hg hs hr,
    fun _ => State.clock_readOnly hl hd ho, ?_, ?_⟩⟩, fun hd => ?_, fun hd => ?_, fun hd => ?_, fun hd hv => ?_⟩
  · rw [State.does_registerWrite, State.csrWrite_misaligned hl ha]
    rfl
  · rw [State.does_registerWrite, State.csrWrite_nowhere hl ha hd]
  · rw [State.does_registerWrite, State.csrWrite_closed hl hd hc]
    rfl
  · rintro rfl
    exact State.istate_write hl hd ho f
  · rintro rfl ht hg
    cases hg
    exact State.patd_write hl hd ho ht
  · exact State.does_of_csrPort hl hd rfl rfl rfl fun _ => rfl
  · exact State.does_of_csrPort hl hd rfl rfl rfl fun _ => rfl
  · exact State.does_of_csrPort hl hd rfl rfl rfl fun _ => rfl
  · have hw : withBits v 1 0 2 = v := by
      have := withBits_bitsOf_self v 1 0
      rwa [show bitsOf v 1 0 = 2 from hv] at this
    exact State.does_of_csrPort (e := fun s => s.pcctlWrite p.val src (withBits v 1 0 2)) hl hd rfl rfl rfl fun t => by
      rw [hw]
      rfl
end

section
/-!
SUPPORT. Refutations by one state: what a command that completes does is read off the state it gives.
-/

set_option Elab.async false

namespace Sys2Proof.Machine

/-- What a command does that completes with `u`. -/
theorem State.does_iff_of_next {c : Instr} {s u : State} {P : State → Prop} (he : exec c s = .next u) :
    s.does c P ↔ P u := by
  simp [State.does, he]

/-- A state of phase 7 whose interrupt stack names a source past the hardware's 171: its number, beside `IC_SRC`, is the key
of `BT_CREL_0`, so that the pop which the parked core's entry makes clears a bit of that register.  No run reaches it, but the
statement asks for no bound on the interrupt stack. -/
def releaseCounter : State :=
  { State.reset with
    pwr := { mode := .start, phase := 7 }
    reeve := { run := .running }
    icStack := [(0, [((Reg.BT_CREL.ctorIdx - Reg.IC_SRC.ctorIdx) * 65536, 0)])]
    csr := [(regKey .PW_ISTATE 0, 1), (regKey .PW_ISTATE 20, 1), (regKey .PW_ISTATE 23, 1), (regKey .BT_CREL 0, 0x10000000)] }

/-- The release of core 0 in `releaseCounter` leaves bit 28 of `BT_CREL_0` clear, which was set. -/
theorem releaseCounter_crel :
    (releaseCounter.csrPort .reeve .BT_CREL 0 fun s => s.crelWrite 0 .reeve 1).csrGet .BT_CREL 0 = 1 := by
  decide +kernel

/-- The first stage of COCOON_RESET, for a call from H mode that is no second long service. -/
theorem State.exec_cocoonReset_first {m : SlotId} {flash0 flash1 : List Byte} {trngOk : Bool} {s : State}
    (hc : s.called m.val 0x0C true) (h2 : (s.slot m.val).second = false) (h0 : s.svc.ckReset = 0) :
    exec (.cocoonReset m flash0 flash1 trngOk) s = .next s.cocoonResetBegins := by
  obtain ⟨-, hserving, hmode⟩ := hc
  change execCocoonReset m flash0 flash1 trngOk s = _
  simp [execCocoonReset, State.longService, hserving, hmode, h2, h0]

/-- A line homed in stack 20480: the first of its pseudo channels has number 5 · 65536. -/
def flushLine : Nat := 20480 * 0x600000000 / 64

/-- A copy of `flushLine` in the LLC that no memory holds yet. -/
def flushCopy (way : Nat) (sec : Bool) : LlcLine :=
  { line := flushLine, way := way, dirty := true, reuse := false, sec := sec, data := 0, poison := 0 }

/-- A state with a COCOON_RESET of H mode in slot 0 and two modified copies of a line past the hardware's stacks.  The flush of
the secure one finds the insecure one first, whose write-back the firewall of pseudo channel 327680 refuses: `CK_FWLAST` of that
number has the key of `CK_CSTAT`.  No run reaches it, but the statement asks for no bound on the lines. -/
def flushCounter : State :=
  { State.reset with
    slots := [(0, { taken := true, code := 0x0C, hmode := true })]
    llc := [(homeSlice flushLine, [flushCopy 0 false, flushCopy 1 true])]
    csr := [(regKey .RV_STAT 0, 2), (regKey .MC_PCSTAT 327680, 2), (regKey .MC_ILV 0, 1), (regKey .CK_FWCTL 327680, 1)] }

theorem flushCounter_called : flushCounter.called (0 : SlotId).val 0x0C true :=
  ⟨by decide +kernel, by decide +kernel, rfl⟩

theorem flushCounter_second : (flushCounter.slot (0 : SlotId).val).second = false := by decide +kernel

/-- The flush clears the count that the reset has raised. -/
theorem flushCounter_resets : flushCounter.cocoonResetBegins.fld Fld.CK_CSTAT_RESETS 0 = 0 := by
  decide +kernel

end Sys2Proof.Machine

open Sys2Proof Sys2Proof.Machine

/-- Refutes O9: CORE_RELEASE does not leave `BT_CREL` at its old value or the bits written where the interrupt stack holds a
source number that no hardware has (`releaseCounter`), whose pending bit lies in `BT_CREL` itself. -/
theorem not_startUpPhases : ¬ Obligations.StartUpPhases := by
  unfold Obligations.StartUpPhases
  intro h
  obtain ⟨-, -, -, -, -, -, hrel⟩ := h releaseCounter 0 [] [] true 0 0 1 rfl rfl rfl
  have hdo := hrel rfl rfl (by decide +kernel) (.inl rfl)
  rw [State.does_iff_of_next rfl] at hdo
  obtain ⟨hcrel, -⟩ := hdo
  exact absurd (releaseCounter_crel.symm.trans hcrel) (by decide +kernel)

/-- Refutes O11: the first stage of COCOON_RESET does not count the reset where the flush of the slices refuses a write-back of
a line past the hardware's stacks (`flushCounter`), whose firewall's record lies in `CK_CSTAT`. -/
theorem not_firmwareServicesAndLands : ¬ Obligations.FirmwareServicesAndLands := by
  unfold Obligations.FirmwareServicesAndLands
  intro h
  obtain ⟨-, -, -, -, -, -, -, -, -, hreset, -⟩ := h 0 flushCounter .reeve 0 0 [] [] true
  obtain ⟨hfirst, -⟩ := hreset flushCounter_called flushCounter_second
  have hdo := hfirst rfl
  rw [State.does_iff_of_next (State.exec_cocoonReset_first flushCounter_called flushCounter_second rfl)] at hdo
  obtain ⟨-, -, hcount, -⟩ := hdo
  exact absurd (flushCounter_resets.symm.trans hcount) (by decide +kernel)
end

section
/-!
SUPPORT. The frame of every access of memory and of the ports' switches over the module's board: the supplies and the input,
the islands, the bell, the services and their calls, the keys and what the outside drives stay as they are.  One lemma per
operation, as for the control registers.
-/

set_option Elab.async false

namespace Sys2Proof.Machine

/-- The parts of the state that no access of memory and no port's switch touches. -/
def State.board (s : State) : Power × FMap Island × Bell × External × Tap × FMap Slot × FMap Slot × Services × FMap KeySlot :=
  (s.pwr, s.isl, s.bell, s.ext, s.tap, s.slots, s.ckSlots, s.svc, s.keys)

/-- From `s` to `t` the board has not changed. -/
def State.boardKept (s t : State) : Prop := t.board = s.board

namespace State.boardKept

variable {s₀ s t : State} {a b c e f g i k l m n p q u w v pa st sa sid line loc code pca sym home slice kind dist link : Nat}
  {sec inj bad read write whole gran alloc store : Bool}

theorem refl (s : State) : s.boardKept s := rfl

theorem pwr (h : s₀.boardKept s) : s.pwr = s₀.pwr := congrArg (·.1) h

/-! ## Updates of the state -/

theorem update (h : s₀.boardKept s) (hb : t.board = s.board := by rfl) : s₀.boardKept t := hb.trans h

theorem csrSet (h : s₀.boardKept s) {r : Reg} {x : Word} : s₀.boardKept (s.csrSet r i x) := h.update
theorem setFld (h : s₀.boardKept s) {f : Fld} : s₀.boardKept (s.setFld f i v) := h.update
theorem satField (h : s₀.boardKept s) {f : Fld} : s₀.boardKept (s.satField f i) := h.update
theorem memWrite (h : s₀.boardKept s) : s₀.boardKept (s.memWrite a n v) := h.update

theorem ite {P : Prop} [Decidable P] (ht : s₀.boardKept s) (hu : s₀.boardKept t) : s₀.boardKept (if P then s else t) := by
  split <;> assumption

theorem foldl {α : Type} {l : List α} {f : State → α → State} (h : s₀.boardKept s)
    (hf : ∀ s x, s₀.boardKept s → s₀.boardKept (f s x)) : s₀.boardKept (l.foldl f s) :=
  List.foldlRecOn l f h fun s hs x _ => hf s x hs

/-- What holds of a call's second result holds of the state that a pattern names. -/
theorem of_eq {α : Type} {y : α × State} {x : α} (h : s₀.boardKept y.2) (hy : y = (x, t)) : s₀.boardKept t := by
  subst hy
  exact h

theorem setHbmSym (h : s₀.boardKept s) {x : FMap Burst} : s₀.boardKept { s with hbmSym := x } := h.update
theorem modCore (h : s₀.boardKept s) {f : Core → Core} : s₀.boardKept (s.modCore c f) := h.update
theorem modHctl (h : s₀.boardKept s) {f : HbmCtl → HbmCtl} : s₀.boardKept (s.modHctl p f) := h.update
theorem modPort (h : s₀.boardKept s) {f : Port → Port} : s₀.boardKept (s.modPort p f) := h.update
theorem modThread (h : s₀.boardKept s) {f : Thread → Thread} : s₀.boardKept (s.modThread p f) := h.update
theorem modGroup (h : s₀.boardKept s) {f : Group → Group} : s₀.boardKept (s.modGroup g f) := h.update
theorem llcPutAll (h : s₀.boardKept s) {l : List LlcLine} : s₀.boardKept (s.llcPutAll n l) := h.update
theorem freeVal (h : s₀.boardKept s) : s₀.boardKept s.freeVal.2 := h.update
theorem reeveEvent (h : s₀.boardKept s) : s₀.boardKept (s.reeveEvent b) := h.update
theorem mcheck (h : s₀.boardKept s) {x : McPend} : s₀.boardKept (s.mcheck c x) := h.update

/-! ## Error records -/

theorem errCheck (h : s₀.boardKept s) {d : BitVec 16} {x : Word} : s₀.boardKept (s.errCheck c d x) := by
  unfold State.errCheck
  split
  · exact h.update
  · exact h.mcheck

theorem recSync (h : s₀.boardKept s) : s₀.boardKept (s.recSync u) := h.setFld

theorem recFill (h : s₀.boardKept s) {e : ErrRec} : s₀.boardKept (s.recFill e n) :=
  h.csrSet.csrSet.csrSet.csrSet.foldl fun _ _ h => h.csrSet

theorem recStore (h : s₀.boardKept s) {e : ErrRec} : s₀.boardKept (s.recStore e).1 := by
  unfold State.recStore
  split
  · exact h.satField.csrSet
  · exact h.recFill.recSync
  · exact h.satField

theorem logErr (h : s₀.boardKept s) {e : ErrRec} : s₀.boardKept (s.logErr e) :=
  (h.recStore.reeveEvent.foldl fun _ _ h => h.errCheck).ite
    ((h.recStore.reeveEvent.modCore.ite h.recStore.reeveEvent).ite h.recStore)

theorem takeInj (h : s₀.boardKept s) : s₀.boardKept (s.takeInj u p read).2 := by
  unfold State.takeInj
  split
  · exact h.setFld
  · exact h

/-! ## Firewalls and unit counters -/

theorem fwRefused (h : s₀.boardKept s) {q : FwReq} : s₀.boardKept (s.fwRefused gran f pa q) := by
  unfold State.fwRefused
  cases gran <;> exact h.satField.setFld.setFld

theorem fwRecord (h : s₀.boardKept s) {q : FwReq} : s₀.boardKept (s.fwRecord gran f pa q) := h.logErr

theorem fwCheck (h : s₀.boardKept s) {q : FwReq} : s₀.boardKept (s.fwCheck gran f pa q write).2 := by
  unfold State.fwCheck
  split
  · exact h
  · exact h.fwRefused.fwRecord.ite h.fwRefused

theorem pmUnitFrom (h : s₀.boardKept s) {sel cnt : Reg} : s₀.boardKept (s.pmUnitFrom sel cnt b code n c k w) := by
  induction w generalizing s c k with
  | zero => exact h
  | succ w ih => exact ih (((h.ite h.csrSet).csrSet).ite (h.ite h.csrSet))

theorem pmSlice (h : s₀.boardKept s) : s₀.boardKept (s.pmSlice u code n sec) := h.ite h.pmUnitFrom
theorem pmHbm (h : s₀.boardKept s) : s₀.boardKept (s.pmHbm p code n sec) := h.ite h.pmUnitFrom
theorem pmSliceFree (h : s₀.boardKept s) : s₀.boardKept (s.pmSliceFree u code sec) := h.ite h.freeVal.pmSlice
theorem pmHbmFree (h : s₀.boardKept s) : s₀.boardKept (s.pmHbmFree p code sec) := h.ite h.freeVal.pmHbm

theorem pmSliceAs (h : s₀.boardKept t) : s₀.boardKept (s.pmSliceAs t slice) := h.foldl fun _ _ h => h.csrSet.csrSet
theorem quietIf (h : s₀.boardKept t) : s₀.boardKept (s.quietIf t sec line) := h.pmSliceAs.ite h

/-! ## HBM controllers -/

theorem hbmCountRow (h : s₀.boardKept s) {x : HbmReq} : s₀.boardKept (s.hbmCountRow p x) := (h.pmHbm.ite h.pmHbm).pmHbm

theorem hbmIssue (h : s₀.boardKept s) : s₀.boardKept (s.hbmIssue p) := by
  unfold State.hbmIssue
  dsimp only
  split
  · exact h.freeVal.hbmCountRow.modHctl
  · exact h.freeVal

theorem hbmIssueN (h : s₀.boardKept s) : s₀.boardKept (s.hbmIssueN p n) := by
  induction n generalizing s with
  | zero => exact h
  | succ n ih => exact ih h.hbmIssue

theorem hbmDrain (h : s₀.boardKept s) : s₀.boardKept (s.hbmDrain p) := h.hbmIssueN

theorem hbmWake (h : s₀.boardKept s) : s₀.boardKept (s.hbmWake p sid) :=
  (h.foldl fun _ _ h => h.pmHbmFree.ite h).setFld.setFld.setFld

theorem hbmAccept (h : s₀.boardKept s) {x : HbmReq} : s₀.boardKept (s.hbmAccept p x) :=
  (h.hbmWake.ite h.hbmWake.pmHbmFree.hbmDrain).modHctl.freeVal.hbmIssueN

theorem takeMcInj (h : s₀.boardKept s) : s₀.boardKept (s.takeMcInj p read).2 := by
  unfold State.takeMcInj
  split
  · exact h.setFld
  · exact h

theorem lanesOver (h : s₀.boardKept s) : s₀.boardKept (s.lanesOver p pca) := h.modHctl

theorem rawStore (h : s₀.boardKept s) {d : LineData} {x : BitVec 2} : s₀.boardKept (s.rawStore loc d x) :=
  h.update (by simp only [State.board, State.rawStore])

theorem hbmCopyWrite (h : s₀.boardKept s) {d : LineData} {x : BitVec 2} {q : FwReq} :
    s₀.boardKept (s.hbmCopyWrite st sa d x q) := by
  unfold State.hbmCopyWrite
  generalize st * 0x600000000 + sa = loc
  exact h.hbmAccept.takeMcInj.modHctl.lanesOver.rawStore.ite h.hbmAccept.takeMcInj.modHctl.lanesOver.rawStore.setHbmSym

theorem hbmCorrected (h : s₀.boardKept s) : s₀.boardKept (s.hbmCorrected p pca pa sym sec inj) :=
  h.satField.pmHbm.ite h.satField.pmHbm.modHctl.logErr

theorem hbmUncorrected (h : s₀.boardKept s) : s₀.boardKept (s.hbmUncorrected p pca pa sec inj) := h.satField.logErr

theorem hbmBurst (h : s₀.boardKept s) {e : Burst} : s₀.boardKept (s.hbmBurst p pca pa e bad sec inj).2 := by
  unfold State.hbmBurst
  split
  · exact h
  · split
    · exact h
    · exact h.hbmCorrected
    · exact h.hbmUncorrected

theorem demandBurst (h : s₀.boardKept s) {x : Burst} : s₀.boardKept (s.demandBurst p pa loc x sec inj).2 := by
  unfold State.demandBurst
  dsimp only
  split
  · exact h.hbmBurst.modHctl
  · exact h.hbmBurst

theorem hbmCopyRead (h : s₀.boardKept s) {l : List Burst} {q : FwReq} : s₀.boardKept (s.hbmCopyRead pa st sa l q).2 := by
  have hd : ∀ {s : State} {p pa loc : Nat} {x : Burst} {sec inj : Bool}, s₀.boardKept s →
    s₀.boardKept (s.demandBurst p pa loc x sec inj).2 := fun h => h.demandBurst
  unfold State.hbmCopyRead
  -- The kernel would unfold two bursts to compare the results; `id` keeps the function a variable for it.
  generalize State.demandBurst = burst at hd ⊢
  revert burst
  refine id fun burst hd => ?_
  dsimp only
  split
  · exact h.hbmWake
  · exact hd (hd h.hbmAccept.takeMcInj)

theorem mirDiff (h : s₀.boardKept s) {x y : LineData} : s₀.boardKept (s.mirDiff n pa b x y home sec) := by
  unfold State.mirDiff
  exact h.satField.logErr

theorem mirMend (h : s₀.boardKept s) {x y : LineAns} {q : FwReq} : s₀.boardKept (s.mirMend n pa sa x y q).2 := by
  unfold State.mirMend
  dsimp only
  split
  · exact h
  · dsimp only
    exact (h.hbmCopyWrite.satField (f := Fld.MC_MIR_ALT_CNT)).logErr

theorem mirRead (h : s₀.boardKept s) {l : List Burst} {q : FwReq} : s₀.boardKept (s.mirRead n pa sa l home q).2 := by
  unfold State.mirRead
  dsimp only
  split
  · exact h.hbmCopyRead
  · split
    · split
      · exact h.hbmCopyRead
      · split
        · exact h.hbmCopyRead.fwCheck
        · split
          · exact h.hbmCopyRead.fwCheck.hbmCopyRead.mirMend
          · exact h.hbmCopyRead.fwCheck.hbmCopyRead.hbmCopyWrite.hbmCopyWrite.mirDiff
    · split
      · exact h.hbmCopyRead
      · exact h.hbmCopyRead.hbmCopyRead.mirMend

theorem hbmRead (h : s₀.boardKept s) {l : List Burst} {q : FwReq} : s₀.boardKept (s.hbmRead pa q l home).2 := by
  unfold State.hbmRead
  dsimp only
  split
  · exact h
  · split
    · exact h.fwCheck
    · split
      · exact h.fwCheck.mirRead
      · exact h.fwCheck.hbmCopyRead

theorem ctlWrite (h : s₀.boardKept s) {d : LineData} {x : BitVec 2} {q : FwReq} :
    s₀.boardKept (s.ctlWrite st pa sa q d x).2 := by
  unfold State.ctlWrite
  dsimp only
  split
  · exact h
  · split
    · exact h.fwCheck
    · exact h.fwCheck.hbmCopyWrite

theorem hbmWrite (h : s₀.boardKept s) {d : LineData} {x : BitVec 2} {q : FwReq} : s₀.boardKept (s.hbmWrite pa q d x).2 := by
  unfold State.hbmWrite
  dsimp only
  split
  · exact h
  · split
    · exact h.ctlWrite
    · exact h.ctlWrite.ctlWrite

theorem writeBack (h : s₀.boardKept s) {d : LineData} {x : BitVec 2} : s₀.boardKept (s.writeBack line d x sec) :=
  h.pmSlice.hbmWrite.logErr.ite h.pmSlice.hbmWrite

/-! ## Caches -/

theorem unhold (h : s₀.boardKept s) {c : Option Nat} : s₀.boardKept (s.unhold line c) := by
  unfold State.unhold
  split
  · exact h
  · exact h.update

theorem clearResvBut (h : s₀.boardKept s) {c : Option Nat} : s₀.boardKept (s.clearResvBut pa c) := h.update
theorem l2Drop (h : s₀.boardKept s) : s₀.boardKept (s.l2Drop c line) := h.modCore
theorem l2Set (h : s₀.boardKept s) {x : L2Line} : s₀.boardKept (s.l2Set c x) := h.modCore

theorem l2Check (h : s₀.boardKept s) {x : L2Line} : s₀.boardKept (s.l2Check c x).2 := by
  unfold State.l2Check
  dsimp only
  split
  · exact h.takeInj
  · split
    · exact h.takeInj.logErr.l2Drop
    · exact h.takeInj.logErr.l2Set
    · exact h.takeInj.logErr.l2Set

theorem l2Take (h : s₀.boardKept s) : s₀.boardKept (s.l2Take c line).2 := by
  unfold State.l2Take
  split
  · exact h.l2Check
  · exact h

theorem llcCheck (h : s₀.boardKept s) {x : LlcLine} : s₀.boardKept (s.llcCheck x).2 := by
  unfold State.llcCheck
  dsimp only
  split
  · exact h.takeInj
  · split <;> exact h.takeInj.logErr.llcPutAll

theorem llcFlush (h : s₀.boardKept s) {x : LlcLine} : s₀.boardKept (s.llcFlush x).2 := by
  unfold State.llcFlush
  dsimp only
  split
  · exact h.llcCheck.writeBack.ite h.llcCheck
  · exact h.llcCheck

theorem llcPut (h : s₀.boardKept s) {x : LlcLine} : s₀.boardKept (s.llcPut x) := by
  unfold State.llcPut
  dsimp only
  split
  · exact h.llcPutAll
  · split
    · exact h.llcFlush.llcPutAll
    · exact h.llcPutAll

theorem llcReuse (h : s₀.boardKept s) : s₀.boardKept (s.llcReuse line) := h.llcPutAll.ite h

theorem toHome (h : s₀.boardKept s) {d : LineData} {x : BitVec 2} : s₀.boardKept (s.toHome line d x sec) := by
  unfold State.toHome
  dsimp only
  split
  · exact h.llcPut
  · exact h.writeBack.llcPut
  · exact h.writeBack

theorem llcOffered (h : s₀.boardKept s) {x : L2Line} : s₀.boardKept (s.llcOffered x) :=
  h.pmSlice.toHome.ite (h.pmSlice.ite (h.pmSlice.ite h.pmSlice.llcPut))

theorem l2Offer (h : s₀.boardKept s) : s₀.boardKept (s.l2Offer c line) := by
  unfold State.l2Offer
  dsimp only
  split
  · exact h.l2Take.l2Drop.llcOffered.ite h.l2Take.l2Drop
  · exact h.l2Take.l2Drop

theorem recallBut (h : s₀.boardKept s) {c : Option Nat} : s₀.boardKept (s.recallBut line c sec) := by
  refine (h.ite h.pmSlice).foldl fun s x h => ?_
  dsimp only
  split
  · exact h.l2Take.l2Drop.toHome.ite h.l2Take.l2Drop
  · exact h.l2Take.l2Drop

theorem shareBut (h : s₀.boardKept s) : s₀.boardKept (s.shareBut line c) := by
  refine h.foldl fun s x h => ?_
  dsimp only
  split
  · exact (h.l2Take.toHome.ite h.l2Take).l2Set
  · exact h.l2Take

theorem secureHit (h : s₀.boardKept s) {q : FwReq} : s₀.boardKept (s.secureHit line q) := by
  unfold State.secureHit
  exact h.fwRefused.logErr

theorem homeBelow (h : s₀.boardKept s) {l : List Burst} {q : FwReq} : s₀.boardKept (s.homeBelow line q l).2 := by
  unfold State.homeBelow
  dsimp only
  split
  · split
    · exact h.secureHit
    · split
      · exact h.pmSlice.llcCheck.llcPutAll
      · exact h.pmSlice.llcCheck.hbmRead
  · exact h.pmSlice.hbmRead

theorem homeData (h : s₀.boardKept s) {l : List Burst} {q : FwReq} : s₀.boardKept (s.homeData line q l).2 := by
  unfold State.homeData
  extract_lets t s₁ s₂
  have h : s₀.boardKept s₂ := h.unhold.pmSliceFree.pmSliceFree.recallBut.ite h.unhold.pmSliceFree.pmSliceFree
  split
  next x _ =>
    split
    next r s' heq =>
      have h := of_eq h.pmSlice.pmSlice.l2Take heq
      split
      · exact h.llcReuse
      · exact h.homeBelow
  · exact h.homeBelow

theorem homeRead (h : s₀.boardKept s) {l : List Burst} {q : FwReq} : s₀.boardKept (s.homeRead line q l).2 := by
  unfold State.homeRead
  dsimp only
  split
  · exact h
  · exact h.homeData.quietIf

theorem homeMergeWrite (h : s₀.boardKept s) {x : BitVec 64} {d : LineData} {q : FwReq} {y : Option Nat} :
    s₀.boardKept (s.homeMergeWrite line x d q alloc y).2 := by
  unfold State.homeMergeWrite
  extract_lets t
  split
  · exact h.secureHit
  · split
    next a s₁ h₁ =>
    have h : s₀.boardKept s₁ := by
      split at h₁
      · exact of_eq h h₁
      · exact of_eq h.homeRead h₁
    extract_lets own s₂ s₃
    have h₃ : s₀.boardKept s₃ := h.pmSliceFree.pmSliceFree.unhold.recallBut.clearResvBut
    split
    · exact h
    · split
      split
      next i s₄ h₄ =>
      have h := of_eq h₃.takeInj h₄
      split
      · exact h.llcPut
      · split
        next e s₅ h₅ =>
        have h := of_eq h.hbmWrite h₅
        split
        · split
          · exact h.llcPut
          · exact h
        · exact h

theorem homeWrite (h : s₀.boardKept s) {x : BitVec 64} {d : LineData} {q : FwReq} {y : Option Nat} :
    s₀.boardKept (s.homeWrite line x d q alloc y).2 := by
  unfold State.homeWrite
  dsimp only
  split
  · exact h
  · exact h.homeMergeWrite.quietIf

theorem granCheck (h : s₀.boardKept s) {x : Src} : s₀.boardKept (s.granCheck x sec pa write).2 := by
  unfold State.granCheck
  dsimp only
  split
  · exact h
  · split
    · exact h.fwCheck
    · split <;> exact h.fwCheck

theorem granEcc (h : s₀.boardKept s) : s₀.boardKept (s.granEcc u a kind sec inj).2 := by
  unfold State.granEcc
  split
  · exact h
  · exact h.logErr

theorem setGranBad (h : s₀.boardKept s) {x : FMap Nat} : s₀.boardKept { s with granBad := x } := h.update

theorem granWord (h : s₀.boardKept s) : s₀.boardKept (s.granWord u a whole sec) :=
  (h.ite h.granEcc).setGranBad.ite (h.ite h.granEcc)

theorem granStrike (h : s₀.boardKept s) {x : Option Nat} : s₀.boardKept (s.granStrike x a) := by
  unfold State.granStrike
  split
  · exact h.setGranBad
  · exact h

theorem granStore (h : s₀.boardKept s) : s₀.boardKept (s.granStore u pa n v sec) :=
  (h.takeInj.foldl fun _ _ h => h.granWord).granStrike.memWrite

theorem granWrite (h : s₀.boardKept s) {x : Src} : s₀.boardKept (s.granWrite x sec pa n v).2 := by
  unfold State.granWrite
  dsimp only
  split
  · exact h.granCheck
  · exact h.granCheck.granStore

theorem physWrite (h : s₀.boardKept s) {x : Src} {y : Option Nat} : s₀.boardKept (s.physWrite x sec pa n v y).2 := by
  unfold State.physWrite
  dsimp only
  split
  · exact h.homeWrite
  · split
    · exact h.granWrite
    · split
      · exact h.memWrite.ite h
      · exact h

theorem physWriteCore (h : s₀.boardKept s) : s₀.boardKept (s.physWriteCore c a n v).2 := by
  unfold State.physWriteCore
  split
  · exact h.homeWrite
  · split
    · exact h.physWrite
    · exact h

theorem l2Fill (h : s₀.boardKept s) {x : L2Line} : s₀.boardKept (s.l2Fill c x) := by
  unfold State.l2Fill
  dsimp only
  split
  · exact h.l2Offer.l2Set
  · exact h.l2Set

theorem dirMake (h : s₀.boardKept s) {x : Option Nat} : s₀.boardKept (s.dirMake line x) := by
  unfold State.dirMake
  extract_lets t
  split
  next i s₁ h₁ =>
  have h := of_eq h.takeInj h₁
  extract_lets s₂ es
  have h₂ : s₀.boardKept s₂ := by
    cases i with
    | none => exact h
    | some _ => exact h.logErr
  split
  · exact h₂
  · cases x with
    | none => exact h₂.freeVal.recallBut.pmSlice
    | some _ => exact h₂.recallBut.pmSlice

theorem l2Obtain (h : s₀.boardKept s) {q : FwReq} {x : Option Nat} {l : List Burst} :
    s₀.boardKept (s.l2Obtain c line q store x l).2 := by
  unfold State.l2Obtain
  dsimp only
  split
  · split
    · exact h.unhold.llcReuse.recallBut.l2Set
    · exact h
  · split
    · exact h.l2Fill
    · split
      · exact h.dirMake.homeRead
      · exact (h.dirMake.homeRead.recallBut.ite h.dirMake.homeRead.shareBut).l2Fill

theorem homeMerge (h : s₀.boardKept s) {x : BitVec 64} {d : LineData} {q : FwReq} :
    s₀.boardKept (s.homeMerge line x d q) := h.homeBelow.ite h.homeBelow.toHome

theorem coreWrite (h : s₀.boardKept s) {x : BitVec 64} {d : LineData} {q : FwReq} :
    s₀.boardKept (s.coreWrite c line x d q).2 := by
  unfold State.coreWrite
  extract_lets st
  split
  · exact h.homeWrite
  · split
    next e s₁ h₁ =>
    have h := of_eq h.l2Obtain h₁
    extract_lets s₂
    have h₂ : s₀.boardKept s₂ := h.clearResvBut
    split
    · exact h
    · split
      · exact h₂
      · split
        split
        next i s₃ h₃ =>
        have h := of_eq h₂.takeInj h₃
        split
        · exact h.l2Set.toHome
        · exact (h.homeMerge.ite h).l2Set

/-! ## Store buffers -/

theorem lateStore (h : s₀.boardKept s) : s₀.boardKept (s.lateStore c e pa) := h.ite h.logErr

theorem sbPut (h : s₀.boardKept s) : s₀.boardKept (s.sbPut c kind a n v) := by
  unfold State.sbPut
  split
  next k s₁ h₁ =>
  have h : s₀.boardKept s₁ := by
    split at h₁
    · exact of_eq h.physWriteCore h₁
    · exact of_eq h.coreWrite h₁
  exact h.lateStore

theorem sbWrite (h : s₀.boardKept s) {x : SbEntry} : s₀.boardKept (s.sbWrite c x) := h.sbPut.ite (h.foldl fun _ _ h => h.sbPut)

theorem sbPerform (h : s₀.boardKept s) : s₀.boardKept (s.sbPerform c i) := by
  unfold State.sbPerform
  split
  · exact h.modCore.sbWrite
  · exact h

theorem sbPerformN (h : s₀.boardKept s) : s₀.boardKept (s.sbPerformN c n) := by
  induction n generalizing s with
  | zero => exact h
  | succ n ih => exact ih h.sbPerform

theorem drainSb (h : s₀.boardKept s) : s₀.boardKept (s.drainSb c) := h.sbPerformN
theorem quiesce (h : s₀.boardKept s) : s₀.boardKept (s.quiesce c) := h.drainSb.ite h.drainSb.modCore

/-! ## Ports' switches -/

theorem modCopies (h : s₀.boardKept s) {x : Option (Nat × Nat)} {y : FrameCopy → Option FrameCopy} :
    s₀.boardKept (s.modCopies p x y) := by
  unfold State.modCopies
  split
  · exact h
  · exact h.foldl fun _ _ h => h.ite h.modPort

theorem diagDone (h : s₀.boardKept s) : s₀.boardKept (s.diagDone p n dist) := by
  unfold State.diagDone
  extract_lets s₁
  have h : s₀.boardKept s₁ := h.setFld.setFld.setFld
  split
  · exact h.setFld
  · exact h.setFld
  · exact h.setFld
  · exact h

theorem txOver (h : s₀.boardKept s) : s₀.boardKept (s.txOver p) :=
  h.modPort.modThread.ite (h.modPort.modThread.modPort.ite h.modPort.modThread.diagDone)

theorem txAbort (h : s₀.boardKept s) : s₀.boardKept (s.txAbort p) := h.ite h.modCopies.modPort.setFld.txOver
theorem portEvent (h : s₀.boardKept s) : s₀.boardKept (s.portEvent p) := h.modThread

theorem setLink (h : s₀.boardKept s) : s₀.boardKept (s.setLink p link) :=
  have h := h.ite h.setFld.setFld.portEvent
  h.ite (h.setFld.setFld.setFld.ite h.setFld.setFld.setFld.setFld)

theorem openSwitches (h : s₀.boardKept s) : s₀.boardKept s.openSwitches :=
  h.foldl fun _ _ h => (h.txAbort.setFld.ite h.txAbort).setLink

theorem setCond (h : s₀.boardKept s) {f : Fld} {x : Bool} : s₀.boardKept (s.setCond p f x) := h.ite h.setFld.portEvent

theorem portSync (h : s₀.boardKept s) : s₀.boardKept (s.portSync p) := by
  unfold State.portSync
  extract_lets closed link s₁ s₂ s₃ s₄ s₅ s₆
  have h₃ : s₀.boardKept s₃ := h.setCond.setCond.setCond
  have h₄ : s₀.boardKept s₄ := h₃.ite h₃.setFld
  have h₅ : s₀.boardKept s₅ := h₄.ite h₄.txAbort
  have h₆ : s₀.boardKept s₆ := h₅.ite h₅.modPort
  exact h₆.setLink

theorem portsSync (h : s₀.boardKept s) : s₀.boardKept s.portsSync := h.foldl fun _ _ h => h.portSync

/-! ## The parts of a power-fail warning -/

theorem cocoonEvent (h : s₀.boardKept s) : s₀.boardKept (s.cocoonEvent b) := h.update
theorem ringNote (h : s₀.boardKept s) : s₀.boardKept (s.ringNote c) := h.update
theorem pmbusSet (h : s₀.boardKept s) : s₀.boardKept (s.pmbusSet b) := h.update
theorem cutGroups (h : s₀.boardKept s) : s₀.boardKept s.cutGroups := h.foldl fun _ _ h => h.modGroup.ite h
theorem setCode16 (h : s₀.boardKept s) : s₀.boardKept (s.setCode16 i v) := h.update
theorem pfwRaise (h : s₀.boardKept s) : s₀.boardKept (s.pfwRaise i) := h.setCode16.ite h

end State.boardKept

/-! ## The control registers, likewise -/

namespace State.ctlKept

variable {s₀ s : State} {p b c : Nat}

theorem setCond (h : s₀.ctlKept s) {f : Fld} {x : Bool} (hf : f.reg.isCtl = false := by rfl) : s₀.ctlKept (s.setCond p f x) :=
  h.ite (h.setFld hf).portEvent

theorem portSync (h : s₀.ctlKept s) : s₀.ctlKept (s.portSync p) := by
  unfold State.portSync
  extract_lets closed link s₁ s₂ s₃ s₄ s₅ s₆
  have h₃ : s₀.ctlKept s₃ := h.setCond.setCond.setCond
  have h₄ : s₀.ctlKept s₄ := h₃.ite h₃.setFld
  have h₅ : s₀.ctlKept s₅ := h₄.ite h₄.txAbort
  have h₆ : s₀.ctlKept s₆ := h₅.ite h₅.modPort
  exact h₆.setLink

theorem portsSync (h : s₀.ctlKept s) : s₀.ctlKept s.portsSync := h.foldl fun _ _ h => h.portSync
theorem cocoonEvent (h : s₀.ctlKept s) : s₀.ctlKept (s.cocoonEvent b) := h.update
theorem ringNote (h : s₀.ctlKept s) : s₀.ctlKept (s.ringNote c) := h.setFld.setFld.cocoonEvent
theorem pmbusSet (h : s₀.ctlKept s) : s₀.ctlKept (s.pmbusSet b) := h.update
theorem cutGroups (h : s₀.ctlKept s) : s₀.ctlKept s.cutGroups := h.foldl fun _ _ h => h.modGroup.ite h

end State.ctlKept
end Sys2Proof.Machine
end

section
/-!
SUPPORT. Fields that stay while an island loses its supply and while the ports' switches open, and what both leave behind.
-/

set_option Elab.async false

namespace Sys2Proof.Machine

/-! ## Steps over a range -/

/-- What each step of a fold makes true of its own index, and no step undoes, holds of every index in the end. -/
theorem foldl_each {α β : Type} {f : β → α → β} {P : α → β → Prop} {l : List α} (hs : ∀ s, ∀ a ∈ l, P a (f s a))
    (hk : ∀ s, ∀ a ∈ l, ∀ b ∈ l, P b s → P b (f s a)) (s : β) : ∀ b ∈ l, P b (l.foldl f s) := by
  intro b hb
  obtain ⟨l₁, l₂, rfl⟩ := List.append_of_mem hb
  rw [List.foldl_append, List.foldl_cons]
  exact List.foldlRecOn l₂ f (hs _ b hb) fun t ht a ha => hk t a (by simp [ha]) b hb ht

/-! ## Fields apart -/

/-- Two fields lie in different registers, or share no bit. -/
def Fld.apart (f g : Fld) : Bool := decide (g.reg ≠ f.reg ∨ g.hi < f.lo ∨ f.hi < g.lo)

/-- A field keeps its value when one apart from it is set. -/
theorem State.fld_setFld_apart (s : State) {f g : Fld} {i j : Nat} (v : Nat) (h : f.apart g = true) (hi : i < 65536)
    (hj : j < 65536) : (s.setFld f i v).fld g j = s.fld g j := by
  by_cases hr : g.reg = f.reg
  · have hd : g.hi < f.lo ∨ f.hi < g.lo := by simpa [Fld.apart, hr] using h
    by_cases hij : j = i
    · subst hij
      exact s.fld_setFld_disj f g j v hr hd
    · exact s.fld_setFld_ne f g v hi hj (.inr hij)
  · exact s.fld_setFld_ne f g v hi hj (.inl hr)

/-- The fields that the end of a frame, a cut and a change of the link write. -/
def linkFlds : List Fld :=
  [Fld.PT_STAT_TX_ABORT, Fld.PT_DIAG_RESULT, Fld.PT_DIAG_DIST, Fld.PT_STAT_DIAG_DONE, Fld.PT_STAT_OPEN, Fld.PT_STAT_SHORT,
   Fld.PT_STAT_GND_FAULT, Fld.PT_STAT_LINK, Fld.PT_STAT_LINK_CHG, Fld.PT_STAT_POL, Fld.PT_STAT_RATE, Fld.PT_STAT_SQI,
   Fld.PT_LANE_FEC_EFF]

/-- From `s` to `t` the field `g` of number `j` has not changed. -/
def State.fldKept (s t : State) (g : Fld) (j : Nat) : Prop := t.fld g j = s.fld g j

namespace State.fldKept

variable {s₀ s t : State} {f g : Fld} {i j p v n dist : Nat}

theorem refl (s : State) (g : Fld) (j : Nat) : s.fldKept s g j := rfl

/-- An update that leaves the registers alone. -/
theorem update (h : s₀.fldKept s g j) (hc : t.csr = s.csr := by rfl) : s₀.fldKept t g j := by
  unfold State.fldKept at h ⊢
  rw [← h]
  simp only [State.fld, State.csrGet, hc]

theorem setFld (h : s₀.fldKept s g j) (ha : f.apart g = true) (hj : j < 65536) (hi : i < 65536) :
    s₀.fldKept (s.setFld f i v) g j := (s.fld_setFld_apart v ha hi hj).trans h

theorem ite {P : Prop} [Decidable P] (ht : s₀.fldKept s g j) (hu : s₀.fldKept t g j) :
    s₀.fldKept (if P then s else t) g j := by
  split <;> assumption

theorem foldl {α : Type} {l : List α} {f : State → α → State} (h : s₀.fldKept s g j)
    (hf : ∀ s, ∀ x ∈ l, s₀.fldKept s g j → s₀.fldKept (f s x) g j) : s₀.fldKept (l.foldl f s) g j :=
  List.foldlRecOn l f h fun s hs x hx => hf s x hx hs

/-! ## A field apart from those of the link -/

section
variable (hg : ∀ f ∈ linkFlds, f.apart g = true) (hj : j < 65536) (hp : p < 256)
include hg hj hp

theorem setLinkFld (h : s₀.fldKept s g j) (hf : f ∈ linkFlds := by decide) : s₀.fldKept (s.setFld f p v) g j :=
  h.setFld (hg f hf) hj (by omega)

theorem diagDone (h : s₀.fldKept s g j) : s₀.fldKept (s.diagDone p n dist) g j := by
  unfold State.diagDone
  extract_lets s₁
  have h : s₀.fldKept s₁ g j := ((h.setLinkFld hg hj hp).setLinkFld hg hj hp).setLinkFld hg hj hp
  split
  · exact h.setLinkFld hg hj hp
  · exact h.setLinkFld hg hj hp
  · exact h.setLinkFld hg hj hp
  · exact h

theorem txOver (h : s₀.fldKept s g j) : s₀.fldKept (s.txOver p) g j := by
  unfold State.txOver
  extract_lets due s₁ s₂
  have h : s₀.fldKept s₂ g j := h.update
  exact h.ite (h.update.ite (h.diagDone hg hj hp))

omit hg hj hp in
theorem modCopies (h : s₀.fldKept s g j) {x : Option (Nat × Nat)} {y : FrameCopy → Option FrameCopy} :
    s₀.fldKept (s.modCopies p x y) g j := by
  unfold State.modCopies
  split
  · exact h
  · exact h.foldl fun _ _ _ h => h.ite h.update

theorem txAbort (h : s₀.fldKept s g j) : s₀.fldKept (s.txAbort p) g j := by
  unfold State.txAbort
  extract_lets s₁ s₂
  have h₂ : s₀.fldKept s₂ g j := h.modCopies.update
  exact h.ite ((h₂.setLinkFld hg hj hp).txOver hg hj hp)

omit hg hj hp in
theorem portEvent (h : s₀.fldKept s g j) : s₀.fldKept (s.portEvent p) g j := h.update

theorem setLink (h : s₀.fldKept s g j) : s₀.fldKept (s.setLink p n) g j := by
  unfold State.setLink
  extract_lets s₁ s₂
  have h₁ : s₀.fldKept s₁ g j := h.ite ((h.setLinkFld hg hj hp).setLinkFld hg hj hp).portEvent
  have h₂ : s₀.fldKept s₂ g j := ((h₁.setLinkFld hg hj hp).setLinkFld hg hj hp).setLinkFld hg hj hp
  exact h₁.ite (h₂.ite (h₂.setFld (hg _ (by decide)) hj (by omega)))

end
end State.fldKept

/-! ## The switches open -/

/-- What the opening of the switches does at one port. -/
def State.openSwitch (s : State) (p : Nat) : State :=
  let s := s.txAbort p
  (if s.flag Fld.PT_STAT_SW p then s.setFld Fld.PT_STAT_SW p 0 else s).setLink p 0

theorem sw_apart : ∀ f ∈ linkFlds, f.apart Fld.PT_STAT_SW = true := by decide

theorem State.fldKept.openSwitch {s₀ s : State} {g : Fld} {j p : Nat} (h : s₀.fldKept s g j)
    (hg : ∀ f ∈ Fld.PT_STAT_SW :: linkFlds, f.apart g = true) (hj : j < 65536) (hp : p < 256) :
    s₀.fldKept (s.openSwitch p) g j := by
  obtain ⟨hsw, hg⟩ := List.forall_mem_cons.1 hg
  have h := h.txAbort hg hj hp
  exact ((h.setFld hsw hj (by omega)).ite h).setLink hg hj hp

/-- A field apart from the ports' stays when the switches open. -/
theorem State.fldKept.openSwitches {s₀ s : State} {g : Fld} {j : Nat} (h : s₀.fldKept s g j)
    (hg : ∀ f ∈ Fld.PT_STAT_SW :: linkFlds, f.apart g = true) (hj : j < 65536) : s₀.fldKept s.openSwitches g j :=
  h.foldl fun _ _ hp h => h.openSwitch hg hj (List.mem_range.1 hp)

theorem State.sw_openSwitch (s : State) {p : Nat} (hp : p < 256) : (s.openSwitch p).fld Fld.PT_STAT_SW p = 0 := by
  unfold State.openSwitch
  extract_lets s₁
  refine Eq.trans (State.fldKept.setLink sw_apart (by omega) hp (.refl _ _ _)) ?_
  split
  · rw [State.fld_setFld_same _ _ _ _ (by decide)]
    rfl
  · next h => simpa [State.flag] using h

/-- Another port's switch stays, or opens. -/
theorem State.sw_openSwitch_keeps (s : State) {p q : Nat} (hp : p < 256) (hq : q < 256)
    (h : s.fld Fld.PT_STAT_SW q = 0) : (s.openSwitch p).fld Fld.PT_STAT_SW q = 0 := by
  by_cases hpq : p = q
  · subst hpq
    exact s.sw_openSwitch hp
  · have ha : s.fldKept (s.txAbort p) Fld.PT_STAT_SW q := State.fldKept.txAbort sw_apart (by omega) hp (.refl _ _ _)
    have hs : s.fldKept ((s.txAbort p).setFld Fld.PT_STAT_SW p 0) Fld.PT_STAT_SW q :=
      (State.fld_setFld_ne _ _ _ _ (by omega) (by omega) (.inr (Ne.symm hpq))).trans ha
    exact ((hs.ite ha).setLink sw_apart (by omega) hp).trans h

/-- Every field port's switch is open (R49). -/
theorem State.sw_openSwitches (s : State) {p : Nat} (hp : p < 256) : s.openSwitches.fld Fld.PT_STAT_SW p = 0 :=
  foldl_each (P := fun p s => s.fld Fld.PT_STAT_SW p = 0) (fun s _ hp => s.sw_openSwitch (List.mem_range.1 hp))
    (fun s _ hp _ hq => s.sw_openSwitch_keeps (List.mem_range.1 hp) (List.mem_range.1 hq)) s p (List.mem_range.2 hp)

/-! ## An island loses its supply -/

/-- What a register reads after the reset of every register of a kind. -/
theorem State.csrGet_resetRegs (s : State) (f : Reg → Nat → Bool) (r : Reg) {i : Nat} (hi : i < 65536) :
    (s.resetRegs f).csrGet r i = if f r i then Reg.reset r i else s.csrGet r i := by
  have hr : regKey r i / 65536 = r.ctorIdx := by unfold regKey; omega
  have hn : regKey r i % 65536 = i := by unfold regKey; omega
  simp only [State.csrGet, State.resetRegs, FMap.get_dropIf, hr, hn, Reg.all_ctorIdx]

theorem State.csr_tlbisEnd (s : State) (c : Nat) : (s.tlbisEnd c).csr = s.csr :=
  List.foldlRecOn (motive := fun t : State => t.csr = s.csr) _ _ rfl fun _ h _ _ => h

/-- The registers of the other islands' units, and the ownership of lands, outlast an island's supply (R42). -/
theorem State.csrGet_loseIsland (s : State) {r : Reg} {i j : Nat} (hr : r.island ≠ j ∨ r = .BT_LOWN) (hi : i < 65536) :
    (s.loseIsland j).csrGet r i = s.csrGet r i := by
  have hk : (s.resetRegs fun r _ => r.island == j && r != .BT_LOWN).csrGet r i = s.csrGet r i := by
    rw [State.csrGet_resetRegs _ _ _ hi, if_neg]
    simpa [or_iff_not_imp_left] using hr
  have h21 : j = 21 → ∀ t : State, t.threadsStop.csrGet r i = t.csrGet r i := by
    rintro rfl t
    refine (State.csrGet_resetRegs _ _ _ hi).trans (if_neg ?_)
    obtain h | rfl := hr
    · simpa using h
    · decide
  unfold State.loseIsland
  split
  · refine List.foldlRecOn (motive := fun t : State => t.csrGet r i = s.csrGet r i) _ _ rfl fun t ht c _ => ?_
    split
    · exact ht
    · rw [State.csrGet_setCore, State.csrGet, State.csr_tlbisEnd]
      exact ht
  · extract_lets t t'
    split
    · exact hk
    · split
      next h => exact (h21 h t).trans hk
      · split <;> exact hk

theorem State.boardKept.tlbisEnd {s₀ s : State} {c : Nat} (h : s₀.boardKept s) : s₀.boardKept (s.tlbisEnd c) :=
  (h.foldl fun _ _ h => h.modCore).update

theorem State.boardKept.loseIsland {s₀ s : State} {j : Nat} (h : s₀.boardKept s) : s₀.boardKept (s.loseIsland j) := by
  unfold State.loseIsland
  refine ite (h.foldl fun s c h => h.ite h.tlbisEnd.update) ?_
  exact h.update.ite (h.update.ite (h.update.ite h.update))

end Sys2Proof.Machine
end

section
/-!
SUPPORT. STANDBY: what its entry does to the ownership of lands, and a state in which that is not nothing.
-/

set_option Elab.async false

namespace Sys2Proof.Machine

/-- A core with no retired store to perform and no reservation. -/
def State.coreIdle (s : State) (c : Nat) : Bool := (s.core c).sb.isEmpty && (s.core c).resv.isNone

/-- Nothing of an idle core is left to quiesce. -/
theorem State.quiesce_idle {s : State} {c : Nat} (h : s.coreIdle c = true) : s.quiesce c = s := by
  obtain ⟨hsb, hresv⟩ : (s.core c).sb = [] ∧ (s.core c).resv = none := by simpa [State.coreIdle] using h
  simp [State.quiesce, State.drainSb, hsb, State.sbPerformN, hresv]

theorem State.foldl_quiesce_idle {s : State} {l : List Nat} (h : l.all s.coreIdle = true) : l.foldl State.quiesce s = s := by
  induction l with
  | nil => rfl
  | cons c l ih =>
    obtain ⟨hc, hl⟩ : s.coreIdle c = true ∧ l.all s.coreIdle = true := by simpa using h
    rw [List.foldl_cons, State.quiesce_idle hc, ih hl]

/-- Entry to STANDBY leaves the functions of the land groups as the draining of the store buffers has left them. -/
theorem State.lownFunc_enterStandby (s : State) {n : Nat} (hn : n < 65536) : s.enterStandby.fld Fld.BT_LOWN_FUNC n =
    ((List.range 160).foldl State.quiesce s).fld Fld.BT_LOWN_FUNC n := by
  have hsw : ∀ f ∈ Fld.PT_STAT_SW :: linkFlds, f.apart Fld.BT_LOWN_FUNC = true := by decide
  unfold State.enterStandby
  extract_lets s₁ s₂ s₃
  have h : s₁.fldKept s₃ Fld.BT_LOWN_FUNC n := by
    refine State.fldKept.foldl (State.fldKept.openSwitches (.refl _ _ _) hsw hn) fun t j hj h => ?_
    have hj := List.mem_range.1 hj
    have hl : (t.loseIsland j).fld Fld.BT_LOWN_FUNC n = t.fld Fld.BT_LOWN_FUNC n :=
      congrArg (bitsOf · _ _) (t.csrGet_loseIsland (.inr rfl) hn)
    have h := State.fldKept.update (t := (t.loseIsland j).dropEntry j) (hl.trans h)
    exact (h.setFld (by decide) hn (by omega)).setFld (by decide) hn (by omega)
  clear_value s₃
  exact h.update

/-- STANDBY for a call from H mode in RUN with nothing held. -/
theorem State.exec_standby {m : SlotId} {s : State} (hc : s.called m.val 0x06 true) (hm : s.pwr.mode = .run)
    (hh : s.anyHeld = false) : exec (.standby m) s = .next (s.serviceReply m.val stOk).enterStandby := by
  obtain ⟨-, hserving, hmode⟩ := hc
  change execStandby m s = _
  simp [execStandby, hserving, hmode, hm, hh]

/-- A state in RUN with a STANDBY of H mode in slot 0, a store of core 0 to line 0 still to perform, and a copy of that line in
the record of a core whose number no hardware has: its error unit's injection register has the key of `BT_LOWN_1`.  No run
reaches it, but the statement asks for no bound on the cores. -/
def standbyCounter : State :=
  { State.reset with
    pwr := { mode := .run }
    slots := [(0, { taken := true, code := 0x06, hmode := true })]
    csr := [(regKey .RV_STAT 0, 2), (regKey .BT_LOWN 1, 0x51)]
    cores := [(0, { sb := [⟨0, 0, 64, 0, 0, []⟩] }),
              ((Reg.BT_LOWN.ctorIdx - Reg.ER_INJ.ctorIdx) * 65536 + 1,
                { l2 := [{ line := 0, way := 0, st := .s, data := 0, poison := 0 }] })] }

/-- `standbyCounter` with its call answered and the stores of core 0 performed. -/
def standbyDrained : State := (standbyCounter.serviceReply (0 : SlotId).val stOk).quiesce 0

theorem standbyCounter_called : standbyCounter.called (0 : SlotId).val 0x06 true :=
  ⟨by decide +kernel, by decide +kernel, rfl⟩

theorem standbyDrained_idle : (List.range' 1 159).all standbyDrained.coreIdle = true := by decide +kernel

/-- The recall of the copy takes an injection from `BT_LOWN_1`, whose group loses its function. -/
theorem standbyDrained_lown : standbyDrained.fld Fld.BT_LOWN_FUNC 1 = 0 := by decide +kernel

theorem standbyCounter_lown :
    (standbyCounter.serviceReply (0 : SlotId).val stOk).enterStandby.fld Fld.BT_LOWN_FUNC 1 = 0 := by
  have hr : List.range 160 = 0 :: List.range' 1 159 := List.range_eq_range'
  rw [State.lownFunc_enterStandby _ (by decide), hr, List.foldl_cons]
  rw [show (standbyCounter.serviceReply (0 : SlotId).val stOk).quiesce 0 = standbyDrained from rfl,
    State.foldl_quiesce_idle standbyDrained_idle]
  exact standbyDrained_lown

end Sys2Proof.Machine

open Sys2Proof Sys2Proof.Machine

/-- Refutes O5: STANDBY does not keep the function of every land group where the recall of a line takes an injection at a core
whose number no hardware has (`standbyCounter`), whose injection register lies in `BT_LOWN`. -/
theorem not_islandServices : ¬ Obligations.IslandServices := by
  unfold Obligations.IslandServices
  intro h
  obtain ⟨-, -, -, -, hstandby, -⟩ := h 0 standbyCounter
  obtain ⟨hrun, -⟩ := hstandby standbyCounter_called
  have hheld : standbyCounter.anyHeld = false := by decide +kernel
  have hdo := hrun rfl hheld
  rw [State.does_iff_of_next (State.exec_standby standbyCounter_called rfl hheld)] at hdo
  obtain ⟨-, -, -, -, hlands⟩ := hdo
  obtain ⟨hfunc, -⟩ := hlands 1 (by decide)
  exact absurd (standbyCounter_lown.symm.trans hfunc) (by decide +kernel)
end

section
/-!
SUPPORT. The input and its hold-up store: what the power-fail warning does to the supplies and to the power-fail log, what the
380 µs point leaves, and what each event gives under the condition that it tests.
-/

set_option Elab.async false

namespace Sys2Proof.Machine
namespace State

variable {s t : State} {f : Fld} {r : Reg} {i j c : Nat}

/-! ## Fields that count -/

/-- A saturating field counts up, at most to its largest value. -/
theorem fld_satField_same (s : State) (f : Fld) (i : Nat) (hf : f.hi < 64) :
    (s.satField f i).fld f i = min (s.fld f i + 1) (2 ^ (f.hi + 1 - f.lo) - 1) := by
  have hpos : 0 < 2 ^ (f.hi + 1 - f.lo) := Nat.two_pow_pos _
  unfold satField
  rw [fld_setFld_same _ _ _ _ hf, satInc]
  split
  next h => rw [Nat.mod_eq_of_lt h]; omega
  next h => rw [Nat.mod_eq_of_lt (by omega)]; omega

/-- Counting up in a field touches its register alone. -/
theorem onlyRegs_satField (s : State) (f : Fld) (hi : i < 65536) : s.onlyRegs (s.satField f i) [(f.reg, i)] :=
  (onlyRegs.refl s _).csrSet (List.mem_singleton_self _) hi

/-! ## The warning -/

theorem csrGet_pfwRaise (s : State) (hv : r ≠ .PW_VSET) (hj : j < 65536) (hi : i < 65536) :
    (s.pfwRaise j).csrGet r i = s.csrGet r i := by
  unfold pfwRaise
  split
  · unfold setCode16
    rw [csrGet_setFld_ne _ _ hj hi (.inl hv), csrGet_setFld_ne _ _ hj hi (.inl hv)]
  · rfl

/-- The notice that a warning gives, or what it announces, is a change of the notice alone (R83). -/
theorem pwr_holdNotice_powerFail (s : State) : ∃ n, (s.holdNotice .powerFail).pwr = { s.pwr with notice := n } := by
  unfold holdNotice
  split
  · exact ⟨_, rfl⟩
  · exact ⟨_, rfl⟩

theorem ctlKept_holdNotice_powerFail (s : State) : s.ctlKept (s.holdNotice .powerFail) := by
  unfold holdNotice
  refine .ite ?_ ?_
  · exact ((ctlKept.refl s).update (t := { s with pwr := { s.pwr with notice := some .powerFail } })).ringNote
  · exact (ctlKept.refl s).update

/-- The registers that a warning writes (R49, R89). -/
def warnLogged (s : State) (c : Nat) : State :=
  ((s.setFld Fld.PW_INSTAT_PFW 0 1).setFld Fld.PW_PFLOG_LAST_CAUSE 0 c).satField Fld.PW_PFLOG_PF_CNT 0

/-- A warning is recorded and told to the two service cores (R49). -/
def warnRaised (s : State) (c : Nat) : State :=
  let t := ((s.warnLogged c).reeveEvent 4).cocoonEvent 4
  { t with pwr := { t.pwr with pfwLow := t.pwr.armed, failSeq := true, past380 := false, deglitch := false } }

theorem csr_warnRaised (s : State) (c : Nat) : (s.warnRaised c).csr = (s.warnLogged c).csr := rfl

/-- Every island is held up, and the cores, groups and ports are told to stop (R49). -/
def warnActs (s : State) : State :=
  let s := (List.range 25).foldl (fun s j => s.pfwRaise j) s
  let s := (List.range 160).foldl (fun s c => s.quiesce c) s
  s.cutGroups.portsSync.pmbusSet 12

theorem warn_eq (s : State) (c : Nat) : s.warn c = (s.warnRaised c).warnActs.holdNotice .powerFail := rfl

theorem boardKept_warnActs (s : State) : s.boardKept s.warnActs :=
  (((boardKept.refl s).foldl fun _ _ h => h.pfwRaise).foldl fun _ _ h => h.quiesce).cutGroups.portsSync.pmbusSet

/-- Of the control registers the warning's actions change the codes of the islands alone. -/
theorem csrGet_warnActs (s : State) (hr : r.isCtl = true) (hv : r ≠ .PW_VSET) (hi : i < 65536) :
    s.warnActs.csrGet r i = s.csrGet r i := by
  unfold warnActs
  extract_lets s₁ s₂
  have h₁ : s₁.csrGet r i = s.csrGet r i :=
    List.foldlRecOn (motive := fun t : State => t.csrGet r i = s.csrGet r i) _ _ rfl fun t ht j hj => by
      have hj := List.mem_range.1 hj
      rw [csrGet_pfwRaise t hv (by omega) hi, ht]
  have h₂ : s₁.ctlKept (s₂.cutGroups.portsSync.pmbusSet 12) :=
    ((ctlKept.refl s₁).foldl fun _ _ h => h.quiesce).cutGroups.portsSync.pmbusSet
  exact (h₂.regs r i hr hi).trans h₁

/-- What a warning makes of the supplies' state (R48, R49). -/
theorem pwr_warn (s : State) (c : Nat) : ∃ n, (s.warn c).pwr =
    { s.pwr with pfwLow := s.pwr.armed, failSeq := true, past380 := false, deglitch := false, notice := n } := by
  obtain ⟨n, hn⟩ := pwr_holdNotice_powerFail (s.warnRaised c).warnActs
  exact ⟨n, by rw [warn_eq, hn, (boardKept_warnActs _).pwr]; rfl⟩

/-- Of the control registers a warning writes these alone, and the codes of the islands. -/
theorem fld_warn (s : State) (c : Nat) (hr : f.reg.isCtl = true) (hv : f.reg ≠ .PW_VSET) (hi : i < 65536) :
    (s.warn c).fld f i = (s.warnLogged c).fld f i := by
  have hn := (ctlKept_holdNotice_powerFail (s.warnRaised c).warnActs).regs f.reg i hr hi
  have hl : (s.warnRaised c).csrGet f.reg i = (s.warnLogged c).csrGet f.reg i := by simp only [csrGet, csr_warnRaised]
  rw [warn_eq, fld, fld, hn.trans ((csrGet_warnActs (s.warnRaised c) hr hv hi).trans hl)]

theorem pfw_warn (s : State) (c : Nat) : (s.warn c).flag Fld.PW_INSTAT_PFW 0 = true := by
  have h : (s.warnLogged c).fld Fld.PW_INSTAT_PFW 0 = 1 := by
    unfold warnLogged satField
    rw [fld_setFld_apart _ _ (by decide) (by decide) (by decide), fld_setFld_apart _ _ (by decide) (by decide) (by decide),
      fld_setFld_same _ _ _ _ (by decide)]
    rfl
  unfold flag
  rw [fld_warn s c rfl (by decide) (by decide), h]
  rfl

theorem lastCause_warn (s : State) (hc : c < 256) : (s.warn c).fld Fld.PW_PFLOG_LAST_CAUSE 0 = c := by
  rw [fld_warn s c rfl (by decide) (by decide)]
  unfold warnLogged satField
  rw [fld_setFld_apart _ _ (by decide) (by decide) (by decide), fld_setFld_same _ _ _ _ (by decide)]
  exact Nat.mod_eq_of_lt hc

theorem pfCnt_warn (s : State) (c : Nat) :
    (s.warn c).fld Fld.PW_PFLOG_PF_CNT 0 = min (s.fld Fld.PW_PFLOG_PF_CNT 0 + 1) 255 := by
  rw [fld_warn s c rfl (by decide) (by decide)]
  unfold warnLogged
  rw [fld_satField_same _ _ _ (by decide), fld_setFld_apart _ _ (by decide) (by decide) (by decide),
    fld_setFld_apart _ _ (by decide) (by decide) (by decide)]
  rfl

theorem ovTripCnt_warn (s : State) (c : Nat) :
    (s.warn c).fld Fld.PW_PFLOG_OV_TRIP_CNT 0 = s.fld Fld.PW_PFLOG_OV_TRIP_CNT 0 := by
  rw [fld_warn s c rfl (by decide) (by decide)]
  unfold warnLogged satField
  rw [fld_setFld_apart _ _ (by decide) (by decide) (by decide), fld_setFld_apart _ _ (by decide) (by decide) (by decide),
    fld_setFld_apart _ _ (by decide) (by decide) (by decide)]

/-! ## The module off -/

theorem csrGet_keepPflog (t s : State) : (t.keepPflog s).csrGet .PW_PFLOG 0 = s.csrGet .PW_PFLOG 0 :=
  csrGet_csrSet_same _ _ _ _

theorem csrGet_holdOff (s : State) : s.holdOff.csrGet .PW_PFLOG 0 = s.csrGet .PW_PFLOG 0 := by
  unfold holdOff
  rw [csrGet_setFld_ne _ _ (by decide) (by decide) (.inl (by decide)), csrGet_keepPflog]

theorem fld_holdOff (s : State) (hf : f.reg = .PW_PFLOG) : s.holdOff.fld f 0 = s.fld f 0 := by
  rw [fld, fld, hf, csrGet_holdOff]

theorem csrGet_powerOn (s : State) (longLoss : Bool) :
    (s.powerOn longLoss).csrGet .PW_PFLOG 0 = if longLoss then 0 else s.csrGet .PW_PFLOG 0 := by
  cases longLoss
  · exact csrGet_keepPflog _ _
  · rfl

/-! ## The 380 µs point -/

/-- The lands are released: no line is driven past the 380 µs point (R49). -/
def landsOff (s : State) : State :=
  ({ s with pwr := { s.pwr with past380 := true, pwrOkHigh := false }, bell := { s.bell with ppsOut := false } } : State).gpioSync

/-- The module at the 380 µs point: its switches are open and its lands released (R49). -/
def at380 (s : State) : State := s.openSwitches.landsOff

theorem pwr_at380 (s : State) : s.at380.pwr = { s.pwr with past380 := true, pwrOkHigh := false } := by
  have h : s.openSwitches.pwr = s.pwr := (boardKept.refl s).openSwitches.pwr
  rw [← h]
  rfl

theorem csrGet_landsOff (s : State) (hr : r.isCtl = true) (hi : i < 65536) : s.landsOff.csrGet r i = s.csrGet r i :=
  (((ctlKept.refl s).update.setFld (f := Fld.PT_GPIO_IN)) : s.ctlKept s.landsOff).regs r i hr hi

theorem csrGet_at380 (s : State) (hr : r.isCtl = true) (hi : i < 65536) : s.at380.csrGet r i = s.csrGet r i :=
  (csrGet_landsOff _ hr hi).trans ((ctlKept.refl s).openSwitches.regs r i hr hi)

theorem sw_landsOff (s : State) (hi : i < 256) : s.landsOff.fld Fld.PT_STAT_SW i = s.fld Fld.PT_STAT_SW i :=
  fld_setFld_apart _ _ (by decide) (by decide) (by omega)

theorem sw_at380 (s : State) (hi : i < 256) : s.at380.flag Fld.PT_STAT_SW i = false := by
  rw [flag, at380, sw_landsOff _ hi, s.sw_openSwitches hi]
  rfl

/-- Every island but A is off at once (R86, R88). -/
def islandsOff (s : State) : State :=
  (List.range 25).foldl (fun s j =>
    if j = 23 then s else ((s.loseIsland j).dropEntry j).setFld Fld.PW_ISTATE_STATE j 0) s

theorem pwr_islandsOff (s : State) : s.islandsOff.pwr = s.pwr :=
  List.foldlRecOn (motive := fun t : State => t.pwr = s.pwr) _ _ rfl fun t ht j _ => by
    split
    · exact ht
    · exact ((boardKept.refl t).loseIsland (j := j)).pwr.trans ht

/-- One island's loss leaves the other islands' states as they are. -/
theorem islState_islandOff (s : State) (hj : j < 25) (h23 : j ≠ 23) (hi : i < 25) :
    (((s.loseIsland j).dropEntry j).setFld Fld.PW_ISTATE_STATE j 0).islState i = if i = j then 0 else s.islState i := by
  split
  next h =>
    subst h
    exact fld_setFld_same _ _ _ _ (by decide)
  next h =>
    have hl : (s.loseIsland j).csrGet .PW_ISTATE i = s.csrGet .PW_ISTATE i :=
      s.csrGet_loseIsland (.inl (Ne.symm h23)) (by omega)
    exact (fld_setFld_ne _ _ _ _ (by omega) (by omega) (.inr h)).trans (congrArg (bitsOf · _ _) hl)

theorem islState_islandsOff (s : State) (hj : j < 25) (h23 : j ≠ 23) : s.islandsOff.islState j = 0 := by
  refine foldl_each (P := fun j t => j ≠ 23 → t.islState j = 0) (fun t k hk h => ?_) (fun t k hk i hi h hne => ?_) s j
    (List.mem_range.2 hj) h23
  · rw [if_neg h, islState_islandOff t (List.mem_range.1 hk) h (List.mem_range.1 hk), if_pos rfl]
  · split
    · exact h hne
    next hk23 =>
      rw [islState_islandOff t (List.mem_range.1 hk) hk23 (List.mem_range.1 hi), h hne, ite_self]

end State
end Sys2Proof.Machine
end

section
/-!
SUPPORT. The events of the input, each under the condition that it tests: the state that it gives.
-/

set_option Elab.async false

namespace Sys2Proof.Machine
namespace State

variable {s : State}

theorem canWarn_of (h : s.pwr.standby = true) (h' : s.pwr.failSeq = false) : s.canWarn = true := by simp [canWarn, h, h']

theorem exec_inputStopFall (h : s.pwr.belowStop = false) : exec .inputStopFall s = .next
    { s with
      pwr := { s.pwr with belowStop := true, inputBack := false, backWait := false,
                          deglitch := s.pwr.standby && !s.pwr.failSeq && s.pwr.mode != .off }
      pmbus := (if s.pwr.standby then (s.pmbusSet 13).pmbusSet 3 else s).pmbus } := by
  change execInputStopFall s = _
  unfold execInputStopFall
  rw [if_neg (by simp [h])]
  split <;> rfl

/-- The input has recovered before the warning was final (R48). -/
def inputRecovered (s : State) : State := { s with pwr := { s.pwr with belowStop := false, deglitch := false } }

theorem exec_inputRecovery (h : s.pwr.belowStop = true) : exec .inputRecovery s = .next
    (if s.pwr.deglitch then s.inputRecovered.satField Fld.PW_PFLOG_DIP_CNT 0 else s.inputRecovered) := by
  change execInputRecovery s = _
  unfold execInputRecovery
  rw [if_neg (by simp [h])]
  rfl

theorem exec_deglitchExpiry (hd : s.pwr.deglitch = true) (h : s.canWarn = true) :
    exec .deglitchExpiry s = .next (s.warn 1) := by
  change execDeglitchExpiry s = _
  simp [execDeglitchExpiry, hd, h]

/-- The switch opens after an overvoltage that has lasted, and the trip is counted (R46). -/
def ovTripped (s : State) : State :=
  ({ s with pwr := { s.pwr with ovTimer := false, switchClosed := false } } : State).satField Fld.PW_PFLOG_OV_TRIP_CNT 0

theorem exec_overvoltageTimerExpiry (ho : s.pwr.ovTimer = true) (h : s.canWarn = true) :
    exec .overvoltageTimerExpiry s = .next (s.ovTripped.warn 2) := by
  have h' : s.ovTripped.canWarn = true := h
  change execOvervoltageTimerExpiry s = _
  unfold execOvervoltageTimerExpiry
  rw [if_pos ho]
  exact congrArg _ (if_pos h')

/-- The switch opens for another reason (R48). -/
def switchOpened (s : State) : State := { s with pwr := { s.pwr with switchClosed := false } }

theorem exec_otherInputSwitchOpening (ho : s.pwr.switchClosed = true) (h : s.canWarn = true) :
    exec .otherInputSwitchOpening s = .next (s.switchOpened.warn 4) := by
  have h' : s.switchOpened.canWarn = true := h
  change execOtherInputSwitchOpening s = _
  unfold execOtherInputSwitchOpening
  rw [if_pos ho]
  exact congrArg _ (if_pos h')

theorem exec_overvoltageOnset (s : State) : exec .overvoltageOnset s = .next
    { s with
      pwr := { s.pwr with ovTimer := s.pwr.standby, inputBack := false, backWait := false }
      pmbus := (if s.pwr.standby then s.pmbusSet 13 else s).pmbus } := by
  change execOvervoltageOnset s = _
  unfold execOvervoltageOnset
  dsimp only
  split <;> rfl

/-- An overvoltage has ended: one that ends before its timer is counted (R46). -/
def ovFallen (s : State) : State :=
  let t := { s with pwr := { s.pwr with ovTimer := false, inputBack := !s.pwr.belowStop,
                                        backWait := s.pwr.mode == .off && !s.pwr.belowStop } }
  if s.pwr.ovTimer then t.satField Fld.PW_PFLOG_OV_CNT 0 else t

theorem pwr_ovFallen (s : State) : s.ovFallen.pwr = { s.pwr with
    ovTimer := false, inputBack := !s.pwr.belowStop, backWait := s.pwr.mode == .off && !s.pwr.belowStop } := by
  unfold ovFallen
  dsimp only
  split <;> rfl

theorem exec_overvoltageFall (s : State) : exec .overvoltageFall s = .next
    (if !s.pwr.belowStop && s.pwr.past380 && !s.pwr.tripLatch then s.ovFallen.holdOff else s.ovFallen) := by
  have h : exec .overvoltageFall s = .next (if s.ovFallen.pwr.inputBack && s.ovFallen.pwr.past380 && !s.ovFallen.pwr.tripLatch
    then s.ovFallen.holdOff else s.ovFallen) := rfl
  rw [h, pwr_ovFallen]

theorem ovCnt_ovFallen (ho : s.pwr.ovTimer = true) :
    s.ovFallen.fld Fld.PW_PFLOG_OV_CNT 0 = min (s.fld Fld.PW_PFLOG_OV_CNT 0 + 1) 255 := by
  unfold ovFallen
  rw [if_pos ho]
  exact fld_satField_same _ _ _ (by decide)

/-- What follows for the module once its lands are released: it is TRIPPED, held off, or waits for the input (R49, R50, R88). -/
def after380 (s : State) : State :=
  if s.pwr.tripLatch then
    let s := (List.range 25).foldl (fun s j =>
      if j = 23 then s else ((s.loseIsland j).dropEntry j).setFld Fld.PW_ISTATE_STATE j 0) s
    { s with pwr := { s.pwr with mode := .tripped, phase := 0, notice := none } }
  else if s.pwr.inputBack then s.holdOff else s

/-- A tripped module (R86, R88). -/
def tripMode (s : State) : State := { s with pwr := { s.pwr with mode := .tripped, phase := 0, notice := none } }

theorem pwr_tripMode (s : State) : s.tripMode.pwr = { s.pwr with mode := .tripped, phase := 0, notice := none } := rfl
theorem islState_tripMode (s : State) (j : Nat) : s.tripMode.islState j = s.islState j := rfl

/-- The switches' opening and the release of the lands, before whatever follows. -/
theorem at380_then (s : State) (f : State → State) :
    (let s := s.openSwitches
    let s := { s with pwr := { s.pwr with past380 := true, pwrOkHigh := false }, bell := { s.bell with ppsOut := false } }
    let s := s.gpioSync
    f s) = f s.at380 := rfl

/-- The islands' loss, before whatever follows. -/
theorem islandsOff_then (s : State) (f : State → State) :
    (let s := (List.range 25).foldl (fun s j =>
      if j = 23 then s else ((s.loseIsland j).dropEntry j).setFld Fld.PW_ISTATE_STATE j 0) s
    f s) = f s.islandsOff := rfl

/-- Past the 380 µs point the service port stands still, and no GPIO land is driven (R49). -/
theorem svcRuns_past380 (h : s.pwr.past380 = true) : s.svcRuns = false := by simp [svcRuns, h]

theorem gpioPin_past380 {i : Nat} (h : s.pwr.past380 = true) : s.gpioPin i = s.ext.gpio.getLsbD i := by simp [gpioPin, h]

theorem exec_pfw380usPoint (hf : s.pwr.failSeq = true) (hp : s.pwr.past380 = false) :
    exec .pfw380usPoint s = .next s.at380.after380 := by
  change execPfw380usPoint s = _
  unfold execPfw380usPoint
  rw [if_pos (by simp [hf, hp])]
  exact congrArg _ (at380_then s after380)

section
variable (hf : s.pwr.failSeq = true) (hp : s.pwr.past380 = false)
include hf hp

/-- After a trip the module is TRIPPED. -/
theorem exec_pfw380usPoint_tripped (ht : s.pwr.tripLatch = true) :
    exec .pfw380usPoint s = .next s.at380.islandsOff.tripMode := by
  have ht' : s.at380.pwr.tripLatch = true := by rw [pwr_at380]; exact ht
  rw [exec_pfw380usPoint hf hp, after380, if_pos ht']
  exact congrArg _ (islandsOff_then s.at380 tripMode)

/-- With the input back it is held off. -/
theorem exec_pfw380usPoint_back (ht : s.pwr.tripLatch = false) (hb : s.pwr.inputBack = true) :
    exec .pfw380usPoint s = .next s.at380.holdOff := by
  rw [exec_pfw380usPoint hf hp, after380, pwr_at380, if_neg (by simp [ht]), if_pos hb]

/-- Otherwise it waits for the input. -/
theorem exec_pfw380usPoint_waits (ht : s.pwr.tripLatch = false) (hb : s.pwr.inputBack = false) :
    exec .pfw380usPoint s = .next s.at380 := by
  rw [exec_pfw380usPoint hf hp, after380, pwr_at380, if_neg (by simp [ht]), if_neg (by simp [hb])]

end

/-- What a module that the 380 µs point finds tripped has left (R86, R88). -/
theorem tripMode_at380 (s : State) {t : State} (h : t = s.at380.islandsOff.tripMode) :
    t.pwr.mode = .tripped ∧ t.pwr.past380 = true ∧ t.pwr.pwrOkHigh = false ∧ t.pwr.notice = none ∧
    ∀ j < 25, j ≠ 23 → t.islState j = 0 := by
  have hpwr : t.pwr = { s.pwr with past380 := true, pwrOkHigh := false, mode := .tripped, phase := 0, notice := none } := by
    rw [h, pwr_tripMode, pwr_islandsOff, pwr_at380]
  rw [hpwr]
  refine ⟨rfl, rfl, rfl, rfl, fun j hj h23 => ?_⟩
  rw [h, islState_tripMode, islState_islandsOff _ hj h23]

theorem exec_storeBelow40v (hp : s.pwr.past380 = true) (ht : s.pwr.tripLatch = false) :
    exec .storeBelow40v s = .next s.holdOff := by
  change execStoreBelow40v s = _
  simp [execStoreBelow40v, hp, ht]

/-- The input is back at the start threshold (R50). -/
def inputRisen (s : State) : State :=
  { s with pwr := { s.pwr with inputBack := true, belowStop := false, reversed := false, backWait := s.pwr.mode == .off } }

/-- Standby returns to a tripped module with the input (R86). -/
def standbyBack (s : State) : State :=
  ({ s with pwr := { s.pwr with standby := true, thermtripLow := s.pwr.armed } } : State).setFld Fld.PW_ISTATE_STATE 23 1

/-- The input's return, with or without that of standby (R50, R86). -/
def inputReturned (s : State) : State :=
  if s.pwr.mode = .tripped ∧ !s.pwr.standby then s.inputRisen.standbyBack else s.inputRisen

theorem exec_startThresholdRise (s : State) : exec .startThresholdRise s = .next
    (if s.pwr.past380 && !s.pwr.tripLatch then s.inputReturned.holdOff else s.inputReturned) := by
  have h : exec .startThresholdRise s = .next (if s.inputReturned.pwr.past380 && !s.inputReturned.pwr.tripLatch
    then s.inputReturned.holdOff else s.inputReturned) := rfl
  have hp : s.inputReturned.pwr.past380 = s.pwr.past380 ∧ s.inputReturned.pwr.tripLatch = s.pwr.tripLatch := by
    unfold inputReturned
    split <;> exact ⟨rfl, rfl⟩
  rw [h, hp.1, hp.2]

theorem inputBack_inputReturned (s : State) : s.inputReturned.pwr.inputBack = true := by
  unfold inputReturned
  split <;> rfl

theorem exec_standbySupplyLoss (h : s.pwr.mode = .off ∨ s.pwr.mode = .tripped) : exec .standbySupplyLoss s = .next
    (({ s.bare with pwr := { mode := s.pwr.mode, tripLatch := s.pwr.tripLatch, past380 := s.pwr.tripLatch,
                             armed := s.pwr.armed, inputBack := s.pwr.inputBack, belowStop := s.pwr.belowStop,
                             backWait := s.pwr.backWait, heldOff := s.pwr.heldOff, bootSel := s.pwr.bootSel } } : State).keepPflog s) := by
  change execStandbySupplyLoss s = _
  unfold execStandbySupplyLoss
  rw [if_pos (by simpa using h)]

theorem exec_holdupStoreFull (h : s.pwr.standby = true) :
    exec .holdupStoreFull s = .next { s with pwr := { s.pwr with storeFull := true } } := by
  change execHoldupStoreFull s = _
  simp [execHoldupStoreFull, h]

theorem exec_powerOn {longLoss : Bool} (hw : s.pwr.backWait = true) (hb : s.pwr.inputBack = true) :
    exec (.powerOn longLoss) s = .next (s.powerOn longLoss) := by
  change execPowerOn longLoss s = _
  simp [execPowerOn, hw, hb]

/-- What a module that is held off has lost and kept (R50). -/
theorem holdOff_spec (s : State) : s.holdOff.pwr.mode = .off ∧ s.holdOff.pwr.heldOff = true ∧
    s.holdOff.pwr.inputBack = s.pwr.inputBack ∧ s.holdOff.pwr.backWait = s.pwr.inputBack ∧
    s.holdOff.cores = [] ∧ s.holdOff.mem = [] := ⟨rfl, rfl, rfl, rfl, rfl, rfl⟩

end State
end Sys2Proof.Machine

open Sys2Proof Sys2Proof.Machine

/-- Settles O8: each event's result under the condition it tests; the warning's part rests on `State.pwr_warn` and
`State.fld_warn`, that the cores' last stores touch neither the supplies nor the power-fail log. -/
theorem inputPowerEvents : Obligations.InputPowerEvents := by
  unfold Obligations.InputPowerEvents
  intro s longLoss
  refine ⟨?_, fun hbelow => ?_, fun hbelow => ?_, fun hstandby hseq => ⟨fun hd => ?_, fun hov => ?_, fun hsw => ?_⟩, ?_,
    fun hov => ?_, fun hpast htrip hbelow => ?_,
    fun hseq hpast => ⟨fun htrip => ?_, fun htrip hback => ?_, fun htrip hback => ?_⟩,
    fun hpast htrip => ⟨?_, ?_⟩, fun hpast hmode => ?_, fun hmode htrip hstandby => ?_, fun hmode => ?_, fun hstandby => ?_,
    fun hwait hback => ?_⟩
  · rw [State.does_iff_of_next rfl]
    exact ⟨rfl, rfl, rfl, rfl, rfl, State.csrGet_keepPflog _ _⟩
  · rw [State.does_iff_of_next (State.exec_inputStopFall hbelow)]
    exact ⟨rfl, rfl⟩
  · rw [State.does_iff_of_next (State.exec_inputRecovery hbelow)]
    split
    · exact ⟨rfl, State.fld_satField_same _ _ _ (by decide), rfl,
        (s.inputRecovered.onlyRegs_satField Fld.PW_PFLOG_DIP_CNT (by decide)).2⟩
    · exact ⟨rfl, rfl, rfl, fun _ _ _ _ => rfl⟩
  · rw [State.does_iff_of_next (State.exec_deglitchExpiry hd (State.canWarn_of hstandby hseq))]
    obtain ⟨n, hpwr⟩ := s.pwr_warn 1
    rw [hpwr]
    exact ⟨rfl, rfl, rfl, rfl, s.pfw_warn 1, s.lastCause_warn (by decide), s.pfCnt_warn 1⟩
  · rw [State.does_iff_of_next (State.exec_overvoltageTimerExpiry hov (State.canWarn_of hstandby hseq))]
    obtain ⟨n, hpwr⟩ := s.ovTripped.pwr_warn 2
    rw [hpwr]
    refine ⟨rfl, rfl, rfl, s.ovTripped.lastCause_warn (by decide), ?_⟩
    rw [State.ovTripCnt_warn]
    exact State.fld_satField_same _ _ _ (by decide)
  · rw [State.does_iff_of_next (State.exec_otherInputSwitchOpening hsw (State.canWarn_of hstandby hseq))]
    obtain ⟨n, hpwr⟩ := s.switchOpened.pwr_warn 4
    rw [hpwr]
    exact ⟨rfl, rfl, s.switchOpened.lastCause_warn (by decide)⟩
  · rw [State.does_iff_of_next (State.exec_overvoltageOnset s)]
    exact ⟨rfl, rfl⟩
  · rw [State.does_iff_of_next (State.exec_overvoltageFall s)]
    have hpwr := s.pwr_ovFallen
    split
    next hoff =>
      refine ⟨congrArg Power.ovTimer hpwr, congrArg Power.inputBack hpwr,
        (State.fld_holdOff s.ovFallen rfl).trans (State.ovCnt_ovFallen hov), fun h => ?_⟩
      obtain ⟨⟨hbelow, hpast⟩, htrip⟩ : (s.pwr.belowStop = false ∧ s.pwr.past380 = true) ∧ s.pwr.tripLatch = false := by
        simpa using hoff
      simp [hbelow, hpast, htrip] at h
    next =>
      refine ⟨congrArg Power.ovTimer hpwr, congrArg Power.inputBack hpwr, State.ovCnt_ovFallen hov, fun _ => ?_⟩
      unfold State.ovFallen
      rw [if_pos hov]
      exact ⟨rfl, (State.onlyRegs_satField _ Fld.PW_PFLOG_OV_CNT (by decide)).2⟩
  · rw [State.does_iff_of_next (State.exec_overvoltageFall s), if_pos (by simp [hpast, htrip, hbelow])]
    have hin : s.ovFallen.pwr.inputBack = true := by rw [State.pwr_ovFallen, hbelow]; rfl
    obtain ⟨hmode, hheld, hback, hwait, hcores, hmem⟩ := State.holdOff_spec s.ovFallen
    exact ⟨hmode, hheld, hback.trans hin, hwait.trans hin, hcores, hmem⟩
  · rw [State.does_iff_of_next (State.exec_pfw380usPoint_tripped hseq hpast htrip)]
    exact State.tripMode_at380 s rfl
  · rw [State.does_iff_of_next (State.exec_pfw380usPoint_back hseq hpast htrip hback)]
    obtain ⟨hmode, hheld, -, hwait, hcores, hmem⟩ := State.holdOff_spec s.at380
    rw [State.pwr_at380] at hwait
    exact ⟨hmode, hheld, hwait.trans hback, hcores, hmem,
      (State.csrGet_holdOff _).trans (State.csrGet_at380 s rfl (by decide))⟩
  · rw [State.does_iff_of_next (State.exec_pfw380usPoint_waits hseq hpast htrip hback)]
    have hpast' : s.at380.pwr.past380 = true := by rw [State.pwr_at380]
    exact ⟨s.pwr_at380, fun _ => s.sw_at380, State.svcRuns_past380 hpast', fun _ => State.gpioPin_past380 hpast'⟩
  · rw [State.does_iff_of_next (State.exec_storeBelow40v hpast htrip)]
    obtain ⟨hmode, hheld, -, -, hcores, hmem⟩ := State.holdOff_spec s
    exact ⟨hmode, hheld, hcores, hmem, s.csrGet_holdOff⟩
  · rw [State.does_iff_of_next (State.exec_startThresholdRise s), if_pos (by simp [hpast, htrip])]
    obtain ⟨hmode, -, hback, hwait, -⟩ := State.holdOff_spec s.inputReturned
    exact ⟨hmode, hback.trans s.inputBack_inputReturned, hwait.trans s.inputBack_inputReturned⟩
  · rw [State.does_iff_of_next (State.exec_startThresholdRise s), if_neg (by simp [hpast]), State.inputReturned, if_neg]
    · rfl
    · rintro ⟨hm, hs⟩
      exact hmode.elim (· hm) fun h => by simp [h] at hs
  · rw [State.does_iff_of_next (State.exec_startThresholdRise s), if_neg (by simp [htrip]), State.inputReturned,
      if_pos ⟨hmode, by simp [hstandby]⟩]
    exact ⟨hmode, htrip, rfl, rfl, rfl⟩
  · rw [State.does_iff_of_next (State.exec_standbySupplyLoss hmode)]
    exact ⟨rfl, rfl, rfl, rfl, rfl, rfl, rfl, rfl, State.csrGet_keepPflog _ _⟩
  · rw [State.does_iff_of_next (State.exec_holdupStoreFull hstandby)]
  · rw [State.does_iff_of_next (State.exec_powerOn hwait hback)]
    cases longLoss <;> exact ⟨rfl, rfl, rfl, rfl, rfl, rfl, s.csrGet_powerOn _⟩
end

section
/-!
SUPPORT. Two more states that no run reaches, but that the statements admit: a register of a number past the hardware's has the
key of another register.
-/

set_option Elab.async false

namespace Sys2Proof.Machine

/-- A call slot past the hardware's 32: its result register has the key of `RV_STAT_0`. -/
def farSlot : Nat := (Reg.RV_STAT.ctorIdx - Reg.RV_RES0.ctorIdx) * 65536

/-- Island G in the exit from retention, with two WAKE calls that wait for it, of slot 0 and of `farSlot`. -/
def wakersCounter : State :=
  { State.reset with
    isl := [(22, { wakers := [0, farSlot] })]
    csr := [(regKey .PW_ISTATE 22, 4), (regKey .RV_STAT 0, 2), (regKey .RV_STAT farSlot, 2)] }

/-- The end of the exit from retention of an island without cores. -/
theorem State.exec_exitRestoreDone {s : State} {j : IslandId} (hs : s.islState j.val = 4)
    (hc : (s.island j.val).coldExit = false) (hj : ¬ j.val < 20) : exec (.exitRestoreDone j) s =
      .next (((s.setFld Fld.PW_ISTATE_STATE j.val 1).pfwRaise j.val).answerWakers j.val) := by
  change execExitRestoreDone j s = _
  simp [execExitRestoreDone, hs, hc, hj]

theorem wakersCounter_state : wakersCounter.islState (22 : IslandId).val = 4 := by decide +kernel

/-- The answer to the second call clears the state of the first. -/
theorem wakersCounter_call :
    (((wakersCounter.setFld Fld.PW_ISTATE_STATE 22 1).pfwRaise 22).answerWakers 22).callState 0 = 0 := by
  decide +kernel

/-- A stack past the hardware's four: the firewall of its first controller has its control register at the key of `BT_RST`. -/
def farStack : Nat := (Reg.BT_RST.ctorIdx - Reg.CK_FWCTL.ctorIdx) * 65536 / 16

/-- A line of that stack. -/
def farLine : Nat := farStack * 0x600000000 / 64

/-- Core 0 holds a modified copy of `farLine`, whose home slice allocates nothing, so that a reset of the core writes it to HBM;
the controller runs, and its firewall refuses what lies in no region. -/
def resetCounter : State :=
  { State.reset with
    pwr := { standby := true }
    cores := [(0, { l2 := [{ line := farLine, way := 0, st := .m, data := 0, poison := 0 }] })]
    csr := [(regKey .PW_ISTATE 20, 1), (regKey .MC_PCSTAT (16 * farStack), 2), (regKey .MC_ILV 0, 1),
            (regKey .MC_LLC_CTL (homeSlice farLine), 0), (regKey .BT_RST 0, 1)] }

/-- The refusal of the write is recorded with the source of none, over the source of the reset. -/
theorem resetCounter_lastSrc :
    (resetCounter.csrPort .jtag .BT_RST 0 fun s => s.rstWrite .jtag 1 0).fld Fld.BT_RST_LAST_SRC 0 = 0xFFF := by
  decide +kernel

end Sys2Proof.Machine

open Sys2Proof Sys2Proof.Machine

/-- Refutes O6: EXIT_RESTORE_DONE does not leave every WAKE call answered where one waits in a slot that no hardware has
(`wakersCounter`), whose result register lies in the status of another. -/
theorem not_islandEntryAndExit : ¬ Obligations.IslandEntryAndExit := by
  unfold Obligations.IslandEntryAndExit
  intro h
  obtain ⟨-, -, hexit⟩ := h 22 0 false wakersCounter
  obtain ⟨hwarm, -⟩ := hexit wakersCounter_state
  have hdo := hwarm rfl
  rw [State.does_iff_of_next (State.exec_exitRestoreDone wakersCounter_state rfl (by decide))] at hdo
  obtain ⟨-, -, hcalls⟩ := hdo
  obtain ⟨hcall, -⟩ := hcalls 0 (List.mem_cons_self) (by decide +kernel)
  exact absurd (wakersCounter_call.symm.trans hcall) (by decide)

/-- Refutes O10: a core reset does not leave the source of the command in `BT_RST` where the core's L2 writes back a line past
the hardware's stacks (`resetCounter`), whose firewall records its refusal in `BT_RST`. -/
theorem not_resetCommands : ¬ Obligations.ResetCommands := by
  unfold Obligations.ResetCommands
  intro h
  obtain ⟨-, -, hbt, -⟩ := h resetCounter .jtag 0 0 0
  obtain ⟨hsys, -⟩ := hbt (by decide +kernel) (by decide +kernel)
  obtain ⟨hcore, -⟩ := hsys (by decide +kernel)
  have hdo := hcore (by decide +kernel)
  rw [State.does_iff_of_next rfl] at hdo
  obtain ⟨-, hsrc, -⟩ := hdo
  exact absurd (resetCounter_lastSrc.symm.trans hsrc) (by decide)
end

section
/-!
SUPPORT. The frame of what happens to single islands: of the power block's registers and of the islands' control records, only
those of some islands change, and neither the supplies' state nor the bell nor memory.  One lemma per operation, as for the
control registers.
-/

set_option Elab.async false

namespace Sys2Proof.Machine

/-! ## Memory beside error records and the ports' switches -/

/-- From `s` to `t` memory has not changed. -/
def State.memKept (s t : State) : Prop := t.mem = s.mem

namespace State.memKept

variable {s₀ s t : State} {c i k n p u v : Nat}

theorem refl (s : State) : s.memKept s := rfl

theorem update (h : s₀.memKept s) (hm : t.mem = s.mem := by rfl) : s₀.memKept t := hm.trans h

theorem csrSet (h : s₀.memKept s) {r : Reg} {x : Word} : s₀.memKept (s.csrSet r i x) := h.update
theorem setFld (h : s₀.memKept s) {f : Fld} : s₀.memKept (s.setFld f i v) := h.update

theorem ite {P : Prop} [Decidable P] (ht : s₀.memKept s) (hu : s₀.memKept t) : s₀.memKept (if P then s else t) := by
  split <;> assumption

theorem foldl {α : Type} {l : List α} {f : State → α → State} (h : s₀.memKept s)
    (hf : ∀ s x, s₀.memKept s → s₀.memKept (f s x)) : s₀.memKept (l.foldl f s) :=
  List.foldlRecOn l f h fun s hs x _ => hf s x hs

theorem recFill (h : s₀.memKept s) {e : ErrRec} : s₀.memKept (s.recFill e n) :=
  h.csrSet.csrSet.csrSet.csrSet.foldl fun _ _ h => h.csrSet

theorem recSync (h : s₀.memKept s) : s₀.memKept (s.recSync u) := h.setFld

theorem recStore (h : s₀.memKept s) {e : ErrRec} : s₀.memKept (s.recStore e).1 := by
  unfold State.recStore
  split
  · exact h.setFld.csrSet
  · exact h.recFill.recSync
  · exact h.setFld

theorem modCore (h : s₀.memKept s) {f : Core → Core} : s₀.memKept (s.modCore c f) := h.update
theorem reeveEvent (h : s₀.memKept s) : s₀.memKept (s.reeveEvent n) := h.update

theorem errCheck (h : s₀.memKept s) {d : BitVec 16} {x : Word} : s₀.memKept (s.errCheck c d x) := by
  unfold State.errCheck
  split
  · exact h.update
  · exact h.modCore

theorem logErr (h : s₀.memKept s) {e : ErrRec} : s₀.memKept (s.logErr e) :=
  (h.recStore.reeveEvent.foldl fun _ _ h => h.errCheck).ite
    ((h.recStore.reeveEvent.modCore.ite h.recStore.reeveEvent).ite h.recStore)

theorem modPort (h : s₀.memKept s) {f : Port → Port} : s₀.memKept (s.modPort p f) := h.update
theorem modThread (h : s₀.memKept s) {f : Thread → Thread} : s₀.memKept (s.modThread p f) := h.update

theorem modCopies (h : s₀.memKept s) {x : Option (Nat × Nat)} {y : FrameCopy → Option FrameCopy} :
    s₀.memKept (s.modCopies p x y) := by
  unfold State.modCopies
  split
  · exact h
  · exact h.foldl fun _ _ h => h.ite h.modPort

theorem diagDone (h : s₀.memKept s) : s₀.memKept (s.diagDone p n k) := by
  unfold State.diagDone
  extract_lets s₁
  have h₁ : s₀.memKept s₁ := h.setFld.setFld.setFld
  split
  · exact h₁.setFld
  · exact h₁.setFld
  · exact h₁.setFld
  · exact h₁

theorem txOver (h : s₀.memKept s) : s₀.memKept (s.txOver p) :=
  h.modPort.modThread.ite (h.modPort.modThread.modPort.ite h.modPort.modThread.diagDone)

theorem txAbort (h : s₀.memKept s) : s₀.memKept (s.txAbort p) := h.ite h.modCopies.modPort.setFld.txOver
theorem portEvent (h : s₀.memKept s) : s₀.memKept (s.portEvent p) := h.modThread

theorem setCond (h : s₀.memKept s) {f : Fld} {b : Bool} : s₀.memKept (s.setCond p f b) := h.ite h.setFld.portEvent

theorem setLink (h : s₀.memKept s) : s₀.memKept (s.setLink p n) :=
  have h := h.ite h.setFld.setFld.portEvent
  h.ite (h.setFld.setFld.setFld.ite h.setFld.setFld.setFld.setFld)

theorem portSync (h : s₀.memKept s) : s₀.memKept (s.portSync p) := by
  unfold State.portSync
  extract_lets closed link s₁ s₂ s₃ s₄ s₅ s₆
  have h₃ : s₀.memKept s₃ := h.setCond.setCond.setCond
  have h₄ : s₀.memKept s₄ := h₃.ite h₃.setFld
  have h₅ : s₀.memKept s₅ := h₄.ite h₄.txAbort
  have h₆ : s₀.memKept s₆ := h₅.ite h₅.modPort
  exact h₆.setLink

theorem portsSync (h : s₀.memKept s) : s₀.memKept s.portsSync := h.foldl fun _ _ h => h.portSync

end State.memKept

/-! ## The frame -/

/-- A register of the power block: the first in CSR space (R22). -/
def Reg.isPw (r : Reg) : Bool := decide (r.ctorIdx ≤ Reg.PW_TEMP.ctorIdx)

theorem Reg.isCtl_of_isPw {r : Reg} (h : r.isPw = true) : r.isCtl = true := by
  simp only [Reg.isPw, Reg.isCtl, decide_eq_true_eq] at h ⊢
  exact Nat.lt_of_le_of_lt h (by decide)

/-- The power block lies in island A. -/
theorem Reg.island_of_isPw {r : Reg} (h : r.isPw = true) : r.island = 23 := by
  revert h
  cases r <;> decide

/-- From `s` to `t` the power block's registers and the islands' control records have changed for islands of `A` alone, and of
the registers those of `l` alone; the supplies, the bell and memory have not. -/
structure State.isleFrame (s t : State) (A : Nat → Prop) (l : List Reg) : Prop where
  regs : ∀ r i, r.isPw = true → i < 65536 → r ∉ l ∨ ¬ A i → t.csrGet r i = s.csrGet r i
  island : ∀ i, ¬ A i → t.island i = s.island i
  pwr : t.pwr = s.pwr
  bell : t.bell = s.bell
  mem : t.mem = s.mem

namespace State.isleFrame

variable {s₀ s t u : State} {A B : Nat → Prop} {l l' : List Reg} {k j v : Nat}

theorem refl (s : State) (A : Nat → Prop) (l : List Reg) : s.isleFrame s A l :=
  ⟨fun _ _ _ _ _ => rfl, fun _ _ => rfl, rfl, rfl, rfl⟩

theorem trans (h : s.isleFrame t A l) (h' : t.isleFrame u A l) : s.isleFrame u A l :=
  ⟨fun r i hr hi hA => (h'.regs r i hr hi hA).trans (h.regs r i hr hi hA),
    fun i hA => (h'.island i hA).trans (h.island i hA), h'.pwr.trans h.pwr, h'.bell.trans h.bell, h'.mem.trans h.mem⟩

theorem mono (h : s.isleFrame t A l) (hA : ∀ i, A i → B i) (hl : l ⊆ l') : s.isleFrame t B l' :=
  ⟨fun r i hr hi hB => h.regs r i hr hi (hB.imp (fun hn hm => hn (hl hm)) (fun hn hm => hn (hA i hm))),
    fun i hB => h.island i fun hm => hB (hA i hm), h.pwr, h.bell, h.mem⟩

/-- An update that touches neither the registers nor the islands, the supplies, the bell or memory. -/
theorem update (h : s₀.isleFrame s A l) (hc : t.csr = s.csr := by rfl) (hi : t.isl = s.isl := by rfl)
    (hp : t.pwr = s.pwr := by rfl) (hb : t.bell = s.bell := by rfl) (hm : t.mem = s.mem := by rfl) : s₀.isleFrame t A l :=
  h.trans ⟨fun _ _ _ _ _ => by simp only [State.csrGet, hc], fun _ _ => by simp only [State.island, hi], hp, hb, hm⟩

/-- What leaves the control registers, the board and memory alone. -/
theorem of_kept (h : s₀.isleFrame s A l) (hc : s.ctlKept t) (hb : s.boardKept t) (hm : s.memKept t) :
    s₀.isleFrame t A l := by
  have hi : t.isl = s.isl := congrArg (fun b => b.2.1) hb
  have hbell : t.bell = s.bell := congrArg (fun b => b.2.2.1) hb
  exact h.trans ⟨fun r i hr hi _ => hc.regs r i (Reg.isCtl_of_isPw hr) hi,
    fun i _ => by simp only [State.island, hi], hb.pwr, hbell, hm⟩

theorem logErr (h : s₀.isleFrame s A l) {e : ErrRec} : s₀.isleFrame (s.logErr e) A l :=
  h.of_kept (.logErr (.refl s)) (.logErr (.refl s)) (.logErr (.refl s))

theorem portsSync (h : s₀.isleFrame s A l) : s₀.isleFrame s.portsSync A l :=
  h.of_kept (.portsSync (.refl s)) (.portsSync (.refl s)) (.portsSync (.refl s))

theorem ite {P : Prop} [Decidable P] (ht : s₀.isleFrame s A l) (hu : s₀.isleFrame t A l) :
    s₀.isleFrame (if P then s else t) A l := by
  split <;> assumption

theorem foldl {α : Type} {L : List α} {f : State → α → State} (h : s₀.isleFrame s A l)
    (hf : ∀ s, ∀ x ∈ L, s₀.isleFrame s A l → s₀.isleFrame (f s x) A l) : s₀.isleFrame (L.foldl f s) A l :=
  List.foldlRecOn L f h fun s hs x hx => hf s x hx hs

/-! ## One island -/

section
variable (hk : A k)
include hk

theorem setFld (h : s₀.isleFrame s A l) {f : Fld} (hr : f.reg ∈ l) (hlt : k < 65536) : s₀.isleFrame (s.setFld f k v) A l := by
  refine h.trans ⟨fun r i hr' hi hA => s.csrGet_setFld_ne v hlt hi ?_, fun _ _ => rfl, rfl, rfl, rfl⟩
  obtain hn | hn := hA
  · exact .inl fun hc => hn (hc ▸ hr)
  · exact .inr fun hc => hn (hc ▸ hk)

theorem modIsland (h : s₀.isleFrame s A l) {f : Island → Island} : s₀.isleFrame (s.modIsland k f) A l :=
  h.trans ⟨fun _ _ _ _ _ => rfl, fun _ hA => FMap.get_set_ne _ _ _ fun hc => hA (hc ▸ hk), rfl, rfl, rfl⟩

section
variable (hlt : k < 65536)
include hlt

theorem setCode16 (h : s₀.isleFrame s A l) (hv : .PW_VSET ∈ l) : s₀.isleFrame (s.setCode16 k v) A l := by
  unfold State.setCode16
  exact (h.setFld hk hv hlt).setFld hk hv hlt

theorem pfwRaise (h : s₀.isleFrame s A l) (hv : .PW_VSET ∈ l) : s₀.isleFrame (s.pfwRaise k) A l :=
  (h.setCode16 hk hlt hv).ite h

theorem windowCount (h : s₀.isleFrame s A l) {n : Nat} (hr : .PW_RATE ∈ l) : s₀.isleFrame (s.windowCount k n) A l := by
  unfold State.windowCount State.incField
  exact (h.setFld hk hr hlt).setFld hk hr hlt

variable (hv : .PW_VSET ∈ l) (hi : .PW_ISTATE ∈ l)
include hv hi

theorem loseLock (h : s₀.isleFrame s A l) : s₀.isleFrame (s.loseLock k) A l := by
  have hs : s₀.isleFrame ((s.setFld Fld.PW_ISTATE_LOCKED k 0).setFld Fld.PW_ISTATE_LOCK_LOST k 1) A l :=
    (h.setFld hk hi hlt).setFld hk hi hlt
  have hs := (hs.logErr (e := { unit := 250, sev := 2, type := 0x30, loc := k, data := [k] })).modIsland hk
    (f := fun k => { k with lockGone := true })
  have hs := hs.pfwRaise hk hlt hv
  exact (hs.portsSync.ite hs).ite h

omit hv in
theorem gainLock (h : s₀.isleFrame s A l) : s₀.isleFrame (s.gainLock k) A l := by
  have hs : s₀.isleFrame (s.setFld Fld.PW_ISTATE_LOCKED k 1) A l := h.setFld hk hi hlt
  have hs := hs.modIsland hk (f := fun k => { k with lockGone := false })
  exact hs.portsSync.ite hs

theorem syncCapped (h : s₀.isleFrame s A l) : s₀.isleFrame (s.syncCapped k) A l := by
  have hs : s₀.isleFrame (s.setFld Fld.PW_ISTATE_CAPPED k (bit (s.island k).capped)) A l := h.setFld hk hi hlt
  exact (hs.loseLock hk hlt hv hi).ite hs

theorem capIsland (h : s₀.isleFrame s A l) {f : Island → Island} : s₀.isleFrame (s.capIsland k v f) A l := by
  unfold State.capIsland
  extract_lets i s₁
  have h₁ : s₀.isleFrame s₁ A l := h.ite (h.modIsland hk)
  exact ((h₁.modIsland hk).setCode16 hk hlt hv).syncCapped hk hlt hv hi

theorem uncapIsland (h : s₀.isleFrame s A l) {f : Island → Island} : s₀.isleFrame (s.uncapIsland k f) A l := by
  unfold State.uncapIsland
  extract_lets was s₁
  have h₁ : s₀.isleFrame s₁ A l := h.modIsland hk
  exact ((h₁.setCode16 hk hlt hv).ite h₁).syncCapped hk hlt hv hi

theorem regulate (h : s₀.isleFrame s A l) {m : Int} : s₀.isleFrame (s.regulate k m) A l := by
  unfold State.regulate
  split
  extract_lets hi' m' c s₁
  have h₁ : s₀.isleFrame s₁ A l := h.ite (h.setCode16 hk hlt hv)
  exact (h₁.loseLock hk hlt hv hi).ite h₁

theorem powerCapStep (h : s₀.isleFrame s A l) : s₀.isleFrame (s.powerCapStep k) A l :=
  (h.capIsland hk hlt hv hi).ite h

theorem powerReturn (h : s₀.isleFrame s A l) : s₀.isleFrame (s.powerReturn k) A l := by
  unfold State.powerReturn
  exact h.ite ((h.uncapIsland hk hlt hv hi).ite (h.setCode16 hk hlt hv))

/-- The bookkeeping of a LOCK window: a phase error is recorded, and lock may be lost or gained. -/
theorem lockWindow (s : State) : ∃ err, (s.setFld Fld.PW_RATE_PHASE_ERR k err).isleFrame (s.lockWindow k) A l := by
  unfold State.lockWindow
  extract_lets locked err s₁ good bad s₂
  have h₁ : s₁.isleFrame s₁ A l := .refl _ _ _
  have h₂ : s₁.isleFrame s₂ A l := h₁.modIsland hk
  exact ⟨_, ((h₂.loseLock hk hlt hv hi).ite h₂).ite (((h₁.gainLock hk hlt hi).modIsland hk).ite h₁)⟩

end
end

/-! ## Steps over the islands -/

/-- Where each step touches its own island alone, the steps before island `j`'s leave that island alone, and so do those after
it. -/
theorem foldl_at {f : State → Nat → State} {L : List Nat} (hL : L.Nodup) (hj : j ∈ L)
    (hf : ∀ s : State, ∀ k ∈ L, s.isleFrame (f s k) (· = k) l) (s : State) :
    ∃ u : State, s.isleFrame u (· ≠ j) l ∧ (f u j).isleFrame (L.foldl f s) (· ≠ j) l := by
  have hrun : ∀ (M : List Nat) (t : State), (∀ k ∈ M, k ∈ L ∧ k ≠ j) → t.isleFrame (M.foldl f t) (· ≠ j) l :=
    fun M t hM => (refl t _ l).foldl fun u k hk h =>
      h.trans ((hf u k (hM k hk).1).mono (fun _ hi => hi ▸ (hM k hk).2) fun _ h => h)
  obtain ⟨M, N, rfl⟩ := List.append_of_mem hj
  have hd := List.nodup_middle.1 hL
  rw [List.nodup_cons, List.mem_append, not_or] at hd
  obtain ⟨⟨hM, hN⟩, -⟩ := hd
  refine ⟨M.foldl f s, hrun M s fun k hk => ⟨by simp [hk], fun hc => hM (hc ▸ hk)⟩, ?_⟩
  rw [List.foldl_append, List.foldl_cons]
  exact hrun N _ fun k hk => ⟨by simp [hk], fun hc => hN (hc ▸ hk)⟩

/-! ## What stays of an island that is not touched -/

section
variable (h : s.isleFrame t A l) (hj : ¬ A j) (hlt : j < 65536)
include h hj hlt

theorem csrGet_at {r : Reg} (hr : r.isPw = true) : t.csrGet r j = s.csrGet r j := h.regs r j hr hlt (.inr hj)

theorem fld_at {f : Fld} (hr : f.reg.isPw = true) : t.fld f j = s.fld f j := congrArg (bitsOf · _ _) (h.csrGet_at hj hlt hr)

theorem flag_at {f : Fld} (hr : f.reg.isPw = true) : t.flag f j = s.flag f j := congrArg (· != 0) (h.fld_at hj hlt hr)

theorem code16_at : t.code16 j = s.code16 j := by
  unfold State.code16
  rw [h.fld_at hj hlt rfl, h.fld_at hj hlt rfl]

theorem islOpen_at : t.islOpen j = s.islOpen j := by
  have hs : t.islState j = s.islState j := h.fld_at hj hlt rfl
  have hi : FMap.get t.isl {} j = FMap.get s.isl {} j := h.island j hj
  unfold State.islOpen
  rw [hs, hi]

theorem pfwFloor_at : t.pfwFloor j = s.pfwFloor j := by
  unfold State.pfwFloor
  rw [h.pwr, h.islOpen_at hj hlt, h.fld_at hj hlt rfl, h.flag_at hj hlt rfl]

end

/-- A field of a register that the steps do not touch. -/
theorem fld_keeps (h : s.isleFrame t A l) {f : Fld} {i : Nat} (hr : f.reg.isPw = true) (hl : f.reg ∉ l) (hi : i < 65536) :
    t.fld f i = s.fld f i := congrArg (bitsOf · _ _) (h.regs f.reg i hr hi (.inl hl))

end State.isleFrame
end Sys2Proof.Machine
end

section
/-!
SUPPORT. An island's code after it is set: within the envelope, under the caps that hold the island, and no lower than a
power-fail warning allows (R49, R60, R84).
-/

set_option Elab.async false

namespace Sys2Proof.Machine

/-- The nearer limit, by the order of the two. -/
theorem clampNat_eq {lo hi v : Nat} (h : lo ≤ hi) : clampNat lo hi v = min (max v lo) hi := by
  unfold clampNat
  split_ifs <;> omega

/-- Under the critical cap an island returns to no more than 0.75 V. -/
theorem Island.capTop_le_of_critCap {k : Island} (h : k.critCap = true) : k.capTop ≤ 150 * 16 := by
  simp only [Island.capTop, h, if_true]
  exact Nat.min_le_right _ _

/-- Under the fall from BOOST an island returns to no more than 0.85 V. -/
theorem Island.capTop_le_of_boostFell {k : Island} (h : k.boostFell = true) : k.capTop ≤ 170 * 16 := by
  unfold Island.capTop
  split_ifs <;> omega

namespace State

variable {s : State} {r : Reg} {i j k v : Nat} {src : Src}

/-! ## The code -/

/-- The least code that an island may stand at (R49, R60). -/
def codeFloor (s : State) (j : Nat) : Nat := if s.pfwFloor j then 150 * 16 else 0x6E * 16

theorem codeFloor_le (s : State) (j : Nat) : s.codeFloor j ≤ 150 * 16 := by
  unfold codeFloor
  split <;> omega

theorem codeFloor_of_pfwFloor (h : s.pfwFloor j = true) : s.codeFloor j = 150 * 16 := by simp [codeFloor, h]

theorem setCode16_eq (s : State) (j v : Nat) : s.setCode16 j v =
    (s.setFld Fld.PW_VSET_VCODE j (min (max v (s.codeFloor j)) (0xBE * 16) / 16)).setFld Fld.PW_VSET_VFRAC j
      (min (max v (s.codeFloor j)) (0xBE * 16) % 16) := by
  have hle : s.codeFloor j ≤ 0xBE * 16 := (s.codeFloor_le j).trans (by decide)
  have hc : clampNat (if s.pfwFloor j then 150 * 16 else 0x6E * 16) (0xBE * 16) v =
      min (max v (s.codeFloor j)) (0xBE * 16) := clampNat_eq hle
  unfold setCode16
  rw [hc]

theorem vcode_setCode16 (s : State) (j v : Nat) :
    (s.setCode16 j v).fld Fld.PW_VSET_VCODE j = min (max v (s.codeFloor j)) (0xBE * 16) / 16 := by
  rw [setCode16_eq, fld_setFld_disj _ Fld.PW_VSET_VFRAC Fld.PW_VSET_VCODE j _ rfl (by decide),
    fld_setFld_same _ _ _ _ (by decide)]
  exact Nat.mod_eq_of_lt (by simp only [Fld.PW_VSET_VCODE]; omega)

theorem vfrac_setCode16 (s : State) (j v : Nat) :
    (s.setCode16 j v).fld Fld.PW_VSET_VFRAC j = min (max v (s.codeFloor j)) (0xBE * 16) % 16 := by
  rw [setCode16_eq, fld_setFld_same _ _ _ _ (by decide)]
  exact Nat.mod_mod _ 16

theorem code16_setCode16 (s : State) (j v : Nat) :
    (s.setCode16 j v).code16 j = min (max v (s.codeFloor j)) (0xBE * 16) := by
  unfold code16
  rw [vcode_setCode16, vfrac_setCode16]
  omega

/-- A code asked for at or below a limit that the warning allows stands at or below it. -/
theorem code16_setCode16_le {n : Nat} (hn : 150 * 16 ≤ n) (hv : v ≤ n) : (s.setCode16 j v).code16 j ≤ n := by
  have := s.codeFloor_le j
  rw [code16_setCode16]
  omega

/-! ## What the setting of a code leaves -/

theorem csrGet_setCode16 (s : State) (hr : r ≠ .PW_VSET) (hk : k < 65536) (hi : i < 65536) :
    (s.setCode16 k v).csrGet r i = s.csrGet r i := by
  unfold setCode16
  rw [csrGet_setFld_ne _ _ hk hi (.inl hr), csrGet_setFld_ne _ _ hk hi (.inl hr)]

theorem fld_setCode16 (s : State) {f : Fld} (hr : f.reg ≠ .PW_VSET) (hk : k < 65536) (hi : i < 65536) :
    (s.setCode16 k v).fld f i = s.fld f i := congrArg (bitsOf · _ _) (s.csrGet_setCode16 hr hk hi)

@[simp] theorem island_setCode16 (s : State) (k v j : Nat) : (s.setCode16 k v).island j = s.island j := rfl
@[simp] theorem island_setFld (s : State) (f : Fld) (i v j : Nat) : (s.setFld f i v).island j = s.island j := rfl

@[simp] theorem island_modIsland_same (s : State) (j : Nat) (f : Island → Island) :
    (s.modIsland j f).island j = f (s.island j) := by
  simp [State.island, State.modIsland]

/-- Whether a warning holds an island up depends on these alone. -/
theorem pfwFloor_congr {s t : State} (hp : t.pwr.failSeq = s.pwr.failSeq) (hs : t.islState j = s.islState j)
    (he : (t.island j).entry.isSome = (s.island j).entry.isSome)
    (hm : t.fld Fld.PW_RCTL_MODE j = s.fld Fld.PW_RCTL_MODE j)
    (hl : t.flag Fld.PW_ISTATE_LOCKED j = s.flag Fld.PW_ISTATE_LOCKED j) : t.pfwFloor j = s.pfwFloor j := by
  unfold State.island at he
  unfold pfwFloor islOpen
  rw [hp, hs, he, hm, hl]

theorem pfwFloor_setCode16 (s : State) (hj : j < 65536) : (s.setCode16 j v).pfwFloor j = s.pfwFloor j :=
  pfwFloor_congr rfl (s.fld_setCode16 (by decide) hj hj) rfl (s.fld_setCode16 (by decide) hj hj)
    (congrArg (· != 0) (s.fld_setCode16 (by decide) hj hj))

theorem pfwFloor_modIsland {f : Island → Island} (hf : (f (s.island j)).entry = (s.island j).entry) :
    (s.modIsland j f).pfwFloor j = s.pfwFloor j :=
  pfwFloor_congr rfl rfl (by rw [island_modIsland_same, hf]) rfl rfl

/-- A field of an island's control that its openness does not depend on. -/
theorem pfwFloor_setFld (s : State) {f : Fld} (hs : f.apart Fld.PW_ISTATE_STATE = true)
    (hl : f.apart Fld.PW_ISTATE_LOCKED = true) (hm : f.apart Fld.PW_RCTL_MODE = true) (hj : j < 65536) :
    (s.setFld f j v).pfwFloor j = s.pfwFloor j :=
  pfwFloor_congr rfl (s.fld_setFld_apart v hs hj hj) rfl (s.fld_setFld_apart v hm hj hj)
    (congrArg (· != 0) (s.fld_setFld_apart v hl hj hj))

theorem pfwFloor_pfwRaise (s : State) (hj : j < 65536) : (s.pfwRaise j).pfwFloor j = s.pfwFloor j := by
  unfold pfwRaise
  split
  · exact s.pfwFloor_setCode16 hj
  · rfl

theorem code16_pfwRaise (h : s.pfwFloor j = true) : 150 * 16 ≤ (s.pfwRaise j).code16 j := by
  unfold pfwRaise
  rw [if_pos h, code16_setCode16, codeFloor_of_pfwFloor h]
  omega

theorem pfwRaise_of_failSeq (h : s.pwr.failSeq = false) : s.pfwRaise j = s := by simp [pfwRaise, pfwFloor, h]

/-! ## A code that software asks for -/

/-- What an island returns to, once software has asked for a code under a cap. -/
def asked (s : State) (j v : Nat) : State := s.modIsland j fun k => { k with capFrom := clampNat (0x6E * 16) (0xBE * 16) v }

theorem pfwFloor_asked (s : State) (j v : Nat) : (s.asked j v).pfwFloor j = s.pfwFloor j := pfwFloor_modIsland rfl

theorem askCode16_free (h : (s.island j).capped = false) : s.askCode16 j v = s.setCode16 j v := by
  simp [askCode16, h]

theorem askCode16_capped (h : (s.island j).capped = true) : ∃ w ≤ ((s.asked j v).island j).capTop,
    s.askCode16 j v = (s.asked j v).setCode16 j w := by
  refine ⟨_, ?_, if_pos h⟩
  split
  · exact Nat.min_le_left _ _
  · exact Nat.le_refl _

/-- Under a cap the code asked for is kept as what the island returns to. -/
theorem capFrom_askCode16 (h : (s.island j).capped = true) :
    ((s.askCode16 j v).island j).capFrom = min (max v (0x6E * 16)) (0xBE * 16) := by
  obtain ⟨w, -, he⟩ := askCode16_capped (v := v) h
  rw [he, island_setCode16, asked, island_modIsland_same]
  exact clampNat_eq (by decide)

theorem code16_askCode16_critCap (h : (s.island j).critCap = true) : (s.askCode16 j v).code16 j ≤ 150 * 16 := by
  obtain ⟨w, hw, he⟩ := askCode16_capped (s := s) (j := j) (v := v) (by simp [Island.capped, h])
  rw [he]
  refine code16_setCode16_le (Nat.le_refl _) (hw.trans (Island.capTop_le_of_critCap ?_))
  rw [asked, island_modIsland_same]
  exact h

theorem code16_askCode16_boostFell (h : (s.island j).boostFell = true) : (s.askCode16 j v).code16 j ≤ 170 * 16 := by
  obtain ⟨w, hw, he⟩ := askCode16_capped (s := s) (j := j) (v := v) (by simp [Island.capped, h])
  rw [he]
  refine code16_setCode16_le (by decide) (hw.trans (Island.capTop_le_of_boostFell ?_))
  rw [asked, island_modIsland_same]
  exact h

theorem code16_askCode16_floor (h : s.pfwFloor j = true) : 150 * 16 ≤ (s.askCode16 j v).code16 j := by
  cases hc : (s.island j).capped with
  | false =>
    rw [askCode16_free hc, code16_setCode16, codeFloor_of_pfwFloor h]
    omega
  | true =>
    obtain ⟨w, -, he⟩ := askCode16_capped (v := v) hc
    rw [he, code16_setCode16, codeFloor_of_pfwFloor ((s.pfwFloor_asked j v).trans h)]
    omega

end State
end Sys2Proof.Machine
end

section
/-!
SUPPORT. Writes to the power block's registers: the frame of a write to an island's voltage and regulation registers, what the
port makes of the expert gate, and the two writes as they stand once the port has taken them (R10, R65, R66).
-/

set_option Elab.async false

namespace Sys2Proof.Machine

/-- Nothing changes but the answer, the islands' control records and the registers listed. -/
def State.onlyIsles (s t : State) (l : List (Reg × Nat)) : Prop :=
  t = { s with csr := t.csr, resp := t.resp, isl := t.isl } ∧ s.regsKept t l

namespace State.onlyIsles

variable {s t u : State} {l : List (Reg × Nat)} {r : Reg} {i j v : Nat} {f : Fld} {src : Src}

theorem refl (s : State) (l : List (Reg × Nat)) : s.onlyIsles s l := ⟨rfl, fun _ _ _ _ => rfl⟩

theorem of_onlyRegs (h : s.onlyRegs t l) : s.onlyIsles t l := by
  obtain ⟨ht, hr⟩ := h
  exact ⟨by rw [ht], hr⟩

theorem mono {l' : List (Reg × Nat)} (h : s.onlyIsles t l) (hl : l ⊆ l') : s.onlyIsles t l' :=
  ⟨h.1, fun r i hi hm => h.2 r i hi fun hc => hm (hl hc)⟩

theorem csrSet (h : s.onlyIsles t l) {w : Word} (hm : (r, i) ∈ l) (hi : i < 65536) : s.onlyIsles (t.csrSet r i w) l := by
  obtain ⟨ht, hr⟩ := h
  refine ⟨congrArg (fun u : State => { u with csr := FMap.set t.csr (regKey r i) w }) ht, fun r' i' hi' hl => ?_⟩
  have hne : r' ≠ r ∨ i' ≠ i := by
    by_contra hc
    simp only [not_or, not_not] at hc
    exact hl (by rw [hc.1, hc.2]; exact hm)
  rw [t.csrGet_csrSet_ne w hi hi' hne]
  exact hr r' i' hi' hl

theorem setFld (h : s.onlyIsles t l) (hm : (f.reg, i) ∈ l) (hi : i < 65536) : s.onlyIsles (t.setFld f i v) l := h.csrSet hm hi

theorem modIsland (h : s.onlyIsles t l) {g : Island → Island} : s.onlyIsles (t.modIsland j g) l :=
  ⟨congrArg (fun u : State => { u with isl := FMap.set t.isl j (g (t.island j)) }) h.1, h.2⟩

theorem ite {P : Prop} [Decidable P] (ht : s.onlyIsles t l) (hu : s.onlyIsles u l) : s.onlyIsles (if P then t else u) l := by
  split <;> assumption

section
variable (hv : (.PW_VSET, j) ∈ l) (hs : (.PW_ISTATE, j) ∈ l) (hj : j < 65536)

section
include hv hj

theorem setCode16 (h : s.onlyIsles t l) : s.onlyIsles (t.setCode16 j v) l := (h.setFld hv hj).setFld hv hj

theorem askCode16 (h : s.onlyIsles t l) : s.onlyIsles (t.askCode16 j v) l := (h.modIsland.setCode16 hv hj).ite (h.setCode16 hv hj)

theorem pfwRaise (h : s.onlyIsles t l) : s.onlyIsles (t.pfwRaise j) l := (h.setCode16 hv hj).ite h

end

include hs hj in
theorem islXovr (h : s.onlyIsles t l) : s.onlyIsles (t.islXovr j src) l := h.ite ((h.setFld hs hj).setFld hs hj)

include hv hs hj in
theorem setMode (h : s.onlyIsles t l) (hr : (.PW_RATE, j) ∈ l) (hc : (.PW_RCTL, j) ∈ l) : s.onlyIsles (t.setMode j v) l := by
  have h' : s.onlyIsles (((t.setFld Fld.PW_ISTATE_LOCKED j 0).setFld Fld.PW_RATE_PHASE_ERR j 0).modIsland j
      (fun k => { k with badWindows := 0 })) l := ((h.setFld hs hj).setFld hr hj).modIsland
  exact ((h.ite h').setFld hc hj).pfwRaise hv hj

end
end State.onlyIsles

namespace State

variable {s t : State} {r : Reg} {f : Fld} {i j k v : Nat} {src : Src} {w : Word}

/-! ## The expert write's mark -/

theorem csrGet_islXovr (s : State) (hr : r ≠ .PW_ISTATE) (hj : j < 65536) (hi : i < 65536) :
    (s.islXovr j src).csrGet r i = s.csrGet r i := by
  unfold islXovr
  split
  · rfl
  · rw [csrGet_setFld_ne _ _ hj hi (.inl hr), csrGet_setFld_ne _ _ hj hi (.inl hr)]

theorem fld_islXovr (s : State) (hr : f.reg ≠ .PW_ISTATE) (hj : j < 65536) : (s.islXovr j src).fld f j = s.fld f j :=
  congrArg (bitsOf · _ _) (s.csrGet_islXovr hr hj hj)

theorem code16_islXovr (s : State) (hj : j < 65536) : (s.islXovr j src).code16 j = s.code16 j := by
  unfold code16
  rw [s.fld_islXovr (by decide) hj, s.fld_islXovr (by decide) hj]

@[simp] theorem isl_islXovr (s : State) (j : Nat) (src : Src) : (s.islXovr j src).isl = s.isl := by
  unfold islXovr
  split <;> rfl

@[simp] theorem island_islXovr (s : State) (j : Nat) (src : Src) (i : Nat) : (s.islXovr j src).island i = s.island i := by
  unfold State.island
  rw [isl_islXovr]

theorem pfwFloor_islXovr (s : State) (hj : j < 65536) : (s.islXovr j src).pfwFloor j = s.pfwFloor j := by
  unfold islXovr
  split
  · rfl
  · rw [pfwFloor_setFld _ rfl rfl rfl hj, pfwFloor_setFld _ rfl rfl rfl hj]

/-- A source other than the Reeve marks the island as set by an expert. -/
theorem marked_islXovr (s : State) (h : src ≠ .reeve) (j : Nat) :
    (s.islXovr j src).flag Fld.PW_ISTATE_XOVR j = true ∧ (s.islXovr j src).fld Fld.PW_ISTATE_POINT j = 0xFF := by
  unfold islXovr State.flag
  rw [if_neg h]
  refine ⟨?_, fld_setFld_same _ _ _ _ (by decide)⟩
  rw [fld_setFld_disj _ Fld.PW_ISTATE_POINT Fld.PW_ISTATE_XOVR j _ rfl (by decide), fld_setFld_same _ _ _ _ (by decide)]
  rfl

/-! ## The port -/

/-- A write to an island's register as the port has taken it: the gate has seen it, unless the Reeve made it (R10, R66). -/
def pwTaken (s : State) (src : Src) : State := if src = .reeve then s.reply 0 else (s.gateFall .PW_XGATE 0).reply 0

theorem onlyRegs_pwTaken (s : State) (src : Src) : s.onlyRegs (s.pwTaken src) [(.PW_XGATE, 0)] := by
  unfold pwTaken
  split
  · exact (onlyRegs.refl s _).reply
  · exact (onlyRegs_gateFall (by decide) (by decide)).reply

theorem csrPortReeve_island {e : State → State} (hr : r = .PW_VSET ∨ r = .PW_RCTL) (hl : s.srcLive src = true)
    (ho : s.islOpen 23 = true) : s.csrPortReeve src r j e = e (s.pwTaken src) := by
  have hu : s.unitUp r = true := by
    obtain rfl | rfl := hr <;> exact ho
  have hg : s.gateSees r j = s.gateFall .PW_XGATE 0 := by
    obtain rfl | rfl := hr <;> rfl
  simp only [csrPortReeve, hl, hu, hg, pwTaken, Bool.not_true, Bool.false_eq_true, if_false]
  split <;> rfl

theorem fld_of_onlyRegs {l : List (Reg × Nat)} (h : s.onlyRegs t l) (hm : (f.reg, i) ∉ l) (hi : i < 65536) :
    t.fld f i = s.fld f i := congrArg (bitsOf · _ _) (h.2 f.reg i hi hm)

theorem isl_of_onlyRegs {l : List (Reg × Nat)} (h : s.onlyRegs t l) : t.isl = s.isl := (congrArg State.isl h.1 :)
theorem pwr_of_onlyRegs {l : List (Reg × Nat)} (h : s.onlyRegs t l) : t.pwr = s.pwr := (congrArg State.pwr h.1 :)

theorem fld_pwTaken (s : State) (src : Src) (hr : f.reg ≠ .PW_XGATE) (hi : i < 65536) :
    (s.pwTaken src).fld f i = s.fld f i := fld_of_onlyRegs (s.onlyRegs_pwTaken src) (by simp [hr]) hi

@[simp] theorem isl_pwTaken (s : State) (src : Src) : (s.pwTaken src).isl = s.isl :=
  isl_of_onlyRegs (s.onlyRegs_pwTaken src)

@[simp] theorem pwr_pwTaken (s : State) (src : Src) : (s.pwTaken src).pwr = s.pwr :=
  pwr_of_onlyRegs (s.onlyRegs_pwTaken src)

@[simp] theorem island_pwTaken (s : State) (src : Src) (i : Nat) : (s.pwTaken src).island i = s.island i := by
  unfold State.island
  rw [isl_pwTaken]

theorem pfwFloor_pwTaken (s : State) (src : Src) (hj : j < 65536) : (s.pwTaken src).pfwFloor j = s.pfwFloor j :=
  pfwFloor_congr (congrArg _ (s.pwr_pwTaken src)) (s.fld_pwTaken src (by decide) hj) (by rw [island_pwTaken])
    (s.fld_pwTaken src (by decide) hj) (congrArg (· != 0) (s.fld_pwTaken src (by decide) hj))

/-- The gate of the power block. -/
theorem gateState_pw (hr : r.gate j = some (.PW_XGATE, 0)) : s.gateState r j = bitsOf (s.csrGet .PW_XGATE 0) 17 16 := by
  simp [gateState, hr]

/-- A write that is no key leaves the gate open where it was open, and opens none. -/
theorem gateState_pwFall (s : State) : bitsOf ((s.gateFall .PW_XGATE 0).csrGet .PW_XGATE 0) 17 16 = 2 ↔
    bitsOf (s.csrGet .PW_XGATE 0) 17 16 = 2 := by
  rw [gateState_gateFall]
  split <;> omega

theorem islPerforms_pwTaken (s : State) (src : Src) (j : Nat) :
    (s.pwTaken src).islPerforms j src = true ↔ src = .reeve ∨ s.gateState .PW_VSET j = 2 := by
  have hg : ∀ u : State, u.gateState .PW_VSET j = bitsOf (u.csrGet .PW_XGATE 0) 17 16 := fun u => gateState_pw rfl
  unfold islPerforms gateOpen pwTaken
  simp only [Bool.or_eq_true, beq_iff_eq]
  refine or_congr_right' fun hn => ?_
  rw [if_neg hn, hg, hg]
  exact s.gateState_pwFall

/-- An expert field's write that the gate refuses sets DENIED (R9). -/
theorem gateDeny_pw (s : State) (hr : r.gate j = some (.PW_XGATE, 0)) :
    s.gateDeny r j = s.setFld Fld.PW_XGATE_DENIED 0 1 := by
  unfold gateDeny
  rw [hr]
  rfl

theorem denied_gateDeny (s : State) (hr : r.gate j = some (.PW_XGATE, 0)) :
    (s.gateDeny r j).flag Fld.PW_XGATE_DENIED 0 = true := by
  unfold State.flag
  rw [s.gateDeny_pw hr, fld_setFld_same _ _ _ _ (by decide)]
  rfl

theorem onlyRegs_gateDeny {l : List (Reg × Nat)} (h : s.onlyRegs t l) (hr : r.gate j = some (.PW_XGATE, 0))
    (hm : (.PW_XGATE, 0) ∈ l) : s.onlyRegs (t.gateDeny r j) l := by
  rw [t.gateDeny_pw hr]
  exact h.csrSet hm (by decide)

/-! ## Both writes where they are not performed -/

theorem vsetWrite_ignored (hj : j = 23 ∨ j = 24) (hs : src ≠ .reeve) : s.vsetWrite j src w = s := if_pos ⟨hj, hs⟩
theorem rctlWrite_ignored (hj : j = 23 ∨ j = 24) (hs : src ≠ .reeve) : s.rctlWrite j src w = s := if_pos ⟨hj, hs⟩

theorem vsetWrite_denied (hj : ¬ (j = 23 ∨ j = 24)) (hp : s.islPerforms j src ≠ true) :
    s.vsetWrite j src w = s.gateDeny .PW_VSET j := by
  unfold vsetWrite
  rw [if_neg fun h => hj h.1, if_neg hp]

theorem rctlWrite_denied (hj : ¬ (j = 23 ∨ j = 24)) (hp : s.islPerforms j src ≠ true) :
    s.rctlWrite j src w = s.gateDeny .PW_RCTL j := by
  unfold rctlWrite
  rw [if_neg fun h => hj h.1, if_neg hp]

/-! ## The voltage write -/

/-- The code that a voltage write asks for, in sixteenths: its code within the envelope, and its fraction. -/
def askedCode (w : Word) : Nat := min (max (Fld.PW_VSET_VCODE.of w) 0x6E) 0xBE * 16 + Fld.PW_VSET_VFRAC.of w

theorem vsetWrite_performed (hn : ¬ ((j = 23 ∨ j = 24) ∧ src ≠ .reeve)) (hp : s.islPerforms j src = true) :
    s.vsetWrite j src w = (s.askCode16 j (askedCode w)).islXovr j src := by
  unfold vsetWrite askedCode
  rw [if_neg hn, if_pos hp, clampNat_eq (by decide)]

theorem vfrac_lt (w : Word) : Fld.PW_VSET_VFRAC.of w < 16 := bitsOf_lt w 11 8

/-- Without a warning and a cap the code stands as asked, and no fraction stands at the top of the envelope. -/
theorem fields_setCode16_askedCode (h : s.pfwFloor j = false) :
    (s.setCode16 j (askedCode w)).fld Fld.PW_VSET_VCODE j = min (max (Fld.PW_VSET_VCODE.of w) 0x6E) 0xBE ∧
    (s.setCode16 j (askedCode w)).fld Fld.PW_VSET_VFRAC j =
      if 0xBE ≤ Fld.PW_VSET_VCODE.of w then 0 else Fld.PW_VSET_VFRAC.of w := by
  have hf := vfrac_lt w
  have hc : s.codeFloor j = 0x6E * 16 := by simp [codeFloor, h]
  rw [vcode_setCode16, vfrac_setCode16, hc]
  unfold askedCode
  constructor
  · omega
  · split <;> omega

section
variable (s : State) (src : Src) (j : IslandId) (w : Word)

/-- The state after a voltage write that is performed. -/
def vsetDone : State := ((s.pwTaken src).askCode16 j.val (askedCode w)).islXovr j.val src

theorem fields_vsetDone (hc : (s.island j.val).capped = false) (hp : s.pfwFloor j.val = false) :
    (s.vsetDone src j w).fld Fld.PW_VSET_VCODE j.val = min (max (Fld.PW_VSET_VCODE.of w) 0x6E) 0xBE ∧
    (s.vsetDone src j w).fld Fld.PW_VSET_VFRAC j.val =
      if 0xBE ≤ Fld.PW_VSET_VCODE.of w then 0 else Fld.PW_VSET_VFRAC.of w := by
  unfold vsetDone
  rw [fld_islXovr _ (by decide) (by omega), fld_islXovr _ (by decide) (by omega), askCode16_free (by simpa using hc)]
  exact fields_setCode16_askedCode ((s.pfwFloor_pwTaken src (by omega)).trans hp)

theorem isl_vsetDone (hc : (s.island j.val).capped = false) : (s.vsetDone src j w).isl = s.isl := by
  unfold vsetDone
  rw [isl_islXovr, askCode16_free (by simpa using hc)]
  exact s.isl_pwTaken src

theorem code16_vsetDone : (s.vsetDone src j w).code16 j.val = ((s.pwTaken src).askCode16 j.val (askedCode w)).code16 j.val :=
  code16_islXovr _ (by omega)

theorem capFrom_vsetDone (hc : (s.island j.val).capped = true) :
    ((s.vsetDone src j w).island j.val).capFrom = min (max (askedCode w) (0x6E * 16)) (0xBE * 16) := by
  unfold vsetDone
  rw [island_islXovr]
  exact capFrom_askCode16 (by simpa using hc)

theorem onlyIsles_vsetDone :
    s.onlyIsles (s.vsetDone src j w) [(.PW_VSET, j.val), (.PW_ISTATE, j.val), (.PW_XGATE, 0)] := by
  have hu : s.onlyIsles (s.pwTaken src) [(.PW_VSET, j.val), (.PW_ISTATE, j.val), (.PW_XGATE, 0)] :=
    (onlyIsles.of_onlyRegs (s.onlyRegs_pwTaken src)).mono (by simp)
  exact (hu.askCode16 (by simp) (by omega)).islXovr (by simp) (by omega)

theorem csrGet_istate_vsetDone_reeve : (s.vsetDone .reeve j w).csrGet .PW_ISTATE j.val = s.csrGet .PW_ISTATE j.val := by
  have h : s.onlyIsles ((s.reply 0).askCode16 j.val (askedCode w)) [(.PW_VSET, j.val)] :=
    (onlyIsles.of_onlyRegs (onlyRegs.refl s _).reply).askCode16 (by simp) (by omega)
  exact h.2 .PW_ISTATE j.val (by omega) (by simp)

end

/-! ## The regulation write -/

theorem rctlWrite_performed (hn : ¬ ((j = 23 ∨ j = 24) ∧ src ≠ .reeve)) (hp : s.islPerforms j src = true) :
    s.rctlWrite j src w =
      (if Fld.PW_RCTL_MODE.of w = 3 ∨ j = 21 then s.setFld Fld.PW_RCTL_RTARGET j (Fld.PW_RCTL_RTARGET.of w)
        else (s.setFld Fld.PW_RCTL_RTARGET j (Fld.PW_RCTL_RTARGET.of w)).setMode j (Fld.PW_RCTL_MODE.of w)).islXovr j src := by
  unfold rctlWrite
  rw [if_neg hn, if_pos hp]

/-- What ends with the mode that an island leaves: its lock, and the count of bad windows. -/
def leaveMode (s : State) (j mode : Nat) : State :=
  if mode = s.fld Fld.PW_RCTL_MODE j then s
  else ((s.setFld Fld.PW_ISTATE_LOCKED j 0).setFld Fld.PW_RATE_PHASE_ERR j 0).modIsland j (fun k => { k with badWindows := 0 })

theorem setMode_eq (s : State) (j mode : Nat) :
    s.setMode j mode = ((s.leaveMode j mode).setFld Fld.PW_RCTL_MODE j mode).pfwRaise j := rfl

theorem fld_leaveMode (s : State) (hs : Fld.PW_ISTATE_LOCKED.apart f = true) (hr : Fld.PW_RATE_PHASE_ERR.apart f = true)
    (hj : j < 65536) : (s.leaveMode j v).fld f j = s.fld f j := by
  unfold leaveMode
  split
  · rfl
  · exact (fld_setFld_apart _ 0 hr hj hj).trans (fld_setFld_apart _ 0 hs hj hj)

@[simp] theorem pwr_leaveMode (s : State) (j mode : Nat) : (s.leaveMode j mode).pwr = s.pwr := by
  unfold leaveMode
  split <;> rfl

theorem fld_pfwRaise (s : State) (hr : f.reg ≠ .PW_VSET) (hj : j < 65536) : (s.pfwRaise j).fld f j = s.fld f j := by
  unfold pfwRaise
  split
  · exact s.fld_setCode16 hr hj hj
  · rfl

theorem mode_setMode (s : State) (hv : v < 4) (hj : j < 65536) : (s.setMode j v).fld Fld.PW_RCTL_MODE j = v := by
  rw [setMode_eq, fld_pfwRaise _ (by decide) hj, fld_setFld_same _ _ _ _ (by decide)]
  exact Nat.mod_eq_of_lt hv

theorem rtarget_setMode (s : State) (hj : j < 65536) :
    (s.setMode j v).fld Fld.PW_RCTL_RTARGET j = s.fld Fld.PW_RCTL_RTARGET j := by
  rw [setMode_eq, fld_pfwRaise _ (by decide) hj, fld_setFld_apart _ _ rfl hj hj, fld_leaveMode _ rfl rfl hj]

theorem code16_setMode (s : State) (hj : j < 65536) (h : (s.setMode j v).pfwFloor j = true) :
    150 * 16 ≤ (s.setMode j v).code16 j := by
  rw [setMode_eq] at h ⊢
  exact code16_pfwRaise ((pfwFloor_pfwRaise _ hj).symm.trans h)

theorem csrGet_vset_setMode (s : State) (h : s.pwr.failSeq = false) (hj : j < 65536) :
    (s.setMode j v).csrGet .PW_VSET j = s.csrGet .PW_VSET j := by
  have hp : ((s.leaveMode j v).setFld Fld.PW_RCTL_MODE j v).pwr.failSeq = false :=
    (congrArg _ (s.pwr_leaveMode j v)).trans h
  rw [setMode_eq, pfwRaise_of_failSeq hp, csrGet_setFld_ne _ _ hj hj (.inl (by decide))]
  unfold leaveMode
  split
  · rfl
  · exact (csrGet_setFld_ne _ _ hj hj (.inl (by decide))).trans (csrGet_setFld_ne _ _ hj hj (.inl (by decide)))

section
variable (s : State) (src : Src) (j : IslandId) (w : Word)

/-- The target of a regulation write that is performed. -/
def rctlAimed : State := (s.pwTaken src).setFld Fld.PW_RCTL_RTARGET j.val (Fld.PW_RCTL_RTARGET.of w)

/-- The mode and target of a regulation write that is performed. -/
def rctlSet : State :=
  if Fld.PW_RCTL_MODE.of w = 3 ∨ j.val = 21 then s.rctlAimed src j w
  else (s.rctlAimed src j w).setMode j.val (Fld.PW_RCTL_MODE.of w)

/-- The state after a regulation write that is performed. -/
def rctlDone : State := (s.rctlSet src j w).islXovr j.val src

theorem rtarget_rctlDone : (s.rctlDone src j w).fld Fld.PW_RCTL_RTARGET j.val = Fld.PW_RCTL_RTARGET.of w := by
  have ha : (s.rctlAimed src j w).fld Fld.PW_RCTL_RTARGET j.val = Fld.PW_RCTL_RTARGET.of w := by
    unfold rctlAimed
    rw [fld_setFld_same _ _ _ _ (by decide)]
    exact Nat.mod_eq_of_lt (bitsOf_lt w 31 12)
  unfold rctlDone rctlSet
  rw [fld_islXovr _ (by decide) (by omega)]
  split
  · exact ha
  · rw [rtarget_setMode _ (by omega)]
    exact ha

theorem mode_rctlDone : (s.rctlDone src j w).fld Fld.PW_RCTL_MODE j.val =
    if Fld.PW_RCTL_MODE.of w = 3 ∨ j.val = 21 then s.fld Fld.PW_RCTL_MODE j.val else Fld.PW_RCTL_MODE.of w := by
  unfold rctlDone rctlSet
  rw [fld_islXovr _ (by decide) (by omega)]
  split
  · unfold rctlAimed
    rw [fld_setFld_apart _ _ rfl (by omega) (by omega), fld_pwTaken _ _ (by decide) (by omega)]
  · exact mode_setMode _ (bitsOf_lt w 1 0) (by omega)

theorem code16_rctlDone (hm : Fld.PW_RCTL_MODE.of w ≠ 3) (hj : j.val ≠ 21)
    (h : (s.rctlDone src j w).pfwFloor j.val = true) : 150 * 16 ≤ (s.rctlDone src j w).code16 j.val := by
  unfold rctlDone rctlSet at h ⊢
  rw [if_neg (by simp [hm, hj])] at h ⊢
  rw [code16_islXovr _ (by omega)]
  exact code16_setMode _ (by omega) ((pfwFloor_islXovr _ (by omega)).symm.trans h)

theorem csrGet_vset_rctlDone (h : s.pwr.failSeq = false) :
    (s.rctlDone src j w).csrGet .PW_VSET j.val = s.csrGet .PW_VSET j.val := by
  have ha : (s.rctlAimed src j w).csrGet .PW_VSET j.val = s.csrGet .PW_VSET j.val :=
    (csrGet_setFld_ne _ _ (by omega) (by omega) (.inl (by decide))).trans
      ((s.onlyRegs_pwTaken src).2 _ _ (by omega) (by simp))
  have hf : (s.rctlAimed src j w).pwr.failSeq = false := (congrArg _ (s.pwr_pwTaken src)).trans h
  unfold rctlDone rctlSet
  rw [csrGet_islXovr _ (by decide) (by omega) (by omega)]
  split
  · exact ha
  · exact (csrGet_vset_setMode _ hf (by omega)).trans ha

theorem onlyIsles_rctlDone : s.onlyIsles (s.rctlDone src j w)
    [(.PW_RCTL, j.val), (.PW_ISTATE, j.val), (.PW_RATE, j.val), (.PW_VSET, j.val), (.PW_XGATE, 0)] := by
  have hu : s.onlyIsles (s.rctlAimed src j w)
      [(.PW_RCTL, j.val), (.PW_ISTATE, j.val), (.PW_RATE, j.val), (.PW_VSET, j.val), (.PW_XGATE, 0)] :=
    ((onlyIsles.of_onlyRegs (s.onlyRegs_pwTaken src)).mono (by simp)).setFld (.head _) (by omega)
  exact (hu.ite (hu.setMode (by simp) (by simp) (by omega) (by simp) (by simp))).islXovr (by simp) (by omega)

end

end State
end Sys2Proof.Machine
end

section
/-!
SUPPORT. The Cocoon's holds: what a change of them does to the islands' entries in progress, and what STANDBY, which may follow,
leaves of the power block's registers (R76, R80, R82, R83, R88).
-/

set_option Elab.async false

namespace Sys2Proof.Machine

theorem Reg.before_rv_of_isPw {r : Reg} (h : r.isPw = true) : r.ctorIdx < Reg.RV_CMD.ctorIdx := by
  simp only [Reg.isPw, decide_eq_true_eq] at h
  exact Nat.lt_of_le_of_lt h (by decide)

namespace State.isleFrame

variable {s₀ s : State} {A : Nat → Prop} {l : List Reg} {k m n : Nat}

/-- The Reeve's registers come after the power block's, whatever the slot. -/
theorem csrSet_rv (h : s₀.isleFrame s A l) {r : Reg} {v : Word} (hr : Reg.RV_CMD.ctorIdx ≤ r.ctorIdx) :
    s₀.isleFrame (s.csrSet r m v) A l :=
  h.trans ⟨fun _ _ hr' hi _ => s.csrGet_csrSet_before v (Nat.lt_of_lt_of_le (Reg.before_rv_of_isPw hr') hr) hi,
    fun _ _ => rfl, rfl, rfl, rfl⟩

theorem setFld_rv (h : s₀.isleFrame s A l) {f : Fld} {v : Nat} (hr : Reg.RV_CMD.ctorIdx ≤ f.reg.ctorIdx) :
    s₀.isleFrame (s.setFld f m v) A l := h.csrSet_rv hr

theorem longEnd (h : s₀.isleFrame s A l) : s₀.isleFrame (s.longEnd m) A l := h.update.ite h

theorem callDone (h : s₀.isleFrame s A l) : s₀.isleFrame (s.callDone m n) A l := by
  unfold State.callDone
  extract_lets s₁ k s₂ s₃
  have h₁ : s₀.isleFrame s₁ A l := h.longEnd
  have h₂ : s₀.isleFrame s₂ A l := (h₁.csrSet_rv (by decide)).csrSet_rv (by decide)
  have h₃ : s₀.isleFrame s₃ A l := (h₂.setFld_rv (by decide)).setFld_rv (by decide)
  have h₄ : s₀.isleFrame (s₁.satField Fld.RV_STAT_LATE_CNT m) A l := h₁.setFld_rv (by decide)
  exact h₃.update.ite (h₄.update.ite h₁.update)

theorem serviceReply (h : s₀.isleFrame s A l) {x y : Word} : s₀.isleFrame (s.serviceReply m n x y) A l := by
  have h' : s₀.isleFrame (s.modSlot m (fun k => { k with res0 := x, res1 := y })) A l := h.update
  exact h'.callDone

end State.isleFrame

namespace State

variable {s : State} {f : Fld} {e : Entry} {i j k n v : Nat}

/-! ## An entry that is abandoned -/

/-- An island whose entry has been abandoned, before the answer to the call that asked for it. -/
def abandoned (s : State) (j lastEntry : Nat) : State :=
  ((s.setFld Fld.PW_ISTATE_STATE j 1).setFld Fld.PW_ISTATE_LAST_ENTRY j lastEntry).modIsland j
    (fun k => { k with entry := none })

/-- Of the islands and the power block an abandoned entry's answer changes nothing. -/
theorem isleFrame_entryAbandon (he : (s.island j).entry = some e) :
    (s.abandoned j v).isleFrame (s.entryAbandon j v n) (fun _ => False) [] := by
  unfold entryAbandon
  rw [he]
  dsimp only
  split
  · exact (isleFrame.refl _ _ _).serviceReply
  · exact .refl _ _ _

theorem entry_entryAbandon (he : (s.island j).entry = some e) : ((s.entryAbandon j v n).island j).entry = none := by
  rw [(isleFrame_entryAbandon he).island j not_false, abandoned, island_modIsland_same]

theorem fld_entryAbandon (he : (s.island j).entry = some e) (hr : f.reg.isPw = true) (hi : i < 65536) :
    (s.entryAbandon j v n).fld f i = (s.abandoned j v).fld f i :=
  (isleFrame_entryAbandon he).fld_keeps hr List.not_mem_nil hi

theorem islState_entryAbandon (he : (s.island j).entry = some e) (hj : j < 65536) : (s.entryAbandon j v n).islState j = 1 := by
  refine (fld_entryAbandon he rfl hj).trans (Eq.trans ?_ (fld_setFld_same s Fld.PW_ISTATE_STATE j 1 (by decide)))
  exact fld_setFld_apart _ _ rfl hj hj

theorem lastEntry_entryAbandon (he : (s.island j).entry = some e) (hv : v < 4) (hj : j < 65536) :
    (s.entryAbandon j v n).fld Fld.PW_ISTATE_LAST_ENTRY j = v :=
  (fld_entryAbandon he rfl hj).trans ((fld_setFld_same _ _ _ _ (by decide)).trans (Nat.mod_eq_of_lt hv))

/-! ## HELD -/

theorem islHeld_setHeld (s : State) (hi : i < 65536) : (s.setFld Fld.PW_ISTATE_HELD i v).islHeld k = s.islHeld k := by
  unfold islHeld
  rw [fld_setFld_apart _ _ rfl hi (by decide)]

theorem held_setHeld (s : State) (j : Nat) (b : Bool) :
    (s.setFld Fld.PW_ISTATE_HELD j (bit b)).fld Fld.PW_ISTATE_HELD j = bit b := by
  rw [fld_setFld_same _ _ _ _ (by decide)]
  cases b <;> rfl

/-- HELD copies the hold bits (R66). -/
theorem held_syncHeld (s : State) (hk : k < 23) : s.syncHeld.fld Fld.PW_ISTATE_HELD k = bit (s.syncHeld.islHeld k) := by
  refine foldl_each (P := fun k t => t.fld Fld.PW_ISTATE_HELD k = bit (t.islHeld k)) (fun t a ha => ?_)
    (fun t a ha b hb h => ?_) s k (List.mem_range.2 hk)
  · have ha := List.mem_range.1 ha
    rw [held_setHeld, islHeld_setHeld _ (by omega)]
  · have ha := List.mem_range.1 ha
    have hb := List.mem_range.1 hb
    rw [islHeld_setHeld _ (by omega)]
    by_cases hab : b = a
    · rw [hab, held_setHeld]
    · exact (fld_setFld_ne _ _ _ _ (by omega) (by omega) (.inr hab)).trans h

theorem fld_syncHeld (s : State) (hf : Fld.PW_ISTATE_HELD.apart f = true) (hi : i < 65536) : s.syncHeld.fld f i = s.fld f i :=
  State.fldKept.foldl (.refl _ _ _) fun u a ha h => h.setFld hf hi (by have := List.mem_range.1 ha; omega)

@[simp] theorem isl_syncHeld (s : State) : s.syncHeld.isl = s.isl :=
  List.foldlRecOn (motive := fun t : State => t.isl = s.isl) _ _ rfl fun _ h _ _ => h

@[simp] theorem island_syncHeld (s : State) (j : Nat) : s.syncHeld.island j = s.island j := by
  unfold State.island
  rw [isl_syncHeld]

@[simp] theorem pwr_syncHeld (s : State) : s.syncHeld.pwr = s.pwr :=
  List.foldlRecOn (motive := fun t : State => t.pwr = s.pwr) _ _ rfl fun _ h _ _ => h

/-! ## Entries of held islands -/

/-- What a change of the holds does to one island's entry (R82). -/
def holdStep (s : State) (j : Nat) : State :=
  if s.entryHeld j && (s.island j).entry.isSome then s.entryAbandon j 3 stBlockHeld else s

/-- What a change of the holds does to every island's entry (R82). -/
def holdSteps (s : State) : State := (List.range 23).foldl holdStep s

/-- What a change of the holds does to a notice: one whose blocks are all cleared ends (R83). -/
def holdEnds (s : State) : State :=
  match s.pwr.notice with
  | some a => if s.anyHeld then s else s.holdActs a
  | none => s

theorem holdChanged_eq (s : State) : s.holdChanged = s.syncHeld.holdSteps.holdEnds := rfl

theorem isleFrame_holdStep (s : State) (hk : k < 65536) : s.isleFrame (s.holdStep k) (· = k) [.PW_ISTATE] := by
  unfold holdStep
  split
  next h =>
    obtain ⟨-, he⟩ := Bool.and_eq_true_iff.1 h
    obtain ⟨e, he⟩ := Option.isSome_iff_exists.1 he
    have hs : s.isleFrame (s.setFld Fld.PW_ISTATE_STATE k 1) (· = k) [.PW_ISTATE] :=
      isleFrame.setFld (A := (· = k)) (f := Fld.PW_ISTATE_STATE) rfl (.refl s _ _) (List.mem_singleton_self _) hk
    have hl : s.isleFrame ((s.setFld Fld.PW_ISTATE_STATE k 1).setFld Fld.PW_ISTATE_LAST_ENTRY k 3) (· = k) [.PW_ISTATE] :=
      hs.setFld (A := (· = k)) (f := Fld.PW_ISTATE_LAST_ENTRY) rfl (List.mem_singleton_self _) hk
    have ha : s.isleFrame (s.abandoned k 3) (· = k) [.PW_ISTATE] := hl.modIsland (A := (· = k)) rfl
    exact ha.trans ((isleFrame_entryAbandon he).mono (fun _ h => h.elim) (by simp))
  · exact .refl _ _ _

theorem isleFrame_holdSteps (s : State) : s.isleFrame s.holdSteps (fun _ => True) [.PW_ISTATE] :=
  (isleFrame.refl s _ _).foldl fun t k hk h =>
    h.trans ((t.isleFrame_holdStep (by have := List.mem_range.1 hk; omega)).mono (fun _ _ => trivial) fun _ h => h)

theorem fld_holdStep (s : State) (hr : f.reg.isPw = true) (hs : Fld.PW_ISTATE_STATE.apart f = true)
    (hl : Fld.PW_ISTATE_LAST_ENTRY.apart f = true) (hk : k < 65536) (hi : i < 65536) :
    (s.holdStep k).fld f i = s.fld f i := by
  unfold holdStep
  split
  next h =>
    obtain ⟨-, he⟩ := Bool.and_eq_true_iff.1 h
    obtain ⟨e, he⟩ := Option.isSome_iff_exists.1 he
    rw [fld_entryAbandon he hr hi]
    exact (fld_setFld_apart _ _ hl hk hi).trans (fld_setFld_apart _ _ hs hk hi)
  · rfl

theorem fld_holdSteps (s : State) (hr : f.reg.isPw = true) (hs : Fld.PW_ISTATE_STATE.apart f = true)
    (hl : Fld.PW_ISTATE_LAST_ENTRY.apart f = true) (hi : i < 65536) : s.holdSteps.fld f i = s.fld f i :=
  List.foldlRecOn (motive := fun t : State => t.fld f i = s.fld f i) _ _ rfl fun t ht k hk =>
    (t.fld_holdStep hr hs hl (by have := List.mem_range.1 hk; omega) hi).trans ht

/-- The entry of a newly held island is abandoned (R82). -/
theorem holdSteps_abandon (hj : j < 23) (hh : s.islHeld j = true) (he : (s.island j).entry.isSome = true) :
    (s.holdSteps.island j).entry = none ∧ s.holdSteps.islState j = 1 ∧
    s.holdSteps.fld Fld.PW_ISTATE_LAST_ENTRY j = 3 := by
  obtain ⟨u, hu, hend⟩ := isleFrame.foldl_at (f := holdStep) List.nodup_range (List.mem_range.2 hj)
    (fun t k hk => t.isleFrame_holdStep (by have := List.mem_range.1 hk; omega)) s
  have hisl : u.island j = s.island j := hu.island j fun h => h rfl
  have hheld : u.islHeld j = true := by
    unfold islHeld at hh ⊢
    rwa [hu.fld_keeps rfl (by decide) (by decide)]
  obtain ⟨e, he⟩ := Option.isSome_iff_exists.1 he
  have he : (u.island j).entry = some e := (congrArg Island.entry hisl).trans he
  have hstep : u.holdStep j = u.entryAbandon j 3 stBlockHeld := if_pos (by simp [entryHeld, hheld, he])
  rw [hstep] at hend
  refine ⟨(congrArg Island.entry (hend.island j fun h => h rfl)).trans (entry_entryAbandon he), ?_, ?_⟩
  · exact (hend.fld_at (fun h => h rfl) (by omega) rfl).trans (islState_entryAbandon he (by omega))
  · exact (hend.fld_at (fun h => h rfl) (by omega) rfl).trans (lastEntry_entryAbandon he (by decide) (by omega))

/-! ## STANDBY -/

/-- What STANDBY makes of one island (R88). -/
def gateIsland (s : State) (j : Nat) : State :=
  (((s.loseIsland j).dropEntry j).setFld Fld.PW_ISTATE_STATE j 5).setFld Fld.PW_ISTATE_LOCKED j 0

/-- The cores' last stores and the switches' opening, with which STANDBY begins (R88). -/
def stopped (s : State) : State := ((List.range 160).foldl (fun s c => s.quiesce c) s).openSwitches

/-- Every island but A and K gated. -/
def islandsGated (s : State) : State := (List.range 23).foldl gateIsland s.stopped

/-- A module in STANDBY. -/
def standbyMode (s : State) : State :=
  { s with pwr := { s.pwr with mode := .standby, phase := 4, failed := false, pwrOkHigh := false } }

/-- The islands' gating, before whatever follows. -/
theorem islandsGated_then (s : State) (f : State → State) :
    (let s := (List.range 160).foldl (fun s c => s.quiesce c) s
    let s := s.openSwitches
    let s := (List.range 23).foldl (fun s j =>
      (((s.loseIsland j).dropEntry j).setFld Fld.PW_ISTATE_STATE j 5).setFld Fld.PW_ISTATE_LOCKED j 0) s
    f s) = f s.islandsGated := rfl

theorem enterStandby_eq (s : State) : s.enterStandby = s.islandsGated.standbyMode := islandsGated_then s standbyMode

@[simp] theorem fld_standbyMode (s : State) (f : Fld) (i : Nat) : s.standbyMode.fld f i = s.fld f i := rfl

theorem ctlKept_stopped (s : State) : s.ctlKept s.stopped := ((ctlKept.refl s).foldl fun _ _ h => h.quiesce).openSwitches
theorem boardKept_stopped (s : State) : s.boardKept s.stopped := ((boardKept.refl s).foldl fun _ _ h => h.quiesce).openSwitches

theorem fld_gateIsland (s : State) (hr : f.reg.isPw = true) (hs : Fld.PW_ISTATE_STATE.apart f = true)
    (hl : Fld.PW_ISTATE_LOCKED.apart f = true) (hk : k < 23) (hi : i < 65536) : (s.gateIsland k).fld f i = s.fld f i := by
  unfold gateIsland
  rw [fld_setFld_apart _ _ hl (by omega) hi, fld_setFld_apart _ _ hs (by omega) hi]
  exact congrArg (bitsOf · _ _) (s.csrGet_loseIsland (.inl (by rw [Reg.island_of_isPw hr]; omega)) hi)

/-- STANDBY leaves the power block's registers, but for the islands' state and lock. -/
theorem fld_enterStandby (s : State) (hr : f.reg.isPw = true) (hs : Fld.PW_ISTATE_STATE.apart f = true)
    (hl : Fld.PW_ISTATE_LOCKED.apart f = true) (hi : i < 65536) : s.enterStandby.fld f i = s.fld f i := by
  have hstop : s.stopped.fld f i = s.fld f i :=
    congrArg (bitsOf · _ _) (s.ctlKept_stopped.regs f.reg i (Reg.isCtl_of_isPw hr) hi)
  rw [enterStandby_eq, fld_standbyMode]
  exact List.foldlRecOn (motive := fun t : State => t.fld f i = s.fld f i) _ _ hstop fun t ht k hk =>
    (t.fld_gateIsland hr hs hl (List.mem_range.1 hk) hi).trans ht

/-- The end of a hold notice. -/
def unnoticed (s : State) : State := { s with pwr := { s.pwr with notice := none } }

theorem holdActs_powerFail (s : State) : s.holdActs .powerFail = s.unnoticed := rfl

theorem holdActs_emergency (s : State) : s.holdActs .emergency =
    if s.pwr.mode == .tripped || s.pwr.mode == .off then s.unnoticed else s.unnoticed.enterStandby := rfl

/-- What a hold notice announced leaves the same registers. -/
theorem fld_holdActs (s : State) (a : HoldAct) (hr : f.reg.isPw = true) (hs : Fld.PW_ISTATE_STATE.apart f = true)
    (hl : Fld.PW_ISTATE_LOCKED.apart f = true) (hi : i < 65536) : (s.holdActs a).fld f i = s.fld f i := by
  cases a with
  | emergency =>
    rw [holdActs_emergency]
    split
    · rfl
    · exact s.unnoticed.fld_enterStandby hr hs hl hi
  | powerFail => rfl

theorem fld_holdEnds (s : State) (hr : f.reg.isPw = true) (hs : Fld.PW_ISTATE_STATE.apart f = true)
    (hl : Fld.PW_ISTATE_LOCKED.apart f = true) (hi : i < 65536) : s.holdEnds.fld f i = s.fld f i := by
  unfold holdEnds
  split
  · split
    · rfl
    · exact s.fld_holdActs _ hr hs hl hi
  · rfl

/-! ## A change of the holds -/

/-- The hold registers keep what was written. -/
theorem fld_holdChanged (s : State) (hf : f ∈ [Fld.PW_HOLD_ISL_ISL, Fld.PW_HOLD_ISL_STACK, Fld.PW_HOLD_GR_BANK]) :
    s.holdChanged.fld f 0 = s.fld f 0 := by
  have hall : ∀ f ∈ [Fld.PW_HOLD_ISL_ISL, Fld.PW_HOLD_ISL_STACK, Fld.PW_HOLD_GR_BANK], f.reg.isPw = true ∧
      Fld.PW_ISTATE_STATE.apart f = true ∧ Fld.PW_ISTATE_LOCKED.apart f = true ∧
      Fld.PW_ISTATE_LAST_ENTRY.apart f = true ∧ Fld.PW_ISTATE_HELD.apart f = true := by decide
  obtain ⟨hr, hs, hl, he, hh⟩ := hall f hf
  rw [holdChanged_eq, fld_holdEnds _ hr hs hl (by decide), fld_holdSteps _ hr hs he (by decide),
    fld_syncHeld _ hh (by decide)]

/-- HELD follows the holds. -/
theorem held_holdChanged (s : State) (hk : k < 23) : s.holdChanged.fld Fld.PW_ISTATE_HELD k = bit (s.islHeld k) := by
  rw [holdChanged_eq, fld_holdEnds _ rfl rfl rfl (by omega), fld_holdSteps _ rfl rfl rfl (by omega), held_syncHeld _ hk]
  unfold islHeld
  rw [fld_syncHeld _ rfl (by decide)]

theorem holdChanged_abandon (hn : s.pwr.notice = none) (hj : j < 23) (hh : s.islHeld j = true)
    (he : (s.island j).entry.isSome = true) : (s.holdChanged.island j).entry = none ∧ s.holdChanged.islState j = 1 ∧
    s.holdChanged.fld Fld.PW_ISTATE_LAST_ENTRY j = 3 := by
  have hp : s.syncHeld.holdSteps.pwr.notice = none := by
    rw [s.syncHeld.isleFrame_holdSteps.pwr, pwr_syncHeld, hn]
  have hend : s.syncHeld.holdSteps.holdEnds = s.syncHeld.holdSteps := by
    unfold holdEnds
    rw [hp]
  have hh' : s.syncHeld.islHeld j = true := by
    unfold islHeld at hh ⊢
    rwa [fld_syncHeld _ rfl (by decide)]
  rw [holdChanged_eq, hend]
  exact holdSteps_abandon hj hh' (by rwa [island_syncHeld])

end State
end Sys2Proof.Machine
end

section
/-!
SUPPORT. Writes to PW_THERM and to the hold registers as the port takes them, and the statement on the islands' registers.
-/

set_option Elab.async false

namespace Sys2Proof.Machine
namespace State

variable {s : State} {src : Src} {r : Reg} {j : Nat} {w : Word}

theorem onlyRegs.mono {s t : State} {l l' : List (Reg × Nat)} (h : s.onlyRegs t l) (hl : l ⊆ l') : s.onlyRegs t l' :=
  ⟨h.1, fun r i hi hm => h.2 r i hi fun hc => hm (hl hc)⟩

/-- A write to another register of the power block as the port has taken it (R10). -/
def pwSeen (s : State) : State := (s.gateFall .PW_XGATE 0).reply 0

theorem onlyRegs_pwSeen (s : State) : s.onlyRegs s.pwSeen [(.PW_XGATE, 0)] :=
  (onlyRegs_gateFall (by decide) (by decide)).reply

theorem csrPort_pw {e : State → State} (hg : r.gate j = some (.PW_XGATE, 0)) (hi : r.island = 23)
    (hl : s.srcLive src = true) (ho : s.islOpen 23 = true) : s.csrPort src r j e = e s.pwSeen := by
  have hs : s.gateSees r j = s.gateFall .PW_XGATE 0 := by simp [gateSees, hg]
  rw [s.csrPort_of_live src r j e hl (by rw [unitUp, hi, ho]), hs]
  rfl

theorem gateOpen_pwSeen (hg : r.gate j = some (.PW_XGATE, 0)) : s.pwSeen.gateOpen r j = true ↔ s.gateState r j = 2 := by
  rw [gateOpen_iff hg, gateState_pw hg]
  exact s.gateState_pwFall

/-! ## The thresholds -/

/-- The candidate of a threshold's field: the value written where it is in range, else the value that stands (R628). -/
def warnCandidate (s : State) (w : Word) : Nat :=
  if 85 ≤ Fld.PW_THERM_T_WARN.of w ∧ Fld.PW_THERM_T_WARN.of w ≤ 105 then Fld.PW_THERM_T_WARN.of w
  else s.fld Fld.PW_THERM_T_WARN 0

/-- The candidate of T_CRIT, which the gate guards (R628). -/
def critCandidate (s : State) (w : Word) (opened : Bool) : Nat :=
  if 100 ≤ Fld.PW_THERM_T_CRIT.of w ∧ Fld.PW_THERM_T_CRIT.of w ≤ 108 ∧ opened then Fld.PW_THERM_T_CRIT.of w
  else s.fld Fld.PW_THERM_T_CRIT 0

theorem warnCandidate_lt (s : State) (w : Word) : s.warnCandidate w < 256 := by
  have := s.fld_lt Fld.PW_THERM_T_WARN 0
  unfold warnCandidate
  split
  · omega
  · exact this

theorem critCandidate_lt (s : State) (w : Word) (b : Bool) : s.critCandidate w b < 256 := by
  have := s.fld_lt Fld.PW_THERM_T_CRIT 0
  unfold critCandidate
  split
  · omega
  · exact this

/-- The pair of thresholds, taken as a whole or not at all (R628). -/
def thermPair (s : State) (w : Word) : State :=
  if s.warnCandidate w ≤ s.critCandidate w (s.gateOpen .PW_THERM 0) then
    (s.setFld Fld.PW_THERM_T_WARN 0 (s.warnCandidate w)).setFld Fld.PW_THERM_T_CRIT 0
      (s.critCandidate w (s.gateOpen .PW_THERM 0))
  else s

theorem thermWrite_eq (s : State) (w : Word) : s.thermWrite w =
    if s.gateOpen .PW_THERM 0 then s.thermPair w else (s.thermPair w).gateDeny .PW_THERM 0 := rfl

theorem fields_thermPair (s : State) (w : Word) :
    (s.thermPair w).fld Fld.PW_THERM_T_WARN 0 =
      (if s.warnCandidate w ≤ s.critCandidate w (s.gateOpen .PW_THERM 0) then s.warnCandidate w
        else s.fld Fld.PW_THERM_T_WARN 0) ∧
    (s.thermPair w).fld Fld.PW_THERM_T_CRIT 0 =
      (if s.warnCandidate w ≤ s.critCandidate w (s.gateOpen .PW_THERM 0) then s.critCandidate w (s.gateOpen .PW_THERM 0)
        else s.fld Fld.PW_THERM_T_CRIT 0) := by
  unfold thermPair
  split
  · rw [fld_setFld_apart _ _ rfl (by decide) (by decide), fld_setFld_same _ _ _ _ (by decide),
      fld_setFld_same _ _ _ _ (by decide)]
    exact ⟨Nat.mod_eq_of_lt (s.warnCandidate_lt w), Nat.mod_eq_of_lt (s.critCandidate_lt w _)⟩
  · exact ⟨rfl, rfl⟩

theorem onlyRegs_thermPair {t : State} {l : List (Reg × Nat)} (h : s.onlyRegs t l) (hm : (.PW_THERM, 0) ∈ l) :
    s.onlyRegs (t.thermPair w) l := by
  unfold thermPair
  split
  · exact (h.csrSet hm (by decide)).csrSet hm (by decide)
  · exact h

/-- A pair in order stays in order. -/
theorem warn_le_crit_thermPair (h : s.fld Fld.PW_THERM_T_WARN 0 ≤ s.fld Fld.PW_THERM_T_CRIT 0) :
    (s.thermPair w).fld Fld.PW_THERM_T_WARN 0 ≤ (s.thermPair w).fld Fld.PW_THERM_T_CRIT 0 := by
  obtain ⟨hw, hc⟩ := s.fields_thermPair w
  rw [hw, hc]
  split <;> assumption

theorem warnCandidate_pwSeen (s : State) (w : Word) : s.pwSeen.warnCandidate w = s.warnCandidate w := by
  unfold warnCandidate
  rw [fld_of_onlyRegs s.onlyRegs_pwSeen (by decide) (by decide)]

theorem critCandidate_pwSeen (s : State) (w : Word) : s.pwSeen.critCandidate w (s.pwSeen.gateOpen .PW_THERM 0) =
    if 100 ≤ Fld.PW_THERM_T_CRIT.of w ∧ Fld.PW_THERM_T_CRIT.of w ≤ 108 ∧ s.gateState .PW_THERM 0 = 2 then
      Fld.PW_THERM_T_CRIT.of w else s.fld Fld.PW_THERM_T_CRIT 0 := by
  unfold critCandidate
  simp only [gateOpen_pwSeen (s := s) (r := .PW_THERM) (j := 0) rfl]
  rw [fld_of_onlyRegs s.onlyRegs_pwSeen (by decide) (by decide)]

/-- A denied write of the thresholds touches the gate's register beside the pair's. -/
theorem fld_thermWrite (s : State) (w : Word) {f : Fld} (hf : f.reg = .PW_THERM) :
    (s.thermWrite w).fld f 0 = (s.thermPair w).fld f 0 := by
  rw [thermWrite_eq]
  split
  · rfl
  · rw [gateDeny_pw _ rfl]
    exact fld_setFld_ne _ _ _ _ (by decide) (by decide) (.inl (by rw [hf]; decide))

theorem onlyRegs_thermWrite {t : State} {l : List (Reg × Nat)} (h : s.onlyRegs t l) (hm : (.PW_THERM, 0) ∈ l)
    (hx : (.PW_XGATE, 0) ∈ l) : s.onlyRegs (t.thermWrite w) l := by
  rw [thermWrite_eq]
  split
  · exact onlyRegs_thermPair h hm
  · exact onlyRegs_gateDeny (onlyRegs_thermPair h hm) rfl hx

theorem exec_thermWrite (hl : s.srcLive src = true) (ho : s.islOpen 23 = true) :
    exec (.thermWrite src w) s = .next (s.pwSeen.thermWrite w) := by
  change execThermWrite src w s = _
  unfold execThermWrite
  rw [csrPort_pw rfl rfl hl ho]

/-! ## The holds -/

theorem exec_holdWrite (granary : Bool) (hl : s.srcLive src = true) (ho : s.islOpen 23 = true) :
    exec (.holdWrite src granary w) s = .next (if src = .cocoon then
      (s.pwSeen.codeWrite (if granary then .PW_HOLD_GR else .PW_HOLD_ISL) 0 w).holdChanged else s.pwSeen) := by
  change execHoldWrite src granary w s = _
  have hr : (if granary then Reg.PW_HOLD_GR else Reg.PW_HOLD_ISL).gate 0 = some (.PW_XGATE, 0) ∧
      (if granary then Reg.PW_HOLD_GR else Reg.PW_HOLD_ISL).island = 23 := by cases granary <;> decide
  unfold execHoldWrite
  dsimp only
  rw [csrPort_pw hr.1 hr.2 hl ho]

theorem csrGet_codeWrite_holdIsl (s : State) (w : Word) : (s.codeWrite .PW_HOLD_ISL 0 w).csrGet .PW_HOLD_ISL 0 =
    withBits (withBits (s.csrGet .PW_HOLD_ISL 0) 28 25 (bitsOf w 28 25)) 22 0 (bitsOf w 22 0) := by
  rw [csrGet_codeWrite (by decide) rfl]
  rfl

theorem fields_codeWrite_holdIsl (s : State) (w : Word) :
    (s.codeWrite .PW_HOLD_ISL 0 w).fld Fld.PW_HOLD_ISL_ISL 0 = Fld.PW_HOLD_ISL_ISL.of w ∧
    (s.codeWrite .PW_HOLD_ISL 0 w).fld Fld.PW_HOLD_ISL_STACK 0 = Fld.PW_HOLD_ISL_STACK.of w := by
  have h := s.csrGet_codeWrite_holdIsl w
  constructor
  · refine (congrArg (bitsOf · 22 0) h).trans ?_
    rw [bitsOf_withBits_same _ _ _ _ (by decide)]
    exact Nat.mod_eq_of_lt (bitsOf_lt w 22 0)
  · refine (congrArg (bitsOf · 28 25) h).trans ?_
    rw [bitsOf_withBits_disj _ _ _ _ _ _ (by decide), bitsOf_withBits_same _ _ _ _ (by decide)]
    exact Nat.mod_eq_of_lt (bitsOf_lt w 28 25)

theorem bank_codeWrite_holdGr (s : State) (w : Word) :
    (s.codeWrite .PW_HOLD_GR 0 w).fld Fld.PW_HOLD_GR_BANK 0 = w.toNat := by
  have h : (s.codeWrite .PW_HOLD_GR 0 w).csrGet .PW_HOLD_GR 0 = w :=
    (csrGet_codeWrite (by decide) rfl).trans (withBits_whole _ w)
  refine (congrArg (bitsOf · 63 0) h).trans ?_
  simp only [bitsOf]
  omega

/-- The hold registers lie beside the islands' records. -/
theorem island_codeWrite_holdIsl (s : State) (w : Word) (j : Nat) :
    (s.codeWrite .PW_HOLD_ISL 0 w).island j = s.island j := by
  rw [codeWrite_of_no_xrw (by decide)]
  rfl

theorem pwr_codeWrite_holdIsl (s : State) (w : Word) : (s.codeWrite .PW_HOLD_ISL 0 w).pwr = s.pwr := by
  rw [codeWrite_of_no_xrw (by decide)]
  rfl

theorem islHeld_codeWrite_holdIsl (s : State) (w : Word) (k : Nat) :
    (s.codeWrite .PW_HOLD_ISL 0 w).islHeld k = (Fld.PW_HOLD_ISL_ISL.of w / 2 ^ k % 2 == 1) := by
  unfold islHeld
  rw [(s.fields_codeWrite_holdIsl w).1]

end State

/-- The lowest bit of a number, as it is copied into a field of one bit. -/
theorem bit_mod_two (n : Nat) : bit (n % 2 == 1) = n % 2 := by
  obtain h | h := Nat.mod_two_eq_zero_or_one n <;> rw [h] <;> rfl

end Sys2Proof.Machine

open Sys2Proof Sys2Proof.Machine

/-- Settles O4: the port's taking of the write (`State.pwTaken`), then each clause on the state that the write gives; the code's
limits rest on `State.code16_setCode16`. -/
theorem islandRegisterWrites : Obligations.IslandRegisterWrites := by
  unfold Obligations.IslandRegisterWrites
  intro s src j v granary hl ho
  have hvset : exec (.vsetWrite src j v) s = .next ((s.pwTaken src).vsetWrite j.val src v) := by
    rw [← State.csrPortReeve_island (e := fun s => s.vsetWrite j.val src v) (.inl rfl) hl ho]
    rfl
  have hrctl : exec (.rctlWrite src j v) s = .next ((s.pwTaken src).rctlWrite j.val src v) := by
    rw [← State.csrPortReeve_island (e := fun s => s.rctlWrite j.val src v) (.inr rfl) hl ho]
    rfl
  rw [State.does_iff_of_next hvset, State.does_iff_of_next hvset, State.does_iff_of_next hvset,
    State.does_iff_of_next hrctl, State.does_iff_of_next hrctl, State.does_iff_of_next hrctl,
    State.does_iff_of_next (State.exec_thermWrite hl ho), State.does_iff_of_next (State.exec_holdWrite granary hl ho),
    State.does_iff_of_next (State.exec_holdWrite false hl ho), State.does_iff_of_next (State.exec_holdWrite true hl ho)]
  refine ⟨fun hsrc => ?_, fun hs hj => ?_, fun hs hg h23 h24 => ?_, ⟨?_, ?_, fun hg => ?_, ?_⟩, by decide, by decide,
    fun hs => ?_, fun hs => ⟨⟨?_, ?_, fun k hk => ?_, fun hn hj hh he => ?_⟩, ?_⟩⟩
  · have hn : ¬ ((j.val = 23 ∨ j.val = 24) ∧ src ≠ .reeve) := by
      rintro ⟨hj, hs⟩
      obtain hr | ⟨-, h23, h24⟩ := hsrc
      · exact hs hr
      · exact hj.elim h23 h24
    have hp : (s.pwTaken src).islPerforms j.val src = true :=
      (s.islPerforms_pwTaken src j.val).2 (hsrc.imp id fun h => h.1)
    rw [State.vsetWrite_performed hn hp, State.rctlWrite_performed hn hp]
    refine ⟨⟨s.fields_vsetDone src j v, s.isl_vsetDone src j v, fun hf => ?_, fun hc => ?_, fun hc => ?_,
      s.capFrom_vsetDone src j v, fun hs => State.marked_islXovr _ hs _, ?_, s.onlyIsles_vsetDone src j v⟩,
      s.rtarget_rctlDone src j v, s.mode_rctlDone src j v, fun hs => State.marked_islXovr _ hs _,
      s.code16_rctlDone src j v, s.csrGet_vset_rctlDone src j v, s.onlyIsles_rctlDone src j v⟩
    · refine (State.code16_askCode16_floor ?_).trans (s.code16_vsetDone src j v).ge
      exact (s.pfwFloor_pwTaken src (by omega)).trans hf
    · exact (s.code16_vsetDone src j v).le.trans (State.code16_askCode16_critCap (by rwa [State.island_pwTaken]))
    · exact (s.code16_vsetDone src j v).le.trans (State.code16_askCode16_boostFell (by rwa [State.island_pwTaken]))
    · rintro rfl
      exact s.csrGet_istate_vsetDone_reeve j v
  · rw [State.vsetWrite_ignored hj hs, State.rctlWrite_ignored hj hs]
    exact ⟨s.onlyRegs_pwTaken src, s.onlyRegs_pwTaken src⟩
  · have hj : ¬ (j.val = 23 ∨ j.val = 24) := by omega
    have hp : (s.pwTaken src).islPerforms j.val src ≠ true := by
      rw [ne_eq, s.islPerforms_pwTaken]
      simp [hs, hg]
    rw [State.vsetWrite_denied hj hp, State.rctlWrite_denied hj hp]
    exact ⟨⟨State.denied_gateDeny _ rfl, State.onlyRegs_gateDeny (s.onlyRegs_pwTaken src) rfl (List.mem_singleton_self _)⟩,
      State.denied_gateDeny _ rfl, State.onlyRegs_gateDeny (s.onlyRegs_pwTaken src) rfl (List.mem_singleton_self _)⟩
  · obtain ⟨hw, hc⟩ := s.pwSeen.fields_thermPair v
    refine ⟨_, _, rfl, rfl, ?_, ?_⟩
    · rw [State.fld_thermWrite _ _ rfl, hw, State.critCandidate_pwSeen, State.warnCandidate_pwSeen,
        State.fld_of_onlyRegs s.onlyRegs_pwSeen (by decide) (by decide)]
      rfl
    · rw [State.fld_thermWrite _ _ rfl, hc, State.critCandidate_pwSeen, State.warnCandidate_pwSeen,
        State.fld_of_onlyRegs s.onlyRegs_pwSeen (by decide) (by decide)]
      rfl
  · intro h
    rw [State.fld_thermWrite _ _ rfl, State.fld_thermWrite _ _ rfl]
    refine State.warn_le_crit_thermPair ?_
    rwa [State.fld_of_onlyRegs s.onlyRegs_pwSeen (by decide) (by decide),
      State.fld_of_onlyRegs s.onlyRegs_pwSeen (by decide) (by decide)]
  · rw [State.thermWrite_eq, if_neg fun h => hg ((State.gateOpen_pwSeen rfl).1 h)]
    exact State.denied_gateDeny _ rfl
  · exact State.onlyRegs_thermWrite (State.onlyRegs.mono s.onlyRegs_pwSeen (by simp)) (by simp) (by simp)
  · rw [if_neg hs]
    exact s.onlyRegs_pwSeen
  · rw [if_pos hs, State.fld_holdChanged _ (by decide)]
    exact (s.pwSeen.fields_codeWrite_holdIsl v).1
  · rw [if_pos hs, State.fld_holdChanged _ (by decide)]
    exact (s.pwSeen.fields_codeWrite_holdIsl v).2
  · rw [if_pos hs, State.held_holdChanged _ hk]
    exact (congrArg bit (s.pwSeen.islHeld_codeWrite_holdIsl v k)).trans (bit_mod_two _)
  · rw [if_pos hs]
    have hpwr : (s.pwSeen.codeWrite .PW_HOLD_ISL 0 v).pwr = s.pwr :=
      (s.pwSeen.pwr_codeWrite_holdIsl v).trans (State.pwr_of_onlyRegs s.onlyRegs_pwSeen)
    have hisl : (s.pwSeen.codeWrite .PW_HOLD_ISL 0 v).island j.val = s.island j.val := by
      rw [State.island_codeWrite_holdIsl]
      unfold State.island
      rw [State.isl_of_onlyRegs s.onlyRegs_pwSeen]
    refine State.holdChanged_abandon ((congrArg Power.notice hpwr).trans hn) hj ?_ ?_
    · exact (s.pwSeen.islHeld_codeWrite_holdIsl v j.val).trans (by rw [hh]; rfl)
    · exact (congrArg (fun k => k.entry.isSome) hisl).trans he
  · rw [if_pos hs, State.fld_holdChanged _ (by decide)]
    exact s.pwSeen.bank_codeWrite_holdGr v
end

section
/-!
SUPPORT. The comparisons of a pass: what they leave of the power block, and that an island which the critical cap has come to
hold stands at 0.75 V or below until the pass is over (R84, R85).
-/

set_option Elab.async false

namespace Sys2Proof.Machine
namespace State

variable {s t u : State} {f : Fld} {A : Nat → Prop} {l : List Reg} {i j k v : Nat}

theorem lt_of_mem_range {n : Nat} (h : k ∈ List.range n) (hn : n ≤ 65536) : k < 65536 :=
  Nat.lt_of_lt_of_le (List.mem_range.1 h) hn

/-! ## STANDBY's islands and supplies -/

theorem isl_of_boardKept (h : s.boardKept t) : t.isl = s.isl := (congrArg (fun b => b.2.1) h :)
theorem bell_of_boardKept (h : s.boardKept t) : t.bell = s.bell := (congrArg (fun b => b.2.2.1) h :)

theorem boardKept_loseIsland (s : State) (j : Nat) : s.boardKept (s.loseIsland j) := (boardKept.refl s).loseIsland

theorem pwr_gateIsland (s : State) (j : Nat) : (s.gateIsland j).pwr = (s.loseIsland j).pwr := rfl
theorem bell_gateIsland (s : State) (j : Nat) : (s.gateIsland j).bell = (s.loseIsland j).bell := rfl

theorem pwr_islandsGated (s : State) : s.islandsGated.pwr = s.pwr := by
  unfold islandsGated
  refine List.foldlRecOn (motive := fun t : State => t.pwr = s.pwr) _ _ s.boardKept_stopped.pwr fun t ht j _ => ?_
  rw [pwr_gateIsland, (t.boardKept_loseIsland j).pwr, ht]

theorem bell_islandsGated (s : State) : s.islandsGated.bell = s.bell := by
  unfold islandsGated
  refine List.foldlRecOn (motive := fun t : State => t.bell = s.bell) _ _ (bell_of_boardKept s.boardKept_stopped)
    fun t ht j _ => ?_
  rw [bell_gateIsland, bell_of_boardKept (t.boardKept_loseIsland j), ht]

theorem pwr_enterStandby (s : State) : s.enterStandby.pwr =
    { s.pwr with mode := .standby, phase := 4, failed := false, pwrOkHigh := false } := by
  rw [enterStandby_eq, standbyMode, pwr_islandsGated]

theorem bell_standbyMode (s : State) : s.standbyMode.bell = s.bell := rfl

theorem bell_enterStandby (s : State) : s.enterStandby.bell = s.bell := by
  rw [enterStandby_eq, bell_standbyMode, bell_islandsGated]

theorem island_standbyMode (s : State) (j : Nat) : s.standbyMode.island j = s.island j := rfl
theorem islState_standbyMode (s : State) (j : Nat) : s.standbyMode.islState j = s.islState j := rfl

theorem critCap_gateIsland (s : State) (k j : Nat) : ((s.gateIsland k).island j).critCap = (s.island j).critCap := by
  have hi : ∀ i, (s.loseIsland k).island i = s.island i := fun i => by
    unfold State.island
    rw [isl_of_boardKept (s.boardKept_loseIsland k)]
  unfold gateIsland dropEntry
  rw [island_setFld, island_setFld]
  by_cases h : j = k
  · rw [h, island_modIsland_same, hi]
  · rw [State.island, State.modIsland, FMap.get_set_ne _ _ _ h]
    exact congrArg Island.critCap (hi j)

theorem critCap_enterStandby (s : State) (j : Nat) : (s.enterStandby.island j).critCap = (s.island j).critCap := by
  have hstop : s.stopped.island j = s.island j := by
    unfold State.island
    rw [isl_of_boardKept s.boardKept_stopped]
  rw [enterStandby_eq, island_standbyMode, islandsGated]
  exact List.foldlRecOn (motive := fun t : State => (t.island j).critCap = (s.island j).critCap) _ _
    (congrArg Island.critCap hstop) fun t ht k _ => (t.critCap_gateIsland k j).trans ht

theorem islState_gateIsland (s : State) (hk : k < 23) (hi : i < 23) :
    (s.gateIsland k).islState i = if i = k then 5 else s.islState i := by
  unfold gateIsland State.islState
  rw [fld_setFld_apart _ _ rfl (by omega) (by omega)]
  split
  next h => rw [h, fld_setFld_same _ _ _ _ (by decide)]; rfl
  next h =>
    have hne : Reg.PW_ISTATE.island ≠ k := by
      rw [Reg.island_of_isPw rfl]
      omega
    exact (fld_setFld_ne _ _ _ _ (by omega) (by omega) (.inr h)).trans
      (congrArg (bitsOf · _ _) (s.csrGet_loseIsland (.inl hne) (by omega)))

/-- Every island but A and K is GATED (R88). -/
theorem islState_enterStandby (s : State) (hk : k < 23) : s.enterStandby.islState k = 5 := by
  rw [enterStandby_eq, islState_standbyMode]
  refine foldl_each (P := fun k t => t.islState k = 5) (fun t a ha => ?_) (fun t a ha b hb h => ?_) s.stopped k
    (List.mem_range.2 hk)
  · rw [islState_gateIsland t (List.mem_range.1 ha) (List.mem_range.1 ha), if_pos rfl]
  · rw [islState_gateIsland t (List.mem_range.1 ha) (List.mem_range.1 hb), h, ite_self]

/-! ## What a pass leaves -/

/-- From `s` to `t` a pass has kept the bell, the powers it read, and every field of the power block but the islands' voltages
and states. -/
structure passKept (s t : State) : Prop where
  fields : ∀ (f : Fld) i, f.reg.isPw = true → f.reg ∉ [Reg.PW_VSET, Reg.PW_ISTATE] → i < 65536 → t.fld f i = s.fld f i
  p1ms : t.pwr.p1ms = s.pwr.p1ms
  p10ms : t.pwr.p10ms = s.pwr.p10ms
  bell : t.bell = s.bell

namespace passKept

theorem refl (s : State) : s.passKept s := ⟨fun _ _ _ _ _ => rfl, rfl, rfl, rfl⟩

theorem trans (h : s.passKept t) (h' : t.passKept u) : s.passKept u :=
  ⟨fun f i hr hl hi => (h'.fields f i hr hl hi).trans (h.fields f i hr hl hi), h'.p1ms.trans h.p1ms,
    h'.p10ms.trans h.p10ms, h'.bell.trans h.bell⟩

theorem of_isleFrame (h : s.isleFrame t A [.PW_VSET, .PW_ISTATE]) : s.passKept t :=
  ⟨fun _ _ hr hl hi => h.fld_keeps hr hl hi, congrArg _ h.pwr, congrArg _ h.pwr, h.bell⟩

/-- A step over islands that touches voltages and states alone. -/
theorem foldl {L : List Nat} {g : State → Nat → State} (h : s.passKept t)
    (hg : ∀ u : State, ∀ k ∈ L, u.isleFrame (g u k) (· = k) [.PW_VSET, .PW_ISTATE]) : s.passKept (L.foldl g t) :=
  List.foldlRecOn L g h fun u hu k hk => hu.trans (of_isleFrame (hg u k hk))

theorem enterStandby (s : State) : s.passKept s.enterStandby := by
  refine ⟨fun f i hr hl hi => s.fld_enterStandby hr ?_ ?_ hi, ?_, ?_, s.bell_enterStandby⟩
  · simp only [List.mem_cons, List.not_mem_nil, or_false, not_or] at hl
    exact decide_eq_true (.inl hl.2)
  · simp only [List.mem_cons, List.not_mem_nil, or_false, not_or] at hl
    exact decide_eq_true (.inl hl.2)
  · rw [pwr_enterStandby]
  · rw [pwr_enterStandby]

end passKept

/-- The note to the Cocoon lies beside the power block. -/
theorem isleFrame_ringNote (s : State) (c : Nat) : s.isleFrame (s.ringNote c) (fun _ => False) [] := by
  have hb : s.boardKept (s.ringNote c) := (boardKept.refl s).ringNote
  have hi : (s.ringNote c).isl = s.isl := congrArg (fun b => b.2.1) hb
  exact ⟨fun r i hr hi _ => ((ctlKept.refl s).ringNote).regs r i (Reg.isCtl_of_isPw hr) hi,
    fun i _ => by simp only [State.island, hi], hb.pwr, congrArg (fun b => b.2.2.1) hb, rfl⟩

/-- A notice of an emergency, not yet told to the Cocoon. -/
def noticed (s : State) : State := { s with pwr := { s.pwr with notice := some .emergency } }

theorem holdNotice_emergency (s : State) : s.holdNotice .emergency =
    if s.anyHeld then s.noticed.ringNote 1
    else if s.pwr.mode == .tripped || s.pwr.mode == .off then s.unnoticed else s.unnoticed.enterStandby := rfl

theorem passKept_holdNotice (s : State) : s.passKept (s.holdNotice .emergency) := by
  have hn : s.passKept s.noticed := ⟨fun _ _ _ _ _ => rfl, rfl, rfl, rfl⟩
  have hu : s.passKept s.unnoticed := ⟨fun _ _ _ _ _ => rfl, rfl, rfl, rfl⟩
  rw [holdNotice_emergency]
  split
  · exact hn.trans (.of_isleFrame ((s.noticed.isleFrame_ringNote 1).mono (fun _ h => h) (by simp)))
  · split
    · exact hu
    · exact hu.trans (.enterStandby _)

/-! ## An island under the critical cap -/

/-- The critical cap holds an island that is not in LOCK, at 0.75 V or below. -/
structure critStands (s : State) (j : Nat) : Prop where
  code : s.code16 j ≤ 150 * 16
  capped : s.flag Fld.PW_ISTATE_CAPPED j = true
  cap : (s.island j).critCap = true
  mode : s.fld Fld.PW_RCTL_MODE j ≠ 2

theorem critStands.of_fields (h : s.critStands j) (hc : t.fld Fld.PW_VSET_VCODE j = s.fld Fld.PW_VSET_VCODE j)
    (hf : t.fld Fld.PW_VSET_VFRAC j = s.fld Fld.PW_VSET_VFRAC j)
    (hd : t.fld Fld.PW_ISTATE_CAPPED j = s.fld Fld.PW_ISTATE_CAPPED j) (hi : (t.island j).critCap = (s.island j).critCap)
    (hm : t.fld Fld.PW_RCTL_MODE j = s.fld Fld.PW_RCTL_MODE j) : t.critStands j := by
  obtain ⟨h₁, h₂, h₃, h₄⟩ := h
  refine ⟨?_, ?_, hi.trans h₃, by rwa [hm]⟩
  · unfold code16 at h₁ ⊢
    rwa [hc, hf]
  · unfold flag at h₂ ⊢
    rwa [hd]

theorem critStands.of_isleFrame (h : s.critStands j) (hf : s.isleFrame t A l) (hj : ¬ A j) (hlt : j < 65536) :
    t.critStands j :=
  h.of_fields (hf.fld_at hj hlt rfl) (hf.fld_at hj hlt rfl) (hf.fld_at hj hlt rfl)
    (congrArg Island.critCap (hf.island j hj)) (hf.fld_at hj hlt rfl)

/-- Steps over islands keep it where the island's own step does. -/
theorem critStands.foldl {L : List Nat} {g : State → Nat → State} (h : s.critStands j) (hlt : j < 65536)
    (hg : ∀ u : State, ∀ k ∈ L, u.isleFrame (g u k) (· = k) l) (hown : ∀ u : State, u.critStands j → (g u j).critStands j) :
    (L.foldl g s).critStands j :=
  List.foldlRecOn L g h fun u hu k hk => by
    by_cases hkj : j = k
    · subst hkj
      exact hown u hu
    · exact hu.of_isleFrame (hg u k hk) hkj hlt

theorem code16_setFld (s : State) (hr : f.reg ≠ .PW_VSET) (hj : j < 65536) : (s.setFld f j v).code16 j = s.code16 j := by
  unfold code16
  rw [fld_setFld_ne _ _ _ _ hj hj (.inl (Ne.symm hr)), fld_setFld_ne _ _ _ _ hj hj (.inl (Ne.symm hr))]

/-- CAPPED follows the critical cap. -/
theorem critStands_syncCapped (hcode : s.code16 j ≤ 150 * 16) (hcap : (s.island j).critCap = true)
    (hm : s.fld Fld.PW_RCTL_MODE j ≠ 2) (hj : j < 65536) : (s.syncCapped j).critStands j := by
  have hc : (s.island j).capped = true := by simp [Island.capped, hcap]
  have hmode : (s.setFld Fld.PW_ISTATE_CAPPED j (bit true)).fld Fld.PW_RCTL_MODE j ≠ 2 := by
    rwa [fld_setFld_apart _ _ rfl hj hj]
  have he : s.syncCapped j = s.setFld Fld.PW_ISTATE_CAPPED j (bit true) := by
    unfold syncCapped
    rw [hc]
    exact if_neg (by simp [hmode])
  rw [he]
  refine ⟨?_, ?_, hcap, hmode⟩
  · rwa [code16_setFld _ (by decide) hj]
  · rw [flag, fld_setFld_same _ _ _ _ (by decide)]
    rfl

theorem critStands_capIsland {g : Island → Island} (hg : ∀ k, (g k).critCap = true) (hm : s.fld Fld.PW_RCTL_MODE j ≠ 2)
    (hj : j < 65536) : (s.capIsland j (150 * 16) g).critStands j := by
  unfold capIsland
  extract_lets k s₁
  have hm₁ : s₁.fld Fld.PW_RCTL_MODE j = s.fld Fld.PW_RCTL_MODE j := by
    unfold s₁
    split <;> rfl
  refine critStands_syncCapped (code16_setCode16_le (Nat.le_refl _) (Nat.min_le_left _ _)) ?_ ?_ hj
  · rw [island_setCode16, island_modIsland_same]
    exact hg _
  · rw [fld_setCode16 _ (by decide) hj hj]
    exact hm₁ ▸ hm

theorem critStands.uncapIsland {g : Island → Island} (h : s.critStands j) (hg : ∀ k, (g k).critCap = k.critCap)
    (hj : j < 65536) : (s.uncapIsland j g).critStands j := by
  obtain ⟨hcode, -, hcap, hm⟩ := h
  unfold State.uncapIsland
  extract_lets was s₁
  have hcap₁ : (s₁.island j).critCap = true := by
    unfold s₁
    rw [island_modIsland_same, hg, hcap]
  split
  · refine critStands_syncCapped (code16_setCode16_le (Nat.le_refl _) (Island.capTop_le_of_critCap hcap₁)) hcap₁ ?_ hj
    rwa [fld_setCode16 _ (by decide) hj hj]
  · exact critStands_syncCapped hcode hcap₁ hm hj

/-- A code no higher than 0.75 V may be set. -/
theorem critStands.setCode16 (h : s.critStands j) (hv : v ≤ 150 * 16) (hj : j < 65536) : (s.setCode16 j v).critStands j := by
  obtain ⟨-, hd, hcap, hm⟩ := h
  refine ⟨code16_setCode16_le (Nat.le_refl _) hv, ?_, hcap, ?_⟩
  · rwa [flag, fld_setCode16 _ (by decide) hj hj]
  · rwa [fld_setCode16 _ (by decide) hj hj]

theorem critStands.powerCapStep (h : s.critStands j) : (s.powerCapStep j).critStands j := by
  unfold State.powerCapStep
  rw [if_neg]
  · exact h
  · have := h.code
    omega

theorem critStands.powerReturn (h : s.critStands j) (hj : j < 65536) : (s.powerReturn j).critStands j := by
  have htop := Island.capTop_le_of_critCap h.cap
  unfold State.powerReturn
  dsimp only
  split
  · exact h
  · split
    · exact h.uncapIsland (fun _ => rfl) hj
    · exact h.setCode16 (by omega) hj

theorem critStands.regulate (h : s.critStands j) (m : Int) (hj : j < 65536) : (s.regulate j m).critStands j := by
  have hc : (s.island j).capped = true := by simp [Island.capped, h.cap]
  unfold State.regulate
  split
  next lo top _ =>
    extract_lets hi m' c s₁
    have hhi : hi ≤ 150 * 16 := by
      unfold hi
      rw [if_pos hc]
      exact (Nat.min_le_right _ _).trans h.code
    have h₁ : s₁.critStands j := by
      unfold s₁
      split
      · exact h
      · exact h.setCode16 ((Nat.min_le_left _ _).trans hhi) hj
    rw [if_neg fun hn => h₁.mode hn.1]
    exact h₁

theorem critStands.holdNotice (h : s.critStands j) (hj : j < 65536) : (s.holdNotice .emergency).critStands j := by
  have hn : s.noticed.critStands j := ⟨h.code, h.capped, h.cap, h.mode⟩
  have hu : s.unnoticed.critStands j := ⟨h.code, h.capped, h.cap, h.mode⟩
  rw [holdNotice_emergency]
  split
  · exact hn.of_isleFrame (s.noticed.isleFrame_ringNote 1) not_false hj
  · split
    · exact hu
    · exact hu.of_fields (fld_enterStandby _ rfl rfl rfl hj) (fld_enterStandby _ rfl rfl rfl hj)
        (fld_enterStandby _ rfl rfl rfl hj) (critCap_enterStandby _ j) (fld_enterStandby _ rfl rfl rfl hj)

/-! ## The thermal comparisons -/

/-- A boosted island falls to 0.85 V (R84). -/
def boostStep (s : State) (j : Nat) : State :=
  if s.atBoost j then s.capIsland j (170 * 16) (fun k => { k with boostFell := true }) else s

/-- An island comes under the critical cap (R84). -/
def critStep (s : State) (j : Nat) : State :=
  if s.critCaps j then s.capIsland j (150 * 16) (fun k => { k with critCap := true }) else s

/-- The comparison with T_WARN (R84). -/
def thermWarned (s : State) (hot : Int) : State :=
  if 4 * (s.fld Fld.PW_THERM_T_WARN 0 : Int) ≤ hot then
    (((List.range 20).foldl boostStep s).pmbusSet 2).logErr { unit := 250, sev := 0, type := 0x31, data := [encSigned 10 hot] }
  else s

/-- The comparison with T_CRIT (R84). -/
def thermCapped (s : State) (crit hot : Int) : State := if crit ≤ hot then (List.range 23).foldl critStep s else s

/-- An emergency, as it is recorded (R84). -/
def emergencyLogged (s : State) (hot : Int) : State :=
  ({ s with pwr := { s.pwr with emergency := true, thermtripLow := s.pwr.armed } } : State).logErr
    { unit := 250, sev := 3, type := 0x31, data := [encSigned 10 hot] }

/-- The comparison with 110 degrees (R84). -/
def thermTripped (s : State) (hot : Int) : State :=
  if 440 ≤ hot ∧ !s.pwr.emergency then (s.emergencyLogged hot).holdNotice .emergency else s

theorem thermalPass_eq (s : State) : s.thermalPass = ((s.thermWarned s.pwr.hottest).thermCapped
    (4 * (s.fld Fld.PW_THERM_T_CRIT 0 : Int)) s.pwr.hottest).thermTripped s.pwr.hottest := rfl

theorem isleFrame_boostStep (s : State) (hk : k < 65536) : s.isleFrame (s.boostStep k) (· = k) [.PW_VSET, .PW_ISTATE] :=
  (isleFrame.capIsland (A := (· = k)) rfl hk (by simp) (by simp) (.refl s _ _)).ite (.refl s _ _)

theorem isleFrame_critStep (s : State) (hk : k < 65536) : s.isleFrame (s.critStep k) (· = k) [.PW_VSET, .PW_ISTATE] :=
  (isleFrame.capIsland (A := (· = k)) rfl hk (by simp) (by simp) (.refl s _ _)).ite (.refl s _ _)

theorem isleFrame_thermWarned (s : State) (hot : Int) :
    s.isleFrame (s.thermWarned hot) (fun _ => True) [.PW_VSET, .PW_ISTATE] := by
  have h : s.isleFrame ((List.range 20).foldl boostStep s) (fun _ => True) [.PW_VSET, .PW_ISTATE] :=
    (isleFrame.refl s _ _).foldl fun t k hk h =>
      h.trans ((t.isleFrame_boostStep (lt_of_mem_range hk (by decide))).mono (fun _ _ => trivial) fun _ h => h)
  have hp : s.isleFrame (((List.range 20).foldl boostStep s).pmbusSet 2) (fun _ => True) [.PW_VSET, .PW_ISTATE] := h.update
  exact hp.logErr.ite (.refl s _ _)

theorem passKept_thermCapped (s : State) (crit hot : Int) : s.passKept (s.thermCapped crit hot) := by
  unfold thermCapped
  split
  · exact (passKept.refl s).foldl fun t k hk => t.isleFrame_critStep (lt_of_mem_range hk (by decide))
  · exact .refl s

theorem passKept_emergencyLogged (s : State) (hot : Int) : s.passKept (s.emergencyLogged hot) := by
  have h : s.passKept { s with pwr := { s.pwr with emergency := true, thermtripLow := s.pwr.armed } } :=
    ⟨fun _ _ _ _ _ => rfl, rfl, rfl, rfl⟩
  exact h.trans (.of_isleFrame (A := fun _ => False) (isleFrame.refl _ _ _).logErr)

theorem passKept_thermTripped (s : State) (hot : Int) : s.passKept (s.thermTripped hot) := by
  unfold thermTripped
  split
  · exact (s.passKept_emergencyLogged hot).trans (passKept_holdNotice _)
  · exact .refl s

theorem passKept_thermalPass (s : State) : s.passKept s.thermalPass := by
  rw [thermalPass_eq]
  exact ((passKept.of_isleFrame (s.isleFrame_thermWarned _)).trans (passKept_thermCapped _ _ _)).trans
    (passKept_thermTripped _ _)

theorem critStands.thermTripped {hot : Int} (h : s.critStands j) (hj : j < 65536) : (s.thermTripped hot).critStands j := by
  unfold State.thermTripped
  split
  · have hp : ({ s with pwr := { s.pwr with emergency := true, thermtripLow := s.pwr.armed } } : State).critStands j :=
      ⟨h.code, h.capped, h.cap, h.mode⟩
    have he : (s.emergencyLogged hot).critStands j :=
      hp.of_isleFrame (A := fun _ => False) (l := []) (isleFrame.refl _ _ _).logErr not_false hj
    exact he.holdNotice hj
  · exact h

/-- At T_CRIT every C, F and G island that is not in LOCK comes under the cap. -/
theorem critStands_thermCapped {crit hot : Int} (h : crit ≤ hot) (hj : j ≤ 20 ∨ j = 22)
    (hm : s.fld Fld.PW_RCTL_MODE j ≠ 2) : (s.thermCapped crit hot).critStands j := by
  have hframe : ∀ t : State, ∀ k ∈ List.range 23, t.isleFrame (t.critStep k) (· = k) [.PW_VSET, .PW_ISTATE] :=
    fun t k hk => t.isleFrame_critStep (lt_of_mem_range hk (by decide))
  unfold thermCapped
  rw [if_pos h]
  obtain ⟨u, hu, hend⟩ := isleFrame.foldl_at (j := j) List.nodup_range (List.mem_range.2 (by omega)) hframe s
  have hmu : u.fld Fld.PW_RCTL_MODE j ≠ 2 := by rwa [hu.fld_keeps rfl (by decide) (by omega)]
  have hcaps : u.critCaps j = true := by simpa [critCaps, hmu] using hj
  have hown : (u.critStep j).critStands j := by
    unfold critStep
    rw [if_pos hcaps]
    exact critStands_capIsland (fun _ => rfl) hmu (by omega)
  exact hown.of_isleFrame hend (fun h => h rfl) (by omega)

theorem critStands_thermalPass (h : 4 * (s.fld Fld.PW_THERM_T_CRIT 0 : Int) ≤ s.pwr.hottest) (hj : j ≤ 20 ∨ j = 22)
    (hm : s.fld Fld.PW_RCTL_MODE j ≠ 2) : s.thermalPass.critStands j := by
  have hm' : (s.thermWarned s.pwr.hottest).fld Fld.PW_RCTL_MODE j ≠ 2 := by
    rwa [(s.isleFrame_thermWarned _).fld_keeps rfl (by decide) (by omega)]
  rw [thermalPass_eq]
  exact (critStands_thermCapped h hj hm').thermTripped (by omega)

/-! ## The power comparison -/

/-- An episode of the power cap begins, or goes on (R85). -/
def episode (s : State) : State :=
  let s := if s.pwr.capEpisode then s else s.logErr { unit := 250, sev := 0, type := 0x3B, data := [s.pwr.p1ms] }
  { s with pwr := { s.pwr with capEpisode := true, capLifting := false } }

theorem powerPass_eq (s : State) : s.powerPass =
    if 3700 < s.pwr.p1ms then (List.range 20).foldl (fun s j => s.powerCapStep j) s.episode
    else if s.pwr.capLifting then (List.range 20).foldl (fun s j => s.powerReturn j) s else s := rfl

theorem isleFrame_powerCapStep (s : State) (hk : k < 65536) :
    s.isleFrame (s.powerCapStep k) (· = k) [.PW_VSET, .PW_ISTATE] :=
  isleFrame.powerCapStep (A := (· = k)) rfl hk (by simp) (by simp) (.refl s _ _)

theorem isleFrame_powerReturn (s : State) (hk : k < 65536) :
    s.isleFrame (s.powerReturn k) (· = k) [.PW_VSET, .PW_ISTATE] :=
  isleFrame.powerReturn (A := (· = k)) rfl hk (by simp) (by simp) (.refl s _ _)

/-- What the episode's beginning does is beside the islands. -/
theorem isleFrame_logged (s : State) : s.isleFrame
    (if s.pwr.capEpisode then s else s.logErr { unit := 250, sev := 0, type := 0x3B, data := [s.pwr.p1ms] })
    (fun _ => False) [.PW_VSET, .PW_ISTATE] := (isleFrame.refl s _ _).ite (isleFrame.refl s _ _).logErr

theorem passKept_episode (s : State) : s.passKept s.episode :=
  (passKept.of_isleFrame s.isleFrame_logged).trans ⟨fun _ _ _ _ _ => rfl, rfl, rfl, rfl⟩

theorem critStands.episode (h : s.critStands j) (hj : j < 65536) : s.episode.critStands j := by
  obtain ⟨h₁, h₂, h₃, h₄⟩ := h.of_isleFrame s.isleFrame_logged not_false hj
  exact ⟨h₁, h₂, h₃, h₄⟩

theorem passKept_powerPass (s : State) : s.passKept s.powerPass := by
  rw [powerPass_eq]
  split
  · exact s.passKept_episode.foldl fun t k hk => t.isleFrame_powerCapStep (lt_of_mem_range hk (by decide))
  · split
    · exact (passKept.refl s).foldl fun t k hk => t.isleFrame_powerReturn (lt_of_mem_range hk (by decide))
    · exact .refl s

theorem critStands.powerPass (h : s.critStands j) (hj : j < 65536) : s.powerPass.critStands j := by
  rw [powerPass_eq]
  split
  · exact (h.episode hj).foldl hj (fun t k hk => t.isleFrame_powerCapStep (lt_of_mem_range hk (by decide)))
      fun _ hu => hu.powerCapStep
  · split
    · exact h.foldl hj (fun t k hk => t.isleFrame_powerReturn (lt_of_mem_range hk (by decide)))
        fun _ hu => hu.powerReturn hj
    · exact h

end State
end Sys2Proof.Machine
end

section
/-!
SUPPORT. The end of a window of regulation in domain T: the counter's run to it, and what the pass reads (R61, R627).
-/

set_option Elab.async false

namespace Sys2Proof.Machine
namespace State

variable {s t : State} {r : Reg} {f : Fld} {i j k n : Nat} {counts : List Nat} {tj moves : List Int} {vin p1ms p10ms : Nat}

/-! ## The counter's run -/

/-- A field of the time base lies beside the power block. -/
theorem csrGet_setFld_beside (s : State) (v : Nat) (hf : f.reg.isPw = false) (hr : r.isPw = true) (hi : i < 65536) :
    (s.setFld f 0 v).csrGet r i = s.csrGet r i :=
  s.csrGet_setFld_ne v (by decide) hi (.inl fun hc => by rw [hc, hf] at hr; cases hr)

/-- Another record of the bell. -/
def withBell (s : State) (b : Bell) : State := { s with bell := b }

theorem csrGet_withBell (s : State) (b : Bell) (r : Reg) (i : Nat) : (s.withBell b).csrGet r i = s.csrGet r i := rfl

theorem beside_withBell (s : State) (b : Bell) :
    (s.withBell b).isl = s.isl ∧ (s.withBell b).pwr = s.pwr ∧ (s.withBell b).mem = s.mem := ⟨rfl, rfl, rfl⟩

theorem bell_withBell (s : State) (b : Bell) : (s.withBell b).bell = b := rfl

/-- The bell's record after `k` cycles (R90). -/
def bellAfter (s : State) (k : Nat) : Bell :=
  { s.bell with acc := s.accAfter (s.bellGain k), cyc := (s.bell.cyc + k) % 40000, ppsAge := s.bell.ppsAge + s.bellGain k,
                lateNow := if k = 0 then s.bell.lateNow else [] }

/-- A pending seconds load is taken (R97). -/
def secLoaded (s : State) : State := (s.setFld Fld.TB_SECSET_PENDING 0 0).incField Fld.TB_NOW_HI_GEN 0

/-- The counter after `k` cycles, before what the slew has applied. -/
def wrapped (s : State) (k : Nat) : State :=
  if s.bellLoads (s.bellGain k) then (s.withBell (s.bellAfter k)).secLoaded else s.withBell (s.bellAfter k)

theorem advance_eq (s : State) (k : Nat) : s.advance k =
    if s.bell.slewRem = 0 then s.wrapped k else (s.wrapped k).setSlew (s.bell.slewRem - s.slewApplied k) := rfl

theorem csrGet_secLoaded (s : State) (hr : r.isPw = true) (hi : i < 65536) : s.secLoaded.csrGet r i = s.csrGet r i := by
  unfold secLoaded incField
  rw [csrGet_setFld_beside _ _ rfl hr hi, csrGet_setFld_beside _ _ rfl hr hi]

theorem csrGet_setSlew (s : State) (rem : Int) (hr : r.isPw = true) (hi : i < 65536) :
    (s.setSlew rem).csrGet r i = s.csrGet r i := by
  unfold setSlew
  dsimp only
  rw [csrGet_setFld_beside _ _ rfl hr hi, csrGet_setFld_beside _ _ rfl hr hi]
  rfl

theorem csrGet_advance (s : State) (k : Nat) (hr : r.isPw = true) (hi : i < 65536) :
    (s.advance k).csrGet r i = s.csrGet r i := by
  have hw : (s.wrapped k).csrGet r i = s.csrGet r i := by
    unfold wrapped
    split
    · rw [csrGet_secLoaded _ hr hi, csrGet_withBell]
    · rw [csrGet_withBell]
  rw [advance_eq]
  split
  · exact hw
  · rw [csrGet_setSlew _ _ hr hi, hw]

theorem beside_secLoaded (s : State) :
    s.secLoaded.isl = s.isl ∧ s.secLoaded.pwr = s.pwr ∧ s.secLoaded.mem = s.mem ∧ s.secLoaded.bell = s.bell :=
  ⟨rfl, rfl, rfl, rfl⟩

theorem beside_setSlew (s : State) (rem : Int) : (s.setSlew rem).isl = s.isl ∧ (s.setSlew rem).pwr = s.pwr ∧
    (s.setSlew rem).mem = s.mem ∧ (s.setSlew rem).bell = { s.bell with slewRem := rem } := ⟨rfl, rfl, rfl, rfl⟩

/-- A run of the counter leaves the islands, the supplies and memory. -/
theorem beside_advance (s : State) (k : Nat) :
    (s.advance k).isl = s.isl ∧ (s.advance k).pwr = s.pwr ∧ (s.advance k).mem = s.mem := by
  have hw : (s.wrapped k).isl = s.isl ∧ (s.wrapped k).pwr = s.pwr ∧ (s.wrapped k).mem = s.mem := by
    unfold wrapped
    split
    · obtain ⟨hisl, hpwr, hmem, -⟩ := (s.withBell (s.bellAfter k)).beside_secLoaded
      rw [hisl, hpwr, hmem]
      exact s.beside_withBell _
    · exact s.beside_withBell _
  rw [advance_eq]
  split
  · exact hw
  · obtain ⟨hisl, hpwr, hmem, -⟩ := (s.wrapped k).beside_setSlew (s.bell.slewRem - s.slewApplied k)
    rw [hisl, hpwr, hmem]
    exact hw

/-- The accumulator and the place in the window after a run. -/
theorem bell_advance (s : State) (k : Nat) :
    (s.advance k).bell.acc = s.accAfter (s.bellGain k) ∧ (s.advance k).bell.cyc = (s.bell.cyc + k) % 40000 := by
  have hw : (s.wrapped k).bell = s.bellAfter k := by
    unfold wrapped
    split
    · obtain ⟨-, -, -, hbell⟩ := (s.withBell (s.bellAfter k)).beside_secLoaded
      rw [hbell, bell_withBell]
    · rw [bell_withBell]
  have hb : (s.bellAfter k).acc = s.accAfter (s.bellGain k) ∧ (s.bellAfter k).cyc = (s.bell.cyc + k) % 40000 := ⟨rfl, rfl⟩
  rw [advance_eq]
  split
  · rw [hw]
    exact hb
  · obtain ⟨-, -, -, hbell⟩ := (s.wrapped k).beside_setSlew (s.bell.slewRem - s.slewApplied k)
    rw [hbell, hw]
    exact hb

theorem fld_advance (s : State) (k : Nat) (hr : f.reg.isPw = true) (hi : i < 65536) : (s.advance k).fld f i = s.fld f i := by
  rw [fld, fld, s.csrGet_advance k hr hi]

theorem islOpen_advance (s : State) (k : Nat) (hi : i < 65536) : (s.advance k).islOpen i = s.islOpen i := by
  rw [islOpen, islOpen, islState, islState, s.fld_advance k rfl hi, (s.beside_advance k).1]

/-! ## What the pass reads -/

/-- The windows of the stepping islands that are not in LOCK end (R61). -/
def rateStep (counts : List Nat) (s : State) (j : Nat) : State :=
  if s.steps j && s.fld Fld.PW_RCTL_MODE j != 2 then s.windowCount j (counts.getD j 0) else s

/-- A sensor's reading (R66). -/
def tempStep (tj : List Int) (s : State) (j : Nat) : State := s.setFld Fld.PW_TEMP_TJ j (encSigned 10 (tj.getD j 0))

/-- The windows' counts (R61). -/
def rateCounted (s : State) (counts : List Nat) : State := (List.range 25).foldl (rateStep counts) s

/-- The readings of the temperatures and of the input (R627). -/
def rateSensed (s : State) (counts : List Nat) (tj : List Int) (vin : Nat) : State :=
  ((List.range 25).foldl (tempStep tj) (s.rateCounted counts)).setFld Fld.PW_INSTAT_VIN 0 vin

/-- The readings of the powers and of the hottest sensor (R627), as the Reeve is told them. -/
def powersRead (s : State) (p1ms p10ms : Nat) (hot : Int) : State :=
  let s := { s with pwr := { s.pwr with p1ms := p1ms, p10ms := p10ms, hottest := hot } }
  (s.reeveEvent 1).reeveEvent 5

/-- Every reading of a pass (R627). -/
def rateRead (s : State) (counts : List Nat) (tj : List Int) (vin p1ms p10ms : Nat) : State :=
  (s.rateSensed counts tj vin).powersRead p1ms p10ms (tj.foldl max (-160))

/-- The firmware's move of a RATE island (R69). -/
def moveStep (moves : List Int) (s : State) (j : Nat) : State :=
  if s.steps j && s.fld Fld.PW_RCTL_MODE j == 1 then s.regulate j (moves.getD j 0) else s

/-- The comparisons and moves of a pass. -/
def ratePassed (s : State) (moves : List Int) : State := (List.range 25).foldl (moveStep moves) s.thermalPass.powerPass

/-- A tripped module only reads its sensors (R86, R88). -/
def rateEnd (moves : List Int) (s : State) : State :=
  match s.pwr.mode with
  | .tripped => s
  | .off | .start | .run | .standby =>
    (List.range 25).foldl (fun s j =>
      if s.steps j && s.fld Fld.PW_RCTL_MODE j == 1 then s.regulate j (moves.getD j 0) else s) s.thermalPass.powerPass

theorem rateEnd_tripped (h : s.pwr.mode = .tripped) : s.rateEnd moves = s := by simp [rateEnd, h]

theorem rateEnd_passed (h : s.pwr.mode ≠ .tripped) : s.rateEnd moves = s.ratePassed moves := by
  unfold rateEnd
  split
  next hm => exact absurd hm h
  all_goals rfl

theorem exec_rateWindowEnd (hc : s.clockRuns = true) (h23 : s.islState 23 = 1) :
    exec (.rateWindowEnd counts tj vin p1ms p10ms moves) s =
      .next ((s.toRateEnd.rateRead counts tj vin p1ms p10ms).rateEnd moves) := by
  change execRateWindowEnd counts tj vin p1ms p10ms moves s = _
  unfold execRateWindowEnd
  rw [if_pos (by simp [hc, h23])]
  extract_lets s₁ s₂ s₃ s₄ p s₅ s₆
  have h₄ : s₄ = s₁.rateSensed counts tj vin := rfl
  clear_value s₄
  have h₆ : s₆ = s₄.powersRead p1ms p10ms (tj.foldl max (-160)) := rfl
  clear_value s₆
  rw [rateRead, ← h₄, ← h₆]
  rfl

/-! ## The readings -/

section
variable (s : State) (counts : List Nat) (tj : List Int) (vin p1ms p10ms : Nat)

theorem fld_powersRead (s : State) (hot : Int) (f : Fld) (i : Nat) : (s.powersRead p1ms p10ms hot).fld f i = s.fld f i := rfl

theorem beside_powersRead (s : State) (hot : Int) : (s.powersRead p1ms p10ms hot).bell = s.bell ∧
    (s.powersRead p1ms p10ms hot).pwr = { s.pwr with p1ms := p1ms, p10ms := p10ms, hottest := hot } := ⟨rfl, rfl⟩

theorem fld_rateRead_eq (f : Fld) (i : Nat) :
    (s.rateRead counts tj vin p1ms p10ms).fld f i = (s.rateSensed counts tj vin).fld f i := fld_powersRead _ _ _ _ _ _

theorem isleFrame_rateStep (t : State) (hk : k < 65536) : t.isleFrame (rateStep counts t k) (· = k) [.PW_RATE] :=
  (isleFrame.windowCount (A := (· = k)) rfl hk (.refl t _ _) (by simp)).ite (.refl t _ _)

theorem isleFrame_tempStep (t : State) (hk : k < 65536) : t.isleFrame (tempStep tj t k) (· = k) [.PW_TEMP] :=
  isleFrame.setFld (A := (· = k)) (f := Fld.PW_TEMP_TJ) rfl (.refl t _ _) (List.mem_singleton_self _) hk

theorem isleFrame_rateCounted : s.isleFrame (s.rateCounted counts) (fun _ => True) [.PW_RATE] :=
  (isleFrame.refl _ _ _).foldl fun t k hk h =>
    h.trans ((isleFrame_rateStep counts t (lt_of_mem_range hk (by decide))).mono (fun _ _ => trivial) fun _ h => h)

theorem isleFrame_rateSensed :
    (s.rateCounted counts).isleFrame (s.rateSensed counts tj vin) (fun _ => True) [.PW_TEMP, .PW_INSTAT] := by
  have h : (s.rateCounted counts).isleFrame ((List.range 25).foldl (tempStep tj) (s.rateCounted counts)) (fun _ => True)
      [.PW_TEMP, .PW_INSTAT] := (isleFrame.refl _ _ _).foldl fun t k hk h =>
    h.trans ((isleFrame_tempStep tj t (lt_of_mem_range hk (by decide))).mono (fun _ _ => trivial) (by simp))
  exact h.setFld trivial (List.mem_cons_of_mem _ (List.mem_singleton_self _)) (by decide)

/-- The windows and readings leave the other registers of the power block. -/
theorem fld_rateRead (hr : f.reg.isPw = true) (hl : f.reg ∉ [Reg.PW_RATE, Reg.PW_TEMP, Reg.PW_INSTAT]) (hi : i < 65536) :
    (s.rateRead counts tj vin p1ms p10ms).fld f i = s.fld f i := by
  simp only [List.mem_cons, List.not_mem_nil, or_false, not_or] at hl
  obtain ⟨hrate, htemp, hin⟩ := hl
  calc (s.rateRead counts tj vin p1ms p10ms).fld f i = (s.rateSensed counts tj vin).fld f i :=
      s.fld_rateRead_eq counts tj vin p1ms p10ms f i
    _ = (s.rateCounted counts).fld f i := (s.isleFrame_rateSensed counts tj vin).fld_keeps hr (by simp [htemp, hin]) hi
    _ = s.fld f i := (s.isleFrame_rateCounted counts).fld_keeps hr (by simp [hrate]) hi

theorem pwr_rateRead : (s.rateRead counts tj vin p1ms p10ms).pwr =
    { s.pwr with p1ms := p1ms, p10ms := p10ms, hottest := tj.foldl max (-160) } := by
  have h : (s.rateSensed counts tj vin).pwr = s.pwr :=
    (s.isleFrame_rateSensed counts tj vin).pwr.trans (s.isleFrame_rateCounted counts).pwr
  rw [rateRead, (beside_powersRead _ _ _ _).2, h]

theorem bell_rateRead : (s.rateRead counts tj vin p1ms p10ms).bell = s.bell := by
  rw [rateRead, (beside_powersRead _ _ _ _).1, (s.isleFrame_rateSensed counts tj vin).bell, (s.isleFrame_rateCounted counts).bell]

theorem vin_rateRead : (s.rateRead counts tj vin p1ms p10ms).fld Fld.PW_INSTAT_VIN 0 = vin % 2 ^ 16 := by
  rw [fld_rateRead_eq, rateSensed]
  exact fld_setFld_same _ _ _ _ (by decide)

/-- A sensor's reading stands in its register. -/
theorem temp_rateRead (j : IslandId) :
    (s.rateRead counts tj vin p1ms p10ms).fld Fld.PW_TEMP_TJ j.val = encSigned 10 (tj.getD j.val 0) := by
  obtain ⟨u, -, hend⟩ := isleFrame.foldl_at (j := j.val) List.nodup_range (List.mem_range.2 j.isLt)
    (fun t k hk => isleFrame_tempStep tj t (lt_of_mem_range hk (by decide))) (s.rateCounted counts)
  have henc : encSigned 10 (tj.getD j.val 0) < 2 ^ 10 := by
    unfold encSigned
    omega
  calc (s.rateRead counts tj vin p1ms p10ms).fld Fld.PW_TEMP_TJ j.val =
      ((List.range 25).foldl (tempStep tj) (s.rateCounted counts)).fld Fld.PW_TEMP_TJ j.val := by
        rw [fld_rateRead_eq, rateSensed]
        exact fld_setFld_apart _ _ rfl (by decide) (by omega)
    _ = (tempStep tj u j.val).fld Fld.PW_TEMP_TJ j.val := hend.fld_at (fun h => h rfl) (by omega) rfl
    _ = encSigned 10 (tj.getD j.val 0) := (fld_setFld_same _ _ _ _ (by decide)).trans (Nat.mod_eq_of_lt henc)

theorem fields_windowCount (s : State) (j n : Nat) (hj : j < 65536) :
    (s.windowCount j n).fld Fld.PW_RATE_RATE j = n % 2 ^ 20 ∧
    (s.windowCount j n).fld Fld.PW_RATE_WINDOWS j = (s.fld Fld.PW_RATE_WINDOWS j + 1) % 2 ^ 16 := by
  unfold windowCount incField
  constructor
  · rw [fld_setFld_apart _ _ rfl hj hj]
    exact fld_setFld_same _ _ _ _ (by decide)
  · rw [fld_setFld_same _ _ _ _ (by decide), fld_setFld_apart _ _ rfl hj hj]
    rfl

/-- A stepping island that is not in LOCK has its window counted. -/
theorem rate_rateRead (j : IslandId) (ho : s.islOpen j.val = true) (hm : s.fld Fld.PW_RCTL_MODE j.val ≠ 2) :
    (s.rateRead counts tj vin p1ms p10ms).fld Fld.PW_RATE_RATE j.val = counts.getD j.val 0 % 2 ^ 20 ∧
    (s.rateRead counts tj vin p1ms p10ms).fld Fld.PW_RATE_WINDOWS j.val =
      (s.fld Fld.PW_RATE_WINDOWS j.val + 1) % 2 ^ 16 := by
  obtain ⟨u, hu, hend⟩ := isleFrame.foldl_at (j := j.val) List.nodup_range (List.mem_range.2 j.isLt)
    (fun t k hk => isleFrame_rateStep counts t (lt_of_mem_range hk (by decide))) s
  have hcount : ∀ f : Fld, f.reg = .PW_RATE → (s.rateRead counts tj vin p1ms p10ms).fld f j.val =
      (rateStep counts u j.val).fld f j.val := fun f hf => by
    calc (s.rateRead counts tj vin p1ms p10ms).fld f j.val = (s.rateSensed counts tj vin).fld f j.val :=
        s.fld_rateRead_eq counts tj vin p1ms p10ms f _
      _ = (s.rateCounted counts).fld f j.val :=
        (s.isleFrame_rateSensed counts tj vin).fld_keeps (by rw [hf]; rfl) (by rw [hf]; decide) (by omega)
      _ = (rateStep counts u j.val).fld f j.val := hend.fld_at (fun h => h rfl) (by omega) (by rw [hf]; rfl)
  have hopen : u.islOpen j.val = true := (hu.islOpen_at (fun h => h rfl) (by omega)).trans ho
  have hbefore : ∀ f : Fld, f.reg.isPw = true → u.fld f j.val = s.fld f j.val :=
    fun f hf => hu.fld_at (fun h => h rfl) (by omega) hf
  have hstep : rateStep counts u j.val = u.windowCount j.val (counts.getD j.val 0) := by
    have hmode : u.fld Fld.PW_RCTL_MODE j.val ≠ 2 := by rwa [hbefore _ rfl]
    exact if_pos (by simp [steps, hopen, hmode])
  rw [hcount _ rfl, hcount _ rfl, hstep, ← hbefore Fld.PW_RATE_WINDOWS rfl]
  exact u.fields_windowCount j.val _ (by omega)

end

/-- The window is over. -/
theorem cyc_toRateEnd (h : s.bell.cyc < 40000) : s.toRateEnd.bell.cyc = 0 := by
  rw [toRateEnd, (s.bell_advance _).2, Nat.add_sub_cancel' h.le]

/-- At the window's end the readings leave the other registers of the power block, and of the supplies write these. -/
theorem fld_atRateEnd (s : State) (counts : List Nat) (tj : List Int) (vin p1ms p10ms : Nat) (hr : f.reg.isPw = true)
    (hl : f.reg ∉ [Reg.PW_RATE, Reg.PW_TEMP, Reg.PW_INSTAT]) (hi : i < 65536) :
    (s.toRateEnd.rateRead counts tj vin p1ms p10ms).fld f i = s.fld f i := by
  rw [fld_rateRead _ _ _ _ _ _ hr hl hi, toRateEnd, fld_advance _ _ hr hi]

theorem pwr_atRateEnd (s : State) (counts : List Nat) (tj : List Int) (vin p1ms p10ms : Nat) :
    (s.toRateEnd.rateRead counts tj vin p1ms p10ms).pwr =
      { s.pwr with p1ms := p1ms, p10ms := p10ms, hottest := tj.foldl max (-160) } := by
  rw [pwr_rateRead, toRateEnd, (s.beside_advance _).2.1]

/-- The window that the counter has run to is counted. -/
theorem rate_atRateEnd (s : State) (counts : List Nat) (tj : List Int) (vin p1ms p10ms : Nat) (j : IslandId)
    (ho : s.islOpen j.val = true) (hm : s.fld Fld.PW_RCTL_MODE j.val ≠ 2) :
    (s.toRateEnd.rateRead counts tj vin p1ms p10ms).fld Fld.PW_RATE_RATE j.val = counts.getD j.val 0 % 2 ^ 20 ∧
    (s.toRateEnd.rateRead counts tj vin p1ms p10ms).fld Fld.PW_RATE_WINDOWS j.val =
      (s.fld Fld.PW_RATE_WINDOWS j.val + 1) % 2 ^ 16 := by
  have hw := s.fld_advance (40000 - s.bell.cyc) (f := Fld.PW_RATE_WINDOWS) (i := j.val) rfl (by omega)
  have hm' : s.toRateEnd.fld Fld.PW_RCTL_MODE j.val ≠ 2 := by rwa [toRateEnd, s.fld_advance _ rfl (by omega)]
  rw [← hw]
  exact s.toRateEnd.rate_rateRead counts tj vin p1ms p10ms j ((s.islOpen_advance _ (by omega)).trans ho) hm'

/-! ## The comparisons and moves -/

theorem isleFrame_moveStep (t : State) (hk : k < 65536) :
    t.isleFrame (moveStep moves t k) (· = k) [.PW_VSET, .PW_ISTATE] :=
  (isleFrame.regulate (A := (· = k)) rfl hk (by simp) (by simp) (.refl t _ _)).ite (.refl t _ _)

theorem passKept_ratePassed (s : State) (moves : List Int) : s.passKept (s.ratePassed moves) :=
  (s.passKept_thermalPass.trans (passKept_powerPass _)).foldl fun t k hk => t.isleFrame_moveStep (lt_of_mem_range hk (by decide))

theorem passKept_rateEnd (s : State) (moves : List Int) : s.passKept (s.rateEnd moves) := by
  by_cases h : s.pwr.mode = .tripped
  · rw [rateEnd_tripped h]
    exact .refl s
  · rw [rateEnd_passed h]
    exact s.passKept_ratePassed moves

theorem critStands_ratePassed (h : 4 * (s.fld Fld.PW_THERM_T_CRIT 0 : Int) ≤ s.pwr.hottest) (hj : j ≤ 20 ∨ j = 22)
    (hm : s.fld Fld.PW_RCTL_MODE j ≠ 2) : (s.ratePassed moves).critStands j := by
  refine ((critStands_thermalPass h hj hm).powerPass (by omega)).foldl (by omega)
    (fun t k hk => t.isleFrame_moveStep (lt_of_mem_range hk (by decide))) fun u hu => ?_
  unfold moveStep
  split
  · exact hu.regulate _ (by omega)
  · exact hu

end State
end Sys2Proof.Machine
end

section
/-!
SUPPORT. The end of a LOCK window: how exactly the counter reaches a boundary of the bell second, and what the window records
(R61, R70).
-/

set_option Elab.async false

namespace Sys2Proof.Machine

/-! ## Cycles to a gain -/

/-- The least number of steps of `y` that reach `x`. -/
def stepsUp (x y : Nat) : Nat := if y = 0 then 0 else (x + y - 1) / y

theorem stepsUp_spec {x y : Nat} (hy : 0 < y) : x ≤ stepsUp x y * y ∧ stepsUp x y * y < x + y := by
  unfold stepsUp
  rw [if_neg hy.ne']
  have hmod := Nat.div_add_mod (x + y - 1) y
  have hlt := Nat.mod_lt (x + y - 1) hy
  rw [Nat.mul_comm] at hmod
  omega

namespace State

variable {s t : State} {d i j k n : Nat} {counts : List Nat} {moves : List Int}

/-- What a cycle adds while a slew lasts. -/
def slewRate (s : State) : Nat :=
  ((s.addend : Int) + (if s.bell.slewRem < 0 then -(s.slewDelta : Int) else s.slewDelta)).toNat

theorem cyclesTo_eq (s : State) (d : Nat) : s.cyclesTo d =
    if s.bell.slewRem = 0 then stepsUp d s.addend
    else if d ≤ s.bell.slewRem.natAbs / max s.slewDelta 1 * s.slewRate then stepsUp d s.slewRate
    else max (stepsUp s.bell.slewRem.natAbs s.slewDelta) (stepsUp ((d : Int) - s.bell.slewRem).toNat s.addend) := rfl

/-- While the slew lasts, each cycle applies its whole share. -/
theorem bellGain_of_le (hma : s.slewDelta < s.addend) (h : k * s.slewDelta ≤ s.bell.slewRem.natAbs) :
    s.bellGain k = k * s.slewRate := by
  have hm : min (s.bell.slewRem.natAbs : Int) (k * s.slewDelta : Int) = (k * s.slewDelta : Int) := by
    have := Int.ofNat_le.2 h
    rw [Nat.cast_mul] at this
    exact min_eq_right this
  have hrate : (s.slewRate : Int) = s.addend + (if s.bell.slewRem < 0 then -(s.slewDelta : Int) else s.slewDelta) :=
    Int.toNat_of_nonneg (by split <;> omega)
  have hgain : (k * s.addend : Int) + s.slewApplied k = ((k * s.slewRate : Nat) : Int) := by
    rw [Nat.cast_mul, hrate, slewApplied, hm]
    split <;> ring
  rw [bellGain, hgain, Int.toNat_natCast]

/-- Once it is over, the cycles have applied what remained. -/
theorem bellGain_of_ge (h : s.bell.slewRem.natAbs ≤ k * s.slewDelta) :
    s.bellGain k = (((k * s.addend : Nat) : Int) + s.bell.slewRem).toNat := by
  have hm : min (s.bell.slewRem.natAbs : Int) (k * s.slewDelta : Int) = s.bell.slewRem.natAbs := by
    have := Int.ofNat_le.2 h
    rw [Nat.cast_mul] at this
    exact min_eq_left this
  have hslew : s.slewApplied k = s.bell.slewRem := by
    rw [slewApplied, hm]
    split <;> omega
  rw [bellGain, hslew, Nat.cast_mul]

section
variable (s : State) (d : Nat) (hm : 0 < s.slewDelta) (hma : s.slewDelta < s.addend)
include hm hma

theorem slewRate_bounds : 0 < s.slewRate ∧ s.slewRate ≤ s.addend + s.slewDelta := by
  unfold slewRate
  split <;> omega

/-- A gain that the slew's cycles reach. -/
theorem bellGain_slewing (h : d ≤ s.bell.slewRem.natAbs / s.slewDelta * s.slewRate) :
    d ≤ s.bellGain (stepsUp d s.slewRate) ∧ s.bellGain (stepsUp d s.slewRate) < d + s.addend + s.slewDelta := by
  obtain ⟨hpos, hle⟩ := s.slewRate_bounds hm hma
  obtain ⟨hlo, hhi⟩ := stepsUp_spec (x := d) hpos
  have hn : stepsUp d s.slewRate ≤ s.bell.slewRem.natAbs / s.slewDelta := by
    have hlt : stepsUp d s.slewRate * s.slewRate < (s.bell.slewRem.natAbs / s.slewDelta + 1) * s.slewRate := by
      rw [Nat.add_mul, Nat.one_mul]
      omega
    exact Nat.le_of_lt_succ (Nat.lt_of_mul_lt_mul_right hlt)
  rw [bellGain_of_le hma ((Nat.mul_le_mul_right _ hn).trans (Nat.div_mul_le_self _ _))]
  omega

/-- A gain beyond the slew. -/
theorem bellGain_slewed (h : s.bell.slewRem.natAbs / s.slewDelta * s.slewRate < d) :
    d ≤ s.bellGain (max (stepsUp s.bell.slewRem.natAbs s.slewDelta) (stepsUp ((d : Int) - s.bell.slewRem).toNat s.addend)) ∧
    s.bellGain (max (stepsUp s.bell.slewRem.natAbs s.slewDelta) (stepsUp ((d : Int) - s.bell.slewRem).toNat s.addend)) <
      d + s.addend + s.slewDelta := by
  obtain ⟨hslo, hshi⟩ := stepsUp_spec (x := s.bell.slewRem.natAbs) hm
  obtain ⟨hclo, hchi⟩ := stepsUp_spec (x := ((d : Int) - s.bell.slewRem).toNat) (y := s.addend) (by omega)
  have hrate : (s.slewRate : Int) = s.addend + (if s.bell.slewRem < 0 then -(s.slewDelta : Int) else s.slewDelta) :=
    Int.toNat_of_nonneg (by split <;> omega)
  generalize hr : s.bell.slewRem = r at *
  generalize hN : stepsUp r.natAbs s.slewDelta = N at *
  generalize hC : stepsUp ((d : Int) - r).toNat s.addend = C at *
  have hover : r.natAbs ≤ max N C * s.slewDelta := hslo.trans (Nat.mul_le_mul_right _ (Nat.le_max_left _ _))
  have hlo : C * s.addend ≤ max N C * s.addend := Nat.mul_le_mul_right _ (Nat.le_max_right _ _)
  rw [bellGain_of_ge (by rwa [hr]), hr]
  refine ⟨by omega, ?_⟩
  obtain hNC | hCN := Nat.le_total N C
  · rw [Nat.max_eq_right hNC] at hover ⊢
    obtain rfl | hpos := Nat.eq_zero_or_pos C
    · omega
    · have := Nat.le_mul_of_pos_left s.addend hpos
      omega
  · rw [Nat.max_eq_left hCN] at hover ⊢
    have hmod := Nat.div_add_mod r.natAbs s.slewDelta
    have hlt := Nat.mod_lt r.natAbs hm
    rw [Nat.mul_comm] at hmod
    have hN1 : N ≤ r.natAbs / s.slewDelta + 1 := by
      have hlt' : N * s.slewDelta < (r.natAbs / s.slewDelta + 2) * s.slewDelta := by
        rw [Nat.add_mul]
        omega
      exact Nat.le_of_lt_succ (Nat.lt_of_mul_lt_mul_right hlt')
    have hNa := Nat.mul_le_mul_right s.addend hN1
    rw [Nat.add_mul, Nat.one_mul] at hNa
    have hslew : ((r.natAbs / s.slewDelta * s.slewRate : Nat) : Int) = ((r.natAbs / s.slewDelta * s.addend : Nat) : Int) +
        (if r < 0 then -((r.natAbs / s.slewDelta * s.slewDelta : Nat) : Int)
          else ((r.natAbs / s.slewDelta * s.slewDelta : Nat) : Int)) := by
      rw [Nat.cast_mul, hrate, Nat.cast_mul, Nat.cast_mul]
      split <;> ring
    split at hslew <;> omega

end

/-- The counter passes a gain by less than one increment and its slew. -/
theorem bellGain_cyclesTo (s : State) (d : Nat) (hm : 0 < s.slewDelta) (hma : s.slewDelta < s.addend) :
    d ≤ s.bellGain (s.cyclesTo d) ∧ s.bellGain (s.cyclesTo d) < d + s.addend + s.slewDelta := by
  rw [cyclesTo_eq, Nat.max_eq_left hm]
  split
  next h0 =>
    obtain ⟨hlo, hhi⟩ := stepsUp_spec (x := d) (y := s.addend) (by omega)
    rw [bellGain_of_ge (by simp [h0]), h0]
    omega
  next =>
    split
    next h => exact s.bellGain_slewing d hm hma h
    next h => exact s.bellGain_slewed d hm hma (Nat.lt_of_not_le h)

/-! ## The boundary -/

/-- The fraction of the bell second. -/
theorem frac_bell80 (s : State) : s.bell80.toNat % 2 ^ 32 = s.bell.acc.toNat / 2 ^ 32 % 2 ^ 32 := by
  unfold bell80
  rw [BitVec.truncate_eq_setWidth, BitVec.toNat_setWidth, BitVec.toNat_ushiftRight, Nat.shiftRight_eq_div_pow]
  omega

theorem frac_accAfter (s : State) (g : Nat) :
    (s.accAfter g).toNat / 2 ^ 32 % 2 ^ 32 = (s.bell.acc.toNat + g) % 2 ^ 64 / 2 ^ 32 := by
  unfold accAfter
  extract_lets sec
  rw [BitVec.toNat_ofNat]
  omega

/-- A gain that brings FRAC to a value. -/
theorem toFrac_spec (s : State) (frac : Nat) :
    (s.bell.acc.toNat + s.toFrac frac) % 2 ^ 64 = frac % 2 ^ 32 * 2 ^ 32 := by
  unfold toFrac
  extract_lets low t
  split <;> omega

/-- A window's boundary is one of the 10,000 divisions of the bell second. -/
theorem lockBoundary_spec {f : Nat} (hf : f < 2 ^ 32) : ∃ k ≤ 10000, lockBoundary f = k * 2 ^ 32 / 10000 := by
  unfold lockBoundary bellBoundary
  extract_lets k
  have hk : k ≤ 9999 := by omega
  split_ifs with h₁ h₂
  · exact ⟨k, by omega, rfl⟩
  · exact ⟨k + 1, by omega, rfl⟩
  · exact ⟨k + 2, by omega, rfl⟩

/-- The cycles to the end of a LOCK window (R61). -/
def lockCycles (s : State) : Nat := s.cyclesTo (s.toFrac (lockBoundary (s.bell80.toNat % 2 ^ 32)))

/-- A gain that overshoots the way to a fraction by less than 16 units of FRAC leaves FRAC that close behind it. -/
theorem frac_overshoot {a d g x b : Nat} (hlo : d ≤ g) (hhi : g < d + 2 ^ 36) (hd : (a + d) % 2 ^ 64 = b % 2 ^ 32 * 2 ^ 32)
    (hx : x % 2 ^ 32 = (a + g) % 2 ^ 64 / 2 ^ 32) : (x + 2 ^ 32 - b) % 2 ^ 32 < 16 := by
  obtain ⟨e, rfl⟩ := Nat.exists_eq_add_of_le hlo
  have hsum : a + (d + e) = (a + d) / 2 ^ 64 * 2 ^ 64 + (b % 2 ^ 32 * 2 ^ 32 + e) := by
    have := Nat.div_add_mod (a + d) (2 ^ 64)
    omega
  have hfrac : x % 2 ^ 32 = (b % 2 ^ 32 + e / 2 ^ 32) % 2 ^ 32 := by
    rw [hx, hsum, Nat.mul_comm, Nat.mul_add_mod]
    omega
  have he : e / 2 ^ 32 < 16 := by omega
  omega

/-- At its end the counter stands past a division of the bell second by less than two increments. -/
theorem frac_lockCycles (hlo : 46107636812 ≤ s.addend) (hhi : s.addend ≤ 46126083556) : ∃ k ≤ 10000,
    ((s.advance s.lockCycles).bell80.toNat + 2 ^ 32 - k * 2 ^ 32 / 10000) % 2 ^ 32 < 16 := by
  obtain ⟨k, hk, hB⟩ := lockBoundary_spec (Nat.mod_lt s.bell80.toNat (by decide : 0 < 2 ^ 32))
  have hdelta : s.slewDelta = s.addend * 500 / 1000000 := rfl
  obtain ⟨hg, hg'⟩ := s.bellGain_cyclesTo (s.toFrac (k * 2 ^ 32 / 10000)) (by omega) (by omega)
  have hT := s.toFrac_spec (k * 2 ^ 32 / 10000)
  have hfrac := frac_bell80 (s.advance s.lockCycles)
  rw [(s.bell_advance _).1, frac_accAfter, lockCycles, hB] at hfrac
  refine ⟨k, hk, ?_⟩
  rw [lockCycles, hB]
  exact frac_overshoot hg (by omega) hT hfrac

/-! ## The window -/

/-- A LOCK window of a stepping island ends (R61, R70). -/
def lockStep (counts : List Nat) (moves : List Int) (s : State) (j : Nat) : State :=
  if s.steps j && s.fld Fld.PW_RCTL_MODE j == 2 then
    ((s.windowCount j (counts.getD j 0)).lockWindow j).regulate j (moves.getD j 0)
  else s

/-- The windows of the LOCK islands end. -/
def lockWindows (s : State) (counts : List Nat) (moves : List Int) : State :=
  (List.range 25).foldl (lockStep counts moves) (s.reeveEvent 2)

theorem exec_lockWindowEnd (hc : s.clockRuns = true) (h23 : s.islState 23 = 1) :
    exec (.lockWindowEnd counts moves) s = .next ((s.advance s.lockCycles).lockWindows counts moves) := by
  change execLockWindowEnd counts moves s = _
  unfold execLockWindowEnd
  rw [if_pos (by simp [hc, h23])]
  rfl

section
variable (s : State) (counts : List Nat) (moves : List Int)

/-- Beside the window's count and phase error a LOCK window touches the island's voltage and state alone. -/
theorem isleFrame_lockEnd (t : State) (m : Int) (hk : k < 65536) : ∃ err,
    (t.setFld Fld.PW_RATE_PHASE_ERR k err).isleFrame ((t.lockWindow k).regulate k m) (· = k) [.PW_VSET, .PW_ISTATE] := by
  obtain ⟨err, h⟩ := isleFrame.lockWindow (A := (· = k)) (l := [.PW_VSET, .PW_ISTATE]) rfl hk (by simp) (by simp) t
  exact ⟨err, h.regulate (A := (· = k)) (l := [.PW_VSET, .PW_ISTATE]) rfl hk (by simp) (by simp)⟩

theorem isleFrame_lockStep (t : State) (hk : k < 65536) :
    t.isleFrame (lockStep counts moves t k) (· = k) [.PW_VSET, .PW_ISTATE, .PW_RATE] := by
  have hw : t.isleFrame (t.windowCount k (counts.getD k 0)) (· = k) [.PW_VSET, .PW_ISTATE, .PW_RATE] :=
    isleFrame.windowCount (A := (· = k)) rfl hk (.refl t _ _) (by simp)
  obtain ⟨err, h⟩ := isleFrame_lockEnd (t.windowCount k (counts.getD k 0)) (moves.getD k 0) hk
  have he := isleFrame.setFld (A := (· = k)) (f := Fld.PW_RATE_PHASE_ERR) (v := err) rfl hw
    (List.mem_cons_of_mem _ (List.mem_cons_of_mem _ (List.mem_singleton_self _))) hk
  exact (he.trans (h.mono (fun _ h => h) (by simp))).ite (.refl t _ _)

theorem mem_lockWindows : (s.lockWindows counts moves).mem = s.mem := by
  have h : (s.reeveEvent 2).isleFrame (s.lockWindows counts moves) (fun _ => True) [.PW_VSET, .PW_ISTATE, .PW_RATE] :=
    (isleFrame.refl _ _ _).foldl fun t k hk h =>
      h.trans ((isleFrame_lockStep counts moves t (lt_of_mem_range hk (by decide))).mono (fun _ _ => trivial) fun _ h => h)
  exact h.mem

theorem bell_lockWindows : (s.lockWindows counts moves).bell = s.bell := by
  have h : (s.reeveEvent 2).isleFrame (s.lockWindows counts moves) (fun _ => True) [.PW_VSET, .PW_ISTATE, .PW_RATE] :=
    (isleFrame.refl _ _ _).foldl fun t k hk h =>
      h.trans ((isleFrame_lockStep counts moves t (lt_of_mem_range hk (by decide))).mono (fun _ _ => trivial) fun _ h => h)
  exact h.bell

/-- The part of one island. -/
theorem lockWindows_at (j : IslandId) : ∃ u, s.isleFrame u (· ≠ j.val) [.PW_VSET, .PW_ISTATE, .PW_RATE] ∧
    (lockStep counts moves u j.val).isleFrame (s.lockWindows counts moves) (· ≠ j.val) [.PW_VSET, .PW_ISTATE, .PW_RATE] := by
  obtain ⟨u, hu, hend⟩ := isleFrame.foldl_at (j := j.val) List.nodup_range (List.mem_range.2 j.isLt)
    (fun t k hk => isleFrame_lockStep counts moves t (lt_of_mem_range hk (by decide))) (s.reeveEvent 2)
  exact ⟨u, (isleFrame.refl s (· ≠ j.val) [.PW_VSET, .PW_ISTATE, .PW_RATE]).update.trans hu, hend⟩

theorem rate_lockWindows (j : IslandId) (ho : s.islOpen j.val = true) (hm : s.fld Fld.PW_RCTL_MODE j.val = 2) :
    (s.lockWindows counts moves).fld Fld.PW_RATE_RATE j.val = counts.getD j.val 0 % 2 ^ 20 ∧
    (s.lockWindows counts moves).fld Fld.PW_RATE_WINDOWS j.val = (s.fld Fld.PW_RATE_WINDOWS j.val + 1) % 2 ^ 16 := by
  obtain ⟨u, hu, hend⟩ := s.lockWindows_at counts moves j
  have hbefore : ∀ f : Fld, f.reg.isPw = true → u.fld f j.val = s.fld f j.val :=
    fun f hf => hu.fld_at (fun h => h rfl) (by omega) hf
  have hstep : lockStep counts moves u j.val =
      ((u.windowCount j.val (counts.getD j.val 0)).lockWindow j.val).regulate j.val (moves.getD j.val 0) := by
    have hopen : u.islOpen j.val = true := (hu.islOpen_at (fun h => h rfl) (by omega)).trans ho
    have hmode : u.fld Fld.PW_RCTL_MODE j.val = 2 := by rwa [hbefore _ rfl]
    exact if_pos (by simp [steps, hopen, hmode])
  obtain ⟨err, herr⟩ := isleFrame_lockEnd (u.windowCount j.val (counts.getD j.val 0)) (moves.getD j.val 0)
    (by omega : j.val < 65536)
  rw [hstep] at hend
  have hcount : ∀ f : Fld, f.reg = .PW_RATE → Fld.PW_RATE_PHASE_ERR.apart f = true →
      (s.lockWindows counts moves).fld f j.val = (u.windowCount j.val (counts.getD j.val 0)).fld f j.val := fun f hf hd => by
    rw [hend.fld_at (fun h => h rfl) (by omega) (by rw [hf]; rfl),
      herr.fld_keeps (by rw [hf]; rfl) (by rw [hf]; decide) (by omega), fld_setFld_apart _ _ hd (by omega) (by omega)]
  rw [hcount _ rfl rfl, hcount _ rfl rfl, ← hbefore Fld.PW_RATE_WINDOWS rfl]
  exact u.fields_windowCount j.val _ (by omega)

/-- An island that is not in LOCK keeps its voltage. -/
theorem vset_lockWindows (j : IslandId) (hm : s.fld Fld.PW_RCTL_MODE j.val ≠ 2) :
    (s.lockWindows counts moves).csrGet .PW_VSET j.val = s.csrGet .PW_VSET j.val := by
  obtain ⟨u, hu, hend⟩ := s.lockWindows_at counts moves j
  have hmode : u.fld Fld.PW_RCTL_MODE j.val ≠ 2 := by rwa [hu.fld_at (fun h => h rfl) (by omega) rfl]
  have hstep : lockStep counts moves u j.val = u := if_neg (by simp [hmode])
  rw [hstep] at hend
  rw [hend.csrGet_at (fun h => h rfl) (by omega) rfl, hu.csrGet_at (fun h => h rfl) (by omega) rfl]

end

end State
end Sys2Proof.Machine
end

section
/-!
SUPPORT. The lifting of the caps, the hardware trip and the end of a hold notice, and the statement on the passes (R35, R83 to
R85).
-/

set_option Elab.async false

namespace Sys2Proof.Machine

/-- Which caps hold an island. -/
def Island.caps (k : Island) : Bool × Bool × Bool := (k.boostFell, k.critCap, k.powerCap)

/-- The end of one cap of R84. -/
def Island.lift (crit : Bool) (k : Island) : Island :=
  if crit then { k with critCap := false } else { k with boostFell := false }

/-- Whether an island is under a cap of R84. -/
def Island.under (k : Island) (crit : Bool) : Bool := if crit then k.critCap else k.boostFell

theorem Island.under_lift (crit : Bool) (k : Island) : (Island.lift crit k).under crit = false := by cases crit <;> rfl

theorem Island.under_of_caps {k k' : Island} (h : k.caps = k'.caps) (crit : Bool) : k.under crit = k'.under crit := by
  obtain ⟨hboost, hcrit, -⟩ : k.boostFell = k'.boostFell ∧ k.critCap = k'.critCap ∧ k.powerCap = k'.powerCap := by
    simpa [Island.caps] using h
  simp [Island.under, hboost, hcrit]

namespace State

variable {s t : State} {A : Nat → Prop} {l : List Reg} {i j k n v : Nat} {a : HoldAct} {e : ErrRec} {g : Island → Island}

/-! ## A cap is lifted -/

theorem caps_modIsland (s : State) (k : Nat) (hg : ∀ x, (g x).caps = x.caps) (j : Nat) :
    ((s.modIsland k g).island j).caps = (s.island j).caps := by
  by_cases h : j = k
  · rw [h, island_modIsland_same, hg]
  · exact congrArg Island.caps (FMap.get_set_ne _ _ _ h)

theorem island_pfwRaise (s : State) (k j : Nat) : (s.pfwRaise k).island j = s.island j := by
  unfold pfwRaise
  split
  · exact s.island_setCode16 k _ j
  · rfl

theorem island_of_boardKept (h : s.boardKept t) (j : Nat) : t.island j = s.island j := by
  rw [State.island, State.island, isl_of_boardKept h]

/-- The loss of lock leaves the caps. -/
theorem caps_loseLock (s : State) (k j : Nat) : ((s.loseLock k).island j).caps = (s.island j).caps := by
  unfold loseLock
  split
  · extract_lets s₁ s₂
    have h₁ : s₁.island j = s.island j :=
      island_of_boardKept (s := (s.setFld Fld.PW_ISTATE_LOCKED k 0).setFld Fld.PW_ISTATE_LOCK_LOST k 1)
        (boardKept.refl _).logErr j
    have h₂ : (s₂.island j).caps = (s.island j).caps := by
      unfold s₂
      rw [island_pfwRaise]
      refine (s₁.caps_modIsland k ?_ j).trans (congrArg Island.caps h₁)
      exact fun _ => rfl
    split
    · rw [island_of_boardKept (boardKept.refl s₂).portsSync, h₂]
    · exact h₂
  · rfl

theorem caps_syncCapped (s : State) (k j : Nat) : ((s.syncCapped k).island j).caps = (s.island j).caps := by
  unfold syncCapped
  extract_lets c s₁
  split
  · exact s₁.caps_loseLock k j
  · rfl

/-- The lifting of a cap changes the island's caps by that alone. -/
theorem caps_uncapIsland (s : State) (j : Nat) (g : Island → Island) :
    ((s.uncapIsland j g).island j).caps = (g (s.island j)).caps := by
  unfold uncapIsland
  extract_lets was s₁
  have h₁ : s₁.island j = g (s.island j) := s.island_modIsland_same j g
  rw [caps_syncCapped]
  split
  · rw [island_setCode16, h₁]
  · rw [h₁]

/-- An island that no cap holds any more returns to what it asks for. -/
theorem uncapIsland_free (hwas : (s.island j).capped = true) (hfree : (g (s.island j)).capped = false) :
    s.uncapIsland j g = ((s.modIsland j g).setCode16 j (g (s.island j)).capFrom).setFld Fld.PW_ISTATE_CAPPED j 0 := by
  obtain ⟨⟨hboost, hcrit⟩, hpower⟩ :
      ((g (s.island j)).boostFell = false ∧ (g (s.island j)).critCap = false) ∧ (g (s.island j)).powerCap = false := by
    simpa [Island.capped] using hfree
  have htop : (g (s.island j)).capTop = (g (s.island j)).capFrom := by simp [Island.capTop, hboost, hcrit]
  unfold uncapIsland
  dsimp only
  rw [island_modIsland_same, if_pos (by simp [hwas, hpower]), htop, syncCapped]
  rw [island_setCode16, island_modIsland_same, hfree]
  rfl

/-! ## The lifting of a cap of R84 -/

theorem isleFrame_uncapIsland (s : State) (hk : k < 65536) :
    s.isleFrame (s.uncapIsland k g) (· = k) [.PW_VSET, .PW_ISTATE] :=
  isleFrame.uncapIsland (A := (· = k)) rfl hk (by simp) (by simp) (.refl s _ _)

/-- One island's part of the lifting (R84). -/
def liftStep (crit : Bool) (s : State) (j : Nat) : State :=
  if (s.island j).under crit then s.uncapIsland j (Island.lift crit) else s

/-- The lifting of a cap of R84 from every island. -/
def capLifted (s : State) (crit : Bool) : State := (List.range 23).foldl (liftStep crit) s

theorem isleFrame_liftStep (crit : Bool) (s : State) (hk : k < 65536) :
    s.isleFrame (liftStep crit s k) (· = k) [.PW_VSET, .PW_ISTATE] := (s.isleFrame_uncapIsland hk).ite (.refl s _ _)

/-- The threshold under which a cap of R84 may be lifted. -/
def liftField (crit : Bool) : Fld := if crit then Fld.PW_THERM_T_CRIT else Fld.PW_THERM_T_WARN

theorem exec_thermalCapLift (crit : Bool) : exec (.thermalCapLift crit) s = .next
    (if s.pwr.hottest ≤ 4 * (s.fld (liftField crit) 0 : Int) - 20 then s.capLifted crit else s) := by
  change execThermalCapLift crit s = _
  cases crit <;> rfl

theorem exec_thermalCapLift_lifts (crit : Bool) (h : s.pwr.hottest ≤ 4 * (s.fld (liftField crit) 0 : Int) - 20) :
    exec (.thermalCapLift crit) s = .next (s.capLifted crit) := by rw [exec_thermalCapLift, if_pos h]

theorem exec_thermalCapLift_stays (crit : Bool) (h : 4 * (s.fld (liftField crit) 0 : Int) - 20 < s.pwr.hottest) :
    exec (.thermalCapLift crit) s = .next s := by rw [exec_thermalCapLift, if_neg (Int.not_le.2 h)]

theorem mem_capLifted (s : State) (crit : Bool) : (s.capLifted crit).mem = s.mem := by
  have h : s.isleFrame (s.capLifted crit) (fun _ => True) [.PW_VSET, .PW_ISTATE] :=
    (isleFrame.refl s _ _).foldl fun t k hk h =>
      h.trans ((isleFrame_liftStep crit t (lt_of_mem_range hk (by decide))).mono (fun _ _ => trivial) fun _ h => h)
  exact h.mem

theorem capLifted_at (s : State) (crit : Bool) (hj : j < 23) : ∃ u, s.isleFrame u (· ≠ j) [.PW_VSET, .PW_ISTATE] ∧
    (liftStep crit u j).isleFrame (s.capLifted crit) (· ≠ j) [.PW_VSET, .PW_ISTATE] :=
  isleFrame.foldl_at List.nodup_range (List.mem_range.2 hj)
    (fun t _ hk => isleFrame_liftStep crit t (lt_of_mem_range hk (by decide))) s

theorem under_liftStep (crit : Bool) (s : State) (j : Nat) : ((liftStep crit s j).island j).under crit = false := by
  unfold liftStep
  split
  · rw [Island.under_of_caps (s.caps_uncapIsland j _), Island.under_lift]
  next h => simpa using h

/-- No island is left under the cap. -/
theorem under_capLifted (s : State) (crit : Bool) (hj : j < 23) : ((s.capLifted crit).island j).under crit = false := by
  obtain ⟨u, -, hend⟩ := s.capLifted_at crit hj
  rw [hend.island j fun h => h rfl]
  exact under_liftStep crit u j

/-- An island under the critical cap alone returns to what it asks for. -/
theorem capLifted_free (hj : j < 23) (hcrit : (s.island j).critCap = true) (hboost : (s.island j).boostFell = false)
    (hpower : (s.island j).powerCap = false) (hf : s.pfwFloor j = false) :
    (s.capLifted true).flag Fld.PW_ISTATE_CAPPED j = false ∧
    (s.capLifted true).code16 j = min (max (s.island j).capFrom 1760) 3040 := by
  obtain ⟨u, hu, hend⟩ := s.capLifted_at true hj
  have hisl : u.island j = s.island j := hu.island j fun h => h rfl
  have hfu : u.pfwFloor j = false := (hu.pfwFloor_at (fun h => h rfl) (by omega)).trans hf
  have hfm : (u.modIsland j (Island.lift true)).codeFloor j = 1760 := by
    unfold codeFloor
    rw [pfwFloor_modIsland rfl, hfu]
    rfl
  have hstep : liftStep true u j =
      ((u.modIsland j (Island.lift true)).setCode16 j (s.island j).capFrom).setFld Fld.PW_ISTATE_CAPPED j 0 := by
    unfold liftStep
    rw [if_pos (by rw [hisl]; exact hcrit), uncapIsland_free, hisl]
    · rfl
    · rw [hisl]
      simp [Island.capped, hcrit]
    · rw [hisl]
      simp [Island.capped, Island.lift, hboost, hpower]
  rw [hstep] at hend
  rw [hend.flag_at (fun h => h rfl) (by omega) rfl, hend.code16_at (fun h => h rfl) (by omega),
    code16_setFld _ (by decide) (by omega), code16_setCode16, hfm, flag, fld_setFld_same _ _ _ _ (by decide)]
  exact ⟨rfl, rfl⟩

/-! ## The power cap and the hardware trip -/

theorem exec_powerCapLift (he : s.pwr.capEpisode = true) (hp : s.pwr.p10ms < 3400) : exec .powerCapLift s =
    .next { s with pwr := { s.pwr with capEpisode := false, capLifting := true } } := by
  change execPowerCapLift s = _
  simp [execPowerCapLift, he, hp]

/-- The hardware's trip, before the warning (R35, R84). -/
def hardTripped (s : State) : State :=
  { s with pwr := { s.pwr with tripLatch := true, thermtripLow := s.pwr.armed, switchClosed := false } }

theorem exec_hardwareTrip (hs : s.pwr.standby = true)
    (hm : s.pwr.mode = .run ∨ s.pwr.mode = .standby ∨ s.pwr.mode = .start) :
    exec .hardwareTrip s = .next (s.hardTripped.warn 3) := by
  change execHardwareTrip s = _
  unfold execHardwareTrip
  rw [if_pos (by simpa [hs, or_assoc] using hm)]
  rfl

/-! ## The record of an override -/

theorem csrGet_csrSet_er (s : State) {r r' : Reg} {w : Word} (h : r' ≠ r) (hi : i < 65536) (hj : j < 65536) :
    (s.csrSet r i w).csrGet r' j = s.csrGet r' j := s.csrGet_csrSet_ne w hi hj (.inl h)

theorem status_recFill (s : State) (e : ErrRec) (hi : recInst e.unit n < 5000) :
    (s.recFill e n).csrGet .ER_STATUS (recInst e.unit n) = e.status := by
  unfold recFill
  extract_lets i s₁ s₂ s₃ s₄
  have h₄ : s₄.csrGet .ER_STATUS i = e.status := by
    unfold s₄ s₃ s₂ s₁
    rw [csrGet_csrSet_er _ (by decide) (by omega) (by omega), csrGet_csrSet_er _ (by decide) (by omega) (by omega),
      csrGet_csrSet_er _ (by decide) (by omega) (by omega), csrGet_csrSet_same]
  refine List.foldlRecOn (motive := fun t : State => t.csrGet .ER_STATUS i = e.status) _ _ h₄ fun t ht k hk => ?_
  have := List.mem_range.1 hk
  exact (csrGet_csrSet_er t (by decide) (by omega) (by omega)).trans ht

theorem csr_errChecks (s : State) (L : List Nat) (d : BitVec 16) (w : Word) :
    (L.foldl (fun s c => s.errCheck c d w) s).csr = s.csr :=
  List.foldlRecOn (motive := fun t : State => t.csr = s.csr) _ _ rfl fun t ht c _ => by
    unfold errCheck
    split
    · exact ht
    · exact ht

theorem csr_logErr_recoverable (s : State) (hsev : e.sev = 2) : (s.logErr e).csr = (s.recStore e).1.csr := by
  unfold logErr
  dsimp only
  rw [if_pos hsev, csr_errChecks]
  rfl

/-- An uncorrected error takes the first of its unit's records that is free. -/
theorem logErr_free (s : State) (hsev : e.sev = 2) (hu : e.unit < 1000) (hfree : ∃ r < 4, s.recValid e.unit r = false) :
    ∃ r < 4, (s.logErr e).csrGet .ER_STATUS (recInst e.unit r) = e.status := by
  have hmerge : [0, 1, 2, 3].find? (s.recMerges e) = none := List.find?_eq_none.2 fun r _ => by simp [recMerges, hsev]
  have hsome : ([0, 1, 2, 3].find? (fun r => !s.recValid e.unit r)).isSome := by
    obtain ⟨r, hr, hv⟩ := hfree
    refine List.find?_isSome.2 ⟨r, ?_, by simp [hv]⟩
    simp only [List.mem_cons, List.not_mem_nil, or_false]
    omega
  obtain ⟨r, hr⟩ := Option.isSome_iff_exists.1 hsome
  have hr4 : r < 4 := by
    have := List.mem_of_find?_eq_some hr
    simp only [List.mem_cons, List.not_mem_nil, or_false] at this
    omega
  have hplace : s.recPlace e = .place r := by
    unfold recPlace
    rw [hmerge, hr]
  have hinst : recInst e.unit r < 5000 := by
    unfold recInst
    omega
  refine ⟨r, hr4, ?_⟩
  have hcsr : (s.logErr e).csr = ((s.recFill e r).recSync e.unit).csr := by
    rw [csr_logErr_recoverable s hsev, recStore, hplace]
  rw [csrGet, hcsr]
  exact (csrGet_setFld_ne _ _ (by omega) (by omega) (.inl (by decide))).trans (s.status_recFill e hinst)

/-! ## The end of a hold notice -/

/-- The record of an override of the holds (R83, R601). -/
def holdRecord (s : State) : ErrRec :=
  { unit := 250, sev := 2, type := 0x32,
    data := [s.fld Fld.PW_HOLD_ISL_ISL 0 + s.fld Fld.PW_HOLD_ISL_STACK 0 * 2 ^ 25, s.fld Fld.PW_HOLD_GR_BANK 0] }

theorem status_holdRecord (s : State) : s.holdRecord.status = ({ unit := 250, sev := 2, type := 0x32 } : ErrRec).status := rfl

theorem fields_status_hold : bitsOf ({ unit := 250, sev := 2, type := 0x32 } : ErrRec).status 63 63 = 1 ∧
    bitsOf ({ unit := 250, sev := 2, type := 0x32 } : ErrRec).status 57 56 = 2 ∧
    bitsOf ({ unit := 250, sev := 2, type := 0x32 } : ErrRec).status 55 48 = 0x32 := by decide

theorem exec_holdNoticeExpiry (h : s.pwr.notice = some a) :
    exec .holdNoticeExpiry s = .next ((s.logErr s.holdRecord).holdActs a) := by
  change execHoldNoticeExpiry s = _
  unfold execHoldNoticeExpiry
  rw [h]
  rfl

theorem pwr_logErr (s : State) (e : ErrRec) : (s.logErr e).pwr = s.pwr := ((boardKept.refl s).logErr).pwr
theorem mem_logErr (s : State) (e : ErrRec) : (s.logErr e).mem = s.mem := (memKept.refl s).logErr

theorem csrGet_unnoticed (s : State) (r : Reg) (i : Nat) : s.unnoticed.csrGet r i = s.csrGet r i := rfl
theorem pwr_unnoticed (s : State) : s.unnoticed.pwr = { s.pwr with notice := none } := rfl
theorem mem_unnoticed (s : State) : s.unnoticed.mem = s.mem := rfl

/-- The override is recorded. -/
theorem recorded_override (s : State) (hfree : ∃ r < 4, s.recValid 250 r = false) :
    ∃ r < 4, (s.logErr s.holdRecord).unnoticed.recValid 250 r = true ∧
      (s.logErr s.holdRecord).unnoticed.fld Fld.ER_STATUS_SEV (4 * 250 + r) = 2 ∧
      (s.logErr s.holdRecord).unnoticed.fld Fld.ER_STATUS_TYPE (4 * 250 + r) = 0x32 := by
  have hunit : s.holdRecord.unit = 250 := rfl
  obtain ⟨r, hr, hstatus⟩ := s.logErr_free (e := s.holdRecord) rfl (by omega) hfree
  rw [status_holdRecord, ← csrGet_unnoticed] at hstatus
  obtain ⟨hvalid, hsev, htype⟩ := fields_status_hold
  refine ⟨r, hr, ?_, (congrArg (bitsOf · 57 56) hstatus).trans hsev, (congrArg (bitsOf · 55 48) hstatus).trans htype⟩
  exact congrArg (· != 0) ((congrArg (bitsOf · 63 63) hstatus).trans hvalid)

/-- What an emergency announced is done. -/
theorem holdActs_stands (h : s.pwr.mode ≠ .tripped) (h' : s.pwr.mode ≠ .off) :
    s.holdActs .emergency = s.unnoticed.enterStandby := by
  rw [holdActs_emergency, if_neg (by simp [h, h'])]

theorem holdActs_tripped (h : s.pwr.mode = .tripped) : s.holdActs .emergency = s.unnoticed := by
  rw [holdActs_emergency, if_pos (by simp [h])]

end State
end Sys2Proof.Machine

open Sys2Proof Sys2Proof.Machine

/-- Settles O7: the readings of a pass and the frame of what follows them (`State.passKept`, `State.critStands`); for the LOCK
window, how closely the counter reaches a boundary (`State.bellGain_cyclesTo`). -/
theorem islandPasses : Obligations.IslandPasses := by
  unfold Obligations.IslandPasses
  intro s counts tj moves vin p1ms p10ms j
  refine ⟨fun hc h23 => ⟨?_, ?_⟩, fun hlift => ?_, fun hlift => ?_, fun hhot => ?_, fun he hp => ?_, fun hs hm => ?_,
    fun hn hfree => ?_, fun hn => ⟨fun ht ho => ?_, fun ht => ?_⟩⟩
  · rw [State.does_iff_of_next (State.exec_rateWindowEnd hc h23)]
    set u := s.toRateEnd.rateRead counts tj vin p1ms p10ms
    have hkept : u.passKept (u.rateEnd moves) := u.passKept_rateEnd moves
    have hpwr := s.pwr_atRateEnd counts tj vin p1ms p10ms
    have hmode : u.fld Fld.PW_RCTL_MODE j.val = s.fld Fld.PW_RCTL_MODE j.val :=
      s.fld_atRateEnd counts tj vin p1ms p10ms rfl (by decide) (by omega)
    have hlimit : u.fld Fld.PW_THERM_T_CRIT 0 = s.fld Fld.PW_THERM_T_CRIT 0 :=
      s.fld_atRateEnd counts tj vin p1ms p10ms rfl (by decide) (by decide)
    refine ⟨?_, ?_, ?_, ?_, fun ho hm => ?_, fun hcyc => ?_, fun hm => ?_, fun hm hcrit hj hlock => ?_⟩
    · exact (hkept.fields _ _ rfl (by decide) (by decide)).trans (State.vin_rateRead _ _ _ _ _ _)
    · exact hkept.p1ms.trans (congrArg Power.p1ms hpwr)
    · exact hkept.p10ms.trans (congrArg Power.p10ms hpwr)
    · exact (hkept.fields _ _ rfl (by decide) (by omega)).trans (State.temp_rateRead _ _ _ _ _ _ j)
    · rw [hkept.fields _ _ rfl (by decide) (by omega), hkept.fields _ _ rfl (by decide) (by omega)]
      exact s.rate_atRateEnd counts tj vin p1ms p10ms j ho hm
    · exact (congrArg Bell.cyc (hkept.bell.trans (State.bell_rateRead _ _ _ _ _ _))).trans (State.cyc_toRateEnd hcyc)
    · have hum : u.pwr.mode = .tripped := (congrArg Power.mode hpwr).trans hm
      rw [State.rateEnd_tripped hum]
      exact hum
    · have hum : u.pwr.mode ≠ .tripped := fun h => hm ((congrArg Power.mode hpwr).symm.trans h)
      rw [State.rateEnd_passed hum]
      obtain ⟨hcode, hcapped, -, -⟩ := State.critStands_ratePassed (s := u) (moves := moves)
        (by rw [hlimit, hpwr]; exact hcrit) hj (fun h => hlock (hmode.symm.trans h))
      exact ⟨hcode, hcapped⟩
  · rw [State.does_iff_of_next (State.exec_lockWindowEnd hc h23)]
    refine ⟨fun hlo hhi => ?_, fun ho hm => ?_, fun hm => ?_, ?_⟩
    · obtain ⟨k, hk, hfrac⟩ := State.frac_lockCycles (s := s) hlo hhi
      refine ⟨k, hk, ?_⟩
      rwa [State.bell80, State.bell_lockWindows]
    · have hw := s.fld_advance s.lockCycles (f := Fld.PW_RATE_WINDOWS) (i := j.val) rfl (by omega)
      rw [← hw]
      exact State.rate_lockWindows _ counts moves j ((s.islOpen_advance _ (by omega)).trans ho)
        ((s.fld_advance _ rfl (by omega)).trans hm)
    · rw [State.vset_lockWindows _ counts moves j (by rwa [s.fld_advance _ rfl (by omega)])]
      exact s.csrGet_advance _ rfl (by omega)
    · rw [State.mem_lockWindows, (s.beside_advance _).2.2]
  · rw [State.does_iff_of_next (State.exec_thermalCapLift_lifts true hlift)]
    exact ⟨fun k hk => s.under_capLifted true hk, fun hj hcrit hboost hpower hf =>
      State.capLifted_free hj hcrit hboost hpower hf, s.mem_capLifted true⟩
  · rw [State.does_iff_of_next (State.exec_thermalCapLift_lifts false hlift)]
    exact ⟨fun k hk => s.under_capLifted false hk, s.mem_capLifted false⟩
  · rw [State.does_iff_of_next (State.exec_thermalCapLift_stays true hhot)]
  · rw [State.does_iff_of_next (State.exec_powerCapLift he hp)]
  · rw [State.does_iff_of_next (State.exec_hardwareTrip hs hm)]
    obtain ⟨n, hpwr⟩ := s.hardTripped.pwr_warn 3
    rw [hpwr]
    exact ⟨rfl, rfl, rfl, rfl, s.hardTripped.pfw_warn 3, s.hardTripped.lastCause_warn (by decide), s.hardTripped.pfCnt_warn 3⟩
  · rw [State.does_iff_of_next (State.exec_holdNoticeExpiry hn), State.holdActs_powerFail]
    exact ⟨rfl, (State.mem_unnoticed _).trans (s.mem_logErr _), s.recorded_override hfree⟩
  · have hmode : (s.logErr s.holdRecord).pwr.mode = s.pwr.mode := congrArg Power.mode (s.pwr_logErr _)
    rw [State.does_iff_of_next (State.exec_holdNoticeExpiry hn), State.holdActs_stands (hmode ▸ ht) (hmode ▸ ho),
      State.pwr_enterStandby]
    exact ⟨rfl, rfl, fun k hk => State.islState_enterStandby _ hk⟩
  · have hmode : (s.logErr s.holdRecord).pwr.mode = s.pwr.mode := congrArg Power.mode (s.pwr_logErr _)
    rw [State.does_iff_of_next (State.exec_holdNoticeExpiry hn), State.holdActs_tripped (hmode.trans ht), State.pwr_unnoticed,
      State.pwr_logErr]
end

section
/-!
SUPPORT. The time block: frames, what its port makes of a write (R9, R105), and what each operation on its registers sets and
leaves (R92, R97, R98, R104, R106).
-/

set_option Elab.async false

namespace Sys2Proof.Machine

/-! ## Frames -/

namespace State.onlyRegs

variable {s t u : State} {l : List (Reg × Nat)} {f : Fld} {v : Nat}

/-- A field of a register of which there is one. -/
theorem setTbFld (h : s.onlyRegs t l) (hm : (f.reg, 0) ∈ l := by decide) : s.onlyRegs (t.setFld f 0 v) l :=
  h.csrSet hm (by decide)

theorem ite {P : Prop} [Decidable P] (ht : s.onlyRegs t l) (hu : s.onlyRegs u l) : s.onlyRegs (if P then t else u) l := by
  split <;> assumption

end State.onlyRegs

namespace State.onlyBell

variable {s t u : State} {l l' : List (Reg × Nat)} {f : Fld} {v : Nat}

theorem of_onlyRegs (h : s.onlyRegs t l) : s.onlyBell t l := by
  obtain ⟨ht, hr⟩ := h
  exact ⟨by rw [ht], hr⟩

theorem refl (s : State) (l : List (Reg × Nat)) : s.onlyBell s l := of_onlyRegs (.refl s l)

theorem mono (h : s.onlyBell t l) (hl : l ⊆ l') : s.onlyBell t l' :=
  ⟨h.1, fun r i hi hm => h.2 r i hi fun hc => hm (hl hc)⟩

theorem trans (h : s.onlyBell t l) (h' : t.onlyBell u l) : s.onlyBell u l := by
  obtain ⟨ht, hr⟩ := h
  obtain ⟨hu, hr'⟩ := h'
  exact ⟨by rw [hu, ht], fun r i hi hm => (hr' r i hi hm).trans (hr r i hi hm)⟩

theorem setTbFld (h : s.onlyBell t l) (hm : (f.reg, 0) ∈ l := by decide) : s.onlyBell (t.setFld f 0 v) l :=
  h.trans (.of_onlyRegs ((onlyRegs.refl t l).setTbFld hm))

theorem withBell (h : s.onlyBell t l) {b : Bell} : s.onlyBell (t.withBell b) l := h.trans ⟨rfl, fun _ _ _ _ => rfl⟩

theorem ite {P : Prop} [Decidable P] (ht : s.onlyBell t l) (hu : s.onlyBell u l) : s.onlyBell (if P then t else u) l := by
  split <;> assumption

theorem setSlew (h : s.onlyBell t l) {rem : Int} (hslew : (.TB_SLEW, 0) ∈ l := by decide)
    (hstat : (.TB_STAT, 0) ∈ l := by decide) : s.onlyBell (t.setSlew rem) l :=
  (h.withBell.setTbFld (f := Fld.TB_SLEW_AMOUNT) hslew).setTbFld hstat

end State.onlyBell

namespace State

variable {s t : State} {r : Reg} {f : Fld} {i v : Nat} {src : Src} {w : Word}

theorem csrGet_of_onlyBell {l : List (Reg × Nat)} (h : s.onlyBell t l) (hm : (r, i) ∉ l := by decide)
    (hi : i < 65536 := by decide) : t.csrGet r i = s.csrGet r i := h.2 r i hi hm

/-! ## Fields -/

/-- A field of the time block keeps its value when one apart from it is set. -/
theorem fld_setTbFld (s : State) {f g : Fld} (v : Nat) (ha : f.apart g = true) : (s.setFld f 0 v).fld g 0 = s.fld g 0 :=
  s.fld_setFld_apart v ha (by decide) (by decide)

/-- A field takes the bits that a write carries for it. -/
theorem fld_setFld_of (s : State) (f : Fld) (i : Nat) (w : Word) (hf : f.hi < 64 := by decide) :
    (s.setFld f i (f.of w)).fld f i = f.of w :=
  (s.fld_setFld_same f i _ hf).trans (Nat.mod_eq_of_lt (bitsOf_lt w f.hi f.lo))

/-- A field takes a number that fits it. -/
theorem fld_setFld_lt (s : State) (f : Fld) (i : Nat) (hv : v < 2 ^ (f.hi + 1 - f.lo)) (hf : f.hi < 64 := by decide) :
    (s.setFld f i v).fld f i = v := (s.fld_setFld_same f i v hf).trans (Nat.mod_eq_of_lt hv)

theorem fld_incField_same (s : State) (f : Fld) (i : Nat) (hf : f.hi < 64 := by decide) :
    (s.incField f i).fld f i = (s.fld f i + 1) % 2 ^ (f.hi + 1 - f.lo) := s.fld_setFld_same f i _ hf

theorem flag_of_fld {b : Bool} (h : s.fld f i = bit b) : s.flag f i = b := by
  unfold State.flag
  rw [h]
  cases b <;> rfl

theorem fldKept.flag {g : Fld} (h : s.fldKept t g i) : t.flag g i = s.flag g i := congrArg (· != 0) h

theorem fldKept.setTbFld {g : Fld} (h : s.fldKept t g 0) (ha : f.apart g = true := by decide) :
    s.fldKept (t.setFld f 0 v) g 0 := h.setFld ha (by decide) (by decide)

theorem fldKept.withBell {g : Fld} (h : s.fldKept t g i) {b : Bell} : s.fldKept (t.withBell b) g i := h.update

/-! ## The port -/

/-- A write to a register of the time block as the port has taken it (R10). -/
def tbSeen (s : State) : State := (s.gateFall .TB_XGATE 0).reply 0

/-- The same of a register that the Reeve may write unseen (R105). -/
def tbTaken (s : State) (src : Src) : State := if src = .reeve then s.reply 0 else s.tbSeen

theorem onlyRegs_tbSeen (s : State) : s.onlyRegs s.tbSeen [(.TB_XGATE, 0)] :=
  (onlyRegs_gateFall (by decide) (by decide)).reply

theorem onlyRegs_tbTaken (s : State) (src : Src) : s.onlyRegs (s.tbTaken src) [(.TB_XGATE, 0)] :=
  (onlyRegs.refl s _).reply.ite s.onlyRegs_tbSeen

theorem bell_of_onlyRegs {l : List (Reg × Nat)} (h : s.onlyRegs t l) : t.bell = s.bell := (congrArg State.bell h.1 :)

@[simp] theorem bell_tbSeen (s : State) : s.tbSeen.bell = s.bell := bell_of_onlyRegs s.onlyRegs_tbSeen

@[simp] theorem bell_tbTaken (s : State) (src : Src) : (s.tbTaken src).bell = s.bell :=
  bell_of_onlyRegs (s.onlyRegs_tbTaken src)

theorem fld_tbSeen (s : State) (f : Fld) (hr : f.reg ≠ .TB_XGATE := by decide) (hi : i < 65536 := by decide) :
    s.tbSeen.fld f i = s.fld f i := fld_of_onlyRegs s.onlyRegs_tbSeen (by simp [hr]) hi

theorem fld_tbTaken (s : State) (src : Src) (f : Fld) (hr : f.reg ≠ .TB_XGATE := by decide) (hi : i < 65536 := by decide) :
    (s.tbTaken src).fld f i = s.fld f i := fld_of_onlyRegs (s.onlyRegs_tbTaken src) (by simp [hr]) hi

section
variable {e : State → State} (hg : r.gate i = some (.TB_XGATE, 0)) (hr : r.island = 23) (hl : s.srcLive src = true)
  (ho : s.islOpen 23 = true)
include hg hr hl ho

theorem csrPort_tb : s.csrPort src r i e = e s.tbSeen := by
  have hs : s.gateSees r i = s.gateFall .TB_XGATE 0 := by simp [gateSees, hg]
  rw [s.csrPort_of_live src r i e hl (by rw [unitUp, hr, ho]), hs]
  rfl

theorem csrPortReeve_tb : s.csrPortReeve src r i e = e (s.tbTaken src) := by
  have hu : s.unitUp r = true := by rw [unitUp, hr, ho]
  have hs : s.gateSees r i = s.gateFall .TB_XGATE 0 := by simp [gateSees, hg]
  simp only [csrPortReeve, hl, hu, hs, tbTaken, Bool.not_true, Bool.false_eq_true, if_false]
  split <;> rfl

end

/-- An expert write is performed for the Reeve, and for another source under an OPEN gate (R105). -/
theorem tbPerforms_tbTaken (s : State) (src : Src) :
    (s.tbTaken src).tbPerforms src = true ↔ src = .reeve ∨ s.gateState .TB_ADDEND 0 = 2 := by
  have hg : ∀ u : State, u.gateState .TB_ADDEND 0 = bitsOf (u.csrGet .TB_XGATE 0) 17 16 := fun _ => rfl
  have hf : bitsOf (s.tbSeen.csrGet .TB_XGATE 0) 17 16 = _ := s.gateState_gateFall .TB_XGATE 0
  unfold tbPerforms gateOpen tbTaken
  simp only [Bool.or_eq_true, beq_iff_eq]
  refine or_congr_right' fun hn => ?_
  rw [if_neg hn, hg, hg, hf]
  split <;> omega

/-- A write that the gate refuses sets DENIED. -/
theorem gateDeny_tb (s : State) : s.gateDeny .TB_ADDEND 0 = s.setFld Fld.TB_XGATE_DENIED 0 1 := rfl

/-! ## The expert write's mark -/

theorem onlyRegs.tbXovr {l : List (Reg × Nat)} (h : s.onlyRegs t l) (hm : (.TB_STAT, 0) ∈ l := by decide) :
    s.onlyRegs (t.tbXovr src) l := h.ite (h.setTbFld (f := Fld.TB_STAT_XOVR) hm)

theorem fld_tbXovr (s : State) (src : Src) (hf : Fld.TB_STAT_XOVR.apart f = true) :
    (s.tbXovr src).fld f 0 = s.fld f 0 :=
  (fldKept.refl s f 0).ite ((fldKept.refl s f 0).setTbFld hf)

theorem xovr_tbXovr (s : State) (h : src ≠ .reeve) : (s.tbXovr src).flag Fld.TB_STAT_XOVR 0 = true := by
  unfold tbXovr
  rw [if_neg h]
  exact flag_of_fld (b := true) (fld_setFld_lt _ _ _ (by decide))

@[simp] theorem bell_tbXovr (s : State) (src : Src) : (s.tbXovr src).bell = s.bell := by
  unfold tbXovr
  split <;> rfl

/-! ## The slew -/

@[simp] theorem bell_setSlew (s : State) (rem : Int) : (s.setSlew rem).bell = { s.bell with slewRem := rem } := rfl

theorem fldKept.setSlew {g : Fld} (h : s.fldKept t g 0) {rem : Int} (ha : Fld.TB_SLEW_AMOUNT.apart g = true := by decide)
    (hb : Fld.TB_STAT_SLEW_BUSY.apart g = true := by decide) : s.fldKept (t.setSlew rem) g 0 :=
  (h.withBell.setTbFld ha).setTbFld hb

theorem amount_setSlew (s : State) (rem : Int) :
    (s.setSlew rem).fld Fld.TB_SLEW_AMOUNT 0 = encSigned 32 (rem.tdiv (2 ^ 32)) := by
  unfold setSlew
  dsimp only
  rw [fld_setTbFld _ _ rfl]
  refine fld_setFld_lt _ _ _ ?_
  simp only [encSigned, Fld.TB_SLEW_AMOUNT]
  omega

theorem busy_setSlew (s : State) (rem : Int) : (s.setSlew rem).flag Fld.TB_STAT_SLEW_BUSY 0 = (rem != 0) :=
  flag_of_fld (fld_setFld_lt _ _ _ (by unfold bit; split <;> decide))

/-- The encoding of a signed reading is the number read. -/
theorem encSigned_signedOf (h : v < 2 ^ 32) : encSigned 32 (signedOf 32 v) = v := by
  unfold encSigned signedOf
  split <;> omega

theorem signedOf_eq_zero (h : v < 2 ^ 32) : signedOf 32 v = 0 ↔ v = 0 := by
  unfold signedOf
  split <;> omega

/-! ## Holdover -/

/-- Whether the time base is in holdover (R92). -/
def heldOver (s : State) : Bool := s.fld Fld.TB_CTL_DISC 0 == 1 && s.flag Fld.TB_STAT_PPS_LOST 0

theorem syncHoldover_eq (s : State) : s.syncHoldover =
    if s.heldOver && !s.flag Fld.TB_STAT_XOVR 0 then
      (s.setFld Fld.TB_STAT_HOLDOVER 0 (bit s.heldOver)).setFld Fld.TB_ADDEND_ADDEND 0 s.meanAddend
    else s.setFld Fld.TB_STAT_HOLDOVER 0 (bit s.heldOver) := rfl

theorem fldKept.syncHoldover {g : Fld} (h : s.fldKept t g 0) (hh : Fld.TB_STAT_HOLDOVER.apart g = true := by decide)
    (ha : Fld.TB_ADDEND_ADDEND.apart g = true := by decide) : s.fldKept t.syncHoldover g 0 := by
  have h : s.fldKept (t.setFld Fld.TB_STAT_HOLDOVER 0 (bit t.heldOver)) g 0 := h.setTbFld hh
  exact (h.setTbFld ha).ite h

theorem holdover_syncHoldover (s : State) : s.syncHoldover.flag Fld.TB_STAT_HOLDOVER 0 = s.heldOver := by
  have h : (s.setFld Fld.TB_STAT_HOLDOVER 0 (bit s.heldOver)).fld Fld.TB_STAT_HOLDOVER 0 = bit s.heldOver :=
    fld_setFld_lt _ _ _ (by unfold bit; split <;> decide)
  rw [syncHoldover_eq]
  split
  · exact flag_of_fld ((fld_setTbFld _ _ rfl).trans h)
  · exact flag_of_fld h

theorem bell_syncHoldover (s : State) : s.syncHoldover.bell = s.bell := by
  rw [syncHoldover_eq]
  split <;> rfl

theorem onlyRegs.syncHoldover {l : List (Reg × Nat)} (h : s.onlyRegs t l) (hs : (.TB_STAT, 0) ∈ l := by decide)
    (ha : (.TB_ADDEND, 0) ∈ l := by decide) : s.onlyRegs t.syncHoldover l := by
  have h := h.setTbFld (f := Fld.TB_STAT_HOLDOVER) (v := bit t.heldOver) hs
  exact (h.setTbFld (f := Fld.TB_ADDEND_ADDEND) ha).ite h

/-- A holdover without an override holds TB_ADDEND at the mean (R106). -/
theorem addend_syncHoldover (s : State) : s.syncHoldover.csrGet .TB_ADDEND 0 =
    if s.heldOver = true ∧ s.flag Fld.TB_STAT_XOVR 0 = false then
      withBits (s.csrGet .TB_ADDEND 0) Fld.TB_ADDEND_ADDEND.hi Fld.TB_ADDEND_ADDEND.lo s.meanAddend
    else s.csrGet .TB_ADDEND 0 := by
  have h : ∀ n, (s.setFld Fld.TB_STAT_HOLDOVER 0 n).csrGet .TB_ADDEND 0 = s.csrGet .TB_ADDEND 0 :=
    fun n => csrGet_setFld_ne _ _ (by decide) (by decide) (.inl (by decide))
  simp only [syncHoldover_eq, Bool.and_eq_true, Bool.not_eq_true']
  split
  · rw [← h]
    exact csrGet_setFld_same _ Fld.TB_ADDEND_ADDEND _ _
  · exact h _

/-- The mean depends on the accepted seconds and on TB_ADDEND alone. -/
theorem meanAddend_congr (hb : t.bell.addends = s.bell.addends)
    (ha : t.fld Fld.TB_ADDEND_ADDEND 0 = s.fld Fld.TB_ADDEND_ADDEND 0) : t.meanAddend = s.meanAddend := by
  unfold meanAddend addend
  rw [hb, ha]

end State
end Sys2Proof.Machine
end

section
/-!
SUPPORT. The writes to the time block's registers, as they stand once the port has taken them (R97 to R100, R104, R105).
-/

set_option Elab.async false

namespace Sys2Proof.Machine
namespace State

variable {s t : State} {f : Fld} {n : Nat} {src : Src} {v : Word}

/-! ## TB_SECSET -/

theorem exec_secsetWrite (hl : s.srcLive src = true) (ho : s.islOpen 23 = true) :
    exec (.secsetWrite src v) s = .next (s.tbSeen.secsetWrite v) := by
  change execSecsetWrite src v s = _
  rw [execSecsetWrite, csrPort_tb rfl rfl hl ho]

theorem fields_secsetWrite (s : State) (v : Word) : (s.secsetWrite v).fld Fld.TB_SECSET_SEC 0 = Fld.TB_SECSET_SEC.of v ∧
    (s.secsetWrite v).fld Fld.TB_SECSET_PENDING 0 = 1 := by
  unfold secsetWrite
  refine ⟨?_, fld_setFld_lt _ _ _ (by decide)⟩
  rw [fld_setTbFld _ _ rfl]
  exact fld_setFld_of _ _ _ v

/-! ## TB_CTL -/

/-- PPS_IN's part of a write to TB_CTL: its enable and polarity, and the first edge to come (R101, R104). -/
def ctlPps (s : State) (v : Word) : State :=
  let t := (s.setFld Fld.TB_CTL_PPSIN_EN 0 (Fld.TB_CTL_PPSIN_EN.of v)).setFld Fld.TB_CTL_PPS_POL 0 (Fld.TB_CTL_PPS_POL.of v)
  if Fld.TB_CTL_PPSIN_EN.of v = 1 ∧ s.fld Fld.TB_CTL_PPSIN_EN 0 = 0 then t.withBell { t.bell with ppsSeen := false } else t

/-- The reference's part (R93). -/
def ctlRef (s : State) (n : Nat) : State :=
  if n ≤ 1 then (s.setFld Fld.TB_CTL_REFSEL 0 n).withBell { s.bell with onRefclk := n == 1 } else s

/-- The discipline's part, which ends an override (R104). -/
def ctlDisc (s : State) (n : Nat) : State :=
  if n ≤ 1 then (s.setFld Fld.TB_CTL_DISC 0 n).setFld Fld.TB_STAT_XOVR 0 0 else s

/-- The fields of TB_CTL as written, before HOLDOVER follows them. -/
def ctlSet (s : State) (v : Word) : State := ((s.ctlPps v).ctlRef (Fld.TB_CTL_REFSEL.of v)).ctlDisc (Fld.TB_CTL_DISC.of v)

theorem tbCtlWrite_eq (s : State) (v : Word) : s.tbCtlWrite v = (s.ctlSet v).syncHoldover := rfl

theorem fldKept.ctlPps (h : s.fldKept t f 0) (he : Fld.TB_CTL_PPSIN_EN.apart f = true := by decide)
    (hp : Fld.TB_CTL_PPS_POL.apart f = true := by decide) : s.fldKept (t.ctlPps v) f 0 := by
  have h := (h.setTbFld (v := Fld.TB_CTL_PPSIN_EN.of v) he).setTbFld (v := Fld.TB_CTL_PPS_POL.of v) hp
  exact h.withBell.ite h

theorem fldKept.ctlRef (h : s.fldKept t f 0) (hr : Fld.TB_CTL_REFSEL.apart f = true := by decide) :
    s.fldKept (t.ctlRef n) f 0 := (h.setTbFld hr).withBell.ite h

theorem fldKept.ctlDisc (h : s.fldKept t f 0) (hd : Fld.TB_CTL_DISC.apart f = true := by decide)
    (hx : Fld.TB_STAT_XOVR.apart f = true := by decide) : s.fldKept (t.ctlDisc n) f 0 :=
  ((h.setTbFld hd).setTbFld hx).ite h

theorem csrGet_ctlPps (s : State) (v : Word) (r : Reg) (i : Nat) : (s.ctlPps v).csrGet r i =
    ((s.setFld Fld.TB_CTL_PPSIN_EN 0 (Fld.TB_CTL_PPSIN_EN.of v)).setFld Fld.TB_CTL_PPS_POL 0
      (Fld.TB_CTL_PPS_POL.of v)).csrGet r i := by
  unfold ctlPps
  dsimp only
  split <;> rfl

theorem fields_ctlPps (s : State) (v : Word) : (s.ctlPps v).fld Fld.TB_CTL_PPSIN_EN 0 = Fld.TB_CTL_PPSIN_EN.of v ∧
    (s.ctlPps v).fld Fld.TB_CTL_PPS_POL 0 = Fld.TB_CTL_PPS_POL.of v := by
  rw [fld, fld, csrGet_ctlPps, csrGet_ctlPps, ← fld, ← fld]
  refine ⟨?_, fld_setFld_of _ _ _ v⟩
  rw [fld_setTbFld _ _ rfl]
  exact fld_setFld_of _ _ _ v

theorem refsel_ctlRef (s : State) (n : Nat) :
    (s.ctlRef n).fld Fld.TB_CTL_REFSEL 0 = if n ≤ 1 then n else s.fld Fld.TB_CTL_REFSEL 0 := by
  unfold ctlRef
  split
  next h => exact fld_setFld_lt _ Fld.TB_CTL_REFSEL _ (Nat.lt_of_le_of_lt h (by decide))
  · rfl

theorem disc_ctlDisc (s : State) (n : Nat) :
    (s.ctlDisc n).fld Fld.TB_CTL_DISC 0 = if n ≤ 1 then n else s.fld Fld.TB_CTL_DISC 0 := by
  unfold ctlDisc
  split
  next h =>
    rw [fld_setTbFld _ _ rfl]
    exact fld_setFld_lt _ _ _ (Nat.lt_of_le_of_lt h (by decide))
  · rfl

theorem xovr_ctlDisc (s : State) (h : n ≤ 1) : (s.ctlDisc n).flag Fld.TB_STAT_XOVR 0 = false := by
  unfold ctlDisc
  rw [if_pos h]
  exact flag_of_fld (b := false) (fld_setFld_lt _ _ _ (by decide))

theorem onlyBell_ctlSet (s : State) (v : Word) : s.onlyBell (s.ctlSet v) [(.TB_CTL, 0), (.TB_STAT, 0)] := by
  have hp : s.onlyBell (s.ctlPps v) [(.TB_CTL, 0), (.TB_STAT, 0)] := by
    have h : s.onlyBell _ [(.TB_CTL, 0), (.TB_STAT, 0)] := ((onlyBell.refl s _).setTbFld (f := Fld.TB_CTL_PPSIN_EN)
      (v := Fld.TB_CTL_PPSIN_EN.of v)).setTbFld (f := Fld.TB_CTL_PPS_POL) (v := Fld.TB_CTL_PPS_POL.of v)
    exact h.withBell.ite h
  have hr := (hp.setTbFld (f := Fld.TB_CTL_REFSEL) (v := Fld.TB_CTL_REFSEL.of v)).withBell
    (b := { (s.ctlPps v).bell with onRefclk := Fld.TB_CTL_REFSEL.of v == 1 })
  have hr : s.onlyBell ((s.ctlPps v).ctlRef (Fld.TB_CTL_REFSEL.of v)) _ := hr.ite hp
  exact ((hr.setTbFld (f := Fld.TB_CTL_DISC)).setTbFld (f := Fld.TB_STAT_XOVR)).ite hr

/-- A write to TB_CTL leaves the counter and the accepted seconds, and chooses the reference. -/
theorem bell_ctlSet (s : State) (v : Word) : (s.ctlSet v).bell =
    { s.bell with
      ppsSeen := (s.ctlPps v).bell.ppsSeen
      onRefclk := if Fld.TB_CTL_REFSEL.of v ≤ 1 then Fld.TB_CTL_REFSEL.of v == 1 else s.bell.onRefclk } := by
  have hd : ∀ (u : State) (n : Nat), (u.ctlDisc n).bell = u.bell := fun u n => by
    unfold ctlDisc
    split <;> rfl
  have hr : ∀ (u : State) (n : Nat),
      (u.ctlRef n).bell = { u.bell with onRefclk := if n ≤ 1 then n == 1 else u.bell.onRefclk } := fun u n => by
    unfold ctlRef
    split <;> rfl
  have hp : (s.ctlPps v).bell = { s.bell with ppsSeen := (s.ctlPps v).bell.ppsSeen } := by
    unfold ctlPps
    dsimp only
    split <;> rfl
  rw [ctlSet, hd, hr, hp]

section
variable (s : State) (v : Word)

theorem fields_ctlSet :
    (s.ctlSet v).fld Fld.TB_CTL_PPSIN_EN 0 = Fld.TB_CTL_PPSIN_EN.of v ∧
    (s.ctlSet v).fld Fld.TB_CTL_PPS_POL 0 = Fld.TB_CTL_PPS_POL.of v ∧
    (s.ctlSet v).fld Fld.TB_CTL_REFSEL 0 =
      (if Fld.TB_CTL_REFSEL.of v ≤ 1 then Fld.TB_CTL_REFSEL.of v else s.fld Fld.TB_CTL_REFSEL 0) ∧
    (s.ctlSet v).fld Fld.TB_CTL_DISC 0 =
      (if Fld.TB_CTL_DISC.of v ≤ 1 then Fld.TB_CTL_DISC.of v else s.fld Fld.TB_CTL_DISC 0) := by
  obtain ⟨hen, hpol⟩ := s.fields_ctlPps v
  have hr : (s.ctlPps v).fldKept s Fld.TB_CTL_REFSEL 0 := ((fldKept.refl s _ 0).ctlPps).symm
  have hd : ((s.ctlPps v).ctlRef (Fld.TB_CTL_REFSEL.of v)).fldKept s Fld.TB_CTL_DISC 0 :=
    ((fldKept.refl s _ 0).ctlPps.ctlRef).symm
  refine ⟨Eq.trans ((fldKept.refl (s.ctlPps v) _ 0).ctlRef.ctlDisc) hen,
    Eq.trans ((fldKept.refl (s.ctlPps v) _ 0).ctlRef.ctlDisc) hpol, ?_, ?_⟩
  · rw [hr]
    exact Eq.trans ((fldKept.refl _ _ 0).ctlDisc) (refsel_ctlRef _ _)
  · rw [hd]
    exact disc_ctlDisc _ _

theorem fields_tbCtlWrite :
    (s.tbCtlWrite v).fld Fld.TB_CTL_PPSIN_EN 0 = Fld.TB_CTL_PPSIN_EN.of v ∧
    (s.tbCtlWrite v).fld Fld.TB_CTL_PPS_POL 0 = Fld.TB_CTL_PPS_POL.of v ∧
    (s.tbCtlWrite v).fld Fld.TB_CTL_REFSEL 0 =
      (if Fld.TB_CTL_REFSEL.of v ≤ 1 then Fld.TB_CTL_REFSEL.of v else s.fld Fld.TB_CTL_REFSEL 0) ∧
    (s.tbCtlWrite v).fld Fld.TB_CTL_DISC 0 =
      (if Fld.TB_CTL_DISC.of v ≤ 1 then Fld.TB_CTL_DISC.of v else s.fld Fld.TB_CTL_DISC 0) := by
  obtain ⟨hen, hpol, href, hdisc⟩ := s.fields_ctlSet v
  rw [tbCtlWrite_eq]
  exact ⟨Eq.trans ((fldKept.refl _ _ 0).syncHoldover) hen, Eq.trans ((fldKept.refl _ _ 0).syncHoldover) hpol,
    Eq.trans ((fldKept.refl _ _ 0).syncHoldover) href, Eq.trans ((fldKept.refl _ _ 0).syncHoldover) hdisc⟩

theorem xovr_tbCtlWrite (h : Fld.TB_CTL_DISC.of v ≤ 1) : (s.tbCtlWrite v).flag Fld.TB_STAT_XOVR 0 = false := by
  rw [tbCtlWrite_eq]
  exact ((fldKept.refl _ _ 0).syncHoldover.flag).trans (xovr_ctlDisc _ h)

theorem addend_tbCtlWrite : (s.tbCtlWrite v).csrGet .TB_ADDEND 0 =
    if (s.tbCtlWrite v).flag Fld.TB_STAT_HOLDOVER 0 = true ∧ (s.tbCtlWrite v).flag Fld.TB_STAT_XOVR 0 = false then
      withBits (s.csrGet .TB_ADDEND 0) Fld.TB_ADDEND_ADDEND.hi Fld.TB_ADDEND_ADDEND.lo s.meanAddend
    else s.csrGet .TB_ADDEND 0 := by
  have ha : (s.ctlSet v).csrGet .TB_ADDEND 0 = s.csrGet .TB_ADDEND 0 := csrGet_of_onlyBell (s.onlyBell_ctlSet v)
  have hm : (s.ctlSet v).meanAddend = s.meanAddend :=
    meanAddend_congr (by rw [bell_ctlSet]) (congrArg (bitsOf · _ _) ha)
  have hx : (s.ctlSet v).syncHoldover.flag Fld.TB_STAT_XOVR 0 = (s.ctlSet v).flag Fld.TB_STAT_XOVR 0 :=
    (fldKept.refl _ _ 0).syncHoldover.flag
  rw [tbCtlWrite_eq, addend_syncHoldover, holdover_syncHoldover, hx, ha, hm]

theorem bell_tbCtlWrite : (s.tbCtlWrite v).bell = (s.ctlSet v).bell := by rw [tbCtlWrite_eq, bell_syncHoldover]

theorem onlyBell_tbCtlWrite : s.onlyBell (s.tbCtlWrite v) [(.TB_CTL, 0), (.TB_STAT, 0), (.TB_ADDEND, 0)] := by
  rw [tbCtlWrite_eq]
  exact (onlyBell.mono (s.onlyBell_ctlSet v) (by simp)).trans (.of_onlyRegs (onlyRegs.refl _ _).syncHoldover)

end

theorem exec_tbCtlWrite (hl : s.srcLive src = true) (ho : s.islOpen 23 = true) :
    exec (.tbCtlWrite src v) s = .next (s.tbSeen.tbCtlWrite v) := by
  change execTbCtlWrite src v s = _
  rw [execTbCtlWrite, csrPort_tb rfl rfl hl ho]

/-! ## TB_ADDEND -/

theorem exec_addendWrite (hl : s.srcLive src = true) (ho : s.islOpen 23 = true) :
    exec (.addendWrite src v) s = .next ((s.tbTaken src).addendWrite src v) := by
  change execAddendWrite src v s = _
  rw [execAddendWrite, csrPortReeve_tb rfl rfl hl ho]

theorem addendWrite_performed (h : s.tbPerforms src = true) : s.addendWrite src v =
    (s.setFld Fld.TB_ADDEND_ADDEND 0 (min (max v.toNat 46107636812) 46126083556)).tbXovr src := by
  rw [addendWrite, if_pos h, clampNat_eq (by decide)]

theorem addendWrite_denied (h : s.tbPerforms src ≠ true) :
    s.addendWrite src v = s.setFld Fld.TB_XGATE_DENIED 0 1 := by
  rw [addendWrite, if_neg h, gateDeny_tb]

/-! ## TB_SLEW -/

/-- The amount that a write to TB_SLEW carries, beside NOW. -/
theorem fields_withNow (v : Word) (n : Nat) : Fld.TB_SLEW_AMOUNT.of (withBits v 40 40 n) = Fld.TB_SLEW_AMOUNT.of v ∧
    Fld.TB_SLEW_NOW.of (withBits v 40 40 n) = n % 2 :=
  ⟨bitsOf_withBits_disj _ _ _ _ _ _ (by decide), bitsOf_withBits_same _ _ _ _ (by decide)⟩

/-- The amount that a write to TB_SLEW carries, as a number of seconds' fractions (R97). -/
abbrev amountOf (v : Word) : Int := signedOf 32 (Fld.TB_SLEW_AMOUNT.of v)

theorem amountField_lt (v : Word) : Fld.TB_SLEW_AMOUNT.of v < 2 ^ 32 := bitsOf_lt v 31 0

theorem slewWrite_slew (h : s.tbPerforms src = true) : s.slewWrite src (withBits v 40 40 0) =
    ((s.setSlew (amountOf v * 2 ^ 32)).setFld Fld.TB_SLEW_STATUS 0 stOk).tbXovr src := by
  obtain ⟨ha, hn⟩ := fields_withNow v 0
  rw [slewWrite, ha, hn, if_neg (by simp [h])]
  rfl

theorem slewWrite_step (h : s.tbPerforms src = true) (ha : s.stepAllowed = true) :
    s.slewWrite src (withBits v 40 40 1) = ((s.bellStep (amountOf v)).setFld Fld.TB_SLEW_STATUS 0 stOk).tbXovr src := by
  obtain ⟨hamount, hn⟩ := fields_withNow v 1
  rw [slewWrite, hamount, hn, if_neg (by simp [h]), if_neg (by decide), if_pos ha]

theorem slewWrite_refused (h : s.tbPerforms src = true) (ha : s.stepAllowed ≠ true) :
    s.slewWrite src (withBits v 40 40 1) = s.setFld Fld.TB_SLEW_STATUS 0 stDenied := by
  rw [slewWrite, (fields_withNow v 1).2, if_neg (by simp [h]), if_neg (by decide), if_neg ha]

theorem exec_slew (hl : s.srcLive src = true) (ho : s.islOpen 23 = true) :
    exec (.slew src v) s = .next ((s.tbTaken src).slewWrite src (withBits v 40 40 0)) := by
  change execSlew src v s = _
  rw [execSlew, csrPortReeve_tb rfl rfl hl ho]

theorem exec_immediateStep (hl : s.srcLive src = true) (ho : s.islOpen 23 = true) :
    exec (.immediateStep src v) s = .next ((s.tbTaken src).slewWrite src (withBits v 40 40 1)) := by
  change execImmediateStep src v s = _
  rw [execImmediateStep, csrPortReeve_tb rfl rfl hl ho]

/-- A slew that is set: what remains of it, as its registers report it (R97). -/
theorem fields_slewing (s : State) (src : Src) (v : Word) {t : State}
    (ht : t = ((s.setSlew (amountOf v * 2 ^ 32)).setFld Fld.TB_SLEW_STATUS 0 stOk).tbXovr src) :
    t.fld Fld.TB_SLEW_AMOUNT 0 = Fld.TB_SLEW_AMOUNT.of v ∧
    t.flag Fld.TB_STAT_SLEW_BUSY 0 = (Fld.TB_SLEW_AMOUNT.of v != 0) ∧ t.fld Fld.TB_SLEW_STATUS 0 = 0 := by
  have hlt := amountField_lt v
  subst ht
  refine ⟨?_, ?_, (fld_tbXovr _ src rfl).trans (fld_setFld_lt _ _ _ (by decide))⟩
  · rw [fld_tbXovr _ _ rfl, fld_setTbFld _ _ rfl, amount_setSlew,
      Int.mul_tdiv_cancel _ (by decide)]
    exact encSigned_signedOf hlt
  · rw [flag, fld_tbXovr _ _ rfl, fld_setTbFld _ _ rfl, ← flag, busy_setSlew, Bool.eq_iff_iff,
      bne_iff_ne, bne_iff_ne]
    exact not_congr ((mul_eq_zero_iff_right (by decide)).trans (signedOf_eq_zero hlt))

theorem bell_slewing (s : State) (src : Src) (v : Word) :
    (((s.setSlew (amountOf v * 2 ^ 32)).setFld Fld.TB_SLEW_STATUS 0 stOk).tbXovr src).bell =
      { s.bell with slewRem := amountOf v * 2 ^ 32 } := bell_tbXovr _ src

theorem onlyBell_slewing (s : State) (src : Src) (v : Word) :
    s.onlyBell (((s.setSlew (amountOf v * 2 ^ 32)).setFld Fld.TB_SLEW_STATUS 0 stOk).tbXovr src)
      [(.TB_SLEW, 0), (.TB_STAT, 0)] :=
  (onlyBell.refl s [(.TB_SLEW, 0), (.TB_STAT, 0)]).setSlew.setTbFld.trans (.of_onlyRegs (onlyRegs.refl _ _).tbXovr)

/-! ## The immediate step -/

theorem stepAllowed_tbTaken (s : State) (src : Src) : (s.tbTaken src).stepAllowed = true ↔
    s.islState 21 ≠ 1 ∧ ∀ j, j < 25 → j ≠ 21 → s.fld Fld.PW_RCTL_MODE j ≠ 2 := by
  have hs : (s.tbTaken src).islState 21 = s.islState 21 := s.fld_tbTaken src Fld.PW_ISTATE_STATE
  have hm : ∀ j < 25, (s.tbTaken src).fld Fld.PW_RCTL_MODE j = s.fld Fld.PW_RCTL_MODE j :=
    fun j hj => s.fld_tbTaken src Fld.PW_RCTL_MODE (by decide) (by omega)
  unfold stepAllowed
  rw [hs, Bool.and_eq_true, bne_iff_ne, List.all_eq_true]
  refine and_congr_right fun _ => forall_congr' fun j => ?_
  rw [List.mem_range]
  refine forall_congr' fun hj => ?_
  rw [hm j hj, Bool.or_eq_true, beq_iff_eq, bne_iff_ne, or_iff_not_imp_left]

/-- The bell's record with the amount of a step added (R99). -/
def bellStepped (s : State) (a : Int) : Bell :=
  { s.bell with acc := BitVec.ofNat 112 (((s.bell.acc.toNat : Int) + a * 2 ^ 32) % 2 ^ 112).toNat }

theorem bellStep_eq (s : State) (a : Int) :
    s.bellStep a = ((s.withBell (s.bellStepped a)).setSlew 0).incField Fld.TB_NOW_HI_GEN 0 := rfl

/-- The bell after a step: the amount is added at once, and a slew is cancelled. -/
theorem bell_bellStep (s : State) (a : Int) : (s.bellStep a).bell = { s.bellStepped a with slewRem := 0 } := rfl

theorem acc_bellStep (s : State) (a : Int) :
    ((s.bellStep a).bell.acc.toNat : Int) = ((s.bell.acc.toNat : Int) + a * 2 ^ 32) % 2 ^ 112 := by
  rw [bell_bellStep, bellStepped, BitVec.toNat_ofNat]
  omega

theorem fields_bellStep (s : State) (a : Int) :
    (s.bellStep a).fld Fld.TB_SLEW_AMOUNT 0 = 0 ∧ (s.bellStep a).flag Fld.TB_STAT_SLEW_BUSY 0 = false ∧
    (s.bellStep a).fld Fld.TB_NOW_HI_GEN 0 = (s.fld Fld.TB_NOW_HI_GEN 0 + 1) % 2 ^ 16 := by
  have hslew : s.fldKept _ Fld.TB_NOW_HI_GEN 0 := (fldKept.refl s _ 0).withBell (b := s.bellStepped a) |>.setSlew (rem := 0)
  rw [bellStep_eq]
  exact ⟨(fld_setTbFld _ _ rfl).trans (amount_setSlew _ 0), (fldKept.refl _ _ 0).setTbFld.flag.trans (busy_setSlew _ 0),
    (fld_incField_same _ _ _).trans (congrArg (fun n => (n + 1) % 2 ^ 16) hslew)⟩

/-- A step that is done: its registers, once its status stands. -/
theorem fields_stepped (s : State) (src : Src) (a : Int) {t : State}
    (ht : t = ((s.bellStep a).setFld Fld.TB_SLEW_STATUS 0 stOk).tbXovr src) :
    t.fld Fld.TB_SLEW_AMOUNT 0 = 0 ∧ t.flag Fld.TB_STAT_SLEW_BUSY 0 = false ∧
    t.fld Fld.TB_NOW_HI_GEN 0 = (s.fld Fld.TB_NOW_HI_GEN 0 + 1) % 2 ^ 16 ∧ t.fld Fld.TB_SLEW_STATUS 0 = 0 := by
  subst ht
  obtain ⟨hamount, hbusy, hgen⟩ := s.fields_bellStep a
  have hkept : ∀ f : Fld, Fld.TB_STAT_XOVR.apart f = true → Fld.TB_SLEW_STATUS.apart f = true →
      (s.bellStep a).fldKept (((s.bellStep a).setFld Fld.TB_SLEW_STATUS 0 stOk).tbXovr src) f 0 :=
    fun f hx hs => (fld_tbXovr _ src hx).trans (fld_setTbFld _ _ hs)
  exact ⟨(hkept _ rfl rfl).trans hamount, (hkept _ rfl rfl).flag.trans hbusy, (hkept _ rfl rfl).trans hgen,
    (fld_tbXovr _ src rfl).trans (fld_setFld_lt _ _ _ (by decide))⟩

theorem bell_stepped (s : State) (src : Src) (a : Int) :
    (((s.bellStep a).setFld Fld.TB_SLEW_STATUS 0 stOk).tbXovr src).bell = (s.bellStep a).bell :=
  (bell_tbXovr _ src).trans (csrSet_bell _ _ _ _)

theorem onlyBell_stepped (s : State) (src : Src) (a : Int) :
    s.onlyBell (((s.bellStep a).setFld Fld.TB_SLEW_STATUS 0 stOk).tbXovr src)
      [(.TB_SLEW, 0), (.TB_STAT, 0), (.TB_NOW_HI, 0)] := by
  have h : s.onlyBell (s.bellStep a) [(.TB_SLEW, 0), (.TB_STAT, 0), (.TB_NOW_HI, 0)] :=
    (onlyBell.refl s _).withBell.setSlew.setTbFld (f := Fld.TB_NOW_HI_GEN)
  exact h.setTbFld.trans (.of_onlyRegs (onlyRegs.refl _ _).tbXovr)

end State
end Sys2Proof.Machine

open Sys2Proof Sys2Proof.Machine

/-- Settles O1: the port's taking of the write (`State.tbTaken`), then each register's own write. -/
theorem bellRegisterWrites : Obligations.BellRegisterWrites := by
  unfold Obligations.BellRegisterWrites
  intro s src v hl ho
  rw [State.does_iff_of_next (State.exec_secsetWrite hl ho), State.does_iff_of_next (State.exec_tbCtlWrite hl ho),
    State.does_iff_of_next (State.exec_addendWrite hl ho), State.does_iff_of_next (State.exec_slew hl ho),
    State.does_iff_of_next (State.exec_immediateStep hl ho), State.does_iff_of_next (State.exec_immediateStep hl ho),
    State.does_iff_of_next (State.exec_addendWrite hl ho)]
  have hseen : ∀ l, (.TB_XGATE, 0) ∈ l → s.onlyRegs s.tbSeen l := fun l h => s.onlyRegs_tbSeen.mono (by simpa using h)
  have htaken : ∀ l, (.TB_XGATE, 0) ∈ l → s.onlyRegs (s.tbTaken src) l :=
    fun l h => (s.onlyRegs_tbTaken src).mono (by simpa using h)
  refine ⟨?_, ?_, fun hsrc => ?_, fun hs hg => ?_⟩
  · obtain ⟨hsec, hpending⟩ := s.tbSeen.fields_secsetWrite v
    exact ⟨hsec, hpending, (hseen _ (by decide)).setTbFld.setTbFld⟩
  · have hbell := (s.tbSeen.bell_tbCtlWrite v).trans (s.tbSeen.bell_ctlSet v)
    have haddend := s.tbSeen.addend_tbCtlWrite v
    have hkept : s.tbSeen.csrGet .TB_ADDEND 0 = s.csrGet .TB_ADDEND 0 := s.onlyRegs_tbSeen.2 _ _ (by decide) (by decide)
    have hmean : s.tbSeen.meanAddend = s.meanAddend := State.meanAddend_congr (by simp) (congrArg (bitsOf · _ _) hkept)
    obtain ⟨hen, hpol, href, hdisc⟩ := s.tbSeen.fields_tbCtlWrite v
    rw [hkept, hmean] at haddend
    rw [s.fld_tbSeen Fld.TB_CTL_REFSEL] at href
    rw [s.fld_tbSeen Fld.TB_CTL_DISC] at hdisc
    rw [State.bell_tbSeen] at hbell
    refine ⟨hen, hpol, href, hdisc, s.tbSeen.xovr_tbCtlWrite v, fun h => ?_, haddend, (congrArg Bell.acc hbell :), ?_⟩
    · exact (congrArg Bell.onRefclk hbell).trans (if_pos h)
    · exact (State.onlyBell.of_onlyRegs (hseen _ (by decide))).trans ((s.tbSeen.onlyBell_tbCtlWrite v).mono (by simp))
  · have hp := (s.tbPerforms_tbTaken src).2 hsrc
    refine ⟨?_, ?_, fun hallowed => ?_, fun hon => ?_⟩
    · rw [State.addendWrite_performed hp]
      refine ⟨(State.fld_tbXovr _ src rfl).trans (State.fld_setFld_lt _ _ _ ?_), State.xovr_tbXovr _,
        (htaken _ (by decide)).setTbFld.tbXovr⟩
      exact Nat.lt_of_le_of_lt (Nat.min_le_right _ _) (by decide)
    · rw [State.slewWrite_slew hp]
      obtain ⟨hamount, hbusy, hstatus⟩ := (s.tbTaken src).fields_slewing src v rfl
      have hbell := (s.tbTaken src).bell_slewing src v
      rw [State.bell_tbTaken] at hbell
      exact ⟨(congrArg Bell.slewRem hbell :), hamount, hbusy, hstatus, (congrArg Bell.acc hbell :),
        (State.onlyBell.of_onlyRegs (htaken _ (by decide))).trans (((s.tbTaken src).onlyBell_slewing src v).mono (by simp))⟩
    · rw [State.slewWrite_step hp ((s.stepAllowed_tbTaken src).2 hallowed)]
      obtain ⟨hamount, hbusy, hgen, hstatus⟩ := (s.tbTaken src).fields_stepped src (State.amountOf v) rfl
      have hbell := (s.tbTaken src).bell_stepped src (State.amountOf v)
      have hacc := (s.tbTaken src).acc_bellStep (State.amountOf v)
      rw [← hbell, State.bell_tbTaken] at hacc
      rw [s.fld_tbTaken src Fld.TB_NOW_HI_GEN] at hgen
      exact ⟨hacc, congrArg Bell.slewRem (hbell.trans (State.bell_bellStep _ _)), hamount, hbusy, hgen, hstatus,
        (State.onlyBell.of_onlyRegs (htaken _ (by decide))).trans (((s.tbTaken src).onlyBell_stepped src _).mono (by simp))⟩
    · have hno : (s.tbTaken src).stepAllowed ≠ true := fun h => ((s.stepAllowed_tbTaken src).1 h).1 hon
      rw [State.slewWrite_refused hp hno]
      exact ⟨State.fld_setFld_lt _ _ _ (by decide), (htaken _ (by decide)).setTbFld⟩
  · have hp : (s.tbTaken src).tbPerforms src ≠ true := by
      rw [ne_eq, s.tbPerforms_tbTaken]
      simp [hs, hg]
    rw [State.addendWrite_denied hp]
    exact ⟨State.flag_of_fld (b := true) (State.fld_setFld_lt _ _ _ (by decide)), (htaken _ (by decide)).setTbFld⟩
end

section
/-!
SUPPORT. A run of the counter: the registers it writes, the bell's record after it, and how far it goes (R90, R97, R98).
-/

set_option Elab.async false

namespace Sys2Proof.Machine

/-- A record that takes its own remainder. -/
theorem Bell.with_slewRem {b : Bell} {x : Int} (h : b.slewRem = x) : { b with slewRem := x } = b := by
  subst h
  rfl

namespace State

variable {s t : State} {g : Fld} {d k n : Nat}

/-! ## What a run leaves -/

/-- The fields that a run of the counter writes. -/
def runFlds : List Fld := [Fld.TB_SECSET_PENDING, Fld.TB_NOW_HI_GEN, Fld.TB_SLEW_AMOUNT, Fld.TB_STAT_SLEW_BUSY]

/-- The registers that a run of the counter writes. -/
def runRegs : List (Reg × Nat) := [(.TB_SECSET, 0), (.TB_NOW_HI, 0), (.TB_SLEW, 0), (.TB_STAT, 0)]

theorem onlyBell_advance (s : State) (k : Nat) : s.onlyBell (s.advance k) runRegs := by
  have hb : s.onlyBell (s.withBell (s.bellAfter k)) runRegs := (onlyBell.refl s _).withBell
  have hw : s.onlyBell (s.wrapped k) runRegs :=
    ((hb.setTbFld (f := Fld.TB_SECSET_PENDING)).setTbFld (f := Fld.TB_NOW_HI_GEN)).ite hb
  rw [advance_eq]
  exact hw.ite hw.setSlew

theorem fldKept.advance (h : s.fldKept t g 0) (hg : ∀ f ∈ runFlds, f.apart g = true := by decide) :
    s.fldKept (t.advance k) g 0 := by
  simp only [runFlds, List.forall_mem_cons, List.not_mem_nil, false_implies, implies_true, and_true] at hg
  obtain ⟨hpending, hgen, hamount, hbusy⟩ := hg
  have hw : s.fldKept (t.wrapped k) g 0 := ((h.withBell.setTbFld hpending).setTbFld hgen).ite h.withBell
  rw [advance_eq]
  exact hw.ite (hw.setSlew hamount hbusy)

theorem addend_advance (s : State) (k : Nat) : (s.advance k).addend = s.addend := (fldKept.refl s _ 0).advance

/-! ## The slew's share -/

/-- Once the cycles cover what remains of a slew, they apply it whole. -/
theorem slewApplied_of_ge (h : s.bell.slewRem.natAbs ≤ k * s.slewDelta) : s.slewApplied k = s.bell.slewRem := by
  have hm : min (s.bell.slewRem.natAbs : Int) (k * s.slewDelta : Int) = s.bell.slewRem.natAbs :=
    min_eq_left (by exact_mod_cast h)
  rw [slewApplied, hm]
  split <;> omega

/-- A cycle more gains no less. -/
theorem bellGain_le_succ (hma : s.slewDelta ≤ s.addend) (k : Nat) : s.bellGain k ≤ s.bellGain (k + 1) := by
  unfold bellGain slewApplied
  dsimp only
  push_cast
  rw [add_mul, add_mul, one_mul, one_mul]
  generalize (k : Int) * s.addend = x
  generalize (k : Int) * s.slewDelta = y
  split <;> omega

/-- What a run leaves of the record, and the age of the last edge after it (R101). -/
theorem bellAfter_keeps (s : State) (k : Nat) : (s.bellAfter k).slewRem = s.bell.slewRem ∧
    (s.bellAfter k).ppsSeen = s.bell.ppsSeen ∧ (s.bellAfter k).addends = s.bell.addends ∧
    (s.bellAfter k).ppsAge = s.bell.ppsAge + s.bellGain k := by
  unfold bellAfter
  generalize s.accAfter _ = acc
  exact ⟨rfl, rfl, rfl, rfl⟩

theorem bell_wrapped (s : State) (k : Nat) : (s.wrapped k).bell = s.bellAfter k := by
  unfold wrapped
  split
  · obtain ⟨-, -, -, hbell⟩ := (s.withBell (s.bellAfter k)).beside_secLoaded
    rw [hbell, bell_withBell]
  · rw [bell_withBell]

/-- The bell's record after a run. -/
theorem bell_run (s : State) (k : Nat) :
    (s.advance k).bell = { s.bellAfter k with slewRem := s.bell.slewRem - s.slewApplied k } := by
  rw [advance_eq]
  split
  next h =>
    have h0 : s.bell.slewRem - s.slewApplied k = s.bell.slewRem := by
      rw [slewApplied_of_ge (by simp [h]), h, Int.sub_zero]
    exact (s.bell_wrapped k).trans (Bell.with_slewRem ((s.bellAfter_keeps k).1.trans h0.symm)).symm
  next => rw [bell_setSlew, bell_wrapped]

/-! ## A seconds load -/

theorem fields_wrapped (s : State) (k : Nat) :
    (s.wrapped k).flag Fld.TB_SECSET_PENDING 0 = (s.flag Fld.TB_SECSET_PENDING 0 && !s.bellLoads (s.bellGain k)) ∧
    (s.wrapped k).fld Fld.TB_NOW_HI_GEN 0 =
      if s.bellLoads (s.bellGain k) then (s.fld Fld.TB_NOW_HI_GEN 0 + 1) % 2 ^ 16 else s.fld Fld.TB_NOW_HI_GEN 0 := by
  unfold wrapped
  split
  next h =>
    rw [h, Bool.not_true, Bool.and_false]
    have hp : s.fldKept ((s.withBell (s.bellAfter k)).setFld Fld.TB_SECSET_PENDING 0 0) Fld.TB_NOW_HI_GEN 0 :=
      (fldKept.refl s _ 0).withBell.setTbFld
    exact ⟨(fldKept.refl _ _ 0).setTbFld.flag.trans (flag_of_fld (b := false) (fld_setFld_lt _ _ _ (by decide))),
      (fld_incField_same _ _ _).trans (congrArg (fun n => (n + 1) % 2 ^ 16) hp)⟩
  next h =>
    rw [Bool.eq_false_iff.2 h, Bool.not_false, Bool.and_true]
    exact ⟨(fldKept.refl _ _ 0).withBell.flag, (fldKept.refl s _ 0).withBell⟩

/-- PENDING and GEN after a run: a load clears the one and counts in the other (R97). -/
theorem fields_advance (s : State) (k : Nat) :
    (s.advance k).flag Fld.TB_SECSET_PENDING 0 = (s.flag Fld.TB_SECSET_PENDING 0 && !s.bellLoads (s.bellGain k)) ∧
    (s.advance k).fld Fld.TB_NOW_HI_GEN 0 =
      if s.bellLoads (s.bellGain k) then (s.fld Fld.TB_NOW_HI_GEN 0 + 1) % 2 ^ 16 else s.fld Fld.TB_NOW_HI_GEN 0 := by
  obtain ⟨hpending, hgen⟩ := s.fields_wrapped k
  rw [advance_eq]
  split
  · exact ⟨hpending, hgen⟩
  · exact ⟨(fldKept.refl _ _ 0).setSlew.flag.trans hpending, Eq.trans ((fldKept.refl _ _ 0).setSlew) hgen⟩

/-! ## How far a run goes -/

section
variable (hlo : 46107636812 ≤ s.addend) (hhi : s.addend ≤ 46126083556)
include hlo hhi

theorem slewDelta_bounds : 0 < s.slewDelta ∧ s.slewDelta < s.addend ∧ s.addend + s.slewDelta < 2 ^ 36 := by
  unfold slewDelta
  omega

/-- The counter overshoots a gain by less than 16 units of FRAC. -/
theorem gain_cyclesTo (d : Nat) : d ≤ s.bellGain (s.cyclesTo d) ∧ s.bellGain (s.cyclesTo d) < d + 2 ^ 36 := by
  obtain ⟨hm, hma, hsum⟩ := slewDelta_bounds hlo hhi
  have := s.bellGain_cyclesTo d hm hma
  omega

/-- What a single cycle gains. -/
theorem gain_one : s.bellGain 1 < 2 ^ 36 := by
  obtain ⟨hm, hma, hsum⟩ := slewDelta_bounds hlo hhi
  have hslew : s.slewApplied 1 ≤ s.slewDelta := by
    unfold slewApplied
    dsimp only
    rw [Nat.cast_one, one_mul]
    split <;> omega
  unfold bellGain
  omega

/-- The run to a fraction ends less than 16 units of FRAC past it. -/
theorem frac_toFrac (n : Nat) :
    ((s.advance (s.cyclesTo (s.toFrac n))).bell80.toNat + 2 ^ 32 - n % 2 ^ 32) % 2 ^ 32 < 16 := by
  obtain ⟨hg, hg'⟩ := gain_cyclesTo hlo hhi (s.toFrac n)
  have hT := s.toFrac_spec n
  have hfrac := frac_bell80 (s.advance (s.cyclesTo (s.toFrac n)))
  rw [(s.bell_advance _).1, frac_accAfter] at hfrac
  exact frac_overshoot hg hg' (by rw [hT, Nat.mod_mod]) hfrac

/-- The run to the next wrap passes one wrap, and takes a pending seconds load there. -/
theorem bellWraps_toWrap : s.bellWraps (s.bellGain (s.cyclesTo (s.toFrac 0))) = 1 := by
  have hd : s.toFrac 0 = 2 ^ 64 - s.bell.acc.toNat % 2 ^ 64 := by simp [toFrac]
  have hg := gain_cyclesTo hlo hhi (s.toFrac 0)
  rw [hd] at hg ⊢
  generalize s.bellGain _ = g at hg ⊢
  unfold bellWraps
  omega

end

/-- The seconds after a load at the first wrap (R97). -/
theorem sec_accAfter (hl : s.bellLoads n = true) (hw : s.bellWraps n = 1) :
    (s.accAfter n).toNat / 2 ^ 64 = s.fld Fld.TB_SECSET_SEC 0 := by
  have hsec : s.fld Fld.TB_SECSET_SEC 0 < 2 ^ 48 := s.fld_lt _ 0
  rw [accAfter, if_pos hl, hw, BitVec.toNat_ofNat]
  omega

end State
end Sys2Proof.Machine
end

section
/-!
SUPPORT. What an interrupt event and an error record leave of the time block: its registers, the bell and memory (R76, R101,
R376); and where a corrected error is recorded (R605).
-/

set_option Elab.async false

namespace Sys2Proof.Machine

/-- A register of the time block: named between the power block's and the mailboxes' (R22). -/
def Reg.isTb (r : Reg) : Bool :=
  decide (Reg.TB_NOW_LO.ctorIdx ≤ r.ctorIdx) && decide (r.ctorIdx ≤ Reg.TB_CMP_CTL.ctorIdx)

/-- From `s` to `t` neither the time block's registers nor the bell nor memory have changed. -/
structure State.tbKept (s t : State) : Prop where
  regs : ∀ r i, r.isTb = true → i < 65536 → t.csrGet r i = s.csrGet r i
  bell : t.bell = s.bell
  mem : t.mem = s.mem

namespace State.tbKept

variable {s₀ s t : State} {j m n v : Nat} {x y : Word}

theorem refl (s : State) : s.tbKept s := ⟨fun _ _ _ _ => rfl, rfl, rfl⟩

theorem update (h : s₀.tbKept s) (hc : t.csr = s.csr := by rfl) (hb : t.bell = s.bell := by rfl)
    (hm : t.mem = s.mem := by rfl) : s₀.tbKept t where
  regs r i hr hi := by rw [← h.regs r i hr hi]; simp only [State.csrGet, hc]
  bell := hb.trans h.bell
  mem := hm.trans h.mem

/-- A register named after the time block's, of whatever number. -/
theorem csrSet_after (h : s₀.tbKept s) {r : Reg} (hr : Reg.TB_CMP_CTL.ctorIdx < r.ctorIdx := by decide) :
    s₀.tbKept (s.csrSet r n x) where
  regs r' i hr' hi := by
    obtain ⟨-, hle⟩ := Bool.and_eq_true_iff.1 hr'
    exact (s.csrGet_csrSet_before x (Nat.lt_of_le_of_lt (of_decide_eq_true hle) hr) hi).trans (h.regs r' i hr' hi)
  bell := h.bell
  mem := h.mem

theorem setFld_after (h : s₀.tbKept s) {f : Fld} (hf : Reg.TB_CMP_CTL.ctorIdx < f.reg.ctorIdx := by decide) :
    s₀.tbKept (s.setFld f n v) := h.csrSet_after hf

/-- A register of an island. -/
theorem setFld_istate (h : s₀.tbKept s) {f : Fld} (hf : f.reg = .PW_ISTATE := by rfl) (hj : j < 65536) :
    s₀.tbKept (s.setFld f j v) where
  regs r i hr hi :=
    (s.csrGet_setFld_ne v hj hi (.inl fun hc => by rw [hc, hf] at hr; cases hr)).trans (h.regs r i hr hi)
  bell := h.bell
  mem := h.mem

theorem ite {P : Prop} [Decidable P] (ht : s₀.tbKept s) (hu : s₀.tbKept t) : s₀.tbKept (if P then s else t) := by
  split <;> assumption

theorem longEnd (h : s₀.tbKept s) : s₀.tbKept (s.longEnd m) := h.update.ite h

theorem callDone (h : s₀.tbKept s) : s₀.tbKept (s.callDone m n) := by
  unfold State.callDone
  extract_lets s₁ k s₂ s₃
  have h₁ : s₀.tbKept s₁ := h.longEnd
  have h₃ : s₀.tbKept s₃ := h₁.csrSet_after.csrSet_after.setFld_after.setFld_after
  have h₄ : s₀.tbKept (s₁.satField Fld.RV_STAT_LATE_CNT m) := h₁.setFld_after
  exact h₃.update.ite (h₄.update.ite h₁.update)

theorem serviceReply (h : s₀.tbKept s) : s₀.tbKept (s.serviceReply m n x y) := by
  have h' : s₀.tbKept (s.modSlot m fun k => { k with res0 := x, res1 := y }) := h.update
  exact h'.callDone

theorem abandoned (h : s₀.tbKept s) (hj : j < 65536) : s₀.tbKept (s.abandoned j m) :=
  ((h.setFld_istate rfl hj).setFld_istate rfl hj).update

theorem entryAbandon (h : s₀.tbKept s) (hj : j < 65536) : s₀.tbKept (s.entryAbandon j m n) := by
  have h' : s₀.tbKept (s.abandoned j m) := h.abandoned hj
  unfold State.entryAbandon
  split
  · dsimp only
    split
    · exact h'.serviceReply
    · exact h'
  · exact h

theorem icWakeIsland (h : s₀.tbKept s) (hj : j < 65536) : s₀.tbKept (s.icWakeIsland j) := by
  have h' : s₀.tbKept (s.setFld Fld.PW_ISTATE_STATE j 4) := h.setFld_istate rfl hj
  exact h'.ite (((h.entryAbandon hj).ite (h.ite h')).ite h)

theorem icWake (h : s₀.tbKept s) : s₀.tbKept (s.icWake t n) := by
  unfold State.icWake
  split
  next hj => exact h.icWakeIsland (State.icCalls_lt hj)
  · exact h

theorem icSync (h : s₀.tbKept s) : s₀.tbKept (s.icSync n) := by
  unfold State.icSync
  extract_lets f s₁
  have h₁ : s₀.tbKept s₁ := h.setFld_after.ite h
  exact h₁.setFld_after

theorem icEvent (h : s₀.tbKept s) : s₀.tbKept (s.icEvent n) := by
  have h' : s₀.tbKept (s.icLatch n) := (h.setFld_after (f := Fld.IC_SRC_IN) (v := 1)).icSync
  exact (h'.update (t := (s.icLatch n).icFell)).icWake

theorem reeveEvent (h : s₀.tbKept s) : s₀.tbKept (s.reeveEvent n) := h.update

/-- An error is recorded beside the time block. -/
theorem logErr (h : s₀.tbKept s) {e : ErrRec} : s₀.tbKept (s.logErr e) where
  regs r i hr hi := by
    have hc : r.isCtl = true := by
      obtain ⟨-, hle⟩ := Bool.and_eq_true_iff.1 hr
      exact decide_eq_true (Nat.lt_of_le_of_lt (of_decide_eq_true hle) (by decide))
    exact (((ctlKept.refl s).logErr).regs r i hc hi).trans (h.regs r i hr hi)
  bell := (congrArg (fun b => b.2.2.1) ((boardKept.refl s).logErr (e := e)) :).trans h.bell
  mem := (s.mem_logErr e).trans h.mem

section
variable (h : s.tbKept t)
include h

theorem csrGet {r : Reg} (hr : r.isTb = true := by rfl) : t.csrGet r 0 = s.csrGet r 0 := h.regs r 0 hr (by decide)

theorem fld {f : Fld} (hr : f.reg.isTb = true := by rfl) : t.fld f 0 = s.fld f 0 := congrArg (bitsOf · _ _) (h.csrGet hr)

theorem flag {f : Fld} (hr : f.reg.isTb = true := by rfl) : t.flag f 0 = s.flag f 0 := congrArg (· != 0) (h.fld hr)

end
end State.tbKept

namespace State

variable {s : State} {e : ErrRec} {r n : Nat}

/-! ## Corrected errors -/

/-- While a record of its unit is free, an error merges into a record or takes one (R605). -/
theorem recPlace_of_free (hfree : ∃ r < 4, s.recValid e.unit r = false) :
    (∃ r < 4, s.recPlace e = .merge r ∧ s.recMerges e r = true) ∨ ∃ r < 4, s.recPlace e = .place r := by
  have hlt : ∀ {p : Nat → Bool} {r : Nat}, [0, 1, 2, 3].find? p = some r → r < 4 := fun h => by
    have := List.mem_of_find?_eq_some h
    simp only [List.mem_cons, List.not_mem_nil, or_false] at this
    omega
  unfold recPlace
  split
  next r hr => exact .inl ⟨r, hlt hr, rfl, List.find?_some hr⟩
  next =>
    have hsome : ([0, 1, 2, 3].find? (fun r => !s.recValid e.unit r)).isSome := by
      obtain ⟨r, hr, hv⟩ := hfree
      refine List.find?_isSome.2 ⟨r, ?_, by simp [hv]⟩
      simp only [List.mem_cons, List.not_mem_nil, or_false]
      omega
    obtain ⟨r, hr⟩ := Option.isSome_iff_exists.1 hsome
    rw [hr]
    exact .inr ⟨r, hlt hr, rfl⟩

/-- A corrected error is recorded and told to nobody (R608). -/
theorem logErr_corrected (s : State) (hsev : e.sev = 0) : s.logErr e = (s.recStore e).1 := by
  simp [logErr, hsev]

/-- A record that takes another error of its kind keeps its kind (R605). -/
theorem fld_merged (s : State) {f : Fld} {x : Word} (hn : n < 65536) (hr : f.reg = .ER_STATUS)
    (hf : Fld.ER_STATUS_COUNT.apart f = true) :
    ((s.satField Fld.ER_STATUS_COUNT n).csrSet .ER_TLAST n x).fld f n = s.fld f n := by
  have hl : ((s.satField Fld.ER_STATUS_COUNT n).csrSet .ER_TLAST n x).fld f n =
      (s.satField Fld.ER_STATUS_COUNT n).fld f n :=
    congrArg (bitsOf · _ _) (csrGet_csrSet_ne _ _ hn hn (.inl (by rw [hr]; decide)))
  exact hl.trans (fld_setFld_apart _ _ hf hn hn)

/-- A corrected error stands in a valid record with its type (R603, R605). -/
theorem recorded_corrected (s : State) (hsev : e.sev = 0) (hu : e.unit < 1000)
    (hfree : ∃ r < 4, s.recValid e.unit r = false) :
    ∃ r < 4, (s.logErr e).csrGet .ER_STATUS (recInst e.unit r) = e.status ∨
      ((s.logErr e).recValid e.unit r = true ∧ (s.logErr e).fld Fld.ER_STATUS_SEV (recInst e.unit r) = 0 ∧
        (s.logErr e).fld Fld.ER_STATUS_TYPE (recInst e.unit r) = e.type) := by
  rw [logErr_corrected s hsev, recStore]
  obtain ⟨r, hr, hp, hm⟩ | ⟨r, hr, hp⟩ := s.recPlace_of_free hfree
  · have hi : recInst e.unit r < 65536 := by unfold recInst; omega
    simp only [recMerges, Bool.and_eq_true, beq_iff_eq] at hm
    obtain ⟨⟨⟨⟨hvalid, hs⟩, -⟩, htype⟩, -⟩ := hm
    refine ⟨r, hr, .inr ?_⟩
    rw [hp]
    exact ⟨(congrArg (· != 0) (s.fld_merged hi rfl rfl)).trans hvalid, (s.fld_merged hi rfl rfl).trans hs,
      (s.fld_merged hi rfl rfl).trans htype⟩
  · have hi : recInst e.unit r < 5000 := by unfold recInst; omega
    refine ⟨r, hr, .inl ?_⟩
    rw [hp]
    exact (csrGet_setFld_ne _ _ (by omega) (by omega) (.inl (by decide))).trans (s.status_recFill e hi)

end State
end Sys2Proof.Machine
end

section
/-!
SUPPORT. The events of bell time, one by one (R93, R97, R98, R101 to R103, R106).
-/

set_option Elab.async false

namespace Sys2Proof.Machine
namespace State

variable {s t : State} {f : Fld} {part : BitVec 32} {rising : Bool} {g k n : Nat}

/-! ## What a run of the counter leaves of the bell -/

theorem bell_advance_keeps (s : State) (k : Nat) : (s.advance k).bell.ppsSeen = s.bell.ppsSeen ∧
    (s.advance k).bell.addends = s.bell.addends ∧ (s.advance k).bell.ppsAge = s.bell.ppsAge + s.bellGain k := by
  rw [bell_run]
  exact (s.bellAfter_keeps k).2

theorem csrGet_addend_advance (s : State) (k : Nat) : (s.advance k).csrGet .TB_ADDEND 0 = s.csrGet .TB_ADDEND 0 :=
  csrGet_of_onlyBell (s.onlyBell_advance k)

theorem meanAddend_advance (s : State) (k : Nat) : (s.advance k).meanAddend = s.meanAddend :=
  meanAddend_congr (s.bell_advance_keeps k).2.1 (s.addend_advance k)

/-! ## Seconds load and end of a slew -/

theorem exec_secondsLoad (hc : s.clockRuns = true) (hp : s.flag Fld.TB_SECSET_PENDING 0 = true) :
    exec .secondsLoad s = .next (s.advance (s.cyclesTo (s.toFrac 0))) := by
  change execSecondsLoad s = _
  simp [execSecondsLoad, hc, hp]

/-- The run to the next wrap takes the pending seconds (R97). -/
theorem secondsLoaded (hlo : 46107636812 ≤ s.addend) (hhi : s.addend ≤ 46126083556)
    (hp : s.flag Fld.TB_SECSET_PENDING 0 = true) (hk : k = s.cyclesTo (s.toFrac 0)) :
    (s.advance k).flag Fld.TB_SECSET_PENDING 0 = false ∧
    (s.advance k).bell.acc.toNat / 2 ^ 64 = s.fld Fld.TB_SECSET_SEC 0 ∧
    (s.advance k).fld Fld.TB_NOW_HI_GEN 0 = (s.fld Fld.TB_NOW_HI_GEN 0 + 1) % 2 ^ 16 := by
  have hw : s.bellWraps (s.bellGain k) = 1 := hk ▸ bellWraps_toWrap hlo hhi
  have hl : s.bellLoads (s.bellGain k) = true := by simp [bellLoads, hp, hw]
  obtain ⟨hpending, hgen⟩ := s.fields_advance k
  rw [hl, Bool.not_true, Bool.and_false] at hpending
  rw [hl] at hgen
  refine ⟨hpending, ?_, hgen⟩
  rw [(s.bell_advance k).1]
  exact sec_accAfter hl hw

/-- The cycles that a slew still takes (R98). -/
def slewCycles (s : State) : Nat := stepsUp s.bell.slewRem.natAbs s.slewDelta

theorem exec_slewDone (hc : s.clockRuns = true) (hr : s.bell.slewRem ≠ 0) (hm : 0 < s.slewDelta) :
    exec .slewDone s = .next (s.advance s.slewCycles) := by
  change execSlewDone s = _
  unfold execSlewDone slewCycles stepsUp
  rw [if_pos (by simp [hc, hr]), if_neg hm.ne']

theorem slewEnded (hr : s.bell.slewRem ≠ 0) (hm : 0 < s.slewDelta) : (s.advance s.slewCycles).bell.slewRem = 0 ∧
    (s.advance s.slewCycles).fld Fld.TB_SLEW_AMOUNT 0 = 0 ∧
    (s.advance s.slewCycles).flag Fld.TB_STAT_SLEW_BUSY 0 = false := by
  have hall : s.bell.slewRem - s.slewApplied s.slewCycles = 0 := by
    rw [slewCycles, slewApplied_of_ge (stepsUp_spec hm).1, Int.sub_self]
  rw [advance_eq, if_neg hr, hall]
  exact ⟨by rw [bell_setSlew], amount_setSlew _ 0, busy_setSlew _ 0⟩

/-! ## Loss of the reference -/

/-- The record of a lost reference (R93, R601). -/
def refLost : ErrRec := { unit := 249, sev := 0, type := 0x33 }

/-- The clock runs from the TCXO (R93). -/
def onTcxo (s : State) : State :=
  (s.withBell { s.bell with onRefclk := false }).setFld Fld.TB_STAT_REF_LOST 0 1

theorem exec_refclkLoss (hc : s.clockRuns = true) (hr : s.bell.onRefclk = true) :
    exec .refclkLoss s = .next (s.onTcxo.logErr refLost) := by
  change execRefclkLoss s = _
  unfold execRefclkLoss
  rw [if_pos (by simp [hc, hr])]
  rfl

theorem fields_onTcxo (s : State) : s.onTcxo.bell = { s.bell with onRefclk := false } ∧
    s.onTcxo.flag Fld.TB_STAT_REF_LOST 0 = true ∧ s.onTcxo.fld Fld.TB_CTL_REFSEL 0 = s.fld Fld.TB_CTL_REFSEL 0 :=
  ⟨rfl, flag_of_fld (b := true) (fld_setFld_lt _ _ _ (by decide)), (fldKept.refl s _ 0).withBell.setTbFld⟩

theorem recValid_onTcxo (s : State) {u r : Nat} (hi : recInst u r < 65536) : s.onTcxo.recValid u r = s.recValid u r :=
  ((fldKept.refl s Fld.ER_STATUS_VALID (recInst u r)).withBell.setFld rfl hi (by decide)).flag

theorem fields_status_refLost : bitsOf refLost.status 63 63 = 1 ∧ bitsOf refLost.status 57 56 = 0 ∧
    bitsOf refLost.status 55 48 = 0x33 := by decide

theorem recorded_refLost (s : State) (hfree : ∃ r < 4, s.recValid 249 r = false) :
    ∃ r < 4, (s.logErr refLost).recValid 249 r = true ∧ (s.logErr refLost).fld Fld.ER_STATUS_SEV (4 * 249 + r) = 0 ∧
      (s.logErr refLost).fld Fld.ER_STATUS_TYPE (4 * 249 + r) = 0x33 := by
  obtain ⟨r, hr, hstatus | hmerged⟩ := s.recorded_corrected (e := refLost) rfl (by decide) hfree
  · obtain ⟨hvalid, hsev, htype⟩ := fields_status_refLost
    exact ⟨r, hr, congrArg (· != 0) ((congrArg (bitsOf · 63 63) hstatus).trans hvalid),
      (congrArg (bitsOf · 57 56) hstatus).trans hsev, (congrArg (bitsOf · 55 48) hstatus).trans htype⟩
  · exact ⟨r, hr, hmerged⟩

/-! ## An edge of PPS_IN -/

/-- The counter's value after a gain, as an edge there captures it (R101, R102). -/
def capture (s : State) (g : Nat) : Nat := (((s.accAfter g) >>> 32).truncate 80 : BitVec 80).toNat

/-- An edge is accepted (R101, R106). -/
def ppsMarked (s : State) (g : Nat) : State :=
  s.withBell { s.bell with ppsSeen := true, ppsAge := -(g : Int), addends := (s.addend :: s.bell.addends).take 16 }

/-- A capture is stored and counted. -/
def captured (s : State) (c : Nat) : State :=
  ((s.incField Fld.TB_PPSCAP_CNT 0).setFld Fld.TB_PPSCAP_SEC 0 (c / 2 ^ 32)).setFld Fld.TB_PPSCAP_FRAC 0 c

/-- The edge is there again, and a holdover ends (R101). -/
def ppsBack (s : State) : State := (s.setFld Fld.TB_STAT_PPS_LOST 0 0).syncHoldover

/-- An accepted edge, before its events. -/
def ppsTaken (s : State) (g : Nat) : State :=
  (((s.ppsMarked g).endHoldover (s.capture g % 2 ^ 32)).captured (s.capture g)).ppsBack

theorem ppsAccepts_iff : s.ppsAccepts part = true ↔
    s.bell.ppsSeen = false ∨ 2 ^ 63 ≤ s.bell.ppsAge + s.partGain part := by
  simp [ppsAccepts]

theorem ppsEdge_accepted (h : s.ppsAccepts part = true) :
    s.ppsEdge part = ((s.ppsTaken (s.partGain part)).reeveEvent 3).icEvent 8762 := by
  rw [ppsEdge, if_pos h]
  rfl

theorem ppsEdge_rejected (h : s.ppsAccepts part ≠ true) : s.ppsEdge part = s.satField Fld.TB_STAT_REJ_CNT 0 := by
  rw [ppsEdge, if_neg h]

theorem exec_ppsInEdge (hc : s.clockRuns = true) (hen : s.flag Fld.TB_CTL_PPSIN_EN 0 = true)
    (hr : rising = !s.flag Fld.TB_CTL_PPS_POL 0) :
    exec (.ppsInEdge ⟨k, part⟩ rising) s = .next ((s.advance k).ppsEdge part) := by
  have hen' : (s.advance k).flag Fld.TB_CTL_PPSIN_EN 0 = true := ((fldKept.refl s _ 0).advance.flag).trans hen
  have hpol : (s.advance k).flag Fld.TB_CTL_PPS_POL 0 = s.flag Fld.TB_CTL_PPS_POL 0 := (fldKept.refl s _ 0).advance.flag
  change execPpsInEdge ⟨k, part⟩ rising s = _
  simp [execPpsInEdge, hc, hen', hpol, hr]

theorem capture_eq (s : State) (g : Nat) : s.capture g = (s.accAfter g).toNat / 2 ^ 32 := by
  unfold capture
  rw [BitVec.truncate_eq_setWidth, BitVec.toNat_setWidth, BitVec.toNat_ushiftRight, Nat.shiftRight_eq_div_pow]
  have := (s.accAfter g).isLt
  omega

theorem frac_capture (s : State) (g : Nat) : s.capture g % 2 ^ 32 = (s.bell.acc.toNat + g) / 2 ^ 32 % 2 ^ 32 := by
  rw [capture_eq, frac_accAfter]
  omega

/-- The seconds captured: past a wrap those of a pending load (R97, R101). -/
theorem sec_capture (s : State) (hg : g < 2 ^ 64) : s.capture g / 2 ^ 32 % 2 ^ 16 =
    (if s.flag Fld.TB_SECSET_PENDING 0 = true ∧ s.bell.acc.toNat / 2 ^ 64 < (s.bell.acc.toNat + g) / 2 ^ 64
      then s.fld Fld.TB_SECSET_SEC 0 else (s.bell.acc.toNat + g) / 2 ^ 64) % 2 ^ 16 := by
  have hloads : s.bellLoads g = true ↔
      s.flag Fld.TB_SECSET_PENDING 0 = true ∧ s.bell.acc.toNat / 2 ^ 64 < (s.bell.acc.toNat + g) / 2 ^ 64 := by
    rw [bellLoads, Bool.and_eq_true, decide_eq_true_eq, bellWraps]
    exact and_congr_right fun _ => by omega
  simp only [capture_eq, ← hloads, accAfter, BitVec.toNat_ofNat]
  split
  next h =>
    have hwrap := (hloads.1 h).2
    have hone : s.bellWraps g = 1 := by
      unfold bellWraps
      omega
    rw [hone]
    omega
  next =>
    unfold bellWraps
    omega

theorem fldKept.endHoldover (h : s.fldKept t f 0) (ha : Fld.TB_SLEW_AMOUNT.apart f = true := by decide)
    (hb : Fld.TB_STAT_SLEW_BUSY.apart f = true := by decide) (hs : Fld.TB_SLEW_STATUS.apart f = true := by decide) :
    s.fldKept (t.endHoldover n) f 0 := ((h.setSlew ha hb).setTbFld hs).ite h

theorem fldKept.captured (h : s.fldKept t f 0) (hc : Fld.TB_PPSCAP_CNT.apart f = true := by decide)
    (hs : Fld.TB_PPSCAP_SEC.apart f = true := by decide) (hf : Fld.TB_PPSCAP_FRAC.apart f = true := by decide) :
    s.fldKept (t.captured n) f 0 := by
  have h' : s.fldKept (t.incField Fld.TB_PPSCAP_CNT 0) f 0 := h.setTbFld hc
  exact (h'.setTbFld hs).setTbFld hf

theorem fldKept.ppsBack (h : s.fldKept t f 0) (hl : Fld.TB_STAT_PPS_LOST.apart f = true := by decide)
    (hh : Fld.TB_STAT_HOLDOVER.apart f = true := by decide) (ha : Fld.TB_ADDEND_ADDEND.apart f = true := by decide) :
    s.fldKept t.ppsBack f 0 := (h.setTbFld hl).syncHoldover hh ha

/-- Whether an edge ends a holdover that the Reeve's firmware corrects (R106). -/
theorem endHoldover_eq (s : State) (n : Nat) : s.endHoldover n =
    if s.flag Fld.TB_STAT_HOLDOVER 0 = true ∧ s.flag Fld.TB_STAT_XOVR 0 = false then
      (s.setSlew (-(signedOf 32 n) * 2 ^ 32)).setFld Fld.TB_SLEW_STATUS 0 stOk
    else s := by
  simp [endHoldover]

theorem bell_endHoldover (s : State) (n : Nat) : (s.endHoldover n).bell =
    { s.bell with slewRem := if s.flag Fld.TB_STAT_HOLDOVER 0 = true ∧ s.flag Fld.TB_STAT_XOVR 0 = false then
        -(signedOf 32 n) * 2 ^ 32 else s.bell.slewRem } := by
  rw [endHoldover_eq]
  split <;> rfl

theorem status_endHoldover (hh : s.flag Fld.TB_STAT_HOLDOVER 0 = true) (hx : s.flag Fld.TB_STAT_XOVR 0 = false) :
    (s.endHoldover n).fld Fld.TB_SLEW_STATUS 0 = 0 := by
  rw [endHoldover_eq, if_pos ⟨hh, hx⟩]
  exact fld_setFld_lt _ _ _ (by decide)

theorem fields_captured (s : State) (c : Nat) : (s.captured c).fld Fld.TB_PPSCAP_FRAC 0 = c % 2 ^ 32 ∧
    (s.captured c).fld Fld.TB_PPSCAP_SEC 0 = c / 2 ^ 32 % 2 ^ 16 ∧
    (s.captured c).fld Fld.TB_PPSCAP_CNT 0 = (s.fld Fld.TB_PPSCAP_CNT 0 + 1) % 2 ^ 16 := by
  unfold captured
  refine ⟨fld_setFld_same _ _ _ _ (by decide), (fld_setTbFld _ _ rfl).trans (fld_setFld_same _ _ _ _ (by decide)), ?_⟩
  exact (fld_setTbFld _ _ rfl).trans ((fld_setTbFld _ _ rfl).trans (fld_incField_same _ _ _))

theorem bell_captured (s : State) (c : Nat) : (s.captured c).bell = s.bell := rfl

theorem heldOver_setLost (s : State) (b : Bool) :
    (s.setFld Fld.TB_STAT_PPS_LOST 0 (bit b)).heldOver = (s.fld Fld.TB_CTL_DISC 0 == 1 && b) := by
  rw [heldOver, fld_setTbFld _ _ rfl, flag_of_fld (b := b) (fld_setFld_lt _ _ _ (by cases b <;> decide))]

theorem flag_setLost (s : State) (b : Bool) :
    (s.setFld Fld.TB_STAT_PPS_LOST 0 (bit b)).syncHoldover.flag Fld.TB_STAT_PPS_LOST 0 = b :=
  ((fldKept.refl _ _ 0).syncHoldover.flag).trans (flag_of_fld (fld_setFld_lt _ _ _ (by cases b <;> decide)))

theorem fields_ppsBack (s : State) : s.ppsBack.flag Fld.TB_STAT_PPS_LOST 0 = false ∧
    s.ppsBack.flag Fld.TB_STAT_HOLDOVER 0 = false ∧ s.ppsBack.csrGet .TB_ADDEND 0 = s.csrGet .TB_ADDEND 0 := by
  have hno : (s.setFld Fld.TB_STAT_PPS_LOST 0 0).heldOver = false := (s.heldOver_setLost false).trans (Bool.and_false _)
  refine ⟨s.flag_setLost false, (holdover_syncHoldover _).trans hno, ?_⟩
  rw [ppsBack, addend_syncHoldover, if_neg (by simp [hno])]
  exact csrGet_setFld_ne _ _ (by decide) (by decide) (.inl (by decide))

theorem bell_ppsBack (s : State) : s.ppsBack.bell = s.bell := bell_syncHoldover _

section
variable (s : State) (g : Nat)

theorem bell_ppsTaken : (s.ppsTaken g).bell =
    { s.bell with
      ppsSeen := true, ppsAge := -(g : Int), addends := (s.addend :: s.bell.addends).take 16
      slewRem := if s.flag Fld.TB_STAT_HOLDOVER 0 = true ∧ s.flag Fld.TB_STAT_XOVR 0 = false then
        -(signedOf 32 ((s.bell.acc.toNat + g) / 2 ^ 32 % 2 ^ 32)) * 2 ^ 32 else s.bell.slewRem } := by
  rw [ppsTaken, bell_ppsBack, bell_captured, bell_endHoldover, frac_capture]
  rfl

theorem capture_ppsTaken (hg : g < 2 ^ 64) :
    (s.ppsTaken g).fld Fld.TB_PPSCAP_FRAC 0 = (s.bell.acc.toNat + g) / 2 ^ 32 % 2 ^ 32 ∧
    (s.ppsTaken g).fld Fld.TB_PPSCAP_SEC 0 = (if s.flag Fld.TB_SECSET_PENDING 0 = true ∧
        s.bell.acc.toNat / 2 ^ 64 < (s.bell.acc.toNat + g) / 2 ^ 64
      then s.fld Fld.TB_SECSET_SEC 0 else (s.bell.acc.toNat + g) / 2 ^ 64) % 2 ^ 16 ∧
    (s.ppsTaken g).fld Fld.TB_PPSCAP_CNT 0 = (s.fld Fld.TB_PPSCAP_CNT 0 + 1) % 2 ^ 16 := by
  obtain ⟨hfrac, hsec, hcnt⟩ := ((s.ppsMarked g).endHoldover (s.capture g % 2 ^ 32)).fields_captured (s.capture g)
  have hold : s.fldKept ((s.ppsMarked g).endHoldover (s.capture g % 2 ^ 32)) Fld.TB_PPSCAP_CNT 0 :=
    (fldKept.refl s _ 0).withBell.endHoldover
  rw [hold] at hcnt
  exact ⟨Eq.trans ((fldKept.refl _ _ 0).ppsBack) (hfrac.trans (s.frac_capture g)),
    Eq.trans ((fldKept.refl _ _ 0).ppsBack) (hsec.trans (s.sec_capture hg)), Eq.trans ((fldKept.refl _ _ 0).ppsBack) hcnt⟩

theorem stat_ppsTaken : (s.ppsTaken g).flag Fld.TB_STAT_PPS_LOST 0 = false ∧
    (s.ppsTaken g).flag Fld.TB_STAT_HOLDOVER 0 = false := by
  obtain ⟨hlost, hholdover, -⟩ := State.fields_ppsBack
    (((s.ppsMarked g).endHoldover (s.capture g % 2 ^ 32)).captured (s.capture g))
  exact ⟨hlost, hholdover⟩

theorem status_ppsTaken (hh : s.flag Fld.TB_STAT_HOLDOVER 0 = true) (hx : s.flag Fld.TB_STAT_XOVR 0 = false) :
    (s.ppsTaken g).fld Fld.TB_SLEW_STATUS 0 = 0 :=
  Eq.trans ((fldKept.refl _ _ 0).captured.ppsBack) (status_endHoldover (s := s.ppsMarked g) hh hx)

theorem onlyBell_beforeBack :
    s.onlyBell (((s.ppsMarked g).endHoldover (s.capture g % 2 ^ 32)).captured (s.capture g))
      [(.TB_SLEW, 0), (.TB_STAT, 0), (.TB_PPSCAP, 0)] := by
  have hm : s.onlyBell (s.ppsMarked g) [(.TB_SLEW, 0), (.TB_STAT, 0), (.TB_PPSCAP, 0)] := (onlyBell.refl s _).withBell
  have he : s.onlyBell ((s.ppsMarked g).endHoldover (s.capture g % 2 ^ 32)) [(.TB_SLEW, 0), (.TB_STAT, 0), (.TB_PPSCAP, 0)] :=
    hm.setSlew.setTbFld.ite hm
  exact ((he.setTbFld (f := Fld.TB_PPSCAP_CNT)).setTbFld (f := Fld.TB_PPSCAP_SEC)).setTbFld (f := Fld.TB_PPSCAP_FRAC)

theorem addend_ppsTaken : (s.ppsTaken g).csrGet .TB_ADDEND 0 = s.csrGet .TB_ADDEND 0 :=
  (State.fields_ppsBack _).2.2.trans (csrGet_of_onlyBell (s.onlyBell_beforeBack g))

theorem mem_ppsTaken : (s.ppsTaken g).mem = s.mem := by
  have h : ∀ u : State, u.ppsBack.mem = u.mem := fun u => by
    unfold ppsBack
    rw [syncHoldover_eq]
    split <;> rfl
  exact (h _).trans (congrArg State.mem (s.onlyBell_beforeBack g).1 :)

end

/-- An accepted edge's events leave the time block as it stands (R376). -/
theorem tbKept_ppsEdge (h : s.ppsAccepts part = true) : (s.ppsTaken (s.partGain part)).tbKept (s.ppsEdge part) := by
  rw [ppsEdge_accepted h]
  exact (tbKept.refl _).reeveEvent.icEvent

theorem partGain_lt (hlo : 46107636812 ≤ s.addend) (hhi : s.addend ≤ 46126083556) (part : BitVec 32) :
    s.partGain part < 2 ^ 64 := by
  have hg := gain_one hlo hhi
  have hp := part.isLt
  have hmul : s.bellGain 1 * part.toNat ≤ s.bellGain 1 * 2 ^ 32 := Nat.mul_le_mul_left _ hp.le
  unfold partGain
  omega

/-! ## No edge for 1.5 s -/

/-- The edge is lost (R101). -/
def edgeLost (s : State) : State := (s.setFld Fld.TB_STAT_PPS_LOST 0 1).syncHoldover

/-- The cycles to 1.5 s after the last accepted edge, and one more (R101, R102). -/
def lostCycles (s : State) : Nat := s.cyclesTo (3 * 2 ^ 63 - s.bell.ppsAge).toNat + 1

theorem exec_ppsLostExpiry (hc : s.clockRuns = true) (h : s.flag Fld.TB_STAT_PPS_LOST 0 = false) :
    exec .ppsLostExpiry s = .next (s.advance s.lostCycles).edgeLost := by
  change execPpsLostExpiry s = _
  unfold execPpsLostExpiry
  rw [if_pos (by simp [hc, h])]
  rfl

theorem fields_edgeLost (s : State) : s.edgeLost.flag Fld.TB_STAT_PPS_LOST 0 = true ∧
    s.edgeLost.flag Fld.TB_STAT_HOLDOVER 0 = (s.fld Fld.TB_CTL_DISC 0 == 1) ∧
    s.edgeLost.csrGet .TB_ADDEND 0 = (if s.fld Fld.TB_CTL_DISC 0 = 1 ∧ s.flag Fld.TB_STAT_XOVR 0 = false then
        withBits (s.csrGet .TB_ADDEND 0) Fld.TB_ADDEND_ADDEND.hi Fld.TB_ADDEND_ADDEND.lo s.meanAddend
      else s.csrGet .TB_ADDEND 0) := by
  have hheld : (s.setFld Fld.TB_STAT_PPS_LOST 0 1).heldOver = (s.fld Fld.TB_CTL_DISC 0 == 1) :=
    (s.heldOver_setLost true).trans (Bool.and_true _)
  have hxovr : (s.setFld Fld.TB_STAT_PPS_LOST 0 1).flag Fld.TB_STAT_XOVR 0 = s.flag Fld.TB_STAT_XOVR 0 :=
    (fldKept.refl s _ 0).setTbFld.flag
  have haddend : (s.setFld Fld.TB_STAT_PPS_LOST 0 1).csrGet .TB_ADDEND 0 = s.csrGet .TB_ADDEND 0 :=
    csrGet_setFld_ne _ _ (by decide) (by decide) (.inl (by decide))
  have hmean : (s.setFld Fld.TB_STAT_PPS_LOST 0 1).meanAddend = s.meanAddend :=
    meanAddend_congr rfl (congrArg (bitsOf · _ _) haddend)
  refine ⟨s.flag_setLost true, (holdover_syncHoldover _).trans hheld, ?_⟩
  rw [edgeLost, addend_syncHoldover, hheld, hxovr, haddend, hmean]
  simp only [beq_iff_eq]

theorem bell_edgeLost (s : State) : s.edgeLost.bell = s.bell := bell_syncHoldover _

theorem onlyBell_edgeLost (s : State) (k : Nat) : s.onlyBell (s.advance k).edgeLost
    [(.TB_SECSET, 0), (.TB_NOW_HI, 0), (.TB_SLEW, 0), (.TB_STAT, 0), (.TB_ADDEND, 0)] :=
  ((s.onlyBell_advance k).mono (by decide)).trans (.of_onlyRegs (onlyRegs.refl _ _).setTbFld.syncHoldover)

/-- The run ends 1.5 s or more after the last accepted edge. -/
theorem age_lostCycles (hlo : 46107636812 ≤ s.addend) (hhi : s.addend ≤ 46126083556) :
    3 * 2 ^ 63 ≤ (s.advance s.lostCycles).bell.ppsAge := by
  obtain ⟨-, hma, -⟩ := slewDelta_bounds hlo hhi
  obtain ⟨hg, -⟩ := gain_cyclesTo hlo hhi (3 * 2 ^ 63 - s.bell.ppsAge).toNat
  have hsucc := bellGain_le_succ hma.le (s.cyclesTo (3 * 2 ^ 63 - s.bell.ppsAge).toNat)
  rw [(s.bell_advance_keeps _).2.2, lostCycles]
  omega

/-! ## PPS_OUT -/

/-- PPS_OUT is driven high or low (R103). -/
def ppsDriven (s : State) (b : Bool) : State := s.withBell { s.bell with ppsOut := b }

theorem bell80_ppsDriven (s : State) (b : Bool) : (s.ppsDriven b).bell80 = s.bell80 := rfl

theorem exec_ppsOutStart (hc : s.clockRuns = true) (hf : s.fld Fld.BT_LOWN_FUNC 5 = 2) (hp : s.pwr.past380 = false)
    (ho : s.bell.ppsOut = false) : exec .ppsOutStart s =
      .next ((s.advance (s.cyclesTo (s.toFrac (s.fld Fld.TB_PPSOUT_OFFSET 0)))).ppsDriven true) := by
  change execPpsOutStart s = _
  unfold execPpsOutStart
  rw [if_pos (by simp [hc, hf, hp, ho])]
  rfl

/-- Where a pulse of PPS_OUT ends (R103). -/
def ppsOutEnd (s : State) : Nat := s.fld Fld.TB_PPSOUT_OFFSET 0 + s.fld Fld.TB_PPSOUT_WIDTH 0 * 2 ^ 32 / 1000

theorem exec_ppsOutEnd (hc : s.clockRuns = true) (ho : s.bell.ppsOut = true) :
    exec .ppsOutEnd s = .next ((s.advance (s.cyclesTo (s.toFrac s.ppsOutEnd))).ppsDriven false) := by
  change execPpsOutEnd s = _
  unfold execPpsOutEnd
  rw [if_pos (by simp [hc, ho])]
  rfl

theorem onlyBell_ppsDriven (s : State) (k : Nat) (b : Bool) : s.onlyBell ((s.advance k).ppsDriven b) runRegs :=
  (s.onlyBell_advance k).withBell

end State
end Sys2Proof.Machine

open Sys2Proof Sys2Proof.Machine

/-- Settles O2: how far each event's run of the counter goes (`State.gain_cyclesTo`, `State.frac_toFrac`), and what the event
sets there. -/
theorem bellEvents : Obligations.BellEvents := by
  unfold Obligations.BellEvents
  intro s cycles part rising hc hlo hhi
  obtain ⟨hm, -, -⟩ := State.slewDelta_bounds (s := s) hlo hhi
  refine ⟨fun hp => ?_, fun hr => ?_, fun href hfree => ?_,
    fun hen hrise u g hu hg => ⟨fun hacc => ?_, fun hseen hage => ?_⟩, fun hlost => ?_, fun hf hp ho => ?_, fun ho => ?_⟩
  · rw [State.does_iff_of_next (State.exec_secondsLoad hc hp)]
    obtain ⟨hpending, hsec, hgen⟩ := State.secondsLoaded hlo hhi hp rfl
    exact ⟨hpending, hsec, hgen, s.onlyBell_advance _⟩
  · rw [State.does_iff_of_next (State.exec_slewDone hc hr hm)]
    obtain ⟨hrem, hamount, hbusy⟩ := State.slewEnded hr hm
    refine ⟨hrem, hamount, hbusy, fun hp => ?_, s.onlyBell_advance _⟩
    rw [(s.fields_advance _).2, if_neg (by simp [State.bellLoads, hp])]
  · rw [State.does_iff_of_next (State.exec_refclkLoss hc href)]
    obtain ⟨hbell, hrefLost, hrefsel⟩ := s.fields_onTcxo
    have hkept : s.onTcxo.tbKept (s.onTcxo.logErr State.refLost) := (State.tbKept.refl _).logErr
    refine ⟨hkept.bell.trans hbell, hkept.flag.trans hrefLost, hkept.fld.trans hrefsel, s.onTcxo.recorded_refLost ?_⟩
    obtain ⟨r, hr, hv⟩ := hfree
    exact ⟨r, hr, (s.recValid_onTcxo (by unfold recInst; omega)).trans hv⟩
  · rw [State.does_iff_of_next (State.exec_ppsInEdge hc hen hrise), ← hu]
    obtain ⟨hseen, haddends, -⟩ := s.bell_advance_keeps cycles
    have haddend := s.addend_advance cycles
    have hheld : u.flag Fld.TB_STAT_HOLDOVER 0 = s.flag Fld.TB_STAT_HOLDOVER 0 := hu ▸ (State.fldKept.refl s _ 0).advance.flag
    have hxovr : u.flag Fld.TB_STAT_XOVR 0 = s.flag Fld.TB_STAT_XOVR 0 := hu ▸ (State.fldKept.refl s _ 0).advance.flag
    have hcount : u.fld Fld.TB_PPSCAP_CNT 0 = s.fld Fld.TB_PPSCAP_CNT 0 := hu ▸ (State.fldKept.refl s _ 0).advance
    have hreg := s.csrGet_addend_advance cycles
    have hmem := (s.beside_advance cycles).2.2
    rw [← hu] at hseen haddends haddend hreg hmem
    have hkept := State.tbKept_ppsEdge (s := u) (State.ppsAccepts_iff.2 (by rwa [hseen, ← hg]))
    obtain ⟨hfrac, hsec, hcnt⟩ := u.capture_ppsTaken (u.partGain part)
      (State.partGain_lt (hlo.trans haddend.ge) (haddend.le.trans hhi) part)
    obtain ⟨hback, hover⟩ := u.stat_ppsTaken (u.partGain part)
    have hbell := hkept.bell.trans (u.bell_ppsTaken (u.partGain part))
    rw [hheld, hxovr] at hbell
    rw [hcount] at hcnt
    rw [haddend, haddends] at hbell
    subst hg
    exact ⟨hkept.fld.trans hfrac, hkept.fld.trans hsec, hkept.fld.trans hcnt, hkept.flag.trans hback,
      hkept.flag.trans hover, (hkept.csrGet.trans (u.addend_ppsTaken _)).trans hreg, (congrArg Bell.acc hbell :),
      (congrArg Bell.ppsAge hbell :), (congrArg Bell.ppsSeen hbell :), (congrArg Bell.addends hbell :),
      (congrArg Bell.slewRem hbell :),
      fun hh hx => hkept.fld.trans (u.status_ppsTaken _ (hheld.trans hh) (hxovr.trans hx)),
      (hkept.mem.trans (u.mem_ppsTaken _)).trans hmem⟩
  · rw [State.does_iff_of_next (State.exec_ppsInEdge hc hen hrise), ← hu]
    have hseen' := (s.bell_advance_keeps cycles).1
    have hcount : u.fld Fld.TB_STAT_REJ_CNT 0 = s.fld Fld.TB_STAT_REJ_CNT 0 := hu ▸ (State.fldKept.refl s _ 0).advance
    have hreg : u.csrGet .TB_PPSCAP 0 = s.csrGet .TB_PPSCAP 0 := hu ▸ State.csrGet_of_onlyBell (s.onlyBell_advance cycles)
    rw [← hu, hseen] at hseen'
    have hno : u.ppsAccepts part ≠ true := by
      rw [ne_eq, State.ppsAccepts_iff, hseen', ← hg]
      simpa using hage
    rw [State.ppsEdge_rejected hno]
    refine ⟨?_, ?_, rfl⟩
    · rw [State.fld_satField_same _ _ _ (by decide), hcount]
      rfl
    · exact ((u.onlyRegs_satField Fld.TB_STAT_REJ_CNT (by decide)).2 _ _ (by decide) (by decide)).trans hreg
  · rw [State.does_iff_of_next (State.exec_ppsLostExpiry hc hlost)]
    obtain ⟨hflag, hheld, haddend⟩ := (s.advance s.lostCycles).fields_edgeLost
    have hdisc : (s.advance s.lostCycles).fld Fld.TB_CTL_DISC 0 = s.fld Fld.TB_CTL_DISC 0 :=
      (State.fldKept.refl s _ 0).advance
    have hxovr : (s.advance s.lostCycles).flag Fld.TB_STAT_XOVR 0 = s.flag Fld.TB_STAT_XOVR 0 :=
      (State.fldKept.refl s _ 0).advance.flag
    rw [hdisc, hxovr, State.meanAddend_advance, State.csrGet_addend_advance] at haddend
    rw [hdisc] at hheld
    refine ⟨hflag, hheld, (State.age_lostCycles hlo hhi).trans_eq ?_, haddend, s.onlyBell_edgeLost _⟩
    rw [State.bell_edgeLost]
  · rw [State.does_iff_of_next (State.exec_ppsOutStart hc hf hp ho)]
    have hoff : s.fld Fld.TB_PPSOUT_OFFSET 0 < 2 ^ 32 := s.fld_lt _ 0
    have hfrac := State.frac_toFrac hlo hhi (s.fld Fld.TB_PPSOUT_OFFSET 0)
    rw [Nat.mod_eq_of_lt hoff] at hfrac
    rw [State.bell80_ppsDriven]
    exact ⟨rfl, hfrac, s.onlyBell_ppsDriven _ true⟩
  · rw [State.does_iff_of_next (State.exec_ppsOutEnd hc ho)]
    have hfrac := State.frac_toFrac hlo hhi s.ppsOutEnd
    rw [State.bell80_ppsDriven]
    refine ⟨rfl, ?_, s.onlyBell_ppsDriven _ false⟩
    change (_ + 2 ^ 33 - s.ppsOutEnd % 2 ^ 32) % 2 ^ 32 < 16
    omega
end

section
/-!
SUPPORT. The requester's side of a mailbox slot: the table of an ownership register (R39, R107), a doorbell (R124, R128) and a
call's expiry (R129, R130).
-/

set_option Elab.async false

namespace Sys2Proof.Machine

/-! ## Ownership -/

/-- A source identifier fits the fields that record it (R38). -/
theorem srcId_lt (src : Src) : srcId src < 2 ^ 12 := by
  cases src <;> simp only [srcId] <;> omega

/-- A claim of a free unit (R39). -/
theorem ownStep_claim (owner src : Nat) : ownStep 0 owner 1 false false src = (1, src, stOk) := rfl

/-- Another source's write changes nothing (R39). -/
theorem ownStep_other {owner src : Nat} (wfunc : Nat) (h : src ≠ owner) :
    ownStep 1 owner wfunc false false src = (1, owner, stOwned) := by
  simp [ownStep, h]

/-- An ownership register that takes a row of the table: claim, owner and status, and who wrote. -/
def ownWord (w : Word) (row : Nat × Nat × Nat) (src : Nat) : Word :=
  withBits (withBits (withBits (withBits w 0 0 row.1) 23 12 row.2.1) 31 24 row.2.2) 43 32 src

theorem bitsOf_ownWord (w : Word) (row : Nat × Nat × Nat) (src : Nat) : bitsOf (ownWord w row src) 0 0 = row.1 % 2 ∧
    bitsOf (ownWord w row src) 23 12 = row.2.1 % 2 ^ 12 ∧ bitsOf (ownWord w row src) 31 24 = row.2.2 % 2 ^ 8 ∧
    bitsOf (ownWord w row src) 43 32 = src % 2 ^ 12 := by
  unfold ownWord
  refine ⟨?_, ?_, ?_, bitsOf_withBits_same _ _ _ _ (by decide)⟩
  · rw [bitsOf_withBits_disj _ _ _ _ _ _ (by decide), bitsOf_withBits_disj _ _ _ _ _ _ (by decide),
      bitsOf_withBits_disj _ _ _ _ _ _ (by decide)]
    exact bitsOf_withBits_same _ _ _ _ (by decide)
  · rw [bitsOf_withBits_disj _ _ _ _ _ _ (by decide), bitsOf_withBits_disj _ _ _ _ _ _ (by decide)]
    exact bitsOf_withBits_same _ _ _ _ (by decide)
  · rw [bitsOf_withBits_disj _ _ _ _ _ _ (by decide)]
    exact bitsOf_withBits_same _ _ _ _ (by decide)

namespace State

variable {s : State} {src : Src} {v : Word} {r r' : Reg} {f : Fld} {m : SlotId} {i n : Nat}

/-- The row of the table that a write without FORCE takes. -/
def ownRow (s : State) (r : Reg) (i : Nat) (src : Src) (v : Word) : Nat × Nat × Nat :=
  ownStep (bitsOf (s.csrGet r i) 0 0) (bitsOf (s.csrGet r i) 23 12) (bitsOf v 0 0) (bitsOf v 8 8 == 1) false (srcId src)

theorem ownWrite_eq (s : State) (r : Reg) (i : Nat) (src : Src) (v : Word) :
    s.ownWrite r i src v = s.csrSet r i (ownWord (s.csrGet r i) (s.ownRow r i src v) (srcId src)) := rfl

/-- The fields of a slot's ownership register after a write that takes a row of the table. -/
theorem fields_ownWrite (s : State) (n : Nat) (src : Src) (v : Word) {t : State} (ht : t = s.ownWrite .RV_OWN n src v) :
    t.fld Fld.RV_OWN_CLAIM n = (s.ownRow .RV_OWN n src v).1 % 2 ∧
    t.fld Fld.RV_OWN_OWN_SRC n = (s.ownRow .RV_OWN n src v).2.1 % 2 ^ 12 ∧
    t.fld Fld.RV_OWN_LAST_STATUS n = (s.ownRow .RV_OWN n src v).2.2 % 2 ^ 8 ∧ t.fld Fld.RV_OWN_LAST_SRC n = srcId src := by
  have hw : t.csrGet .RV_OWN n = ownWord (s.csrGet .RV_OWN n) (s.ownRow .RV_OWN n src v) (srcId src) := by
    rw [ht, ownWrite_eq, csrGet_csrSet_same]
  obtain ⟨hclaim, howner, hstatus, hsrc⟩ := bitsOf_ownWord (s.csrGet .RV_OWN n) (s.ownRow .RV_OWN n src v) (srcId src)
  rw [← hw] at hclaim howner hstatus hsrc
  exact ⟨hclaim, howner, hstatus, hsrc.trans (Nat.mod_eq_of_lt (srcId_lt src))⟩

/-! ## A slot's ownership -/

/-- A register without a gate is written as the port finds it. -/
theorem csrPort_free {e : State → State} (hg : r.gate i = none) (hl : s.srcLive src = true) (hu : s.unitUp r = true) :
    s.csrPort src r i e = e (s.reply 0) := by
  have hs : s.gateSees r i = s := by simp [gateSees, hg]
  rw [s.csrPort_of_live src r i e hl hu, hs]

theorem exec_slotOwnWrite (hl : s.srcLive src = true) (hu : s.unitUp .RV_OWN = true) :
    exec (.slotOwnWrite src m v) s = .next ((s.reply 0).slotOwnWrite m.val src v) := by
  change execSlotOwnWrite src m v s = _
  rw [execSlotOwnWrite, csrPort_free rfl hl hu]

/-- A release while a call is in progress (R127). -/
def releaseBusy (s : State) (n : Nat) (src : Src) : State :=
  (s.setFld Fld.RV_OWN_LAST_STATUS n stBusy).setFld Fld.RV_OWN_LAST_SRC n (srcId src)

theorem slotOwnWrite_eq (s : State) (n : Nat) (src : Src) (v : Word) : s.slotOwnWrite n src v =
    if Fld.RV_OWN_CLAIM.of v = 0 ∧ (s.callState n = 1 ∨ s.callState n = 2) then s.releaseBusy n src
    else s.ownWrite .RV_OWN n src v := rfl

theorem slotOwnWrite_claims (h : Fld.RV_OWN_CLAIM.of v = 1) : s.slotOwnWrite n src v = s.ownWrite .RV_OWN n src v := by
  rw [slotOwnWrite_eq, if_neg (by simp [h])]

theorem fields_releaseBusy (s : State) (src : Src) (hn : n < 65536) :
    (s.releaseBusy n src).fld Fld.RV_OWN_CLAIM n = s.fld Fld.RV_OWN_CLAIM n ∧
    (s.releaseBusy n src).fld Fld.RV_OWN_LAST_STATUS n = 1 ∧
    (s.releaseBusy n src).fld Fld.RV_OWN_LAST_SRC n = srcId src := by
  unfold releaseBusy
  refine ⟨(fld_setFld_apart _ _ rfl hn hn).trans (fld_setFld_apart _ _ rfl hn hn), ?_, fld_setFld_lt _ _ _ (srcId_lt src)⟩
  exact (fld_setFld_apart _ _ rfl hn hn).trans (fld_setFld_lt _ _ _ (by decide))

/-- A release while a call is in progress is refused (R127). -/
theorem slot_busy (hv : Fld.RV_OWN_CLAIM.of v = 0) (hbusy : s.callState n = 1 ∨ s.callState n = 2) (hn : n < 65536) :
    (s.slotOwnWrite n src v).fld Fld.RV_OWN_CLAIM n = s.fld Fld.RV_OWN_CLAIM n ∧
    (s.slotOwnWrite n src v).fld Fld.RV_OWN_LAST_STATUS n = 1 := by
  obtain ⟨hclaim, hstatus, -⟩ := s.fields_releaseBusy src hn
  rw [slotOwnWrite_eq, if_pos ⟨hv, hbusy⟩]
  exact ⟨hclaim, hstatus⟩

theorem lastSrc_slotOwnWrite (s : State) (src : Src) (v : Word) (hn : n < 65536) :
    (s.slotOwnWrite n src v).fld Fld.RV_OWN_LAST_SRC n = srcId src := by
  rw [slotOwnWrite_eq]
  split
  · exact (s.fields_releaseBusy src hn).2.2
  · exact (s.fields_ownWrite n src v rfl).2.2.2

theorem onlyRegs.slotOwnWrite {t : State} (h : s.onlyRegs t [(.RV_OWN, n)]) (src : Src) (v : Word) (hn : n < 65536) :
    s.onlyRegs (t.slotOwnWrite n src v) [(.RV_OWN, n)] :=
  ((h.csrSet (List.mem_singleton_self _) hn).csrSet (List.mem_singleton_self _) hn).ite
    (h.csrSet (List.mem_singleton_self _) hn)

section
variable (hforce : Fld.RV_OWN_FORCE.of v = 0) (hv : Fld.RV_OWN_CLAIM.of v = 1)
include hforce hv

theorem ownRow_of_claim (s : State) (n : Nat) (src : Src) : s.ownRow .RV_OWN n src v =
    ownStep (s.fld Fld.RV_OWN_CLAIM n) (s.fld Fld.RV_OWN_OWN_SRC n) 1 false false (srcId src) := by
  have hf : (bitsOf v 8 8 == 1) = false := by rw [show bitsOf v 8 8 = 0 from hforce]; rfl
  rw [ownRow, hf, show bitsOf v 0 0 = 1 from hv]
  rfl

/-- A free slot is claimed (R127). -/
theorem slot_claimed (hfree : s.fld Fld.RV_OWN_CLAIM n = 0) :
    (s.slotOwnWrite n src v).fld Fld.RV_OWN_CLAIM n = 1 ∧
    (s.slotOwnWrite n src v).fld Fld.RV_OWN_OWN_SRC n = srcId src ∧
    (s.slotOwnWrite n src v).fld Fld.RV_OWN_LAST_STATUS n = 0 := by
  obtain ⟨hclaim, howner, hstatus, -⟩ := s.fields_ownWrite n src v rfl
  rw [ownRow_of_claim hforce hv, hfree, ownStep_claim] at hclaim howner hstatus
  rw [slotOwnWrite_claims hv]
  exact ⟨hclaim, howner.trans (Nat.mod_eq_of_lt (srcId_lt src)), hstatus⟩

/-- A slot of another source stays its (R127). -/
theorem slot_owned (hheld : s.fld Fld.RV_OWN_CLAIM n = 1) (hother : s.fld Fld.RV_OWN_OWN_SRC n ≠ srcId src) :
    (s.slotOwnWrite n src v).fld Fld.RV_OWN_OWN_SRC n = s.fld Fld.RV_OWN_OWN_SRC n ∧
    (s.slotOwnWrite n src v).fld Fld.RV_OWN_LAST_STATUS n = 2 := by
  obtain ⟨-, howner, hstatus, -⟩ := s.fields_ownWrite n src v rfl
  rw [ownRow_of_claim hforce hv, hheld, ownStep_other _ hother.symm] at howner hstatus
  rw [slotOwnWrite_claims hv]
  exact ⟨howner.trans (Nat.mod_eq_of_lt (s.fld_lt Fld.RV_OWN_OWN_SRC n)), hstatus⟩

end

/-! ## The doorbell -/

/-- A write of a register leaves those named after it alone, of whatever number. -/
theorem csrGet_csrSet_later (s : State) (w : Word) (h : r.ctorIdx < r'.ctorIdx) (hi : i < 65536) (j : Nat) :
    (s.csrSet r i w).csrGet r' j = s.csrGet r' j :=
  FMap.get_set_ne _ _ _ (regKey_lt_of_ctorIdx_lt h hi).ne'

/-- The registers that a doorbell writes (R128). -/
def rung (s : State) (n : Nat) (v : Word) : State :=
  ((s.codeWrite .RV_CMD n v).setFld Fld.RV_STAT_STATE n 1).incField Fld.RV_STAT_SEQ n

/-- The doorbell waits for the Reeve, with its writer (R126, R128). -/
def belled (s : State) (n : Nat) (src : Src) (code : Nat) (h sec : Bool) : State :=
  { s.modSlot n (fun k => { k with dbH := h, dbSrc := srcId src }) with
    reeve := { s.reeve with mbq := s.reeve.mbq ++ [(n, code, h, sec)], readQ := s.reeve.readQ.filter (· != n) } }

/-- The Cocoon's doorbell is an event of the Reeve (R124; log 314). -/
def ckMsg (s : State) (src : Src) : State := if src = .cocoon then s.reeveEvent 6 else s

theorem doorbell_unowned (ho : s.ownedBy .RV_OWN n src = false) : s.doorbell n src v = s := by simp [doorbell, ho]

theorem doorbell_busy (ho : s.ownedBy .RV_OWN n src = true) (hb : s.callState n = 1 ∨ s.callState n = 2) :
    s.doorbell n src v = s.setFld Fld.RV_STAT_WR_BUSY n 1 := by
  simp [doorbell, ho, hb]

theorem codeWrite_cmd (s : State) (n : Nat) (v : Word) : s.codeWrite .RV_CMD n v = s.csrSet .RV_CMD n
    (withBits (withBits (s.csrGet .RV_CMD n) 23 8 (bitsOf v 23 8)) 7 0 (bitsOf v 7 0)) := by
  rw [codeWrite_of_no_xrw (by decide)]
  rfl

/-- The registers that say whether a source is secure lie beside those of a slot (R529). -/
theorem srcSecure_rung (s : State) (v : Word) (src : Src) (hn : n < 65536) : (s.rung n v).srcSecure src = s.srcSecure src := by
  have hkept : ∀ (f : Fld) (j : Nat), Reg.RV_STAT.ctorIdx < f.reg.ctorIdx → (s.rung n v).flag f j = s.flag f j := by
    intro f j hf
    have hc : (s.rung n v).csrGet f.reg j = s.csrGet f.reg j := by
      unfold rung
      rw [codeWrite_cmd]
      exact (csrGet_csrSet_later _ _ hf hn j).trans ((csrGet_csrSet_later _ _ hf hn j).trans
        (csrGet_csrSet_later _ _ (Nat.lt_trans (by decide) hf) hn j))
    exact congrArg (bitsOf · _ _ != 0) hc
  have hns : (s.rung n v).capNs = s.capNs := by
    unfold rung
    rw [codeWrite_cmd]
    rfl
  cases src with
  | cocoon => exact congrArg Bool.not hns
  | thread t => exact congrArg (List.any _) (funext fun i => hkept Fld.PT_CTL_SEC _ (by decide))
  | dma d => exact hkept Fld.QE_DMA_CTL_SEC _ (by decide)
  | core c => rfl
  | reeve => rfl
  | jtag => rfl
  | svc => rfl
  | sink => rfl
  | group g => rfl

/-- With no call in progress the owner's write rings (R128). -/
theorem doorbell_rings (ho : s.ownedBy .RV_OWN n src = true) (h1 : s.callState n ≠ 1) (h2 : s.callState n ≠ 2)
    (hn : n < 65536) : s.doorbell n src v =
      ((s.rung n v).belled n src (Fld.RV_CMD_CODE.of v) (s.srcIsH src || src == .jtag) (s.srcSecure src)).ckMsg src := by
  rw [← s.srcSecure_rung v src hn]
  unfold doorbell
  rw [ho, if_neg (by decide), if_neg (by simp [h1, h2])]
  rfl

theorem fields_rung (s : State) (v : Word) (hn : n < 65536) : (s.rung n v).callState n = 1 ∧
    (s.rung n v).fld Fld.RV_CMD_CODE n = Fld.RV_CMD_CODE.of v ∧ (s.rung n v).fld Fld.RV_CMD_TMO n = Fld.RV_CMD_TMO.of v ∧
    (s.rung n v).fld Fld.RV_STAT_SEQ n = (s.fld Fld.RV_STAT_SEQ n + 1) % 256 := by
  unfold rung callState
  rw [codeWrite_cmd]
  refine ⟨(fld_setFld_apart _ _ rfl hn hn).trans (fld_setFld_lt _ _ _ (by decide)), ?_, ?_,
    (fld_incField_same _ _ _).trans (congrArg (fun k => (k + 1) % 256) ?_)⟩
  · refine (fld_setFld_apart _ _ rfl hn hn).trans ((fld_setFld_apart _ _ rfl hn hn).trans ?_)
    refine (congrArg (bitsOf · 7 0) (csrGet_csrSet_same _ .RV_CMD _ _)).trans ?_
    exact (bitsOf_withBits_same _ _ _ _ (by decide)).trans (Nat.mod_eq_of_lt (bitsOf_lt v 7 0))
  · refine (fld_setFld_apart _ _ rfl hn hn).trans ((fld_setFld_apart _ _ rfl hn hn).trans ?_)
    refine (congrArg (bitsOf · 23 8) (csrGet_csrSet_same _ .RV_CMD _ _)).trans ?_
    exact (bitsOf_withBits_disj _ _ _ _ _ _ (by decide)).trans
      ((bitsOf_withBits_same _ _ _ _ (by decide)).trans (Nat.mod_eq_of_lt (bitsOf_lt v 23 8)))
  · exact (fld_setFld_apart _ _ rfl hn hn).trans (congrArg (bitsOf · _ _) (csrGet_csrSet_reg _ _ hn hn (by decide)))

theorem onlyRegs.rung {t : State} (h : s.onlyRegs t [(.RV_STAT, n), (.RV_CMD, n)]) (v : Word) (hn : n < 65536) :
    s.onlyRegs (t.rung n v) [(.RV_STAT, n), (.RV_CMD, n)] := by
  have h := h.csrSet (r := .RV_CMD) (i := n)
    (w := withBits (withBits (t.csrGet .RV_CMD n) 23 8 (bitsOf v 23 8)) 7 0 (bitsOf v 7 0)) (by simp) hn
  rw [← codeWrite_cmd] at h
  exact (h.csrSet (r := .RV_STAT) (by simp) hn).csrSet (r := .RV_STAT) (by simp) hn

/-- What waits for the Reeve after a doorbell; the registers and memory stay. -/
theorem belled_ckMsg_spec (s : State) (src : Src) (n code : Nat) (h sec : Bool) {t : State}
    (ht : t = (s.belled n src code h sec).ckMsg src) : t.csr = s.csr ∧ t.mem = s.mem ∧
    t.reeve.mbq = s.reeve.mbq ++ [(n, code, h, sec)] ∧
    t.reeve.x 5 = (if src = .cocoon then s.reeve.x 5 ||| 0x40 else s.reeve.x 5) := by
  rw [ht]
  unfold ckMsg
  split
  · exact ⟨rfl, rfl, rfl, FMap.get_set_same _ _ _ _⟩
  · exact ⟨rfl, rfl, rfl, rfl⟩

/-- A doorbell that rings: the slot's registers, the queue and the event (R124, R128). -/
theorem rung_spec (s : State) (src : Src) (v : Word) (code : Nat) (h sec : Bool) (hn : n < 65536) {t : State}
    (ht : t = ((s.rung n v).belled n src code h sec).ckMsg src := by rfl) :
    t.callState n = 1 ∧ t.fld Fld.RV_CMD_CODE n = Fld.RV_CMD_CODE.of v ∧ t.fld Fld.RV_CMD_TMO n = Fld.RV_CMD_TMO.of v ∧
    t.fld Fld.RV_STAT_SEQ n = (s.fld Fld.RV_STAT_SEQ n + 1) % 256 ∧
    t.reeve.mbq = s.reeve.mbq ++ [(n, code, h, sec)] ∧
    t.reeve.x 5 = (if src = .cocoon then s.reeve.x 5 ||| 0x40 else s.reeve.x 5) ∧
    s.regsKept t [(.RV_STAT, n), (.RV_CMD, n)] ∧ t.mem = s.mem := by
  obtain ⟨hstate, hcode, htmo, hseq⟩ := s.fields_rung v hn
  obtain ⟨hcsr, hmem, hmbq, hevent⟩ := (s.rung n v).belled_ckMsg_spec src n code h sec ht
  obtain ⟨hrest, hregs⟩ := (onlyRegs.refl s _).rung v hn
  have hreeve : (s.rung n v).reeve = s.reeve := (congrArg State.reeve hrest :)
  rw [hreeve] at hmbq hevent
  have hreg : ∀ r i, t.csrGet r i = (s.rung n v).csrGet r i := fun r i => by rw [csrGet, hcsr, csrGet]
  have hfld : ∀ f i, t.fld f i = (s.rung n v).fld f i := fun f i => congrArg (bitsOf · f.hi f.lo) (hreg f.reg i)
  exact ⟨(hfld _ n).trans hstate, (hfld _ n).trans hcode, (hfld _ n).trans htmo, (hfld _ n).trans hseq, hmbq, hevent,
    fun r i hi hm => (hreg r i).trans (hregs r i hi hm), hmem.trans (congrArg State.mem hrest :)⟩

theorem exec_serviceDoorbell (hl : s.srcLive src = true) (hu : s.unitUp .RV_OWN = true) :
    exec (.serviceDoorbell src m v) s = .next ((s.reply 0).doorbell m.val src v) := by
  have hu' : s.unitUp .RV_CMD = true := hu
  change execServiceDoorbell src m v s = _
  rw [execServiceDoorbell, csrPort_free rfl hl hu']

/-! ## Expiry -/

/-- A call expires with a status (R129, R130). -/
def expired (s : State) (n status : Nat) : State :=
  (s.setFld Fld.RV_STAT_STATE n 4).setFld Fld.RV_STAT_STATUS n status

theorem exec_serviceTimeout (hc : s.clockRuns = true) : exec (.serviceTimeout m) s = .next
    (if s.callState m.val = 1 then s.expired m.val stNoService
      else if s.callState m.val = 2 then s.expired m.val stTimeout else s) := by
  change execServiceTimeout m s = _
  rw [execServiceTimeout, if_pos hc]
  rfl

theorem expired_spec (s : State) {status : Nat} (hn : n < 65536) (hs : status < 256) :
    (s.expired n status).callState n = 4 ∧ (s.expired n status).fld Fld.RV_STAT_STATUS n = status ∧
    s.onlyRegs (s.expired n status) [(.RV_STAT, n)] :=
  ⟨(fld_setFld_apart _ _ rfl hn hn).trans (fld_setFld_lt _ _ _ (by decide)), fld_setFld_lt _ _ _ hs,
    ((onlyRegs.refl s _).csrSet (List.mem_singleton_self _) hn).csrSet (List.mem_singleton_self _) hn⟩

end State
end Sys2Proof.Machine

open Sys2Proof Sys2Proof.Machine

/-- Settles O16: the table of R107 for a slot (`State.fields_ownWrite`), the registers and the queue of a doorbell
(`State.doorbell_rings`), and an expiry. -/
theorem mailboxSlots : Obligations.MailboxSlots := by
  unfold Obligations.MailboxSlots
  intro m s src v
  have hm : m.val < 65536 := by omega
  refine ⟨fun hl hu => ⟨fun hforce => ?_, fun ho => ⟨fun h1 h2 => ?_, fun hb => ?_⟩, fun ho => ?_⟩,
    fun hc => ⟨fun h => ?_, fun h => ?_⟩⟩
  · rw [State.does_iff_of_next (State.exec_slotOwnWrite hl hu)]
    exact ⟨(State.onlyRegs.refl s _).reply.slotOwnWrite src v hm, State.lastSrc_slotOwnWrite _ src v hm,
      fun hfree hv => State.slot_claimed hforce hv hfree, fun hv hbusy => State.slot_busy (s := s.reply 0) hv hbusy hm,
      fun hheld hother hv => State.slot_owned hforce hv hheld hother⟩
  · rw [State.does_iff_of_next (State.exec_serviceDoorbell hl hu), State.doorbell_rings (s := s.reply 0) ho h1 h2 hm]
    exact (s.reply 0).rung_spec src v _ _ _ hm
  · rw [State.does_iff_of_next (State.exec_serviceDoorbell hl hu), State.doorbell_busy (s := s.reply 0) ho hb]
    exact ⟨State.flag_of_fld (b := true) (State.fld_setFld_lt _ _ _ (by decide)), State.fld_setFld_apart _ _ rfl hm hm,
      (State.onlyRegs.refl s _).reply.csrSet (List.mem_singleton_self _) hm⟩
  · rw [State.does_iff_of_next (State.exec_serviceDoorbell hl hu), State.doorbell_unowned (s := s.reply 0) ho]
    exact (State.onlyRegs.refl s []).reply
  · rw [State.does_iff_of_next (State.exec_serviceTimeout hc), if_pos h]
    exact s.expired_spec hm (by decide)
  · rw [State.does_iff_of_next (State.exec_serviceTimeout hc), if_neg (by simp [h]), if_pos h]
    exact s.expired_spec hm (by decide)
end
